-- ==== Sys2Proof/Word.lean ====
section
/-!
DEFINITION. The word types of the NF8: registers are 32 bits wide, memory is addressed by byte, command words have
256 bits (00 Notation and conventions; 03 R63).
-/
namespace Sys2Proof

/-- One byte of core store, HBM, host memory, a flit or a frame. -/
abbrev Byte := BitVec 8

/-- A register, a tally, an FP32 encoding. -/
abbrev Word := BitVec 32

/-- A stroke number, an accept number, an address field. -/
abbrev DWord := BitVec 64

/-- A schedule-table word (R63). -/
abbrev CmdWord := BitVec 256

/-- A run of bytes, the lowest address first. -/
abbrev Bytes := List Byte

end Sys2Proof
end

