-- ==== Sys2Proof/Syntax.lean ====
section
/-!
DEFINITION. The commands the block takes: one constructor of `Instr` per row of spec/opcode_table.json.

The table gives its rows no bits and no operands. A command's operands are what reaches the step from outside the
package (a written value, an arriving flit, a sensor reading, the instant of an event the clock causes, an error of
the silicon) or the name of the unit that acts (core, engine, DMA progress slot, stack, link, crew, queue).
Instants `t` are values of the raw counter, in ns (09 R217).
-/
namespace Sys2Proof

/-- Which register a WAKE_AT_WRITE writes (01 R33). -/
inductive WakeAtReg | easy | lo | hi
  deriving DecidableEq, Repr

/-- A part that can miss T_first (01 R34). -/
inductive Part | link (n : Nat) | stack (s : Nat)
  deriving DecidableEq, Repr

/-- A block with an idle state of its own (01 R26, table Block idle states). -/
inductive Block
  | engine (core e : Nat) | vector (core : Nat) | dma (core : Nat) | bank (core b : Nat)
  | sequencer (core : Nat) | router (n : Nat) | controller (stack : Nat)
  deriving DecidableEq, Repr

/-- A power-good input (17 R406). -/
inductive Rail | arr | cmp | iod | hbm
  deriving DecidableEq, Repr

/-- The computation whose drained value an error of the silicon touches: the worker engine, its umpire, or engines 0
and 1 of the row's spare site during a diagnostic replay (10 R241, R245). -/
inductive Who | worker | umpire | s0 | s1
  deriving DecidableEq, Repr

/-- One flipped bit of a drained value (s when `errTerm` is false, e otherwise) of cell (row, col); columns 32 and 33
are the check accumulators. The sum check and the umpire exist to find these (10 R235, R241). -/
structure Upset where
  who : Who
  row : Nat
  col : Nat
  errTerm : Bool
  bit : Nat
  deriving DecidableEq, Repr

/-- Virtual channels (08 R190). -/
inductive Vc | timed | bulk | control | management
  deriving DecidableEq, Repr

/-- Slots per channel, as LINK and CREDIT_SYNC flits report them (08 R194, R197). -/
structure Credits where
  timed : Nat
  bulk : Nat
  control : Nat
  mgmt : Nat
  deriving DecidableEq, Repr

/-- Why a lane becomes unusable (08 R208). -/
inductive LaneCause | fecLock | ucwLimit | eighthReplay
  deriving DecidableEq, Repr

/-- What a COLL flit that landed carries: partials (s, e, poison) from the rank before, or results from the rank
after, of consecutive elements (08 R216). -/
structure CollFlit where
  collId : BitVec 32
  isResult : Bool
  level : Nat
  first : Nat
  vals : List (Nat × Nat × Bool)
  deriving DecidableEq, Repr

/-- ABORT_NOTICE (12 R306, 14 R367); `authentic`: it came over an authenticated path. -/
structure AbortNotice where
  authentic : Bool
  jobTag : BitVec 16
  allOpen : Bool
  collId : BitVec 32
  x : Option Nat
  y : Option Nat
  deriving DecidableEq, Repr

/-- The body of a TIME flit (09 R222); times are in units of 2^-32 ns. -/
structure TimeBody where
  locked : Bool
  exchId : BitVec 16
  domain : BitVec 8
  hops : BitVec 8
  t1 : Nat
  t2 : Nat
  t3 : Nat
  x2 : Bool
  deriving DecidableEq, Repr

/-- A transmit descriptor (14 R368). -/
structure TxDesc where
  buffer : Nat
  length : Nat
  tsId : BitVec 16
  stamp : Bool
  hold : Bool
  port : Nat
  link : Nat
  launchTime : Nat
  deriving DecidableEq, Repr

/-- Who reads a register pair: each side keeps latches of its own (16 R382). -/
inductive Reader | host | mgmt
  deriving DecidableEq, Repr

/-- The irreversible actions and control words of 11 R266, R267, by event code. -/
inductive PoisonKind | emitCommit | hostWrite | collective | stateWrite | controlWord
  deriving DecidableEq, Repr

/-- A consumption of poison reported to the fault logic (11 R268, R269): the crew charged, the unit and address of the
action, the poisoned 8 B words in it, and whether a link or a collective brought the data. -/
structure PoisonUse where
  crew : Nat
  core : Option Nat
  unit : Nat
  kind : PoisonKind
  addr : Nat
  words : Nat
  delivered : Bool
  degrade : Bool
  deriving DecidableEq, Repr

/-- An error that the checks of the silicon find, beyond those of stored words and granules (11 R259, R261): parity of an
accumulator, drain latch or output buffer, or of an operand buffer, of an engine; residue of a vector lane or codec, of a DMA
address sum, of an adder of an atomic or reduction unit; sequencer state of a core, queue state, a tally, held data of an atomic unit,
always-on SRAM, each corrected or not; a line of a prefetch buffer; control of the network-on-chip. -/
inductive HwError
  | accumulator (core eng row col : Nat)
  | operand (core eng row col : Nat)
  | vectorLane (core lane : Nat)
  | dmaAddress (core adder : Nat)
  | adder (crew adder : Nat)
  | sequencer (core : Nat) (corrected : Bool)
  | queueState (q : Nat) (corrected : Bool)
  | tallyValue (t : Nat) (corrected : Bool)
  | heldGranule (addr : Nat) (corrected : Bool)
  | sram (corrected : Bool)
  | prefetchLine (core : Nat)
  | noc (die index : Nat)
  deriving DecidableEq, Repr

/-- What a unit reports to the fault logic: poison that it consumed (11 R268), or an error of the silicon that it found (R259,
R261), for which the table has no row: DEDUCED (assumption log 33). -/
inductive FaultReport
  | poison (p : PoisonUse)
  | error (e : HwError)
  deriving DecidableEq, Repr

/-- A SERVICE vendor message (14 R367). -/
structure ServiceMsg where
  counter : BitVec 64
  data : Bytes
  sig : Bytes
  deriving DecidableEq, Repr

/-- The commands of the NF8, in the order of spec/opcode_table.json. -/
inductive Instr
  /-- STROKE_BOUNDARY (R41). -/
  | strokeBoundary (t : Nat)
  /-- STROKE_MARK (R47). -/
  | strokeMark (rx : Nat) (t : Nat) (num : BitVec 16)
  /-- FLYWHEEL_BOUNDARY (R47). -/
  | flywheelBoundary (rx : Nat) (t : Nat)
  /-- MISSED_MARK (R47). -/
  | missedMark (rx : Nat) (t : Nat)
  /-- DRIVE_END (R53). -/
  | driveEnd (t : Nat)
  /-- WAIT_TIMEOUT (R67). -/
  | waitTimeout (core : Nat)
  /-- MODE_CHANGE_REQUEST (R22). -/
  | modeChangeRequest (v : BitVec 32)
  /-- MODE_SETTLE_END (R22). -/
  | modeSettleEnd (t : Nat)
  /-- EASY_ENTER (R30). -/
  | easyEnter (v : BitVec 32)
  /-- EASY_ENTRY_COMPLETE (R30). -/
  | easyEntryComplete (t : Nat)
  /-- EASY_WAKE (R31). -/
  | easyWake (v : BitVec 32)
  /-- WAKE_AT_REACHED (R32). -/
  | wakeAtReached (t : Nat)
  /-- WAKE_AT_WRITE (R33). -/
  | wakeAtWrite (which : WakeAtReg) (v : BitVec 32)
  /-- WAKE_SEQUENCE (R32). -/
  | wakeSequence (t : Nat)
  /-- WAKE_COMPLETE (R34). -/
  | wakeComplete (t : Nat) (notReady : List Part)
  /-- STRAY_ACCESS (R35). -/
  | strayAccess (write : Bool) (bar4 : Bool) (off : Nat)
  /-- CLOCK_MONITOR_TRIP (R20). -/
  | clockMonitorTrip (dom : Nat)
  /-- MONITOR_REARM (R20). -/
  | monitorRearm (dom : Nat) (t : Nat)
  /-- BLOCK_IDLE_ENTER (R26). -/
  | blockIdleEnter (b : Block)
  /-- BLOCK_IDLE_EXIT (R26). -/
  | blockIdleExit (b : Block)
  /-- OVER_CURRENT_TRIP (R28). -/
  | overCurrentTrip (watts : BitVec 32)
  /-- POWER_GOOD_FALL (R406). -/
  | powerGoodFall (rail : Rail) (watts : BitVec 32)
  /-- DOORBELL (R73). -/
  | doorbell (q : Nat) (tail : BitVec 32)
  /-- RING_ENTRY_FETCH (R75). -/
  | ringEntryFetch (q : Nat) (bad : Bool)
  /-- LAUNCH (R77). -/
  | hostLaunch (q : Nat)
  /-- TALLY_ADD (R78). -/
  | hostTallyAdd (q : Nat)
  /-- TALLY_SET (R78). -/
  | hostTallySet (q : Nat)
  /-- QUEUE_WAIT (R76). -/
  | queueWait (q : Nat)
  /-- HOST_NOP (R74). -/
  | hostNop (q : Nat)
  /-- DIRECTORY_CHECK (R74). -/
  | directoryCheck (accept : Nat)
  /-- ARGUMENT_BLOCK_LANDED (R77). -/
  | argumentBlockLanded (core : Nat)
  /-- LAUNCH_COMPLETE (R79). -/
  | launchComplete (crew : Nat)
  /-- ENTRY_ISSUE (R66). -/
  | entryIssue (core : Nat)
  /-- COMMAND_WORD_DISPATCH (R66). -/
  | commandWordDispatch (core : Nat)
  /-- RUN_AHEAD_FETCH (R81). -/
  | runAheadFetch (core : Nat)
  /-- ADD (R85). -/
  | tallyAddCmd (core : Nat)
  /-- WAIT_GE (R85). -/
  | waitGe (core : Nat)
  /-- SET (R85). -/
  | tallySetCmd (core : Nat)
  /-- READ (R85). -/
  | tallyReadCmd (core : Nat)
  /-- NOP (R70). -/
  | ctlNop (core : Nat)
  /-- FENCE (R90). -/
  | fenceCmd (core : Nat)
  /-- LOOP (R70). -/
  | loopCmd (core : Nat)
  /-- END (R70). -/
  | endTable (core : Nat)
  /-- STEP (R70). -/
  | stepCmd (core : Nat)
  /-- POOL_TAKE (R92). -/
  | poolTake (core : Nat)
  /-- POOL_PUT (R92). -/
  | poolPut (core : Nat)
  /-- MARK (R70). -/
  | markCmd (core : Nat)
  /-- TAL_ADD_WRITE (R88). -/
  | talAddWrite (n : Nat) (v : BitVec 32)
  /-- TAL_SET_WRITE (R88). -/
  | talSetWrite (n : Nat) (v : BitVec 32)
  /-- SEQ_QCFG_WRITE (R73). -/
  | seqQcfgWrite (v : BitVec 32)
  /-- MATRIX_FULL (R98). -/
  | matrixFull (core : Nat) (eng : Nat)
  /-- MATRIX_QUAD (R99). -/
  | matrixQuad (core : Nat) (eng : Nat)
  /-- MATRIX_WIDE (R100). -/
  | matrixWide (core : Nat) (eng : Nat)
  /-- EMIT_COMMIT (R109). -/
  | emitCommit (core : Nat) (eng : Nat) (upsets : List Upset)
  /-- ENG_ACC_DATA_WRITE (R117). -/
  | engAccDataWrite (core : Nat) (eng : Nat) (v : BitVec 32)
  /-- CE_WRITEBACK (R140). -/
  | ceWriteback (core : Nat) (addr : Nat)
  /-- PATROL_READ (R142). -/
  | patrolRead (core : Nat) (bank : Nat) (flips : List (Nat × Nat))
  /-- VEC_ADD (R145). -/
  | vecAdd (core : Nat)
  /-- VEC_SUB (R145). -/
  | vecSub (core : Nat)
  /-- VEC_MUL (R145). -/
  | vecMul (core : Nat)
  /-- VEC_FMA (R145). -/
  | vecFma (core : Nat)
  /-- VEC_DIV (R145). -/
  | vecDiv (core : Nat)
  /-- VEC_MIN (R132). -/
  | vecMin (core : Nat)
  /-- VEC_MAX (R132). -/
  | vecMax (core : Nat)
  /-- VEC_SQRT (R131). -/
  | vecSqrt (core : Nat)
  /-- VEC_RECIP (R135). -/
  | vecRecip (core : Nat)
  /-- VEC_RSQRT (R135). -/
  | vecRsqrt (core : Nat)
  /-- VEC_EXP2 (R135). -/
  | vecExp2 (core : Nat)
  /-- VEC_EXP (R135). -/
  | vecExp (core : Nat)
  /-- VEC_LOG2 (R135). -/
  | vecLog2 (core : Nat)
  /-- VEC_LN (R135). -/
  | vecLn (core : Nat)
  /-- VEC_SIN (R135). -/
  | vecSin (core : Nat)
  /-- VEC_COS (R135). -/
  | vecCos (core : Nat)
  /-- VEC_TANH (R135). -/
  | vecTanh (core : Nat)
  /-- VEC_SIGMOID (R135). -/
  | vecSigmoid (core : Nat)
  /-- VEC_ERF (R135). -/
  | vecErf (core : Nat)
  /-- VEC_CVT (R145). -/
  | vecCvt (core : Nat)
  /-- VEC_CMPLT (R132). -/
  | vecCmplt (core : Nat)
  /-- VEC_CMPLE (R132). -/
  | vecCmple (core : Nat)
  /-- VEC_CMPEQ (R132). -/
  | vecCmpeq (core : Nat)
  /-- VEC_SELECT (R145). -/
  | vecSelect (core : Nat)
  /-- VEC_RSUM (R146). -/
  | vecRsum (core : Nat)
  /-- VEC_RMAX (R146). -/
  | vecRmax (core : Nat)
  /-- VEC_RMIN (R146). -/
  | vecRmin (core : Nat)
  /-- VEC_RSUMSQ (R146). -/
  | vecRsumsq (core : Nat)
  /-- VEC_RSUMC (R146). -/
  | vecRsumc (core : Nat)
  /-- VEC_ROPE (R147). -/
  | vecRope (core : Nat)
  /-- VEC_MASK (R147). -/
  | vecMask (core : Nat)
  /-- COPY (R151). -/
  | dmaCopy (core : Nat) (slot : Nat)
  /-- GATHER (R151). -/
  | dmaGather (core : Nat) (slot : Nat)
  /-- SCATTER (R151). -/
  | dmaScatter (core : Nat) (slot : Nat)
  /-- RING_APPEND (R152). -/
  | dmaRingAppend (core : Nat) (slot : Nat)
  /-- RING_APPEND_LINE (R152). -/
  | ringAppendLine (core : Nat) (slot : Nat)
  /-- FILL (R151). -/
  | dmaFill (core : Nat) (slot : Nat)
  /-- SEND (R151). -/
  | dmaSend (core : Nat) (slot : Nat)
  /-- HBM_READ (R165). -/
  | hbmRead (addr : Nat) (retries : Nat) (onDie : Nat) (errs : List (Nat × Nat))
  /-- HBM_WRITE (R168). -/
  | hbmWrite (addr : Nat) (retries : Nat) (poisoned : Bool) (data : List (BitVec 8))
  /-- HBM_WRITEBACK (R173). -/
  | hbmWriteback (stack : Nat)
  /-- SCRUB_LINE (R173). -/
  | scrubLine (stack : Nat) (errs : List (Nat × Nat × Nat))
  /-- REFRESH (R175). -/
  | hbmRefresh (pc : Nat)
  /-- HBM_TEMP_CHANGE (R175). -/
  | hbmTempChange (stack : Nat) (temp : Nat)
  /-- GRAIN_READ (R176). -/
  | grainRead (core : Nat) (addr : Nat)
  /-- GRAIN_WRITE (R176). -/
  | grainWrite (core : Nat) (addr : Nat) (poisoned : Bool) (data : List (BitVec 8))
  /-- ATOMIC_REQUEST (R180). -/
  | atomicRequest (core : Nat) (addr : Nat) (poisoned : Bool) (data : List (BitVec 8))
  /-- ORDERED_ATOMIC_APPLY (R183). -/
  | orderedAtomicApply (win : Nat)
  /-- BAR4_READ (R384). -/
  | bar4Read (off : Nat) (len : Nat)
  /-- BAR4_WRITE (R384). -/
  | bar4Write (off : Nat) (data : List (BitVec 8))
  /-- HBM_LOOP_NEAR_DIGITAL (R185). -/
  | hbmLoopNearDigital (stack : Nat) (v : BitVec 32)
  /-- HBM_LOOP_PHY_ANALOGUE (R185). -/
  | hbmLoopPhyAnalogue (stack : Nat) (v : BitVec 32)
  /-- HBM_LOOP_BASE_DIE (R185). -/
  | hbmLoopBaseDie (stack : Nat) (v : BitVec 32)
  /-- HBM_LOOP_DONE (R185). -/
  | hbmLoopDone (stack : Nat) (errors : Nat)
  /-- HBM_LOOP_OFF (R185). -/
  | hbmLoopOff (stack : Nat) (v : BitVec 32)
  /-- GATE_SLOT (R200). -/
  | gateSlot (link : Nat) (slot : Nat)
  /-- FLIT_LAUNCH (R194). -/
  | flitLaunch (link : Nat) (vc : Vc)
  /-- FLIT_RECEIVE (R205). -/
  | flitReceive (link : Nat) (badLane : Option Nat) (flit : List (BitVec 8))
  /-- FLIT_DELIVER (R207). -/
  | flitDeliver (link : Nat)
  /-- LINK_FLIT (R194). -/
  | linkFlit (link : Nat) (lastSeq : BitVec 12) (freed : Credits)
  /-- LINK_FLIT_SEND (R194). -/
  | linkFlitSend (link : Nat) (t : Nat)
  /-- RETRY (R195). -/
  | linkRetry (link : Nat) (seq : BitVec 12)
  /-- CREDIT_SYNC (R197). -/
  | creditSync (link : Nat) (lastSeq : BitVec 12) (free : Credits)
  /-- LAND_ACK (R202). -/
  | landAck (link : Nat) (pairs : List (Nat × Nat))
  /-- ACK_TIMEOUT (R204). -/
  | ackTimeout (link : Nat) (t : Nat)
  /-- LANE_UNUSABLE (R208). -/
  | laneUnusable (link : Nat) (lane : Nat) (cause : LaneCause)
  /-- LANE_DEGRADE (R209). -/
  | laneDegrade (link : Nat) (lane : Nat)
  /-- LANE_ACK (R209). -/
  | laneAck (link : Nat)
  /-- RESTRIPE (R209). -/
  | restripe (link : Nat)
  /-- LINK_DOWN (R210). -/
  | linkDown (link : Nat)
  /-- LINK_SILENCE_TIMEOUT (R210). -/
  | linkSilenceTimeout (link : Nat) (t : Nat)
  /-- LINK_RETRAIN (R211). -/
  | linkRetrain (link : Nat) (ok : Bool)
  /-- ALL_REDUCE (R215). -/
  | allReduce (core : Nat) (slot : Nat)
  /-- REDUCE_SCATTER (R215). -/
  | reduceScatter (core : Nat) (slot : Nat)
  /-- ALL_GATHER (R215). -/
  | allGather (core : Nat) (slot : Nat)
  /-- COLL_PARTIAL (R216). -/
  | collPartial (link : Nat) (crew : Nat) (flit : CollFlit)
  /-- COLLECTIVE_COMPLETE (R216). -/
  | collectiveComplete (crew : Nat) (collId : BitVec 32)
  /-- ABORT_NOTICE (R306). -/
  | abortNotice (n : AbortNotice)
  /-- TIME_REQ_SEND (R222). -/
  | timeReqSend (secondary : Bool) (t : Nat)
  /-- TIME_REQ (R222). -/
  | timeReq (link : Nat) (t : Nat) (body : TimeBody)
  /-- TIME_RESP (R223). -/
  | timeResp (link : Nat) (t : Nat) (body : TimeBody)
  /-- EXCHANGE_ABANDON (R222). -/
  | exchangeAbandon (link : Nat) (t : Nat)
  /-- TIM_PTPM_WRITE (R225). -/
  | timPtpmWrite (secondary : Bool) (interval : Nat) (v : BitVec 64)
  /-- SOURCE_SILENCE (R227). -/
  | sourceSilence (t : Nat)
  /-- HOLDOVER_EXPIRY (R227). -/
  | holdoverExpiry (t : Nat)
  /-- RE_ANCHOR (R218). -/
  | reAnchor (t : Nat)
  /-- TIM_SET (R228). -/
  | timSet (v : BitVec 32)
  /-- TIM_TS_STAT_READ (R230). -/
  | timTsStatRead (x : Nat)
  /-- TIMED_LAUNCH (R231). -/
  | timedLaunch (port : Nat) (t : Nat)
  /-- TRANSMIT_DESCRIPTOR (R368). -/
  | transmitDescriptor (d : TxDesc)
  /-- FRAME_RECEIVE (R368). -/
  | frameReceive (port : Nat) (t : Nat) (frame : List (BitVec 8))
  /-- CAPTURE_EDGE (R232). -/
  | captureEdge (ch : Nat) (src : Nat) (link : Nat) (cls : Nat) (t : Nat)
  /-- TIM_CAP_WRITE (R232). -/
  | timCapWrite (ch : Nat) (v : BitVec 32)
  /-- PAIR_LO_READ (R371). -/
  | pairLoRead (who : Reader) (off : Nat)
  /-- UMPIRE_COMPARE (R241). -/
  | umpireCompare (core : Nat)
  /-- MISMATCH (R244). -/
  | mismatchFault (core : Nat)
  /-- MISMATCH_VERDICT (R246). -/
  | mismatchVerdict (crew : Nat)
  /-- TRANSIENT_WINDOW_CLOSE (R248). -/
  | transientWindowClose (core : Nat)
  /-- WATCH_CLOSE_REQUEST (R253). -/
  | watchCloseRequest (v : BitVec 32)
  /-- WATCH_CLOSE (R253). -/
  | watchClose (crew : Nat) (slot : Nat)
  /-- WATCH_MERGE_COMPLETE (R253). -/
  | watchMergeComplete (crew : Nat) (slot : Nat)
  /-- FAULT_RECORD (R275). -/
  | faultRecord
  /-- GLB_FLT_CTL_WRITE (R275). -/
  | glbFltCtlWrite (v : BitVec 32)
  /-- POISON_CONSUMED (R268). -/
  | poisonConsumed (r : FaultReport)
  /-- SPARE_SWITCH_IN (R279). -/
  | spareSwitchIn (core : Nat)
  /-- SUSPECT_DRAIN (R281). -/
  | suspectDrain
  /-- ORDERLY_DRAIN (R282). -/
  | orderlyDrain (cause : BitVec 8)
  /-- DRAIN_STEP_LIMIT (R282). -/
  | drainStepLimit (crew : Nat)
  /-- DRAIN_COMPLETE (R283). -/
  | drainComplete
  /-- HARD_FAULT_WINDOW_CLOSE (R278). -/
  | hardFaultWindowClose (core : Nat)
  /-- CREW_STOP (R287). -/
  | crewStop (crew : Nat)
  /-- ROLLBACK (R288). -/
  | rollbackRun (crew : Nat)
  /-- RESTORATION_COMPLETE (R288). -/
  | restorationComplete (crew : Nat)
  /-- QUEUE_WATCHDOG (R294). -/
  | queueWatchdog (q : Nat) (t : Nat)
  /-- TALLY_WAIT_WATCHDOG (R294). -/
  | tallyWaitWatchdog (core : Nat) (t : Nat)
  /-- ENGINE_PROGRESS_WATCHDOG (R294). -/
  | engineProgressWatchdog (core : Nat) (unit : Nat)
  /-- COLLECTIVE_WATCHDOG (R307). -/
  | collectiveWatchdog (crew : Nat) (collId : BitVec 32) (t : Nat)
  /-- SLIP_WATCHDOG (R294). -/
  | slipWatchdog (crew : Nat)
  /-- DUMP (R299). -/
  | dumpStart
  /-- DUMP_COMPLETE (R299). -/
  | dumpComplete
  /-- HALT (R302). -/
  | haltCmd (v : BitVec 32)
  /-- RELEASE (R302). -/
  | releaseCmd (v : BitVec 32)
  /-- ROLLBACK_REQUEST (R302). -/
  | rollbackRequest (v : BitVec 32)
  /-- RESET_ENGINE (R301). -/
  | resetEngine (v : BitVec 32)
  /-- RESET_CORE (R301). -/
  | resetCore (v : BitVec 32)
  /-- RESET_CREW (R301). -/
  | resetCrew (v : BitVec 32)
  /-- RESET_CHIP (R301). -/
  | resetChip (v : BitVec 32)
  /-- RESET_PACKAGE (R301). -/
  | resetPackage (v : BitVec 32)
  /-- RESET_COMPLETE (R301). -/
  | resetComplete
  /-- PKG_RST_N (R301). -/
  | pkgRstN (ns : Nat)
  /-- FREEZE_END (R318). -/
  | freezeEnd (crew : Nat) (left : Nat)
  /-- COW_LINE_COPY (R314). -/
  | cowLineCopy (crew : Nat) (page : Nat)
  /-- CHECKPOINT_TIMER (R324). -/
  | checkpointTimer (crew : Nat)
  /-- TAKE_FULL (R325). -/
  | takeFull (v : BitVec 32)
  /-- TAKE_TENSOR (R330). -/
  | takeTensor (v : BitVec 32)
  /-- RESTORE_FULL (R328). -/
  | restoreFull (v : BitVec 32)
  /-- RESTORE_TENSOR (R332). -/
  | restoreTensor (v : BitVec 32)
  /-- ABANDON (R326). -/
  | chkAbandon (v : BitVec 32)
  /-- CHECKPOINT_PAGE_COPY (R325). -/
  | checkpointPageCopy (crew : Nat)
  /-- CHECKPOINT_COMPLETE (R325). -/
  | checkpointComplete (crew : Nat)
  /-- COX_BEAT_WRITE (R338). -/
  | coxBeatWrite (v : BitVec 32) (t : Nat)
  /-- HEARTBEAT_EXPIRY (R339). -/
  | heartbeatExpiry (t : Nat)
  /-- CORE_MEMORY_UE (R339). -/
  | coreMemoryUe
  /-- FIRMWARE_HANDOVER (R339). -/
  | firmwareHandover
  /-- TAKEOVER (R340). -/
  | takeover (t : Nat) (imageOk : Bool) (epochOk : Bool)
  /-- TAKEOVER_FAILURE (R341). -/
  | takeoverFailure (t : Nat)
  /-- GATE_COMMAND (R344). -/
  | gateCommand (g : Nat) (claim : BitVec 32) (value : BitVec 96)
  /-- GAP_BOUND_EXPIRY (R346). -/
  | gapBoundExpiry (g : Nat) (t : Nat)
  /-- CLAIM_BROADCAST (R349). -/
  | claimBroadcast
  /-- ROLE_REQUEST (R349). -/
  | roleRequest (claim : BitVec 32)
  /-- TRAY_SILENCE (R349). -/
  | traySilence (t : Nat)
  /-- LOGBOOK_RECORD (R350). -/
  | logbookRecord
  /-- LOGBOOK_FLUSH (R353). -/
  | logbookFlush
  /-- SECTOR_PROGRAM (R361). -/
  | sectorProgram (verifies : Bool)
  /-- LOG_WIN_READ (R354). -/
  | logWinRead (word : Nat)
  /-- JNL_WIN_READ (R357). -/
  | jnlWinRead (word : Nat)
  /-- JOURNAL_MIRROR (R356). -/
  | journalMirror
  /-- PWR_WARN_ASSERT (R362). -/
  | pwrWarnAssert (ns : Nat)
  /-- POWER_FAIL_FLUSH_DONE (R362). -/
  | powerFailFlushDone
  /-- PWR_WARN_RELEASE (R362). -/
  | pwrWarnRelease (ns : Nat)
  /-- WAKE (R31). -/
  | mgmtWake (authentic : Bool)
  /-- LOG_READ (R367). -/
  | logRead (seq : BitVec 32)
  /-- JNL_READ (R367). -/
  | jnlRead (num : BitVec 64)
  /-- CLEAR_REPLACE (R367). -/
  | clearReplace (m : ServiceMsg)
  /-- HANDOVER (R367). -/
  | handover (m : ServiceMsg)
  /-- SET_CONFIG (R367). -/
  | setConfig (m : ServiceMsg)
  /-- SET_MGMT_KEY (R367). -/
  | setMgmtKey (m : ServiceMsg)
  /-- SET_PREFERRED (R367). -/
  | setPreferred (m : ServiceMsg)
  /-- PMC_DUMP_WRITE (R374). -/
  | pmcDumpWrite
  /-- PMC_CLEAR (R375). -/
  | pmcClear (v : BitVec 32)
  /-- PMC_SEL_WRITE (R373). -/
  | pmcSelWrite (off : Nat) (v : BitVec 32)
  /-- COUNTER_WINDOW_READ (R376). -/
  | counterWindowRead (crew : Nat) (off : Nat) (len : Nat)
  /-- TRACE_DRAIN (R378). -/
  | traceDrain (crew : Nat)
  /-- REGISTER_WRITE (R386). -/
  | registerWrite (off : Nat) (v : BitVec 32)
  /-- BAR0_BAD_ACCESS (R382). -/
  | bar0BadAccess (write : Bool) (off : Nat) (bytes : Nat)
  /-- GLB_NF6_SEQ_READ (R387). -/
  | glbNf6SeqRead
  /-- GLB_NF6_CLR (R387). -/
  | glbNf6Clr (v : BitVec 32)
  /-- PARITY_SCAN (R389). -/
  | parityScan (off : Nat) (bad : Bool)
  /-- PARITY_FAILURE (R390). -/
  | parityFailure (off : Nat) (byRead : Bool)
  /-- PARITY_RELOAD_DONE (R390). -/
  | parityReloadDone (off : Nat)
  /-- PCI_BAR4_WRITE (R384). -/
  | pciBar4Write (v : BitVec 32)
  /-- RIG_LOAD (R397). -/
  | rigLoad (v : BitVec 32)
  /-- RIG_STAGED (R397). -/
  | rigStaged (t : Nat)
  /-- RIG_TAKE_EFFECT (R399). -/
  | rigTakeEffect
  /-- RIG_SHADOWED (R397). -/
  | rigShadowed
  /-- RIG_ABORT (R397). -/
  | rigAbort (v : BitVec 32)
  /-- PWROK_AON_RISE (R401). -/
  | pwrokAonRise (traySlot : BitVec 2) (testEn : Bool)
  /-- POWER_UP_STEP (R401). -/
  | powerUpStep (t : Nat) (ok : Bool) (bad : List (Nat × Nat))
  /-- PCI_PERST_N (R409). -/
  | pciPerstN
  /-- THERMAL_WARN (R410). -/
  | thermalWarn (sensor : Nat) (temp : Nat)
  /-- THROTTLE_ENTER (R410). -/
  | throttleEnter (sensor : Nat) (temp : Nat)
  /-- THROTTLE_EXIT (R410). -/
  | throttleExit (sensor : Nat) (temp : Nat)
  /-- CRITICAL_TRIP (R410). -/
  | criticalTrip (sensor : Nat) (temp : Nat)
  /-- LOOP_NEAR_DIGITAL (R412). -/
  | loopNearDigital (link : Nat) (v : BitVec 32)
  /-- LOOP_NEAR_ANALOGUE (R412). -/
  | loopNearAnalogue (link : Nat) (v : BitVec 32)
  /-- LOOP_ECHO (R412). -/
  | loopEcho (link : Nat) (v : BitVec 32)
  /-- LOOP_LINE_CHECK (R412). -/
  | loopLineCheck (link : Nat) (v : BitVec 32)
  /-- LINK_LOOP_DONE (R412). -/
  | linkLoopDone (link : Nat) (errs0 : Nat) (errs1 : Nat)
  /-- LINK_LOOP_OFF (R412). -/
  | linkLoopOff (link : Nat) (v : BitVec 32)
  /-- TIMED_ACKNOWLEDGEMENT (R202). -/
  | timedAcknowledgement (link : Nat) (t : Nat)
  /-- PWROK_AON_FALL (R301). -/
  | pwrokAonFall
  /-- PCI_PERST_N_RELEASE (R409). -/
  | pciPerstNRelease
  /-- UCIE_MODULE_FAILURE (R10). -/
  | ucieModuleFailure (m : Nat)
  /-- RESTORE_COMPLETE (R328). -/
  | restoreComplete (crew : Nat)
  /-- PLDM_FIRMWARE_UPDATE (R337). -/
  | pldmFirmwareUpdate (image : List (BitVec 8)) (sig : List (BitVec 8))
  /-- THERMAL_WARN_CLEAR (R410). -/
  | thermalWarnClear (sensor : Nat) (temp : Nat)
  deriving DecidableEq, Repr

end Sys2Proof
end

