-- ==== Sys2Proof/Machine/Bits.lean ====
section
/-!
DEFINITION. Bit fields, byte order and the sorted association lists in which State keeps sparse data.

An association list has strictly rising keys; where a default is given, an entry equal to the default is left out, so
that equal contents are equal lists.
-/
namespace Sys2Proof.Machine

/-- Bits [hi:lo] of a number. -/
def bits (x hi lo : Nat) : Nat := x / 2 ^ lo % 2 ^ (hi + 1 - lo)

/-- Bits [hi:lo] of a command word. -/
def wbits (w : CmdWord) (hi lo : Nat) : Nat := bits w.toNat hi lo

/-- The two's-complement value of an n-bit number. -/
def toSigned (n x : Nat) : Int :=
  if 2 * (x % 2 ^ n) < 2 ^ n then Int.ofNat (x % 2 ^ n) else Int.ofNat (x % 2 ^ n) - Int.ofNat (2 ^ n)

/-- The n-bit encoding of an integer, modulo 2^n. -/
def fromSigned (n : Nat) (i : Int) : Nat := (i % Int.ofNat (2 ^ n)).toNat

/-- i32(v - t): the serial comparison of 03 R86 holds when this is not negative. -/
def serial32 (v t : BitVec 32) : Int := toSigned 32 (v - t).toNat

/-- The number whose little-endian bytes are given. -/
def leNat : Bytes → Nat
  | [] => 0
  | b :: r => b.toNat + 256 * leNat r

/-- The n little-endian bytes of a number. -/
def natLe : Nat → Nat → Bytes
  | 0, _ => []
  | n + 1, x => BitVec.ofNat 8 x :: natLe n (x / 256)

/-- The number in bytes [at, at+n) of a record. -/
def field (b : Bytes) (pos n : Nat) : Nat := leNat ((b.drop pos).take n)

/-- Round up. -/
def ceilDiv (a b : Nat) : Nat := (a + b - 1) / b

/-- n, n+1, …, n+k-1. -/
def iota (n : Nat) : Nat → List Nat
  | 0 => []
  | k + 1 => n :: iota (n + 1) k

/-- Saturating addition of a counter field. -/
def satAdd (x d top : Nat) : Nat := if x + d ≤ top then x + d else top

/-! Association lists. -/

/-- The entry of a key. -/
def Map.find {α : Type} (k : Nat) : List (Nat × α) → Option α
  | [] => none
  | (j, x) :: r => if j = k then some x else Map.find k r

/-- Every entry but those of a key. -/
def Map.erase {α : Type} (k : Nat) : List (Nat × α) → List (Nat × α)
  | [] => []
  | (j, x) :: r => if j = k then Map.erase k r else (j, x) :: Map.erase k r

/-- Put an entry in its place by key. -/
def Map.insert {α : Type} (k : Nat) (v : α) : List (Nat × α) → List (Nat × α)
  | [] => [(k, v)]
  | (j, x) :: r =>
    if k < j then (k, v) :: (j, x) :: r else if j = k then (k, v) :: r else (j, x) :: Map.insert k v r

/-- The value of a key; the default where it is not listed. -/
def Map.getD {α : Type} (d : α) (m : List (Nat × α)) (k : Nat) : α := (Map.find k m).getD d

/-- Give a key a value; the default is not listed. -/
def Map.setD {α : Type} [DecidableEq α] (d : α) (m : List (Nat × α)) (k : Nat) (v : α) : List (Nat × α) :=
  if v = d then Map.erase k m else Map.insert k v m

/-- Keys rise strictly from a lower bound on, and no entry is the default. -/
def Map.wfFrom {α : Type} [DecidableEq α] (d : α) : Option Nat → List (Nat × α) → Bool
  | _, [] => true
  | lo, (k, v) :: r =>
    (match lo with | none => true | some l => decide (l < k)) && !decide (v = d) && Map.wfFrom d (some k) r

/-- The canonical form. -/
def Map.wf {α : Type} [DecidableEq α] (d : α) (m : List (Nat × α)) : Bool := Map.wfFrom d none m

/-- The entries with keys in [a, a+n). -/
def Map.range {α : Type} (m : List (Nat × α)) (a n : Nat) : List (Nat × α) :=
  m.filter fun p => decide (a ≤ p.1) && decide (p.1 < a + n)

/-- Put a list of entries in, each over what stood there. -/
def Map.setAll {α : Type} [DecidableEq α] (d : α) : List (Nat × α) → List (Nat × α) → List (Nat × α)
  | m, [] => m
  | m, (k, v) :: r => Map.setAll d (Map.setD d m k v) r

/-- Consecutive bytes from an address on. -/
def Map.bytes (d : Byte) (m : List (Nat × Byte)) (a : Nat) : Nat → Bytes
  | 0 => []
  | n + 1 => Map.getD d m a :: Map.bytes d m (a + 1) n

/-- Store consecutive bytes. -/
def Map.store (d : Byte) (m : List (Nat × Byte)) (a : Nat) : Bytes → List (Nat × Byte)
  | [] => m
  | b :: r => Map.store d (Map.setD d m a b) (a + 1) r

/-- What an address that a memory does not list reads as (assumption log 4). -/
def unlisted : Byte := 0

/-- The canonical form of a memory: addresses rise strictly, and no entry equals what an unlisted address reads as. -/
def Memory.wf (m : List (Nat × Byte)) : Bool := Map.wf unlisted m

/-- The values of keys i, i+1, … , the default where none is listed. -/
def Map.dense {α : Type} (d : α) : List (Nat × α) → Nat → Nat → List α
  | _, _, 0 => []
  | [], i, n + 1 => d :: Map.dense d [] (i + 1) n
  | (k, v) :: r, i, n + 1 => if k = i then v :: Map.dense d r (i + 1) n else d :: Map.dense d ((k, v) :: r) (i + 1) n

/-- The entries of consecutive values from a key on, defaults left out. -/
def Map.sparse {α : Type} [DecidableEq α] (d : α) : Nat → List α → List (Nat × α)
  | _, [] => []
  | i, v :: r => if v = d then Map.sparse d (i + 1) r else (i, v) :: Map.sparse d (i + 1) r

/-- Apply a function to the n-th member, if there is one. -/
def modifyAt {α : Type} (f : α → α) : Nat → List α → List α
  | _, [] => []
  | 0, x :: r => f x :: r
  | n + 1, x :: r => x :: modifyAt f n r

/-- Leave the n-th member out. -/
def dropAt {α : Type} : Nat → List α → List α
  | _, [] => []
  | 0, _ :: r => r
  | n + 1, x :: r => x :: dropAt n r

end Sys2Proof.Machine
end

