-- ==== Sys2Proof/Machine/Regs.lean ====
section
/-!
DEFINITION. The register map: every register of the spec's field maps (and of its prose lists) with its BAR0 offset,
its instances, its reset value and its fields with their access codes (00 R6; 16 R381, R382).

Values the spec gives as "fused", "NV" or "pins" stand at the values of assumption log 5: mem_code 0x1 (NF8-512-F),
NV items as never provisioned.
-/
namespace Sys2Proof.Machine

/-- Access codes (00, table Access codes). -/
inductive Acc | rw | ro | wo | rl | rs | w1c | wseq | rwb
  deriving DecidableEq, Repr

/-- One field of a field map: bits [hi:lo]. -/
structure FieldDef where
  name : String
  hi : Nat
  lo : Nat
  acc : Acc
  deriving DecidableEq, Repr

/-- A register: its instances lie at base + Σ stride × index, one (count, stride) per index. -/
structure RegDef where
  name : String
  base : Nat
  dims : List (Nat × Nat)
  reset : BitVec 32
  fields : List FieldDef
  deriving DecidableEq, Repr

/-- A named field of a register. -/
structure Fld where
  reg : RegDef
  hi : Nat
  lo : Nat
  acc : Acc
  deriving DecidableEq, Repr

/-- GLB_ID: 00, field map GLB_ID. -/
def R.GLB_ID : RegDef := ⟨"GLB_ID", 0x00000000, [], 0x4E08B110#32,
  [⟨"part", 31, 16, .ro⟩, ⟨"step", 15, 8, .ro⟩, ⟨"mem_code", 7, 4, .ro⟩, ⟨"reserved", 3, 0, .ro⟩]⟩
def F.GLB_ID_part : Fld := ⟨R.GLB_ID, 31, 16, .ro⟩
def F.GLB_ID_step : Fld := ⟨R.GLB_ID, 15, 8, .ro⟩
def F.GLB_ID_mem_code : Fld := ⟨R.GLB_ID, 7, 4, .ro⟩
/-- GLB_REMAP_LO: 01, field map GLB_REMAP_LO_n. -/
def R.GLB_REMAP_LO : RegDef := ⟨"GLB_REMAP_LO", 0x00000100, [(16, 0x8)], 0x76543210#32,
  [⟨"col7", 31, 28, .ro⟩, ⟨"col6", 27, 24, .ro⟩, ⟨"col5", 23, 20, .ro⟩, ⟨"col4", 19, 16, .ro⟩, ⟨"col3", 15, 12, .ro⟩, ⟨"col2", 11, 8, .ro⟩, ⟨"col1", 7, 4, .ro⟩, ⟨"col0", 3, 0, .ro⟩]⟩
def F.GLB_REMAP_LO_col7 : Fld := ⟨R.GLB_REMAP_LO, 31, 28, .ro⟩
def F.GLB_REMAP_LO_col6 : Fld := ⟨R.GLB_REMAP_LO, 27, 24, .ro⟩
def F.GLB_REMAP_LO_col5 : Fld := ⟨R.GLB_REMAP_LO, 23, 20, .ro⟩
def F.GLB_REMAP_LO_col4 : Fld := ⟨R.GLB_REMAP_LO, 19, 16, .ro⟩
def F.GLB_REMAP_LO_col3 : Fld := ⟨R.GLB_REMAP_LO, 15, 12, .ro⟩
def F.GLB_REMAP_LO_col2 : Fld := ⟨R.GLB_REMAP_LO, 11, 8, .ro⟩
def F.GLB_REMAP_LO_col1 : Fld := ⟨R.GLB_REMAP_LO, 7, 4, .ro⟩
def F.GLB_REMAP_LO_col0 : Fld := ⟨R.GLB_REMAP_LO, 3, 0, .ro⟩
/-- GLB_REMAP_HI: 01, field map GLB_REMAP_HI_n. -/
def R.GLB_REMAP_HI : RegDef := ⟨"GLB_REMAP_HI", 0x00000104, [(16, 0x8)], 0x0000F908#32,
  [⟨"reserved", 31, 24, .ro⟩, ⟨"switch_count", 23, 16, .ro⟩, ⟨"retired_col", 15, 12, .ro⟩, ⟨"spare_col", 11, 8, .ro⟩, ⟨"reserved", 7, 5, .ro⟩, ⟨"spare_avail", 4, 4, .rl⟩, ⟨"col8", 3, 0, .ro⟩]⟩
def F.GLB_REMAP_HI_switch_count : Fld := ⟨R.GLB_REMAP_HI, 23, 16, .ro⟩
def F.GLB_REMAP_HI_retired_col : Fld := ⟨R.GLB_REMAP_HI, 15, 12, .ro⟩
def F.GLB_REMAP_HI_spare_col : Fld := ⟨R.GLB_REMAP_HI, 11, 8, .ro⟩
def F.GLB_REMAP_HI_spare_avail : Fld := ⟨R.GLB_REMAP_HI, 4, 4, .rl⟩
def F.GLB_REMAP_HI_col8 : Fld := ⟨R.GLB_REMAP_HI, 3, 0, .ro⟩
/-- GLB_MODE: 01, field map GLB_MODE. -/
def R.GLB_MODE : RegDef := ⟨"GLB_MODE", 0x00000040, [], 0x00000000#32,
  [⟨"busy", 31, 31, .rl⟩, ⟨"refused", 30, 30, .w1c⟩, ⟨"reserved", 29, 28, .rwb⟩, ⟨"current", 27, 26, .ro⟩, ⟨"target", 25, 24, .rw⟩, ⟨"reserved", 23, 2, .rwb⟩, ⟨"at_valid", 1, 1, .rw⟩, ⟨"go", 0, 0, .wo⟩]⟩
def F.GLB_MODE_busy : Fld := ⟨R.GLB_MODE, 31, 31, .rl⟩
def F.GLB_MODE_refused : Fld := ⟨R.GLB_MODE, 30, 30, .w1c⟩
def F.GLB_MODE_current : Fld := ⟨R.GLB_MODE, 27, 26, .ro⟩
def F.GLB_MODE_target : Fld := ⟨R.GLB_MODE, 25, 24, .rw⟩
def F.GLB_MODE_at_valid : Fld := ⟨R.GLB_MODE, 1, 1, .rw⟩
def F.GLB_MODE_go : Fld := ⟨R.GLB_MODE, 0, 0, .wo⟩
/-- GLB_MODE_AT_LO: 01, field map GLB_MODE_AT_LO. -/
def R.GLB_MODE_AT_LO : RegDef := ⟨"GLB_MODE_AT_LO", 0x00000044, [], 0x00000000#32,
  [⟨"stroke_lo", 31, 0, .rw⟩]⟩
def F.GLB_MODE_AT_LO_stroke_lo : Fld := ⟨R.GLB_MODE_AT_LO, 31, 0, .rw⟩
/-- GLB_MODE_AT_HI: 01, field map GLB_MODE_AT_HI. -/
def R.GLB_MODE_AT_HI : RegDef := ⟨"GLB_MODE_AT_HI", 0x00000048, [], 0x00000000#32,
  [⟨"stroke_hi", 31, 0, .rw⟩]⟩
def F.GLB_MODE_AT_HI_stroke_hi : Fld := ⟨R.GLB_MODE_AT_HI, 31, 0, .rw⟩
/-- GLB_EASY: 01, field map GLB_EASY. -/
def R.GLB_EASY : RegDef := ⟨"GLB_EASY", 0x00000050, [], 0x00000004#32,
  [⟨"asleep", 31, 31, .rl⟩, ⟨"waking", 30, 30, .rl⟩, ⟨"refused", 29, 29, .w1c⟩, ⟨"stray_access", 28, 28, .w1c⟩, ⟨"wake_late", 27, 27, .w1c⟩, ⟨"reserved", 26, 4, .rwb⟩, ⟨"wake_at_valid", 3, 3, .rw⟩, ⟨"wake_on_doorbell", 2, 2, .rw⟩, ⟨"wake", 1, 1, .wo⟩, ⟨"enter", 0, 0, .wo⟩]⟩
def F.GLB_EASY_asleep : Fld := ⟨R.GLB_EASY, 31, 31, .rl⟩
def F.GLB_EASY_waking : Fld := ⟨R.GLB_EASY, 30, 30, .rl⟩
def F.GLB_EASY_refused : Fld := ⟨R.GLB_EASY, 29, 29, .w1c⟩
def F.GLB_EASY_stray_access : Fld := ⟨R.GLB_EASY, 28, 28, .w1c⟩
def F.GLB_EASY_wake_late : Fld := ⟨R.GLB_EASY, 27, 27, .w1c⟩
def F.GLB_EASY_wake_at_valid : Fld := ⟨R.GLB_EASY, 3, 3, .rw⟩
def F.GLB_EASY_wake_on_doorbell : Fld := ⟨R.GLB_EASY, 2, 2, .rw⟩
def F.GLB_EASY_wake : Fld := ⟨R.GLB_EASY, 1, 1, .wo⟩
def F.GLB_EASY_enter : Fld := ⟨R.GLB_EASY, 0, 0, .wo⟩
/-- GLB_WAKE_AT_LO: 01, field map GLB_WAKE_AT_LO. -/
def R.GLB_WAKE_AT_LO : RegDef := ⟨"GLB_WAKE_AT_LO", 0x00000054, [], 0x00000000#32,
  [⟨"stroke_lo", 31, 0, .rw⟩]⟩
def F.GLB_WAKE_AT_LO_stroke_lo : Fld := ⟨R.GLB_WAKE_AT_LO, 31, 0, .rw⟩
/-- GLB_WAKE_AT_HI: 01, field map GLB_WAKE_AT_HI. -/
def R.GLB_WAKE_AT_HI : RegDef := ⟨"GLB_WAKE_AT_HI", 0x00000058, [], 0x00000000#32,
  [⟨"stroke_hi", 31, 0, .rw⟩]⟩
def F.GLB_WAKE_AT_HI_stroke_hi : Fld := ⟨R.GLB_WAKE_AT_HI, 31, 0, .rw⟩
/-- STK_CTL: 02, field map STK_CTL. -/
def R.STK_CTL : RegDef := ⟨"STK_CTL", 0x00100000, [], 0x00041000#32,
  [⟨"running", 31, 31, .rl⟩, ⟨"time_locked", 30, 30, .rl⟩, ⟨"reserved", 29, 20, .ro⟩, ⟨"rec_frac", 19, 18, .ro⟩, ⟨"reserved", 17, 17, .ro⟩, ⟨"period_ns", 16, 0, .ro⟩]⟩
def F.STK_CTL_running : Fld := ⟨R.STK_CTL, 31, 31, .rl⟩
def F.STK_CTL_time_locked : Fld := ⟨R.STK_CTL, 30, 30, .rl⟩
def F.STK_CTL_rec_frac : Fld := ⟨R.STK_CTL, 19, 18, .ro⟩
def F.STK_CTL_period_ns : Fld := ⟨R.STK_CTL, 16, 0, .ro⟩
/-- STK_PHASE_LO: 02, field map STK_PHASE_LO. -/
def R.STK_PHASE_LO : RegDef := ⟨"STK_PHASE_LO", 0x00100008, [], 0x00000000#32,
  [⟨"phase_lo", 31, 0, .ro⟩]⟩
def F.STK_PHASE_LO_phase_lo : Fld := ⟨R.STK_PHASE_LO, 31, 0, .ro⟩
/-- STK_PHASE_HI: 02, field map STK_PHASE_HI. -/
def R.STK_PHASE_HI : RegDef := ⟨"STK_PHASE_HI", 0x0010000C, [], 0x00000000#32,
  [⟨"phase_hi", 31, 0, .ro⟩]⟩
def F.STK_PHASE_HI_phase_hi : Fld := ⟨R.STK_PHASE_HI, 31, 0, .ro⟩
/-- STK_NUM_LO: 02, field map STK_NUM_LO. -/
def R.STK_NUM_LO : RegDef := ⟨"STK_NUM_LO", 0x00100010, [], 0x00000000#32,
  [⟨"num_lo", 31, 0, .ro⟩]⟩
def F.STK_NUM_LO_num_lo : Fld := ⟨R.STK_NUM_LO, 31, 0, .ro⟩
/-- STK_NUM_HI: 02, field map STK_NUM_HI. -/
def R.STK_NUM_HI : RegDef := ⟨"STK_NUM_HI", 0x00100014, [], 0x00000000#32,
  [⟨"num_hi", 31, 0, .ro⟩]⟩
def F.STK_NUM_HI_num_hi : Fld := ⟨R.STK_NUM_HI, 31, 0, .ro⟩
/-- STK_RX: 02, field map STK_RX_n. -/
def R.STK_RX : RegDef := ⟨"STK_RX", 0x00100040, [(3, 0x4)], 0x40000000#32,
  [⟨"state", 31, 30, .ro⟩, ⟨"jump", 29, 29, .w1c⟩, ⟨"dead_hist", 28, 28, .w1c⟩, ⟨"reserved", 27, 24, .ro⟩, ⟨"resyncs", 23, 16, .ro⟩, ⟨"out_of_window", 15, 8, .ro⟩, ⟨"missed", 7, 0, .ro⟩]⟩
def F.STK_RX_state : Fld := ⟨R.STK_RX, 31, 30, .ro⟩
def F.STK_RX_jump : Fld := ⟨R.STK_RX, 29, 29, .w1c⟩
def F.STK_RX_dead_hist : Fld := ⟨R.STK_RX, 28, 28, .w1c⟩
def F.STK_RX_resyncs : Fld := ⟨R.STK_RX, 23, 16, .ro⟩
def F.STK_RX_out_of_window : Fld := ⟨R.STK_RX, 15, 8, .ro⟩
def F.STK_RX_missed : Fld := ⟨R.STK_RX, 7, 0, .ro⟩
/-- STK_CREW: 02, field map STK_CREW_n. -/
def R.STK_CREW : RegDef := ⟨"STK_CREW", 0x00100080, [(16, 0x4)], 0x80000000#32,
  [⟨"timed", 31, 31, .ro⟩, ⟨"crab_hist", 30, 30, .w1c⟩, ⟨"carrying", 29, 29, .rl⟩, ⟨"reserved", 28, 24, .ro⟩, ⟨"slip_run", 23, 16, .ro⟩, ⟨"crab_count", 15, 0, .ro⟩]⟩
def F.STK_CREW_timed : Fld := ⟨R.STK_CREW, 31, 31, .ro⟩
def F.STK_CREW_crab_hist : Fld := ⟨R.STK_CREW, 30, 30, .w1c⟩
def F.STK_CREW_carrying : Fld := ⟨R.STK_CREW, 29, 29, .rl⟩
def F.STK_CREW_slip_run : Fld := ⟨R.STK_CREW, 23, 16, .ro⟩
def F.STK_CREW_crab_count : Fld := ⟨R.STK_CREW, 15, 0, .ro⟩
/-- STK_SHARE: 02, field map STK_SHARE. -/
def R.STK_SHARE : RegDef := ⟨"STK_SHARE", 0x001000C0, [], 0x00431184#32,
  [⟨"reserved", 31, 25, .ro⟩, ⟨"log", 24, 20, .ro⟩, ⟨"trace", 19, 15, .ro⟩, ⟨"pmc", 14, 10, .ro⟩, ⟨"cow", 9, 5, .ro⟩, ⟨"scrub", 4, 0, .ro⟩]⟩
def F.STK_SHARE_log : Fld := ⟨R.STK_SHARE, 24, 20, .ro⟩
def F.STK_SHARE_trace : Fld := ⟨R.STK_SHARE, 19, 15, .ro⟩
def F.STK_SHARE_pmc : Fld := ⟨R.STK_SHARE, 14, 10, .ro⟩
def F.STK_SHARE_cow : Fld := ⟨R.STK_SHARE, 9, 5, .ro⟩
def F.STK_SHARE_scrub : Fld := ⟨R.STK_SHARE, 4, 0, .ro⟩
/-- SEQ_QSEL: 03, field map SEQ_QSEL. -/
def R.SEQ_QSEL : RegDef := ⟨"SEQ_QSEL", 0x00000400, [], 0x00000000#32,
  [⟨"reserved", 31, 16, .rwb⟩, ⟨"queue", 15, 0, .rw⟩]⟩
def F.SEQ_QSEL_queue : Fld := ⟨R.SEQ_QSEL, 15, 0, .rw⟩
/-- SEQ_QCFG: 03, field map SEQ_QCFG. -/
def R.SEQ_QCFG : RegDef := ⟨"SEQ_QCFG", 0x00000404, [], 0x08000000#32,
  [⟨"enable", 31, 31, .rw⟩, ⟨"ring_in_hbm", 30, 30, .rw⟩, ⟨"cpl_in_hbm", 29, 29, .rw⟩, ⟨"log2_entries", 28, 25, .rw⟩, ⟨"reserved", 24, 12, .rwb⟩, ⟨"context", 11, 0, .rw⟩]⟩
def F.SEQ_QCFG_enable : Fld := ⟨R.SEQ_QCFG, 31, 31, .rw⟩
def F.SEQ_QCFG_ring_in_hbm : Fld := ⟨R.SEQ_QCFG, 30, 30, .rw⟩
def F.SEQ_QCFG_cpl_in_hbm : Fld := ⟨R.SEQ_QCFG, 29, 29, .rw⟩
def F.SEQ_QCFG_log2_entries : Fld := ⟨R.SEQ_QCFG, 28, 25, .rw⟩
def F.SEQ_QCFG_context : Fld := ⟨R.SEQ_QCFG, 11, 0, .rw⟩
/-- SEQ_QRING_LO: 03, field map SEQ_QRING_LO. -/
def R.SEQ_QRING_LO : RegDef := ⟨"SEQ_QRING_LO", 0x00000408, [], 0x00000000#32,
  [⟨"base_lo", 31, 6, .rw⟩, ⟨"reserved", 5, 0, .ro⟩]⟩
def F.SEQ_QRING_LO_base_lo : Fld := ⟨R.SEQ_QRING_LO, 31, 6, .rw⟩
/-- SEQ_QRING_HI: 03, field map SEQ_QRING_HI. -/
def R.SEQ_QRING_HI : RegDef := ⟨"SEQ_QRING_HI", 0x0000040C, [], 0x00000000#32,
  [⟨"base_hi", 31, 0, .rw⟩]⟩
def F.SEQ_QRING_HI_base_hi : Fld := ⟨R.SEQ_QRING_HI, 31, 0, .rw⟩
/-- SEQ_QCPL_LO: 03, field map SEQ_QCPL_LO. -/
def R.SEQ_QCPL_LO : RegDef := ⟨"SEQ_QCPL_LO", 0x00000410, [], 0x00000000#32,
  [⟨"base_lo", 31, 5, .rw⟩, ⟨"reserved", 4, 0, .ro⟩]⟩
def F.SEQ_QCPL_LO_base_lo : Fld := ⟨R.SEQ_QCPL_LO, 31, 5, .rw⟩
/-- SEQ_QCPL_HI: 03, field map SEQ_QCPL_HI. -/
def R.SEQ_QCPL_HI : RegDef := ⟨"SEQ_QCPL_HI", 0x00000414, [], 0x00000000#32,
  [⟨"base_hi", 31, 0, .rw⟩]⟩
def F.SEQ_QCPL_HI_base_hi : Fld := ⟨R.SEQ_QCPL_HI, 31, 0, .rw⟩
/-- SEQ_QSEQ: 03, field map SEQ_QSEQ. -/
def R.SEQ_QSEQ : RegDef := ⟨"SEQ_QSEQ", 0x00000418, [], 0x00000000#32,
  [⟨"expected", 31, 0, .rw⟩]⟩
def F.SEQ_QSEQ_expected : Fld := ⟨R.SEQ_QSEQ, 31, 0, .rw⟩
/-- SEQ_QSTAT: 03, field map SEQ_QSTAT. -/
def R.SEQ_QSTAT : RegDef := ⟨"SEQ_QSTAT", 0x0000041C, [], 0x00000000#32,
  [⟨"stopped", 31, 31, .rl⟩, ⟨"error", 30, 28, .ro⟩, ⟨"reserved", 27, 16, .ro⟩, ⟨"head", 15, 0, .ro⟩]⟩
def F.SEQ_QSTAT_stopped : Fld := ⟨R.SEQ_QSTAT, 31, 31, .rl⟩
def F.SEQ_QSTAT_error : Fld := ⟨R.SEQ_QSTAT, 30, 28, .ro⟩
def F.SEQ_QSTAT_head : Fld := ⟨R.SEQ_QSTAT, 15, 0, .ro⟩
/-- SEQ_ACCNUM_LO: 03, field map SEQ_ACCNUM_LO. -/
def R.SEQ_ACCNUM_LO : RegDef := ⟨"SEQ_ACCNUM_LO", 0x00000420, [], 0x00000000#32,
  [⟨"next_lo", 31, 0, .ro⟩]⟩
def F.SEQ_ACCNUM_LO_next_lo : Fld := ⟨R.SEQ_ACCNUM_LO, 31, 0, .ro⟩
/-- SEQ_ACCNUM_HI: 03, field map SEQ_ACCNUM_HI. -/
def R.SEQ_ACCNUM_HI : RegDef := ⟨"SEQ_ACCNUM_HI", 0x00000424, [], 0x00000000#32,
  [⟨"next_hi", 31, 0, .ro⟩]⟩
def F.SEQ_ACCNUM_HI_next_hi : Fld := ⟨R.SEQ_ACCNUM_HI, 31, 0, .ro⟩
/-- SEQ_STATUS: 03, field map SEQ_STATUS. -/
def R.SEQ_STATUS : RegDef := ⟨"SEQ_STATUS", 0x01000000, [(144, 0x10000)], 0x00000000#32,
  [⟨"state", 31, 30, .ro⟩, ⟨"ahead", 29, 27, .ro⟩, ⟨"spec", 26, 26, .rl⟩, ⟨"reserved", 25, 13, .ro⟩, ⟨"entry", 12, 0, .ro⟩]⟩
def F.SEQ_STATUS_state : Fld := ⟨R.SEQ_STATUS, 31, 30, .ro⟩
def F.SEQ_STATUS_ahead : Fld := ⟨R.SEQ_STATUS, 29, 27, .ro⟩
def F.SEQ_STATUS_spec : Fld := ⟨R.SEQ_STATUS, 26, 26, .rl⟩
def F.SEQ_STATUS_entry : Fld := ⟨R.SEQ_STATUS, 12, 0, .ro⟩
/-- TAL_VAL: 03, field map TAL_VAL_n. -/
def R.TAL_VAL : RegDef := ⟨"TAL_VAL", 0x03400000, [(16384, 0x10)], 0x00000000#32,
  [⟨"value", 31, 0, .ro⟩]⟩
def F.TAL_VAL_value : Fld := ⟨R.TAL_VAL, 31, 0, .ro⟩
/-- TAL_ADD: 03, field map TAL_ADD_n. -/
def R.TAL_ADD : RegDef := ⟨"TAL_ADD", 0x03400004, [(16384, 0x10)], 0x00000000#32,
  [⟨"addend", 31, 0, .wo⟩]⟩
def F.TAL_ADD_addend : Fld := ⟨R.TAL_ADD, 31, 0, .wo⟩
/-- TAL_INFO: 03, field map TAL_INFO_n. -/
def R.TAL_INFO : RegDef := ⟨"TAL_INFO", 0x03400008, [(16384, 0x10)], 0x00000000#32,
  [⟨"allocated", 31, 31, .ro⟩, ⟨"remote", 30, 30, .ro⟩, ⟨"crew", 29, 26, .ro⟩, ⟨"reserved", 25, 16, .ro⟩, ⟨"waiters", 15, 0, .ro⟩]⟩
def F.TAL_INFO_allocated : Fld := ⟨R.TAL_INFO, 31, 31, .ro⟩
def F.TAL_INFO_remote : Fld := ⟨R.TAL_INFO, 30, 30, .ro⟩
def F.TAL_INFO_crew : Fld := ⟨R.TAL_INFO, 29, 26, .ro⟩
def F.TAL_INFO_waiters : Fld := ⟨R.TAL_INFO, 15, 0, .ro⟩
/-- TAL_SET: 03, field map TAL_SET_n. -/
def R.TAL_SET : RegDef := ⟨"TAL_SET", 0x0340000C, [(16384, 0x10)], 0x00000000#32,
  [⟨"new_value", 31, 0, .wo⟩]⟩
def F.TAL_SET_new_value : Fld := ⟨R.TAL_SET, 31, 0, .wo⟩
/-- SEQ_CREWCFG: 03, field map SEQ_CREWCFG_n. -/
def R.SEQ_CREWCFG : RegDef := ⟨"SEQ_CREWCFG", 0x00000440, [(16, 0x4)], 0x80000000#32,
  [⟨"lb_enable", 31, 31, .rw⟩, ⟨"lb_active", 30, 30, .rl⟩, ⟨"reserved", 29, 21, .rwb⟩, ⟨"pending", 20, 16, .ro⟩, ⟨"members", 15, 8, .ro⟩, ⟨"reserved", 7, 0, .rwb⟩]⟩
def F.SEQ_CREWCFG_lb_enable : Fld := ⟨R.SEQ_CREWCFG, 31, 31, .rw⟩
def F.SEQ_CREWCFG_lb_active : Fld := ⟨R.SEQ_CREWCFG, 30, 30, .rl⟩
def F.SEQ_CREWCFG_pending : Fld := ⟨R.SEQ_CREWCFG, 20, 16, .ro⟩
def F.SEQ_CREWCFG_members : Fld := ⟨R.SEQ_CREWCFG, 15, 8, .ro⟩
/-- ENG_RING: 04, field map ENG_RING_n. -/
def R.ENG_RING : RegDef := ⟨"ENG_RING", 0x01001C00, [(144, 0x10000), (8, 0x10)], 0x30000000#32,
  [⟨"enable", 31, 31, .ro⟩, ⟨"log2_size", 30, 26, .ro⟩, ⟨"reserved", 25, 22, .ro⟩, ⟨"base", 21, 12, .ro⟩, ⟨"reserved", 11, 0, .ro⟩]⟩
def F.ENG_RING_enable : Fld := ⟨R.ENG_RING, 31, 31, .ro⟩
def F.ENG_RING_log2_size : Fld := ⟨R.ENG_RING, 30, 26, .ro⟩
def F.ENG_RING_base : Fld := ⟨R.ENG_RING, 21, 12, .ro⟩
/-- ENG_RFILL: 04, field map ENG_RFILL_n. -/
def R.ENG_RFILL : RegDef := ⟨"ENG_RFILL", 0x01001C04, [(144, 0x10000), (8, 0x10)], 0x00000000#32,
  [⟨"fill", 31, 0, .ro⟩]⟩
def F.ENG_RFILL_fill : Fld := ⟨R.ENG_RFILL, 31, 0, .ro⟩
/-- ENG_RUSE: 04, field map ENG_RUSE_n. -/
def R.ENG_RUSE : RegDef := ⟨"ENG_RUSE", 0x01001C08, [(144, 0x10000), (8, 0x10)], 0x00000000#32,
  [⟨"use", 31, 0, .ro⟩]⟩
def F.ENG_RUSE_use : Fld := ⟨R.ENG_RUSE, 31, 0, .ro⟩
/-- ENG_STATUS: 04, field map ENG_STATUS_e. -/
def R.ENG_STATUS : RegDef := ⟨"ENG_STATUS", 0x01001000, [(144, 0x10000), (12, 0x100)], 0x00000000#32,
  [⟨"state", 31, 29, .ro⟩, ⟨"chain", 28, 28, .rl⟩, ⟨"chain_shape", 27, 26, .ro⟩, ⟨"chain_group", 25, 24, .ro⟩, ⟨"poison", 23, 23, .rl⟩, ⟨"commit_busy", 22, 22, .rl⟩, ⟨"queued", 21, 19, .ro⟩, ⟨"reserved", 18, 12, .ro⟩, ⟨"chain_ctx", 11, 0, .ro⟩]⟩
def F.ENG_STATUS_state : Fld := ⟨R.ENG_STATUS, 31, 29, .ro⟩
def F.ENG_STATUS_chain : Fld := ⟨R.ENG_STATUS, 28, 28, .rl⟩
def F.ENG_STATUS_chain_shape : Fld := ⟨R.ENG_STATUS, 27, 26, .ro⟩
def F.ENG_STATUS_chain_group : Fld := ⟨R.ENG_STATUS, 25, 24, .ro⟩
def F.ENG_STATUS_poison : Fld := ⟨R.ENG_STATUS, 23, 23, .rl⟩
def F.ENG_STATUS_commit_busy : Fld := ⟨R.ENG_STATUS, 22, 22, .rl⟩
def F.ENG_STATUS_queued : Fld := ⟨R.ENG_STATUS, 21, 19, .ro⟩
def F.ENG_STATUS_chain_ctx : Fld := ⟨R.ENG_STATUS, 11, 0, .ro⟩
/-- ENG_PROGRESS: 04, field map ENG_PROGRESS_e. -/
def R.ENG_PROGRESS : RegDef := ⟨"ENG_PROGRESS", 0x01001004, [(144, 0x10000), (12, 0x100)], 0x00000000#32,
  [⟨"positions", 31, 0, .ro⟩]⟩
def F.ENG_PROGRESS_positions : Fld := ⟨R.ENG_PROGRESS, 31, 0, .ro⟩
/-- ENG_CHAINK_LO: 04, field map ENG_CHAINK_LO_e. -/
def R.ENG_CHAINK_LO : RegDef := ⟨"ENG_CHAINK_LO", 0x01001008, [(144, 0x10000), (12, 0x100)], 0x00000000#32,
  [⟨"count_lo", 31, 0, .ro⟩]⟩
def F.ENG_CHAINK_LO_count_lo : Fld := ⟨R.ENG_CHAINK_LO, 31, 0, .ro⟩
/-- ENG_CHAINK_HI: 04, field map ENG_CHAINK_HI_e. -/
def R.ENG_CHAINK_HI : RegDef := ⟨"ENG_CHAINK_HI", 0x0100100C, [(144, 0x10000), (12, 0x100)], 0x00000000#32,
  [⟨"count_hi", 31, 0, .ro⟩]⟩
def F.ENG_CHAINK_HI_count_hi : Fld := ⟨R.ENG_CHAINK_HI, 31, 0, .ro⟩
/-- ENG_ACC_SEL: 04, field map ENG_ACC_SEL_e. -/
def R.ENG_ACC_SEL : RegDef := ⟨"ENG_ACC_SEL", 0x01001040, [(144, 0x10000), (12, 0x100)], 0x00000000#32,
  [⟨"reserved", 31, 16, .rwb⟩, ⟨"word", 15, 14, .rw⟩, ⟨"col", 13, 8, .rw⟩, ⟨"reserved", 7, 5, .rwb⟩, ⟨"row", 4, 0, .rw⟩]⟩
def F.ENG_ACC_SEL_word : Fld := ⟨R.ENG_ACC_SEL, 15, 14, .rw⟩
def F.ENG_ACC_SEL_col : Fld := ⟨R.ENG_ACC_SEL, 13, 8, .rw⟩
def F.ENG_ACC_SEL_row : Fld := ⟨R.ENG_ACC_SEL, 4, 0, .rw⟩
/-- ENG_ACC_DATA: 04, field map ENG_ACC_DATA_e. -/
def R.ENG_ACC_DATA : RegDef := ⟨"ENG_ACC_DATA", 0x01001044, [(144, 0x10000), (12, 0x100)], 0x00000000#32,
  [⟨"value", 31, 0, .rw⟩]⟩
def F.ENG_ACC_DATA_value : Fld := ⟨R.ENG_ACC_DATA, 31, 0, .rw⟩
/-- CST_ECC: 06, field map CST_ECC. -/
def R.CST_ECC : RegDef := ⟨"CST_ECC", 0x01002200, [(144, 0x10000)], 0x00000000#32,
  [⟨"ue_hist", 31, 31, .w1c⟩, ⟨"ce_hist", 30, 30, .w1c⟩, ⟨"reserved", 29, 24, .ro⟩, ⟨"ce_count", 23, 8, .ro⟩, ⟨"ue_count", 7, 0, .ro⟩]⟩
def F.CST_ECC_ue_hist : Fld := ⟨R.CST_ECC, 31, 31, .w1c⟩
def F.CST_ECC_ce_hist : Fld := ⟨R.CST_ECC, 30, 30, .w1c⟩
def F.CST_ECC_ce_count : Fld := ⟨R.CST_ECC, 23, 8, .ro⟩
def F.CST_ECC_ue_count : Fld := ⟨R.CST_ECC, 7, 0, .ro⟩
/-- CST_ERRADDR: 06, field map CST_ERRADDR. -/
def R.CST_ERRADDR : RegDef := ⟨"CST_ERRADDR", 0x01002204, [(144, 0x10000)], 0x00000000#32,
  [⟨"kind", 31, 30, .ro⟩, ⟨"reserved", 29, 22, .ro⟩, ⟨"addr", 21, 0, .ro⟩]⟩
def F.CST_ERRADDR_kind : Fld := ⟨R.CST_ERRADDR, 31, 30, .ro⟩
def F.CST_ERRADDR_addr : Fld := ⟨R.CST_ERRADDR, 21, 0, .ro⟩
/-- CST_PATROL: 06, field map CST_PATROL. -/
def R.CST_PATROL : RegDef := ⟨"CST_PATROL", 0x01002208, [(144, 0x10000)], 0x00000000#32,
  [⟨"reserved", 31, 27, .ro⟩, ⟨"row", 26, 16, .ro⟩, ⟨"passes", 15, 0, .ro⟩]⟩
def F.CST_PATROL_row : Fld := ⟨R.CST_PATROL, 26, 16, .ro⟩
def F.CST_PATROL_passes : Fld := ⟨R.CST_PATROL, 15, 0, .ro⟩
/-- VEC_STATUS: 06, field map VEC_STATUS. -/
def R.VEC_STATUS : RegDef := ⟨"VEC_STATUS", 0x01002000, [(144, 0x10000)], 0x00000000#32,
  [⟨"state", 31, 30, .ro⟩, ⟨"queued", 29, 27, .ro⟩, ⟨"op", 26, 21, .ro⟩, ⟨"poison", 20, 20, .rl⟩, ⟨"reserved", 19, 12, .ro⟩, ⟨"row", 11, 0, .ro⟩]⟩
def F.VEC_STATUS_state : Fld := ⟨R.VEC_STATUS, 31, 30, .ro⟩
def F.VEC_STATUS_queued : Fld := ⟨R.VEC_STATUS, 29, 27, .ro⟩
def F.VEC_STATUS_op : Fld := ⟨R.VEC_STATUS, 26, 21, .ro⟩
def F.VEC_STATUS_poison : Fld := ⟨R.VEC_STATUS, 20, 20, .rl⟩
def F.VEC_STATUS_row : Fld := ⟨R.VEC_STATUS, 11, 0, .ro⟩
/-- DMA_STATUS: 06, field map DMA_STATUS. -/
def R.DMA_STATUS : RegDef := ⟨"DMA_STATUS", 0x01002100, [(144, 0x10000)], 0x00000000#32,
  [⟨"state", 31, 30, .ro⟩, ⟨"held", 29, 26, .ro⟩, ⟨"active", 25, 23, .ro⟩, ⟨"ring_wait", 22, 22, .rl⟩, ⟨"poison", 21, 21, .rl⟩, ⟨"reserved", 20, 16, .ro⟩, ⟨"rows_done", 15, 0, .ro⟩]⟩
def F.DMA_STATUS_state : Fld := ⟨R.DMA_STATUS, 31, 30, .ro⟩
def F.DMA_STATUS_held : Fld := ⟨R.DMA_STATUS, 29, 26, .ro⟩
def F.DMA_STATUS_active : Fld := ⟨R.DMA_STATUS, 25, 23, .ro⟩
def F.DMA_STATUS_ring_wait : Fld := ⟨R.DMA_STATUS, 22, 22, .rl⟩
def F.DMA_STATUS_poison : Fld := ⟨R.DMA_STATUS, 21, 21, .rl⟩
def F.DMA_STATUS_rows_done : Fld := ⟨R.DMA_STATUS, 15, 0, .ro⟩
/-- HBM_STAT: 07, field map HBM_STAT. -/
def R.HBM_STAT : RegDef := ⟨"HBM_STAT", 0x02040000, [(2, 0x800000), (4, 0x1000)], 0x90000000#32,
  [⟨"rate", 31, 30, .ro⟩, ⟨"hot", 29, 29, .rl⟩, ⟨"sid3", 28, 28, .ro⟩, ⟨"reserved", 27, 24, .ro⟩, ⟨"temp", 23, 16, .ro⟩, ⟨"reserved", 15, 0, .ro⟩]⟩
def F.HBM_STAT_rate : Fld := ⟨R.HBM_STAT, 31, 30, .ro⟩
def F.HBM_STAT_hot : Fld := ⟨R.HBM_STAT, 29, 29, .rl⟩
def F.HBM_STAT_sid3 : Fld := ⟨R.HBM_STAT, 28, 28, .ro⟩
def F.HBM_STAT_temp : Fld := ⟨R.HBM_STAT, 23, 16, .ro⟩
/-- HBM_PRIO: 07, field map HBM_PRIO. -/
def R.HBM_PRIO : RegDef := ⟨"HBM_PRIO", 0x02040004, [(2, 0x800000), (4, 0x1000)], 0x04104000#32,
  [⟨"reserved", 31, 28, .ro⟩, ⟨"lat_share", 27, 24, .ro⟩, ⟨"guard", 23, 16, .ro⟩, ⟨"wbatch", 15, 8, .ro⟩, ⟨"reserved", 7, 0, .ro⟩]⟩
def F.HBM_PRIO_lat_share : Fld := ⟨R.HBM_PRIO, 27, 24, .ro⟩
def F.HBM_PRIO_guard : Fld := ⟨R.HBM_PRIO, 23, 16, .ro⟩
def F.HBM_PRIO_wbatch : Fld := ⟨R.HBM_PRIO, 15, 8, .ro⟩
/-- HBM_ECC: 07, field map HBM_ECC. -/
def R.HBM_ECC : RegDef := ⟨"HBM_ECC", 0x02040008, [(2, 0x800000), (4, 0x1000)], 0x00000000#32,
  [⟨"ue_hist", 31, 31, .w1c⟩, ⟨"ce_hist", 30, 30, .w1c⟩, ⟨"poison_hist", 29, 29, .w1c⟩, ⟨"wb_dropped", 28, 28, .w1c⟩, ⟨"reserved", 27, 24, .ro⟩, ⟨"ce_count", 23, 8, .ro⟩, ⟨"ue_count", 7, 0, .ro⟩]⟩
def F.HBM_ECC_ue_hist : Fld := ⟨R.HBM_ECC, 31, 31, .w1c⟩
def F.HBM_ECC_ce_hist : Fld := ⟨R.HBM_ECC, 30, 30, .w1c⟩
def F.HBM_ECC_poison_hist : Fld := ⟨R.HBM_ECC, 29, 29, .w1c⟩
def F.HBM_ECC_wb_dropped : Fld := ⟨R.HBM_ECC, 28, 28, .w1c⟩
def F.HBM_ECC_ce_count : Fld := ⟨R.HBM_ECC, 23, 8, .ro⟩
def F.HBM_ECC_ue_count : Fld := ⟨R.HBM_ECC, 7, 0, .ro⟩
/-- HBM_ODECC: 07, field map HBM_ODECC. -/
def R.HBM_ODECC : RegDef := ⟨"HBM_ODECC", 0x0204000C, [(2, 0x800000), (4, 0x1000)], 0x00000000#32,
  [⟨"od_ue", 31, 24, .ro⟩, ⟨"od_ce", 23, 0, .ro⟩]⟩
def F.HBM_ODECC_od_ue : Fld := ⟨R.HBM_ODECC, 31, 24, .ro⟩
def F.HBM_ODECC_od_ce : Fld := ⟨R.HBM_ODECC, 23, 0, .ro⟩
/-- HBM_ERRADDR_LO: 07, field map HBM_ERRADDR_LO. -/
def R.HBM_ERRADDR_LO : RegDef := ⟨"HBM_ERRADDR_LO", 0x02040010, [(2, 0x800000), (4, 0x1000)], 0x00000000#32,
  [⟨"addr_lo", 31, 5, .ro⟩, ⟨"reserved", 4, 2, .ro⟩, ⟨"kind", 1, 0, .ro⟩]⟩
def F.HBM_ERRADDR_LO_addr_lo : Fld := ⟨R.HBM_ERRADDR_LO, 31, 5, .ro⟩
def F.HBM_ERRADDR_LO_kind : Fld := ⟨R.HBM_ERRADDR_LO, 1, 0, .ro⟩
/-- HBM_ERRADDR_HI: 07, field map HBM_ERRADDR_HI. -/
def R.HBM_ERRADDR_HI : RegDef := ⟨"HBM_ERRADDR_HI", 0x02040014, [(2, 0x800000), (4, 0x1000)], 0x00000000#32,
  [⟨"reserved", 31, 7, .ro⟩, ⟨"addr_hi", 6, 0, .ro⟩]⟩
def F.HBM_ERRADDR_HI_addr_hi : Fld := ⟨R.HBM_ERRADDR_HI, 6, 0, .ro⟩
/-- HBM_SCRUB: 07, field map HBM_SCRUB. -/
def R.HBM_SCRUB : RegDef := ⟨"HBM_SCRUB", 0x02040018, [(2, 0x800000), (4, 0x1000)], 0x00000000#32,
  [⟨"reserved", 31, 28, .ro⟩, ⟨"next_line", 27, 0, .ro⟩]⟩
def F.HBM_SCRUB_next_line : Fld := ⟨R.HBM_SCRUB, 27, 0, .ro⟩
/-- HBM_VOID: 07, field map HBM_VOID. -/
def R.HBM_VOID : RegDef := ⟨"HBM_VOID", 0x0204F000, [], 0x00000000#32,
  [⟨"hist", 31, 31, .w1c⟩, ⟨"reserved", 30, 16, .ro⟩, ⟨"count", 15, 0, .ro⟩]⟩
def F.HBM_VOID_hist : Fld := ⟨R.HBM_VOID, 31, 31, .w1c⟩
def F.HBM_VOID_count : Fld := ⟨R.HBM_VOID, 15, 0, .ro⟩
/-- ATM_WIN_LO: 07, field map ATM_WIN_LO_n. -/
def R.ATM_WIN_LO : RegDef := ⟨"ATM_WIN_LO", 0x02060000, [(64, 0x8)], 0x00000000#32,
  [⟨"valid", 31, 31, .ro⟩, ⟨"ordered", 30, 30, .rl⟩, ⟨"reserved", 29, 18, .ro⟩, ⟨"base", 17, 0, .ro⟩]⟩
def F.ATM_WIN_LO_valid : Fld := ⟨R.ATM_WIN_LO, 31, 31, .ro⟩
def F.ATM_WIN_LO_ordered : Fld := ⟨R.ATM_WIN_LO, 30, 30, .rl⟩
def F.ATM_WIN_LO_base : Fld := ⟨R.ATM_WIN_LO, 17, 0, .ro⟩
/-- ATM_WIN_HI: 07, field map ATM_WIN_HI_n. -/
def R.ATM_WIN_HI : RegDef := ⟨"ATM_WIN_HI", 0x02060004, [(64, 0x8)], 0x00000000#32,
  [⟨"op", 31, 28, .ro⟩, ⟨"crew", 27, 24, .ro⟩, ⟨"reserved", 23, 18, .ro⟩, ⟨"size", 17, 0, .ro⟩]⟩
def F.ATM_WIN_HI_op : Fld := ⟨R.ATM_WIN_HI, 31, 28, .ro⟩
def F.ATM_WIN_HI_crew : Fld := ⟨R.ATM_WIN_HI, 27, 24, .ro⟩
def F.ATM_WIN_HI_size : Fld := ⟨R.ATM_WIN_HI, 17, 0, .ro⟩
/-- HBM_LOOP: 07, field map HBM_LOOP. -/
def R.HBM_LOOP : RegDef := ⟨"HBM_LOOP", 0x02040020, [(2, 0x800000), (4, 0x1000)], 0x0000FF00#32,
  [⟨"busy", 31, 31, .rl⟩, ⟨"result", 30, 29, .ro⟩, ⟨"reserved", 28, 27, .rwb⟩, ⟨"mode", 26, 25, .rw⟩, ⟨"reserved", 24, 16, .rwb⟩, ⟨"pc", 15, 8, .rw⟩, ⟨"reserved", 7, 1, .rwb⟩, ⟨"go", 0, 0, .wo⟩]⟩
def F.HBM_LOOP_busy : Fld := ⟨R.HBM_LOOP, 31, 31, .rl⟩
def F.HBM_LOOP_result : Fld := ⟨R.HBM_LOOP, 30, 29, .ro⟩
def F.HBM_LOOP_mode : Fld := ⟨R.HBM_LOOP, 26, 25, .rw⟩
def F.HBM_LOOP_pc : Fld := ⟨R.HBM_LOOP, 15, 8, .rw⟩
def F.HBM_LOOP_go : Fld := ⟨R.HBM_LOOP, 0, 0, .wo⟩
/-- HBM_LOOP_ERR: 07, field map HBM_LOOP_ERR. -/
def R.HBM_LOOP_ERR : RegDef := ⟨"HBM_LOOP_ERR", 0x02040024, [(2, 0x800000), (4, 0x1000)], 0x00000000#32,
  [⟨"bit_errors", 31, 0, .ro⟩]⟩
def F.HBM_LOOP_ERR_bit_errors : Fld := ⟨R.HBM_LOOP_ERR, 31, 0, .ro⟩
/-- LNK_CFG: 08, field map LNK_CFG_n. -/
def R.LNK_CFG : RegDef := ⟨"LNK_CFG", 0x02100000, [(2, 0x800000), (48, 0x100)], 0x00000000#32,
  [⟨"role", 31, 30, .ro⟩, ⟨"medium", 29, 29, .ro⟩, ⟨"lane_swap", 28, 28, .ro⟩, ⟨"tx_pol", 27, 26, .ro⟩, ⟨"rx_pol", 25, 24, .ro⟩, ⟨"reserved", 23, 18, .ro⟩, ⟨"peer", 17, 0, .ro⟩]⟩
def F.LNK_CFG_role : Fld := ⟨R.LNK_CFG, 31, 30, .ro⟩
def F.LNK_CFG_medium : Fld := ⟨R.LNK_CFG, 29, 29, .ro⟩
def F.LNK_CFG_lane_swap : Fld := ⟨R.LNK_CFG, 28, 28, .ro⟩
def F.LNK_CFG_tx_pol : Fld := ⟨R.LNK_CFG, 27, 26, .ro⟩
def F.LNK_CFG_rx_pol : Fld := ⟨R.LNK_CFG, 25, 24, .ro⟩
def F.LNK_CFG_peer : Fld := ⟨R.LNK_CFG, 17, 0, .ro⟩
/-- LNK_FLIGHT: 08, field map LNK_FLIGHT_n. -/
def R.LNK_FLIGHT : RegDef := ⟨"LNK_FLIGHT", 0x02100004, [(2, 0x800000), (48, 0x100)], 0x00000000#32,
  [⟨"reserved", 31, 16, .ro⟩, ⟨"flight_ns", 15, 0, .ro⟩]⟩
def F.LNK_FLIGHT_flight_ns : Fld := ⟨R.LNK_FLIGHT, 15, 0, .ro⟩
/-- LNK_STAT: 08, field map LNK_STAT_n. -/
def R.LNK_STAT : RegDef := ⟨"LNK_STAT", 0x02100008, [(2, 0x800000), (48, 0x100)], 0x20000000#32,
  [⟨"state", 31, 29, .ro⟩, ⟨"good_lane", 28, 28, .ro⟩, ⟨"degrade_hist", 27, 27, .w1c⟩, ⟨"down_hist", 26, 26, .w1c⟩, ⟨"frozen", 25, 25, .rl⟩, ⟨"reserved", 24, 16, .ro⟩, ⟨"replays", 15, 0, .ro⟩]⟩
def F.LNK_STAT_state : Fld := ⟨R.LNK_STAT, 31, 29, .ro⟩
def F.LNK_STAT_good_lane : Fld := ⟨R.LNK_STAT, 28, 28, .ro⟩
def F.LNK_STAT_degrade_hist : Fld := ⟨R.LNK_STAT, 27, 27, .w1c⟩
def F.LNK_STAT_down_hist : Fld := ⟨R.LNK_STAT, 26, 26, .w1c⟩
def F.LNK_STAT_frozen : Fld := ⟨R.LNK_STAT, 25, 25, .rl⟩
def F.LNK_STAT_replays : Fld := ⟨R.LNK_STAT, 15, 0, .ro⟩
/-- LNK_HEALTH: 08, field map LNK_HEALTH_n. -/
def R.LNK_HEALTH : RegDef := ⟨"LNK_HEALTH", 0x0210000C, [(2, 0x800000), (48, 0x100)], 0x10000000#32,
  [⟨"ucw_limit", 31, 24, .ro⟩, ⟨"ucw_lane1", 23, 16, .ro⟩, ⟨"ucw_lane0", 15, 8, .ro⟩, ⟨"reserved", 7, 0, .ro⟩]⟩
def F.LNK_HEALTH_ucw_limit : Fld := ⟨R.LNK_HEALTH, 31, 24, .ro⟩
def F.LNK_HEALTH_ucw_lane1 : Fld := ⟨R.LNK_HEALTH, 23, 16, .ro⟩
def F.LNK_HEALTH_ucw_lane0 : Fld := ⟨R.LNK_HEALTH, 15, 8, .ro⟩
/-- LNK_DROP: 08, field map LNK_DROP_n. -/
def R.LNK_DROP : RegDef := ⟨"LNK_DROP", 0x02100010, [(2, 0x800000), (48, 0x100)], 0x00000000#32,
  [⟨"stranger", 31, 16, .ro⟩, ⟨"integrity", 15, 8, .ro⟩, ⟨"misrouted", 7, 0, .ro⟩]⟩
def F.LNK_DROP_stranger : Fld := ⟨R.LNK_DROP, 31, 16, .ro⟩
def F.LNK_DROP_integrity : Fld := ⟨R.LNK_DROP, 15, 8, .ro⟩
def F.LNK_DROP_misrouted : Fld := ⟨R.LNK_DROP, 7, 0, .ro⟩
/-- LNK_DISCARD: 08, field map LNK_DISCARD_n. -/
def R.LNK_DISCARD : RegDef := ⟨"LNK_DISCARD", 0x02100014, [(2, 0x800000), (48, 0x100)], 0x00000000#32,
  [⟨"late", 31, 16, .ro⟩, ⟨"stalled", 15, 0, .ro⟩]⟩
def F.LNK_DISCARD_late : Fld := ⟨R.LNK_DISCARD, 31, 16, .ro⟩
def F.LNK_DISCARD_stalled : Fld := ⟨R.LNK_DISCARD, 15, 0, .ro⟩
/-- LNK_CREDIT: 08, field map LNK_CREDIT_n. -/
def R.LNK_CREDIT : RegDef := ⟨"LNK_CREDIT", 0x02100018, [(2, 0x800000), (48, 0x100)], 0x00000000#32,
  [⟨"timed", 31, 23, .ro⟩, ⟨"bulk", 22, 13, .ro⟩, ⟨"control", 12, 6, .ro⟩, ⟨"mgmt", 5, 0, .ro⟩]⟩
def F.LNK_CREDIT_timed : Fld := ⟨R.LNK_CREDIT, 31, 23, .ro⟩
def F.LNK_CREDIT_bulk : Fld := ⟨R.LNK_CREDIT, 22, 13, .ro⟩
def F.LNK_CREDIT_control : Fld := ⟨R.LNK_CREDIT, 12, 6, .ro⟩
def F.LNK_CREDIT_mgmt : Fld := ⟨R.LNK_CREDIT, 5, 0, .ro⟩
/-- LNK_SELF: 08, field map LNK_SELF. -/
def R.LNK_SELF : RegDef := ⟨"LNK_SELF", 0x02110000, [], 0x00000000#32,
  [⟨"valid", 31, 31, .ro⟩, ⟨"reserved", 30, 18, .ro⟩, ⟨"package", 17, 0, .ro⟩]⟩
def F.LNK_SELF_valid : Fld := ⟨R.LNK_SELF, 31, 31, .ro⟩
def F.LNK_SELF_package : Fld := ⟨R.LNK_SELF, 17, 0, .ro⟩
/-- LNK_CREW: 08, field map LNK_CREW_c. -/
def R.LNK_CREW : RegDef := ⟨"LNK_CREW", 0x02110040, [(16, 0x8)], 0x000003E8#32,
  [⟨"job_tag", 31, 16, .ro⟩, ⟨"ack_timeout_us", 15, 0, .ro⟩]⟩
def F.LNK_CREW_job_tag : Fld := ⟨R.LNK_CREW, 31, 16, .ro⟩
def F.LNK_CREW_ack_timeout_us : Fld := ⟨R.LNK_CREW, 15, 0, .ro⟩
/-- LNK_CREW2: 08, field map LNK_CREW2_c. -/
def R.LNK_CREW2 : RegDef := ⟨"LNK_CREW2", 0x02110044, [(16, 0x8)], 0x04000000#32,
  [⟨"window", 31, 16, .ro⟩, ⟨"reserved", 15, 0, .ro⟩]⟩
def F.LNK_CREW2_window : Fld := ⟨R.LNK_CREW2, 31, 16, .ro⟩
/-- LNK_GROUP: 08, field map LNK_GROUP_g_w. -/
def R.LNK_GROUP : RegDef := ⟨"LNK_GROUP", 0x02110100, [(16, 0x10), (3, 0x4)], 0x00000000#32,
  [⟨"links", 31, 0, .ro⟩]⟩
def F.LNK_GROUP_links : Fld := ⟨R.LNK_GROUP, 31, 0, .ro⟩
/-- LNK_ROUTE_LO: 08, field map LNK_ROUTE_LO_c_i. -/
def R.LNK_ROUTE_LO : RegDef := ⟨"LNK_ROUTE_LO", 0x02111000, [(16, 0x100), (16, 0x8)], 0x00000000#32,
  [⟨"valid", 31, 31, .ro⟩, ⟨"bulk", 30, 30, .ro⟩, ⟨"group", 29, 26, .ro⟩, ⟨"reserved", 25, 18, .ro⟩, ⟨"match", 17, 0, .ro⟩]⟩
def F.LNK_ROUTE_LO_valid : Fld := ⟨R.LNK_ROUTE_LO, 31, 31, .ro⟩
def F.LNK_ROUTE_LO_bulk : Fld := ⟨R.LNK_ROUTE_LO, 30, 30, .ro⟩
def F.LNK_ROUTE_LO_group : Fld := ⟨R.LNK_ROUTE_LO, 29, 26, .ro⟩
def F.LNK_ROUTE_LO_match : Fld := ⟨R.LNK_ROUTE_LO, 17, 0, .ro⟩
/-- LNK_ROUTE_HI: 08, field map LNK_ROUTE_HI_c_i. -/
def R.LNK_ROUTE_HI : RegDef := ⟨"LNK_ROUTE_HI", 0x02111004, [(16, 0x100), (16, 0x8)], 0x00000000#32,
  [⟨"reserved", 31, 18, .ro⟩, ⟨"mask", 17, 0, .ro⟩]⟩
def F.LNK_ROUTE_HI_mask : Fld := ⟨R.LNK_ROUTE_HI, 17, 0, .ro⟩
/-- LNK_COLL: 08, field map LNK_COLL_c. -/
def R.LNK_COLL : RegDef := ⟨"LNK_COLL", 0x02110800, [(16, 0x4)], 0x00000000#32,
  [⟨"open", 31, 28, .ro⟩, ⟨"reserved", 27, 27, .ro⟩, ⟨"port", 26, 0, .ro⟩]⟩
def F.LNK_COLL_open : Fld := ⟨R.LNK_COLL, 31, 28, .ro⟩
def F.LNK_COLL_port : Fld := ⟨R.LNK_COLL, 26, 0, .ro⟩
/-- TIM_NOW_FRAC: 09, field map TIM_NOW_FRAC. -/
def R.TIM_NOW_FRAC : RegDef := ⟨"TIM_NOW_FRAC", 0x00100400, [], 0x00000000#32,
  [⟨"frac", 31, 0, .ro⟩]⟩
def F.TIM_NOW_FRAC_frac : Fld := ⟨R.TIM_NOW_FRAC, 31, 0, .ro⟩
/-- TIM_NOW_LO: 09, field map TIM_NOW_LO. -/
def R.TIM_NOW_LO : RegDef := ⟨"TIM_NOW_LO", 0x00100404, [], 0x00000000#32,
  [⟨"ns_lo", 31, 0, .ro⟩]⟩
def F.TIM_NOW_LO_ns_lo : Fld := ⟨R.TIM_NOW_LO, 31, 0, .ro⟩
/-- TIM_NOW_HI: 09, field map TIM_NOW_HI. -/
def R.TIM_NOW_HI : RegDef := ⟨"TIM_NOW_HI", 0x00100408, [], 0x00000000#32,
  [⟨"ns_hi", 31, 0, .ro⟩]⟩
def F.TIM_NOW_HI_ns_hi : Fld := ⟨R.TIM_NOW_HI, 31, 0, .ro⟩
/-- TIM_RAW_LO: 09, field map TIM_RAW_LO. -/
def R.TIM_RAW_LO : RegDef := ⟨"TIM_RAW_LO", 0x0010040C, [], 0x00000000#32,
  [⟨"raw_lo", 31, 0, .ro⟩]⟩
def F.TIM_RAW_LO_raw_lo : Fld := ⟨R.TIM_RAW_LO, 31, 0, .ro⟩
/-- TIM_RAW_HI: 09, field map TIM_RAW_HI. -/
def R.TIM_RAW_HI : RegDef := ⟨"TIM_RAW_HI", 0x00100410, [], 0x00000000#32,
  [⟨"raw_hi", 31, 0, .ro⟩]⟩
def F.TIM_RAW_HI_raw_hi : Fld := ⟨R.TIM_RAW_HI, 31, 0, .ro⟩
/-- TIM_RATE: 09, field map TIM_RATE. -/
def R.TIM_RATE : RegDef := ⟨"TIM_RATE", 0x00100414, [], 0x00000000#32,
  [⟨"rate", 31, 0, .ro⟩]⟩
def F.TIM_RATE_rate : Fld := ⟨R.TIM_RATE, 31, 0, .ro⟩
/-- TIM_SRC: 09, field map TIM_SRC. -/
def R.TIM_SRC : RegDef := ⟨"TIM_SRC", 0x00100418, [], 0xFFFDB200#32,
  [⟨"primary", 31, 25, .ro⟩, ⟨"secondary", 24, 18, .ro⟩, ⟨"interval", 17, 14, .ro⟩, ⟨"holdover_ms", 13, 6, .ro⟩, ⟨"domain", 5, 0, .ro⟩]⟩
def F.TIM_SRC_primary : Fld := ⟨R.TIM_SRC, 31, 25, .ro⟩
def F.TIM_SRC_secondary : Fld := ⟨R.TIM_SRC, 24, 18, .ro⟩
def F.TIM_SRC_interval : Fld := ⟨R.TIM_SRC, 17, 14, .ro⟩
def F.TIM_SRC_holdover_ms : Fld := ⟨R.TIM_SRC, 13, 6, .ro⟩
def F.TIM_SRC_domain : Fld := ⟨R.TIM_SRC, 5, 0, .ro⟩
/-- TIM_ASYM: 09, field map TIM_ASYM_n. -/
def R.TIM_ASYM : RegDef := ⟨"TIM_ASYM", 0x00100600, [(96, 0x4)], 0x00000000#32,
  [⟨"asym", 31, 0, .ro⟩]⟩
def F.TIM_ASYM_asym : Fld := ⟨R.TIM_ASYM, 31, 0, .ro⟩
/-- TIM_PTPM_LO: 09, field map TIM_PTPM_LO. -/
def R.TIM_PTPM_LO : RegDef := ⟨"TIM_PTPM_LO", 0x00100450, [], 0x00000000#32,
  [⟨"theta_lo", 31, 0, .wo⟩]⟩
def F.TIM_PTPM_LO_theta_lo : Fld := ⟨R.TIM_PTPM_LO, 31, 0, .wo⟩
/-- TIM_PTPM_HI: 09, field map TIM_PTPM_HI. -/
def R.TIM_PTPM_HI : RegDef := ⟨"TIM_PTPM_HI", 0x00100454, [], 0x00000000#32,
  [⟨"theta_hi", 31, 0, .wo⟩]⟩
def F.TIM_PTPM_HI_theta_hi : Fld := ⟨R.TIM_PTPM_HI, 31, 0, .wo⟩
/-- TIM_SERVO: 09, field map TIM_SERVO. -/
def R.TIM_SERVO : RegDef := ⟨"TIM_SERVO", 0x0010041C, [], 0x15080888#32,
  [⟨"kp_shift", 31, 28, .ro⟩, ⟨"ki_shift", 27, 24, .ro⟩, ⟨"delay_gate", 23, 16, .ro⟩, ⟨"lock_ns", 15, 8, .ro⟩, ⟨"rate_lim", 7, 4, .ro⟩, ⟨"step_en", 3, 3, .ro⟩, ⟨"reserved", 2, 0, .ro⟩]⟩
def F.TIM_SERVO_kp_shift : Fld := ⟨R.TIM_SERVO, 31, 28, .ro⟩
def F.TIM_SERVO_ki_shift : Fld := ⟨R.TIM_SERVO, 27, 24, .ro⟩
def F.TIM_SERVO_delay_gate : Fld := ⟨R.TIM_SERVO, 23, 16, .ro⟩
def F.TIM_SERVO_lock_ns : Fld := ⟨R.TIM_SERVO, 15, 8, .ro⟩
def F.TIM_SERVO_rate_lim : Fld := ⟨R.TIM_SERVO, 7, 4, .ro⟩
def F.TIM_SERVO_step_en : Fld := ⟨R.TIM_SERVO, 3, 3, .ro⟩
/-- TIM_STAT: 09, field map TIM_STAT. -/
def R.TIM_STAT : RegDef := ⟨"TIM_STAT", 0x00100420, [], 0x20F00000#32,
  [⟨"state", 31, 29, .ro⟩, ⟨"locked", 28, 28, .rl⟩, ⟨"unlock_hist", 27, 27, .w1c⟩, ⟨"on_secondary", 26, 26, .rl⟩, ⟨"slewing", 25, 25, .rl⟩, ⟨"step_hist", 24, 24, .w1c⟩, ⟨"hops", 23, 20, .ro⟩, ⟨"set_refused", 19, 19, .w1c⟩, ⟨"reserved", 18, 16, .ro⟩, ⟨"accepted", 15, 0, .ro⟩]⟩
def F.TIM_STAT_state : Fld := ⟨R.TIM_STAT, 31, 29, .ro⟩
def F.TIM_STAT_locked : Fld := ⟨R.TIM_STAT, 28, 28, .rl⟩
def F.TIM_STAT_unlock_hist : Fld := ⟨R.TIM_STAT, 27, 27, .w1c⟩
def F.TIM_STAT_on_secondary : Fld := ⟨R.TIM_STAT, 26, 26, .rl⟩
def F.TIM_STAT_slewing : Fld := ⟨R.TIM_STAT, 25, 25, .rl⟩
def F.TIM_STAT_step_hist : Fld := ⟨R.TIM_STAT, 24, 24, .w1c⟩
def F.TIM_STAT_hops : Fld := ⟨R.TIM_STAT, 23, 20, .ro⟩
def F.TIM_STAT_set_refused : Fld := ⟨R.TIM_STAT, 19, 19, .w1c⟩
def F.TIM_STAT_accepted : Fld := ⟨R.TIM_STAT, 15, 0, .ro⟩
/-- TIM_THETA: 09, field map TIM_THETA. -/
def R.TIM_THETA : RegDef := ⟨"TIM_THETA", 0x00100424, [], 0x00000000#32,
  [⟨"theta", 31, 0, .ro⟩]⟩
def F.TIM_THETA_theta : Fld := ⟨R.TIM_THETA, 31, 0, .ro⟩
/-- TIM_DELAY: 09, field map TIM_DELAY. -/
def R.TIM_DELAY : RegDef := ⟨"TIM_DELAY", 0x00100428, [], 0x00000000#32,
  [⟨"delay", 31, 0, .ro⟩]⟩
def F.TIM_DELAY_delay : Fld := ⟨R.TIM_DELAY, 31, 0, .ro⟩
/-- TIM_SET_LO: 09, field map TIM_SET_LO. -/
def R.TIM_SET_LO : RegDef := ⟨"TIM_SET_LO", 0x00100440, [], 0x00000000#32,
  [⟨"ns_lo", 31, 0, .wo⟩]⟩
def F.TIM_SET_LO_ns_lo : Fld := ⟨R.TIM_SET_LO, 31, 0, .wo⟩
/-- TIM_SET_HI: 09, field map TIM_SET_HI. -/
def R.TIM_SET_HI : RegDef := ⟨"TIM_SET_HI", 0x00100444, [], 0x00000000#32,
  [⟨"ns_hi", 31, 0, .wo⟩]⟩
def F.TIM_SET_HI_ns_hi : Fld := ⟨R.TIM_SET_HI, 31, 0, .wo⟩
/-- TIM_TS_STAT: 09, field map TIM_TS_STAT_x. -/
def R.TIM_TS_STAT : RegDef := ⟨"TIM_TS_STAT", 0x00100480, [(6, 0x10)], 0x00000000#32,
  [⟨"valid", 31, 31, .ro⟩, ⟨"overflow", 30, 30, .w1c⟩, ⟨"late", 29, 29, .ro⟩, ⟨"refused", 28, 28, .ro⟩, ⟨"unlocked", 27, 27, .ro⟩, ⟨"depth", 26, 21, .ro⟩, ⟨"reserved", 20, 16, .ro⟩, ⟨"id", 15, 0, .ro⟩]⟩
def F.TIM_TS_STAT_valid : Fld := ⟨R.TIM_TS_STAT, 31, 31, .ro⟩
def F.TIM_TS_STAT_overflow : Fld := ⟨R.TIM_TS_STAT, 30, 30, .w1c⟩
def F.TIM_TS_STAT_late : Fld := ⟨R.TIM_TS_STAT, 29, 29, .ro⟩
def F.TIM_TS_STAT_refused : Fld := ⟨R.TIM_TS_STAT, 28, 28, .ro⟩
def F.TIM_TS_STAT_unlocked : Fld := ⟨R.TIM_TS_STAT, 27, 27, .ro⟩
def F.TIM_TS_STAT_depth : Fld := ⟨R.TIM_TS_STAT, 26, 21, .ro⟩
def F.TIM_TS_STAT_id : Fld := ⟨R.TIM_TS_STAT, 15, 0, .ro⟩
/-- TIM_TS_FRAC: 09, field map TIM_TS_FRAC_x. -/
def R.TIM_TS_FRAC : RegDef := ⟨"TIM_TS_FRAC", 0x00100484, [(6, 0x10)], 0x00000000#32,
  [⟨"frac", 31, 0, .ro⟩]⟩
def F.TIM_TS_FRAC_frac : Fld := ⟨R.TIM_TS_FRAC, 31, 0, .ro⟩
/-- TIM_TS_LO: 09, field map TIM_TS_LO_x. -/
def R.TIM_TS_LO : RegDef := ⟨"TIM_TS_LO", 0x00100488, [(6, 0x10)], 0x00000000#32,
  [⟨"ns_lo", 31, 0, .ro⟩]⟩
def F.TIM_TS_LO_ns_lo : Fld := ⟨R.TIM_TS_LO, 31, 0, .ro⟩
/-- TIM_TS_HI: 09, field map TIM_TS_HI_x. -/
def R.TIM_TS_HI : RegDef := ⟨"TIM_TS_HI", 0x0010048C, [(6, 0x10)], 0x00000000#32,
  [⟨"ns_hi", 31, 0, .ro⟩]⟩
def F.TIM_TS_HI_ns_hi : Fld := ⟨R.TIM_TS_HI, 31, 0, .ro⟩
/-- TIM_CAP: 09, field map TIM_CAP_c. -/
def R.TIM_CAP : RegDef := ⟨"TIM_CAP", 0x00100500, [(4, 0x4)], 0x00000000#32,
  [⟨"src", 31, 28, .rw⟩, ⟨"reserved", 27, 27, .rwb⟩, ⟨"link", 26, 20, .rw⟩, ⟨"launch_class", 19, 17, .rw⟩, ⟨"reserved", 16, 0, .rwb⟩]⟩
def F.TIM_CAP_src : Fld := ⟨R.TIM_CAP, 31, 28, .rw⟩
def F.TIM_CAP_link : Fld := ⟨R.TIM_CAP, 26, 20, .rw⟩
def F.TIM_CAP_launch_class : Fld := ⟨R.TIM_CAP, 19, 17, .rw⟩
/-- TIM_UTC_LO: 09, field map TIM_UTC_LO. -/
def R.TIM_UTC_LO : RegDef := ⟨"TIM_UTC_LO", 0x00100448, [], 0x00000000#32,
  [⟨"utc_lo", 31, 0, .rw⟩]⟩
def F.TIM_UTC_LO_utc_lo : Fld := ⟨R.TIM_UTC_LO, 31, 0, .rw⟩
/-- TIM_UTC_HI: 09, field map TIM_UTC_HI. -/
def R.TIM_UTC_HI : RegDef := ⟨"TIM_UTC_HI", 0x0010044C, [], 0x00000000#32,
  [⟨"utc_hi", 31, 0, .rw⟩]⟩
def F.TIM_UTC_HI_utc_hi : Fld := ⟨R.TIM_UTC_HI, 31, 0, .rw⟩
/-- ENG_SCHK: 10, field map ENG_SCHK. -/
def R.ENG_SCHK : RegDef := ⟨"ENG_SCHK", 0x01002300, [(144, 0x10000)], 0x92000000#32,
  [⟨"auto", 31, 31, .ro⟩, ⟨"mis_hist", 30, 30, .w1c⟩, ⟨"tol_shift", 29, 24, .ro⟩, ⟨"mismatches", 23, 16, .ro⟩, ⟨"skipped", 15, 0, .ro⟩]⟩
def F.ENG_SCHK_auto : Fld := ⟨R.ENG_SCHK, 31, 31, .ro⟩
def F.ENG_SCHK_mis_hist : Fld := ⟨R.ENG_SCHK, 30, 30, .w1c⟩
def F.ENG_SCHK_tol_shift : Fld := ⟨R.ENG_SCHK, 29, 24, .ro⟩
def F.ENG_SCHK_mismatches : Fld := ⟨R.ENG_SCHK, 23, 16, .ro⟩
def F.ENG_SCHK_skipped : Fld := ⟨R.ENG_SCHK, 15, 0, .ro⟩
/-- UMP_CFG: 10, field map UMP_CFG. -/
def R.UMP_CFG : RegDef := ⟨"UMP_CFG", 0x01002400, [(144, 0x10000)], 0x00000000#32,
  [⟨"enable", 31, 31, .ro⟩, ⟨"engine", 30, 27, .ro⟩, ⟨"rate", 26, 22, .ro⟩, ⟨"reserved", 21, 16, .ro⟩, ⟨"seed", 15, 0, .ro⟩]⟩
def F.UMP_CFG_enable : Fld := ⟨R.UMP_CFG, 31, 31, .ro⟩
def F.UMP_CFG_engine : Fld := ⟨R.UMP_CFG, 30, 27, .ro⟩
def F.UMP_CFG_rate : Fld := ⟨R.UMP_CFG, 26, 22, .ro⟩
def F.UMP_CFG_seed : Fld := ⟨R.UMP_CFG, 15, 0, .ro⟩
/-- UMP_STAT: 10, field map UMP_STAT. -/
def R.UMP_STAT : RegDef := ⟨"UMP_STAT", 0x01002404, [(144, 0x10000)], 0x00000000#32,
  [⟨"mis_hist", 31, 31, .w1c⟩, ⟨"busy", 30, 30, .rl⟩, ⟨"transients", 29, 28, .ro⟩, ⟨"reserved", 27, 24, .ro⟩, ⟨"mismatches", 23, 16, .ro⟩, ⟨"busy_skips", 15, 0, .ro⟩]⟩
def F.UMP_STAT_mis_hist : Fld := ⟨R.UMP_STAT, 31, 31, .w1c⟩
def F.UMP_STAT_busy : Fld := ⟨R.UMP_STAT, 30, 30, .rl⟩
def F.UMP_STAT_transients : Fld := ⟨R.UMP_STAT, 29, 28, .ro⟩
def F.UMP_STAT_mismatches : Fld := ⟨R.UMP_STAT, 23, 16, .ro⟩
def F.UMP_STAT_busy_skips : Fld := ⟨R.UMP_STAT, 15, 0, .ro⟩
/-- WCH_SEL: 10, field map WCH_SEL. -/
def R.WCH_SEL : RegDef := ⟨"WCH_SEL", 0x00000C00, [], 0x00000000#32,
  [⟨"reserved", 31, 12, .rwb⟩, ⟨"crew", 11, 8, .rw⟩, ⟨"slot", 7, 0, .rw⟩]⟩
def F.WCH_SEL_crew : Fld := ⟨R.WCH_SEL, 11, 8, .rw⟩
def F.WCH_SEL_slot : Fld := ⟨R.WCH_SEL, 7, 0, .rw⟩
/-- WCH_CTL: 10, field map WCH_CTL. -/
def R.WCH_CTL : RegDef := ⟨"WCH_CTL", 0x00000C04, [], 0x00000000#32,
  [⟨"active", 31, 31, .ro⟩, ⟨"step_close", 30, 30, .ro⟩, ⟨"close_pending", 29, 29, .rl⟩, ⟨"close", 28, 28, .wo⟩, ⟨"reserved", 27, 0, .rwb⟩]⟩
def F.WCH_CTL_active : Fld := ⟨R.WCH_CTL, 31, 31, .ro⟩
def F.WCH_CTL_step_close : Fld := ⟨R.WCH_CTL, 30, 30, .ro⟩
def F.WCH_CTL_close_pending : Fld := ⟨R.WCH_CTL, 29, 29, .rl⟩
def F.WCH_CTL_close : Fld := ⟨R.WCH_CTL, 28, 28, .wo⟩
/-- WCH_COORD: 10, field map WCH_COORD_w. -/
def R.WCH_COORD : RegDef := ⟨"WCH_COORD", 0x01002800, [(144, 0x10000), (256, 0x4)], 0x00000000#32,
  [⟨"valid", 31, 31, .ro⟩, ⟨"log2_entries", 30, 27, .ro⟩, ⟨"reserved", 26, 18, .ro⟩, ⟨"base", 17, 0, .ro⟩]⟩
def F.WCH_COORD_valid : Fld := ⟨R.WCH_COORD, 31, 31, .ro⟩
def F.WCH_COORD_log2_entries : Fld := ⟨R.WCH_COORD, 30, 27, .ro⟩
def F.WCH_COORD_base : Fld := ⟨R.WCH_COORD, 17, 0, .ro⟩
/-- GLB_DET: 10, field map GLB_DET. -/
def R.GLB_DET : RegDef := ⟨"GLB_DET", 0x00000060, [], 0x00000000#32,
  [⟨"fixed", 31, 31, .ro⟩, ⟨"reserved", 30, 0, .ro⟩]⟩
def F.GLB_DET_fixed : Fld := ⟨R.GLB_DET, 31, 31, .ro⟩
/-- GLB_FLT_BASE_LO: 11, field map GLB_FLT_BASE_LO. -/
def R.GLB_FLT_BASE_LO : RegDef := ⟨"GLB_FLT_BASE_LO", 0x00000080, [], 0x00000000#32,
  [⟨"base_lo", 31, 9, .rw⟩, ⟨"reserved", 8, 0, .ro⟩]⟩
def F.GLB_FLT_BASE_LO_base_lo : Fld := ⟨R.GLB_FLT_BASE_LO, 31, 9, .rw⟩
/-- GLB_FLT_BASE_HI: 11, field map GLB_FLT_BASE_HI. -/
def R.GLB_FLT_BASE_HI : RegDef := ⟨"GLB_FLT_BASE_HI", 0x00000084, [], 0x00000000#32,
  [⟨"base_hi", 31, 0, .rw⟩]⟩
def F.GLB_FLT_BASE_HI_base_hi : Fld := ⟨R.GLB_FLT_BASE_HI, 31, 0, .rw⟩
/-- GLB_FLT_CTL: 11, field map GLB_FLT_CTL. -/
def R.GLB_FLT_CTL : RegDef := ⟨"GLB_FLT_CTL", 0x00000088, [], 0x10A00000#32,
  [⟨"enable", 31, 31, .rw⟩, ⟨"cper", 30, 30, .rw⟩, ⟨"in_hbm", 29, 29, .rw⟩, ⟨"log2_entries", 28, 25, .rw⟩, ⟨"ce_stride", 24, 20, .rw⟩, ⟨"reserved", 19, 11, .rwb⟩, ⟨"vector", 10, 0, .rw⟩]⟩
def F.GLB_FLT_CTL_enable : Fld := ⟨R.GLB_FLT_CTL, 31, 31, .rw⟩
def F.GLB_FLT_CTL_cper : Fld := ⟨R.GLB_FLT_CTL, 30, 30, .rw⟩
def F.GLB_FLT_CTL_in_hbm : Fld := ⟨R.GLB_FLT_CTL, 29, 29, .rw⟩
def F.GLB_FLT_CTL_log2_entries : Fld := ⟨R.GLB_FLT_CTL, 28, 25, .rw⟩
def F.GLB_FLT_CTL_ce_stride : Fld := ⟨R.GLB_FLT_CTL, 24, 20, .rw⟩
def F.GLB_FLT_CTL_vector : Fld := ⟨R.GLB_FLT_CTL, 10, 0, .rw⟩
/-- GLB_FLT_TAIL: 11, field map GLB_FLT_TAIL. -/
def R.GLB_FLT_TAIL : RegDef := ⟨"GLB_FLT_TAIL", 0x0000008C, [], 0x00000000#32,
  [⟨"reserved", 31, 16, .ro⟩, ⟨"tail", 15, 0, .ro⟩]⟩
def F.GLB_FLT_TAIL_tail : Fld := ⟨R.GLB_FLT_TAIL, 15, 0, .ro⟩
/-- GLB_FLT_HEAD: 11, field map GLB_FLT_HEAD. -/
def R.GLB_FLT_HEAD : RegDef := ⟨"GLB_FLT_HEAD", 0x00000090, [], 0x00000000#32,
  [⟨"reserved", 31, 16, .rwb⟩, ⟨"head", 15, 0, .rw⟩]⟩
def F.GLB_FLT_HEAD_head : Fld := ⟨R.GLB_FLT_HEAD, 15, 0, .rw⟩
/-- GLB_FLT_LOST: 11, field map GLB_FLT_LOST. -/
def R.GLB_FLT_LOST : RegDef := ⟨"GLB_FLT_LOST", 0x00000094, [], 0x00000000#32,
  [⟨"lost", 31, 0, .ro⟩]⟩
def F.GLB_FLT_LOST_lost : Fld := ⟨R.GLB_FLT_LOST, 31, 0, .ro⟩
/-- GLB_HEALTH: 11, field map GLB_HEALTH. -/
def R.GLB_HEALTH : RegDef := ⟨"GLB_HEALTH", 0x00000068, [], 0x00000000#32,
  [⟨"replace", 31, 31, .ro⟩, ⟨"draining", 30, 30, .rl⟩, ⟨"drained", 29, 29, .rl⟩, ⟨"suspect", 28, 28, .rl⟩, ⟨"reason", 27, 24, .ro⟩, ⟨"hard_faults", 23, 16, .ro⟩, ⟨"reserved", 15, 5, .ro⟩, ⟨"spares_left", 4, 0, .ro⟩]⟩
def F.GLB_HEALTH_replace : Fld := ⟨R.GLB_HEALTH, 31, 31, .ro⟩
def F.GLB_HEALTH_draining : Fld := ⟨R.GLB_HEALTH, 30, 30, .rl⟩
def F.GLB_HEALTH_drained : Fld := ⟨R.GLB_HEALTH, 29, 29, .rl⟩
def F.GLB_HEALTH_suspect : Fld := ⟨R.GLB_HEALTH, 28, 28, .rl⟩
def F.GLB_HEALTH_reason : Fld := ⟨R.GLB_HEALTH, 27, 24, .ro⟩
def F.GLB_HEALTH_hard_faults : Fld := ⟨R.GLB_HEALTH, 23, 16, .ro⟩
def F.GLB_HEALTH_spares_left : Fld := ⟨R.GLB_HEALTH, 4, 0, .ro⟩
/-- GLB_WDOG_A: 12, field map GLB_WDOG_A. -/
def R.GLB_WDOG_A : RegDef := ⟨"GLB_WDOG_A", 0x00000200, [], 0x271003E8#32,
  [⟨"queue_ms", 31, 16, .ro⟩, ⟨"tally_ms", 15, 0, .ro⟩]⟩
def F.GLB_WDOG_A_queue_ms : Fld := ⟨R.GLB_WDOG_A, 31, 16, .ro⟩
def F.GLB_WDOG_A_tally_ms : Fld := ⟨R.GLB_WDOG_A, 15, 0, .ro⟩
/-- GLB_WDOG_B: 12, field map GLB_WDOG_B. -/
def R.GLB_WDOG_B : RegDef := ⟨"GLB_WDOG_B", 0x00000204, [], 0x006440FF#32,
  [⟨"coll_ms", 31, 16, .ro⟩, ⟨"engine_strokes", 15, 8, .ro⟩, ⟨"slip_limit", 7, 0, .ro⟩]⟩
def F.GLB_WDOG_B_coll_ms : Fld := ⟨R.GLB_WDOG_B, 31, 16, .ro⟩
def F.GLB_WDOG_B_engine_strokes : Fld := ⟨R.GLB_WDOG_B, 15, 8, .ro⟩
def F.GLB_WDOG_B_slip_limit : Fld := ⟨R.GLB_WDOG_B, 7, 0, .ro⟩
/-- GLB_FMGR: 12, field map GLB_FMGR. -/
def R.GLB_FMGR : RegDef := ⟨"GLB_FMGR", 0x00000208, [], 0x00080000#32,
  [⟨"fm_valid", 31, 31, .ro⟩, ⟨"reserved", 30, 22, .ro⟩, ⟨"replay_limit", 21, 18, .ro⟩, ⟨"fm_package", 17, 0, .ro⟩]⟩
def F.GLB_FMGR_fm_valid : Fld := ⟨R.GLB_FMGR, 31, 31, .ro⟩
def F.GLB_FMGR_replay_limit : Fld := ⟨R.GLB_FMGR, 21, 18, .ro⟩
def F.GLB_FMGR_fm_package : Fld := ⟨R.GLB_FMGR, 17, 0, .ro⟩
/-- GLB_DUMP_BASE_LO: 12, field map GLB_DUMP_BASE_LO. -/
def R.GLB_DUMP_BASE_LO : RegDef := ⟨"GLB_DUMP_BASE_LO", 0x00000210, [], 0x00000000#32,
  [⟨"base_lo", 31, 24, .ro⟩, ⟨"reserved", 23, 1, .ro⟩, ⟨"on_rollback", 0, 0, .ro⟩]⟩
def F.GLB_DUMP_BASE_LO_base_lo : Fld := ⟨R.GLB_DUMP_BASE_LO, 31, 24, .ro⟩
def F.GLB_DUMP_BASE_LO_on_rollback : Fld := ⟨R.GLB_DUMP_BASE_LO, 0, 0, .ro⟩
/-- GLB_DUMP_BASE_HI: 12, field map GLB_DUMP_BASE_HI. -/
def R.GLB_DUMP_BASE_HI : RegDef := ⟨"GLB_DUMP_BASE_HI", 0x00000214, [], 0x00000000#32,
  [⟨"reserved", 31, 7, .ro⟩, ⟨"base_hi", 6, 0, .ro⟩]⟩
def F.GLB_DUMP_BASE_HI_base_hi : Fld := ⟨R.GLB_DUMP_BASE_HI, 6, 0, .ro⟩
/-- GLB_DUMP: 12, field map GLB_DUMP. -/
def R.GLB_DUMP : RegDef := ⟨"GLB_DUMP", 0x00000218, [], 0x00000000#32,
  [⟨"busy", 31, 31, .rl⟩, ⟨"slot", 30, 30, .ro⟩, ⟨"skipped", 29, 29, .w1c⟩, ⟨"cause", 28, 25, .ro⟩, ⟨"crew", 24, 21, .ro⟩, ⟨"reserved", 20, 16, .ro⟩, ⟨"seq", 15, 0, .ro⟩]⟩
def F.GLB_DUMP_busy : Fld := ⟨R.GLB_DUMP, 31, 31, .rl⟩
def F.GLB_DUMP_slot : Fld := ⟨R.GLB_DUMP, 30, 30, .ro⟩
def F.GLB_DUMP_skipped : Fld := ⟨R.GLB_DUMP, 29, 29, .w1c⟩
def F.GLB_DUMP_cause : Fld := ⟨R.GLB_DUMP, 28, 25, .ro⟩
def F.GLB_DUMP_crew : Fld := ⟨R.GLB_DUMP, 24, 21, .ro⟩
def F.GLB_DUMP_seq : Fld := ⟨R.GLB_DUMP, 15, 0, .ro⟩
/-- GLB_RCV_CMD: 12, field map GLB_RCV_CMD. -/
def R.GLB_RCV_CMD : RegDef := ⟨"GLB_RCV_CMD", 0x00000220, [], 0x00000000#32,
  [⟨"busy", 31, 31, .rl⟩, ⟨"refused", 30, 30, .w1c⟩, ⟨"reserved", 29, 28, .rwb⟩, ⟨"op", 27, 24, .rw⟩, ⟨"crew", 23, 20, .rw⟩, ⟨"core", 19, 12, .rw⟩, ⟨"unit", 11, 8, .rw⟩, ⟨"reserved", 7, 2, .rwb⟩, ⟨"at_valid", 1, 1, .rw⟩, ⟨"go", 0, 0, .wo⟩]⟩
def F.GLB_RCV_CMD_busy : Fld := ⟨R.GLB_RCV_CMD, 31, 31, .rl⟩
def F.GLB_RCV_CMD_refused : Fld := ⟨R.GLB_RCV_CMD, 30, 30, .w1c⟩
def F.GLB_RCV_CMD_op : Fld := ⟨R.GLB_RCV_CMD, 27, 24, .rw⟩
def F.GLB_RCV_CMD_crew : Fld := ⟨R.GLB_RCV_CMD, 23, 20, .rw⟩
def F.GLB_RCV_CMD_core : Fld := ⟨R.GLB_RCV_CMD, 19, 12, .rw⟩
def F.GLB_RCV_CMD_unit : Fld := ⟨R.GLB_RCV_CMD, 11, 8, .rw⟩
def F.GLB_RCV_CMD_at_valid : Fld := ⟨R.GLB_RCV_CMD, 1, 1, .rw⟩
def F.GLB_RCV_CMD_go : Fld := ⟨R.GLB_RCV_CMD, 0, 0, .wo⟩
/-- GLB_RCV: 12, field map GLB_RCV_n. -/
def R.GLB_RCV : RegDef := ⟨"GLB_RCV", 0x00000240, [(16, 0x4)], 0x00000000#32,
  [⟨"state", 31, 29, .ro⟩, ⟨"points", 28, 27, .ro⟩, ⟨"joint", 26, 26, .ro⟩, ⟨"no_point", 25, 25, .rl⟩, ⟨"rb_hist", 24, 24, .w1c⟩, ⟨"consecutive", 23, 20, .ro⟩, ⟨"reserved", 19, 16, .ro⟩, ⟨"rollbacks", 15, 0, .ro⟩]⟩
def F.GLB_RCV_state : Fld := ⟨R.GLB_RCV, 31, 29, .ro⟩
def F.GLB_RCV_points : Fld := ⟨R.GLB_RCV, 28, 27, .ro⟩
def F.GLB_RCV_joint : Fld := ⟨R.GLB_RCV, 26, 26, .ro⟩
def F.GLB_RCV_no_point : Fld := ⟨R.GLB_RCV, 25, 25, .rl⟩
def F.GLB_RCV_rb_hist : Fld := ⟨R.GLB_RCV, 24, 24, .w1c⟩
def F.GLB_RCV_consecutive : Fld := ⟨R.GLB_RCV, 23, 20, .ro⟩
def F.GLB_RCV_rollbacks : Fld := ⟨R.GLB_RCV, 15, 0, .ro⟩
/-- CHK_CFG: 13, field map CHK_CFG_n. -/
def R.CHK_CFG : RegDef := ⟨"CHK_CFG", 0x00001000, [(16, 0x40)], 0x00000000#32,
  [⟨"protect", 31, 31, .ro⟩, ⟨"one_point", 30, 30, .ro⟩, ⟨"reserved", 29, 24, .ro⟩, ⟨"freeze", 23, 16, .ro⟩, ⟨"reserved", 15, 6, .ro⟩, ⟨"timer_kind", 5, 4, .ro⟩, ⟨"step_kind", 3, 2, .ro⟩, ⟨"reserved", 1, 0, .ro⟩]⟩
def F.CHK_CFG_protect : Fld := ⟨R.CHK_CFG, 31, 31, .ro⟩
def F.CHK_CFG_one_point : Fld := ⟨R.CHK_CFG, 30, 30, .ro⟩
def F.CHK_CFG_freeze : Fld := ⟨R.CHK_CFG, 23, 16, .ro⟩
def F.CHK_CFG_timer_kind : Fld := ⟨R.CHK_CFG, 5, 4, .ro⟩
def F.CHK_CFG_step_kind : Fld := ⟨R.CHK_CFG, 3, 2, .ro⟩
/-- CHK_TIMER: 13, field map CHK_TIMER_n. -/
def R.CHK_TIMER : RegDef := ⟨"CHK_TIMER", 0x00001004, [(16, 0x40)], 0x00000000#32,
  [⟨"strokes", 31, 0, .ro⟩]⟩
def F.CHK_TIMER_strokes : Fld := ⟨R.CHK_TIMER, 31, 0, .ro⟩
/-- CHK_STEPS: 13, field map CHK_STEPS_n. -/
def R.CHK_STEPS : RegDef := ⟨"CHK_STEPS", 0x00001008, [(16, 0x40)], 0x00000000#32,
  [⟨"every", 31, 16, .ro⟩, ⟨"committed", 15, 0, .ro⟩]⟩
def F.CHK_STEPS_every : Fld := ⟨R.CHK_STEPS, 31, 16, .ro⟩
def F.CHK_STEPS_committed : Fld := ⟨R.CHK_STEPS, 15, 0, .ro⟩
/-- CHK_RSV: 13, field map CHK_RSV_n. -/
def R.CHK_RSV : RegDef := ⟨"CHK_RSV", 0x0000100C, [(16, 0x40)], 0x00000000#32,
  [⟨"reserved", 31, 18, .ro⟩, ⟨"size", 17, 0, .ro⟩]⟩
def F.CHK_RSV_size : Fld := ⟨R.CHK_RSV, 17, 0, .ro⟩
/-- CHK_FREE: 13, field map CHK_FREE_n. -/
def R.CHK_FREE : RegDef := ⟨"CHK_FREE", 0x00001010, [(16, 0x40)], 0x00000000#32,
  [⟨"unprot", 31, 31, .rl⟩, ⟨"unprot_hist", 30, 30, .w1c⟩, ⟨"reserved", 29, 18, .ro⟩, ⟨"free", 17, 0, .ro⟩]⟩
def F.CHK_FREE_unprot : Fld := ⟨R.CHK_FREE, 31, 31, .rl⟩
def F.CHK_FREE_unprot_hist : Fld := ⟨R.CHK_FREE, 30, 30, .w1c⟩
def F.CHK_FREE_free : Fld := ⟨R.CHK_FREE, 17, 0, .ro⟩
/-- CHK_STAT: 13, field map CHK_STAT_n. -/
def R.CHK_STAT : RegDef := ⟨"CHK_STAT", 0x00001014, [(16, 0x40)], 0x00000000#32,
  [⟨"state", 31, 29, .ro⟩, ⟨"status", 28, 25, .ro⟩, ⟨"kind", 24, 24, .ro⟩, ⟨"skipped", 23, 16, .ro⟩, ⟨"seq", 15, 0, .ro⟩]⟩
def F.CHK_STAT_state : Fld := ⟨R.CHK_STAT, 31, 29, .ro⟩
def F.CHK_STAT_status : Fld := ⟨R.CHK_STAT, 28, 25, .ro⟩
def F.CHK_STAT_kind : Fld := ⟨R.CHK_STAT, 24, 24, .ro⟩
def F.CHK_STAT_skipped : Fld := ⟨R.CHK_STAT, 23, 16, .ro⟩
def F.CHK_STAT_seq : Fld := ⟨R.CHK_STAT, 15, 0, .ro⟩
/-- CHK_ACK: 13, field map CHK_ACK_n. -/
def R.CHK_ACK : RegDef := ⟨"CHK_ACK", 0x00001018, [(16, 0x40)], 0x00000000#32,
  [⟨"reserved", 31, 16, .rwb⟩, ⟨"seq", 15, 0, .rw⟩]⟩
def F.CHK_ACK_seq : Fld := ⟨R.CHK_ACK, 15, 0, .rw⟩
/-- CHK_CKPT: 13, field map CHK_CKPT_n. -/
def R.CHK_CKPT : RegDef := ⟨"CHK_CKPT", 0x0000101C, [(16, 0x40)], 0x00000000#32,
  [⟨"reserved", 31, 18, .ro⟩, ⟨"base", 17, 0, .ro⟩]⟩
def F.CHK_CKPT_base : Fld := ⟨R.CHK_CKPT, 17, 0, .ro⟩
/-- CHK_CKSZ: 13, field map CHK_CKSZ_n. -/
def R.CHK_CKSZ : RegDef := ⟨"CHK_CKSZ", 0x00001020, [(16, 0x40)], 0x00000000#32,
  [⟨"reserved", 31, 18, .ro⟩, ⟨"size", 17, 0, .ro⟩]⟩
def F.CHK_CKSZ_size : Fld := ⟨R.CHK_CKSZ, 17, 0, .ro⟩
/-- CHK_SAVE_LO: 13, field map CHK_SAVE_LO_n. -/
def R.CHK_SAVE_LO : RegDef := ⟨"CHK_SAVE_LO", 0x00001028, [(16, 0x40)], 0x00000000#32,
  [⟨"addr_lo", 31, 8, .rw⟩, ⟨"reserved", 7, 0, .ro⟩]⟩
def F.CHK_SAVE_LO_addr_lo : Fld := ⟨R.CHK_SAVE_LO, 31, 8, .rw⟩
/-- CHK_SAVE_HI: 13, field map CHK_SAVE_HI_n. -/
def R.CHK_SAVE_HI : RegDef := ⟨"CHK_SAVE_HI", 0x0000102C, [(16, 0x40)], 0x00000000#32,
  [⟨"count", 31, 16, .rw⟩, ⟨"reserved", 15, 7, .rwb⟩, ⟨"addr_hi", 6, 0, .rw⟩]⟩
def F.CHK_SAVE_HI_count : Fld := ⟨R.CHK_SAVE_HI, 31, 16, .rw⟩
def F.CHK_SAVE_HI_addr_hi : Fld := ⟨R.CHK_SAVE_HI, 6, 0, .rw⟩
/-- CHK_CMD: 13, field map CHK_CMD. -/
def R.CHK_CMD : RegDef := ⟨"CHK_CMD", 0x00001400, [], 0x00000000#32,
  [⟨"busy", 31, 31, .rl⟩, ⟨"refused", 30, 30, .w1c⟩, ⟨"reserved", 29, 28, .rwb⟩, ⟨"op", 27, 24, .rw⟩, ⟨"crew", 23, 20, .rw⟩, ⟨"reserved", 19, 2, .rwb⟩, ⟨"at_valid", 1, 1, .rw⟩, ⟨"go", 0, 0, .wo⟩]⟩
def F.CHK_CMD_busy : Fld := ⟨R.CHK_CMD, 31, 31, .rl⟩
def F.CHK_CMD_refused : Fld := ⟨R.CHK_CMD, 30, 30, .w1c⟩
def F.CHK_CMD_op : Fld := ⟨R.CHK_CMD, 27, 24, .rw⟩
def F.CHK_CMD_crew : Fld := ⟨R.CHK_CMD, 23, 20, .rw⟩
def F.CHK_CMD_at_valid : Fld := ⟨R.CHK_CMD, 1, 1, .rw⟩
def F.CHK_CMD_go : Fld := ⟨R.CHK_CMD, 0, 0, .wo⟩
/-- COX_STAT: 14, field map COX_STAT. -/
def R.COX_STAT : RegDef := ⟨"COX_STAT", 0x03000000, [], 0x00000000#32,
  [⟨"state", 31, 29, .ro⟩, ⟨"active_core", 28, 28, .ro⟩, ⟨"pwr_warn", 27, 27, .rl⟩, ⟨"flushing", 26, 26, .rl⟩, ⟨"takeover_hist", 25, 25, .w1c⟩, ⟨"tray_ctl", 24, 24, .rl⟩, ⟨"takeovers", 23, 16, .ro⟩, ⟨"reserved", 15, 2, .ro⟩, ⟨"slot", 1, 0, .ro⟩]⟩
def F.COX_STAT_state : Fld := ⟨R.COX_STAT, 31, 29, .ro⟩
def F.COX_STAT_active_core : Fld := ⟨R.COX_STAT, 28, 28, .ro⟩
def F.COX_STAT_pwr_warn : Fld := ⟨R.COX_STAT, 27, 27, .rl⟩
def F.COX_STAT_flushing : Fld := ⟨R.COX_STAT, 26, 26, .rl⟩
def F.COX_STAT_takeover_hist : Fld := ⟨R.COX_STAT, 25, 25, .w1c⟩
def F.COX_STAT_tray_ctl : Fld := ⟨R.COX_STAT, 24, 24, .rl⟩
def F.COX_STAT_takeovers : Fld := ⟨R.COX_STAT, 23, 16, .ro⟩
def F.COX_STAT_slot : Fld := ⟨R.COX_STAT, 1, 0, .ro⟩
/-- COX_GATE: 14, field map COX_GATE_g. -/
def R.COX_GATE : RegDef := ⟨"COX_GATE", 0x03000040, [(6, 0x4)], 0x00000000#32,
  [⟨"bounded", 31, 31, .ro⟩, ⟨"in_gap", 30, 30, .rl⟩, ⟨"safe", 29, 29, .rl⟩, ⟨"refused_hist", 28, 28, .w1c⟩, ⟨"reserved", 27, 24, .ro⟩, ⟨"bound", 23, 0, .ro⟩]⟩
def F.COX_GATE_bounded : Fld := ⟨R.COX_GATE, 31, 31, .ro⟩
def F.COX_GATE_in_gap : Fld := ⟨R.COX_GATE, 30, 30, .rl⟩
def F.COX_GATE_safe : Fld := ⟨R.COX_GATE, 29, 29, .rl⟩
def F.COX_GATE_refused_hist : Fld := ⟨R.COX_GATE, 28, 28, .w1c⟩
def F.COX_GATE_bound : Fld := ⟨R.COX_GATE, 23, 0, .ro⟩
/-- NVS_STAT: 14, field map NVS_STAT. -/
def R.NVS_STAT : RegDef := ⟨"NVS_STAT", 0x03000100, [], 0x04000000#32,
  [⟨"ro", 31, 31, .rl⟩, ⟨"torn_hist", 30, 30, .w1c⟩, ⟨"reserved", 29, 27, .ro⟩, ⟨"spares_left", 26, 16, .ro⟩, ⟨"retries", 15, 0, .ro⟩]⟩
def F.NVS_STAT_ro : Fld := ⟨R.NVS_STAT, 31, 31, .rl⟩
def F.NVS_STAT_torn_hist : Fld := ⟨R.NVS_STAT, 30, 30, .w1c⟩
def F.NVS_STAT_spares_left : Fld := ⟨R.NVS_STAT, 26, 16, .ro⟩
def F.NVS_STAT_retries : Fld := ⟨R.NVS_STAT, 15, 0, .ro⟩
/-- NVS_WEAR: 14, field map NVS_WEAR. -/
def R.NVS_WEAR : RegDef := ⟨"NVS_WEAR", 0x03000104, [], 0x00000000#32,
  [⟨"wear_pct", 31, 24, .ro⟩, ⟨"reserved", 23, 16, .ro⟩, ⟨"retired", 15, 0, .ro⟩]⟩
def F.NVS_WEAR_wear_pct : Fld := ⟨R.NVS_WEAR, 31, 24, .ro⟩
def F.NVS_WEAR_retired : Fld := ⟨R.NVS_WEAR, 15, 0, .ro⟩
/-- LOG_CTL: 14, field map LOG_CTL. -/
def R.LOG_CTL : RegDef := ⟨"LOG_CTL", 0x0380000C, [], 0x80000000#32,
  [⟨"auto_inc", 31, 31, .rw⟩, ⟨"gone", 30, 30, .rl⟩, ⟨"lost_hist", 29, 29, .w1c⟩, ⟨"reserved", 28, 16, .rwb⟩, ⟨"unflushed", 15, 0, .ro⟩]⟩
def F.LOG_CTL_auto_inc : Fld := ⟨R.LOG_CTL, 31, 31, .rw⟩
def F.LOG_CTL_gone : Fld := ⟨R.LOG_CTL, 30, 30, .rl⟩
def F.LOG_CTL_lost_hist : Fld := ⟨R.LOG_CTL, 29, 29, .w1c⟩
def F.LOG_CTL_unflushed : Fld := ⟨R.LOG_CTL, 15, 0, .ro⟩
/-- JNL_STAT: 14, field map JNL_STAT. -/
def R.JNL_STAT : RegDef := ⟨"JNL_STAT", 0x03801018, [], 0x80000000#32,
  [⟨"auto_inc", 31, 31, .rw⟩, ⟨"gone", 30, 30, .rl⟩, ⟨"stall_hist", 29, 29, .w1c⟩, ⟨"reserved", 28, 16, .rwb⟩, ⟨"stalls", 15, 0, .ro⟩]⟩
def F.JNL_STAT_auto_inc : Fld := ⟨R.JNL_STAT, 31, 31, .rw⟩
def F.JNL_STAT_gone : Fld := ⟨R.JNL_STAT, 30, 30, .rl⟩
def F.JNL_STAT_stall_hist : Fld := ⟨R.JNL_STAT, 29, 29, .w1c⟩
def F.JNL_STAT_stalls : Fld := ⟨R.JNL_STAT, 15, 0, .ro⟩
/-- PMC_CNT_LO_CORE: 15, field map PMC_CNT_LO_k. -/
def R.PMC_CNT_LO_CORE : RegDef := ⟨"PMC_CNT_LO_CORE", 0x01003000, [(144, 0x10000), (16, 0x8)], 0x00000000#32,
  [⟨"count_lo", 31, 0, .ro⟩]⟩
def F.PMC_CNT_LO_CORE_count_lo : Fld := ⟨R.PMC_CNT_LO_CORE, 31, 0, .ro⟩
/-- PMC_CNT_LO_IOD: 15, field map PMC_CNT_LO_k. -/
def R.PMC_CNT_LO_IOD : RegDef := ⟨"PMC_CNT_LO_IOD", 0x02310000, [(2, 0x800000), (32, 0x8)], 0x00000000#32,
  [⟨"count_lo", 31, 0, .ro⟩]⟩
def F.PMC_CNT_LO_IOD_count_lo : Fld := ⟨R.PMC_CNT_LO_IOD, 31, 0, .ro⟩
/-- PMC_CNT_HI_CORE: 15, field map PMC_CNT_HI_k. -/
def R.PMC_CNT_HI_CORE : RegDef := ⟨"PMC_CNT_HI_CORE", 0x01003004, [(144, 0x10000), (16, 0x8)], 0x00000000#32,
  [⟨"reserved", 31, 16, .ro⟩, ⟨"count_hi", 15, 0, .ro⟩]⟩
def F.PMC_CNT_HI_CORE_count_hi : Fld := ⟨R.PMC_CNT_HI_CORE, 15, 0, .ro⟩
/-- PMC_CNT_HI_IOD: 15, field map PMC_CNT_HI_k. -/
def R.PMC_CNT_HI_IOD : RegDef := ⟨"PMC_CNT_HI_IOD", 0x02310004, [(2, 0x800000), (32, 0x8)], 0x00000000#32,
  [⟨"reserved", 31, 16, .ro⟩, ⟨"count_hi", 15, 0, .ro⟩]⟩
def F.PMC_CNT_HI_IOD_count_hi : Fld := ⟨R.PMC_CNT_HI_IOD, 15, 0, .ro⟩
/-- PMC_SEL_CORE: 15, field map PMC_SEL_k. -/
def R.PMC_SEL_CORE : RegDef := ⟨"PMC_SEL_CORE", 0x01003080, [(144, 0x10000), (16, 0x4)], 0x00000000#32,
  [⟨"enable", 31, 31, .rw⟩, ⟨"reserved", 30, 24, .rwb⟩, ⟨"thresh", 23, 16, .rw⟩, ⟨"sub", 15, 8, .rw⟩, ⟨"event", 7, 0, .rw⟩]⟩
def F.PMC_SEL_CORE_enable : Fld := ⟨R.PMC_SEL_CORE, 31, 31, .rw⟩
def F.PMC_SEL_CORE_thresh : Fld := ⟨R.PMC_SEL_CORE, 23, 16, .rw⟩
def F.PMC_SEL_CORE_sub : Fld := ⟨R.PMC_SEL_CORE, 15, 8, .rw⟩
def F.PMC_SEL_CORE_event : Fld := ⟨R.PMC_SEL_CORE, 7, 0, .rw⟩
/-- PMC_SEL_IOD: 15, field map PMC_SEL_k. -/
def R.PMC_SEL_IOD : RegDef := ⟨"PMC_SEL_IOD", 0x02310100, [(2, 0x800000), (32, 0x4)], 0x00000000#32,
  [⟨"enable", 31, 31, .rw⟩, ⟨"reserved", 30, 24, .rwb⟩, ⟨"thresh", 23, 16, .rw⟩, ⟨"sub", 15, 8, .rw⟩, ⟨"event", 7, 0, .rw⟩]⟩
def F.PMC_SEL_IOD_enable : Fld := ⟨R.PMC_SEL_IOD, 31, 31, .rw⟩
def F.PMC_SEL_IOD_thresh : Fld := ⟨R.PMC_SEL_IOD, 23, 16, .rw⟩
def F.PMC_SEL_IOD_sub : Fld := ⟨R.PMC_SEL_IOD, 15, 8, .rw⟩
def F.PMC_SEL_IOD_event : Fld := ⟨R.PMC_SEL_IOD, 7, 0, .rw⟩
/-- PMC_OVF_CORE: 15, field map PMC_OVF. -/
def R.PMC_OVF_CORE : RegDef := ⟨"PMC_OVF_CORE", 0x010030C0, [(144, 0x10000)], 0x00000000#32,
  [⟨"ovf", 31, 0, .rs⟩]⟩
def F.PMC_OVF_CORE_ovf : Fld := ⟨R.PMC_OVF_CORE, 31, 0, .rs⟩
/-- PMC_OVF_IOD: 15, field map PMC_OVF. -/
def R.PMC_OVF_IOD : RegDef := ⟨"PMC_OVF_IOD", 0x02310180, [(2, 0x800000)], 0x00000000#32,
  [⟨"ovf", 31, 0, .rs⟩]⟩
def F.PMC_OVF_IOD_ovf : Fld := ⟨R.PMC_OVF_IOD, 31, 0, .rs⟩
/-- PMC_CTL: 15, field map PMC_CTL. -/
def R.PMC_CTL : RegDef := ⟨"PMC_CTL", 0x00000E00, [], 0x00004000#32,
  [⟨"dump_en", 31, 31, .ro⟩, ⟨"clear", 30, 30, .wo⟩, ⟨"skip_hist", 29, 29, .w1c⟩, ⟨"reserved", 28, 24, .rwb⟩, ⟨"every", 23, 0, .ro⟩]⟩
def F.PMC_CTL_dump_en : Fld := ⟨R.PMC_CTL, 31, 31, .ro⟩
def F.PMC_CTL_clear : Fld := ⟨R.PMC_CTL, 30, 30, .wo⟩
def F.PMC_CTL_skip_hist : Fld := ⟨R.PMC_CTL, 29, 29, .w1c⟩
def F.PMC_CTL_every : Fld := ⟨R.PMC_CTL, 23, 0, .ro⟩
/-- PMC_RING_LO: 15, field map PMC_RING_LO. -/
def R.PMC_RING_LO : RegDef := ⟨"PMC_RING_LO", 0x00000E04, [], 0x00000016#32,
  [⟨"base_lo", 31, 20, .ro⟩, ⟨"reserved", 19, 5, .ro⟩, ⟨"log2_size", 4, 0, .ro⟩]⟩
def F.PMC_RING_LO_base_lo : Fld := ⟨R.PMC_RING_LO, 31, 20, .ro⟩
def F.PMC_RING_LO_log2_size : Fld := ⟨R.PMC_RING_LO, 4, 0, .ro⟩
/-- PMC_RING_HI: 15, field map PMC_RING_HI. -/
def R.PMC_RING_HI : RegDef := ⟨"PMC_RING_HI", 0x00000E08, [], 0x00000000#32,
  [⟨"reserved", 31, 7, .ro⟩, ⟨"base_hi", 6, 0, .ro⟩]⟩
def F.PMC_RING_HI_base_hi : Fld := ⟨R.PMC_RING_HI, 6, 0, .ro⟩
/-- PMC_CREW: 15, field map PMC_CREW_n. -/
def R.PMC_CREW : RegDef := ⟨"PMC_CREW", 0x00000E40, [(16, 0x4)], 0x00000000#32,
  [⟨"permit", 31, 31, .ro⟩, ⟨"reserved", 30, 24, .ro⟩, ⟨"base", 23, 0, .ro⟩]⟩
def F.PMC_CREW_permit : Fld := ⟨R.PMC_CREW, 31, 31, .ro⟩
def F.PMC_CREW_base : Fld := ⟨R.PMC_CREW, 23, 0, .ro⟩
/-- TRC_CTL: 15, field map TRC_CTL_n. -/
def R.TRC_CTL : RegDef := ⟨"TRC_CTL", 0x00000F00, [(16, 0x10)], 0x50000000#32,
  [⟨"enable", 31, 31, .ro⟩, ⟨"log2_size", 30, 26, .ro⟩, ⟨"reserved", 25, 19, .ro⟩, ⟨"base", 18, 0, .ro⟩]⟩
def F.TRC_CTL_enable : Fld := ⟨R.TRC_CTL, 31, 31, .ro⟩
def F.TRC_CTL_log2_size : Fld := ⟨R.TRC_CTL, 30, 26, .ro⟩
def F.TRC_CTL_base : Fld := ⟨R.TRC_CTL, 18, 0, .ro⟩
/-- PCI_BAR4: 16, field map PCI_BAR4. -/
def R.PCI_BAR4 : RegDef := ⟨"PCI_BAR4", 0x02320000, [], 0x00000000#32,
  [⟨"reserved", 31, 9, .ro⟩, ⟨"base_gib", 8, 0, .rw⟩]⟩
def F.PCI_BAR4_base_gib : Fld := ⟨R.PCI_BAR4, 8, 0, .rw⟩
/-- PCI_APER_LO: 16, field map PCI_APER_LO_n. -/
def R.PCI_APER_LO : RegDef := ⟨"PCI_APER_LO", 0x02320100, [(16, 0x10)], 0x00000000#32,
  [⟨"base_lo", 31, 12, .ro⟩, ⟨"reserved", 11, 0, .ro⟩]⟩
def F.PCI_APER_LO_base_lo : Fld := ⟨R.PCI_APER_LO, 31, 12, .ro⟩
/-- PCI_APER_HI: 16, field map PCI_APER_HI_n. -/
def R.PCI_APER_HI : RegDef := ⟨"PCI_APER_HI", 0x02320104, [(16, 0x10)], 0x00000000#32,
  [⟨"base_hi", 31, 0, .ro⟩]⟩
def F.PCI_APER_HI_base_hi : Fld := ⟨R.PCI_APER_HI, 31, 0, .ro⟩
/-- PCI_APER_SZ: 16, field map PCI_APER_SZ_n. -/
def R.PCI_APER_SZ : RegDef := ⟨"PCI_APER_SZ", 0x02320108, [(16, 0x10)], 0x00000000#32,
  [⟨"pages", 31, 0, .ro⟩]⟩
def F.PCI_APER_SZ_pages : Fld := ⟨R.PCI_APER_SZ, 31, 0, .ro⟩
/-- GLB_PERS: 16, field map GLB_PERS. -/
def R.GLB_PERS : RegDef := ⟨"GLB_PERS", 0x00000070, [], 0x00000000#32,
  [⟨"reserved", 31, 2, .ro⟩, ⟨"debug", 1, 1, .ro⟩, ⟨"nf6", 0, 0, .ro⟩]⟩
def F.GLB_PERS_debug : Fld := ⟨R.GLB_PERS, 1, 1, .ro⟩
def F.GLB_PERS_nf6 : Fld := ⟨R.GLB_PERS, 0, 0, .ro⟩
/-- GLB_NF6_SEL: 16, field map GLB_NF6_SEL. -/
def R.GLB_NF6_SEL : RegDef := ⟨"GLB_NF6_SEL", 0x00000300, [], 0x00000000#32,
  [⟨"reserved", 31, 24, .rwb⟩, ⟨"word", 23, 0, .rw⟩]⟩
def F.GLB_NF6_SEL_word : Fld := ⟨R.GLB_NF6_SEL, 23, 0, .rw⟩
/-- GLB_NF6_SEQ: 16, field map GLB_NF6_SEQ. -/
def R.GLB_NF6_SEQ : RegDef := ⟨"GLB_NF6_SEQ", 0x00000304, [], 0x00000000#32,
  [⟨"seq", 31, 24, .ro⟩, ⟨"reserved", 23, 1, .ro⟩, ⟨"status", 0, 0, .ro⟩]⟩
def F.GLB_NF6_SEQ_seq : Fld := ⟨R.GLB_NF6_SEQ, 31, 24, .ro⟩
def F.GLB_NF6_SEQ_status : Fld := ⟨R.GLB_NF6_SEQ, 0, 0, .ro⟩
/-- GLB_NF6_DATA: 16, field map GLB_NF6_DATA. -/
def R.GLB_NF6_DATA : RegDef := ⟨"GLB_NF6_DATA", 0x00000308, [], 0x00000000#32,
  [⟨"value", 31, 0, .ro⟩]⟩
def F.GLB_NF6_DATA_value : Fld := ⟨R.GLB_NF6_DATA, 31, 0, .ro⟩
/-- GLB_NF6_CLR: 16, field map GLB_NF6_CLR. -/
def R.GLB_NF6_CLR : RegDef := ⟨"GLB_NF6_CLR", 0x0000030C, [], 0x00000000#32,
  [⟨"seq", 31, 24, .wseq⟩, ⟨"word", 23, 0, .wo⟩]⟩
def F.GLB_NF6_CLR_seq : Fld := ⟨R.GLB_NF6_CLR, 31, 24, .wseq⟩
def F.GLB_NF6_CLR_word : Fld := ⟨R.GLB_NF6_CLR, 23, 0, .wo⟩
/-- GLB_CFGPAR: 16, field map GLB_CFGPAR. -/
def R.GLB_CFGPAR : RegDef := ⟨"GLB_CFGPAR", 0x00000310, [], 0x00000000#32,
  [⟨"par_hist", 31, 31, .w1c⟩, ⟨"reloading", 30, 30, .rl⟩, ⟨"rwb_hist", 29, 29, .w1c⟩, ⟨"acc_hist", 28, 28, .w1c⟩, ⟨"reserved", 27, 24, .ro⟩, ⟨"last_word", 23, 0, .ro⟩]⟩
def F.GLB_CFGPAR_par_hist : Fld := ⟨R.GLB_CFGPAR, 31, 31, .w1c⟩
def F.GLB_CFGPAR_reloading : Fld := ⟨R.GLB_CFGPAR, 30, 30, .rl⟩
def F.GLB_CFGPAR_rwb_hist : Fld := ⟨R.GLB_CFGPAR, 29, 29, .w1c⟩
def F.GLB_CFGPAR_acc_hist : Fld := ⟨R.GLB_CFGPAR, 28, 28, .w1c⟩
def F.GLB_CFGPAR_last_word : Fld := ⟨R.GLB_CFGPAR, 23, 0, .ro⟩
/-- SEQ_CREW: 16, field map SEQ_CREW. -/
def R.SEQ_CREW : RegDef := ⟨"SEQ_CREW", 0x01000004, [(144, 0x10000)], 0x00000000#32,
  [⟨"member", 31, 31, .ro⟩, ⟨"reserved", 30, 4, .ro⟩, ⟨"crew", 3, 0, .ro⟩]⟩
def F.SEQ_CREW_member : Fld := ⟨R.SEQ_CREW, 31, 31, .ro⟩
def F.SEQ_CREW_crew : Fld := ⟨R.SEQ_CREW, 3, 0, .ro⟩
/-- ENG_PRESET: 16, field map ENG_PRESET. -/
def R.ENG_PRESET : RegDef := ⟨"ENG_PRESET", 0x01002500, [(144, 0x10000)], 0x00FFFFFF#32,
  [⟨"reserved", 31, 24, .ro⟩, ⟨"quad_ok", 23, 12, .ro⟩, ⟨"wide_ok", 11, 0, .ro⟩]⟩
def F.ENG_PRESET_quad_ok : Fld := ⟨R.ENG_PRESET, 23, 12, .ro⟩
def F.ENG_PRESET_wide_ok : Fld := ⟨R.ENG_PRESET, 11, 0, .ro⟩
/-- RIG_CREW: 16, field map RIG_CREW_n. -/
def R.RIG_CREW : RegDef := ⟨"RIG_CREW", 0x00000840, [(16, 0x4)], 0x00000000#32,
  [⟨"valid", 31, 31, .ro⟩, ⟨"reserved", 30, 20, .ro⟩, ⟨"size_gib", 19, 10, .ro⟩, ⟨"base_gib", 9, 0, .ro⟩]⟩
def F.RIG_CREW_valid : Fld := ⟨R.RIG_CREW, 31, 31, .ro⟩
def F.RIG_CREW_size_gib : Fld := ⟨R.RIG_CREW, 19, 10, .ro⟩
def F.RIG_CREW_base_gib : Fld := ⟨R.RIG_CREW, 9, 0, .ro⟩
/-- RIG_CTL: 16, field map RIG_CTL. -/
def R.RIG_CTL : RegDef := ⟨"RIG_CTL", 0x00000800, [], 0x00000000#32,
  [⟨"busy", 31, 31, .rl⟩, ⟨"reserved", 30, 5, .rwb⟩, ⟨"abort", 4, 4, .wo⟩, ⟨"reserved", 3, 3, .rwb⟩, ⟨"in_hbm", 2, 2, .rw⟩, ⟨"at_valid", 1, 1, .rw⟩, ⟨"go", 0, 0, .wo⟩]⟩
def F.RIG_CTL_busy : Fld := ⟨R.RIG_CTL, 31, 31, .rl⟩
def F.RIG_CTL_abort : Fld := ⟨R.RIG_CTL, 4, 4, .wo⟩
def F.RIG_CTL_in_hbm : Fld := ⟨R.RIG_CTL, 2, 2, .rw⟩
def F.RIG_CTL_at_valid : Fld := ⟨R.RIG_CTL, 1, 1, .rw⟩
def F.RIG_CTL_go : Fld := ⟨R.RIG_CTL, 0, 0, .wo⟩
/-- RIG_STAT: 16, field map RIG_STAT. -/
def R.RIG_STAT : RegDef := ⟨"RIG_STAT", 0x00000814, [], 0x00FF0000#32,
  [⟨"state", 31, 29, .ro⟩, ⟨"status", 28, 24, .ro⟩, ⟨"section", 23, 16, .ro⟩, ⟨"reserved", 15, 4, .ro⟩, ⟨"crew", 3, 0, .ro⟩]⟩
def F.RIG_STAT_state : Fld := ⟨R.RIG_STAT, 31, 29, .ro⟩
def F.RIG_STAT_status : Fld := ⟨R.RIG_STAT, 28, 24, .ro⟩
def F.RIG_STAT_section : Fld := ⟨R.RIG_STAT, 23, 16, .ro⟩
def F.RIG_STAT_crew : Fld := ⟨R.RIG_STAT, 3, 0, .ro⟩
/-- COX_TEMP: 17, field map COX_TEMP_n. -/
def R.COX_TEMP : RegDef := ⟨"COX_TEMP", 0x03000200, [(27, 0x4)], 0x00000000#32,
  [⟨"throttle", 31, 31, .rl⟩, ⟨"warn", 30, 30, .rl⟩, ⟨"throttle_hist", 29, 29, .w1c⟩, ⟨"reserved", 28, 24, .ro⟩, ⟨"peak", 23, 16, .ro⟩, ⟨"reserved", 15, 8, .ro⟩, ⟨"temp", 7, 0, .ro⟩]⟩
def F.COX_TEMP_throttle : Fld := ⟨R.COX_TEMP, 31, 31, .rl⟩
def F.COX_TEMP_warn : Fld := ⟨R.COX_TEMP, 30, 30, .rl⟩
def F.COX_TEMP_throttle_hist : Fld := ⟨R.COX_TEMP, 29, 29, .w1c⟩
def F.COX_TEMP_peak : Fld := ⟨R.COX_TEMP, 23, 16, .ro⟩
def F.COX_TEMP_temp : Fld := ⟨R.COX_TEMP, 7, 0, .ro⟩
/-- COX_RAIL: 17, field map COX_RAIL_r. -/
def R.COX_RAIL : RegDef := ⟨"COX_RAIL", 0x03000280, [(12, 0x4)], 0x00000000#32,
  [⟨"current", 31, 16, .ro⟩, ⟨"voltage", 15, 0, .ro⟩]⟩
def F.COX_RAIL_current : Fld := ⟨R.COX_RAIL, 31, 16, .ro⟩
def F.COX_RAIL_voltage : Fld := ⟨R.COX_RAIL, 15, 0, .ro⟩
/-- LNK_LOOP: 17, field map LNK_LOOP_n. -/
def R.LNK_LOOP : RegDef := ⟨"LNK_LOOP", 0x02100030, [(2, 0x800000), (48, 0x100)], 0x00000000#32,
  [⟨"busy", 31, 31, .rl⟩, ⟨"result", 30, 29, .ro⟩, ⟨"reserved", 28, 27, .rwb⟩, ⟨"mode", 26, 24, .rw⟩, ⟨"reserved", 23, 1, .rwb⟩, ⟨"go", 0, 0, .wo⟩]⟩
def F.LNK_LOOP_busy : Fld := ⟨R.LNK_LOOP, 31, 31, .rl⟩
def F.LNK_LOOP_result : Fld := ⟨R.LNK_LOOP, 30, 29, .ro⟩
def F.LNK_LOOP_mode : Fld := ⟨R.LNK_LOOP, 26, 24, .rw⟩
def F.LNK_LOOP_go : Fld := ⟨R.LNK_LOOP, 0, 0, .wo⟩
/-- LNK_LOOP_ERR: 17, field map LNK_LOOP_ERR_n. -/
def R.LNK_LOOP_ERR : RegDef := ⟨"LNK_LOOP_ERR", 0x02100034, [(2, 0x800000), (48, 0x100)], 0x00000000#32,
  [⟨"lane1", 31, 16, .ro⟩, ⟨"lane0", 15, 0, .ro⟩]⟩
def F.LNK_LOOP_ERR_lane1 : Fld := ⟨R.LNK_LOOP_ERR, 31, 16, .ro⟩
def F.LNK_LOOP_ERR_lane0 : Fld := ⟨R.LNK_LOOP_ERR, 15, 0, .ro⟩
/-- GLB_RCV_ARG_LO: 12 R302. -/
def R.GLB_RCV_ARG_LO : RegDef := ⟨"GLB_RCV_ARG_LO", 0x00000224, [], 0x00000000#32,
  [⟨"stroke_lo", 31, 0, .rw⟩]⟩
def F.GLB_RCV_ARG_LO_stroke_lo : Fld := ⟨R.GLB_RCV_ARG_LO, 31, 0, .rw⟩
/-- GLB_RCV_ARG_HI: 12 R302. -/
def R.GLB_RCV_ARG_HI : RegDef := ⟨"GLB_RCV_ARG_HI", 0x00000228, [], 0x00000000#32,
  [⟨"stroke_hi", 31, 0, .rw⟩]⟩
def F.GLB_RCV_ARG_HI_stroke_hi : Fld := ⟨R.GLB_RCV_ARG_HI, 31, 0, .rw⟩
/-- GLB_RCV_ARG2_LO: 12 R302. -/
def R.GLB_RCV_ARG2_LO : RegDef := ⟨"GLB_RCV_ARG2_LO", 0x0000022C, [], 0x00000000#32,
  [⟨"stroke_lo", 31, 0, .rw⟩]⟩
def F.GLB_RCV_ARG2_LO_stroke_lo : Fld := ⟨R.GLB_RCV_ARG2_LO, 31, 0, .rw⟩
/-- GLB_RCV_ARG2_HI: 12 R302. -/
def R.GLB_RCV_ARG2_HI : RegDef := ⟨"GLB_RCV_ARG2_HI", 0x00000230, [], 0x00000000#32,
  [⟨"stroke_hi", 31, 0, .rw⟩]⟩
def F.GLB_RCV_ARG2_HI_stroke_hi : Fld := ⟨R.GLB_RCV_ARG2_HI, 31, 0, .rw⟩
/-- CHK_ARG_LO: 13, CHK_CMD. -/
def R.CHK_ARG_LO : RegDef := ⟨"CHK_ARG_LO", 0x00001404, [], 0x00000000#32,
  [⟨"lo", 31, 0, .rw⟩]⟩
def F.CHK_ARG_LO_lo : Fld := ⟨R.CHK_ARG_LO, 31, 0, .rw⟩
/-- CHK_ARG_HI: 13, CHK_CMD. -/
def R.CHK_ARG_HI : RegDef := ⟨"CHK_ARG_HI", 0x00001408, [], 0x00000000#32,
  [⟨"hi", 31, 0, .rw⟩]⟩
def F.CHK_ARG_HI_hi : Fld := ⟨R.CHK_ARG_HI, 31, 0, .rw⟩
/-- CHK_ARG2: 13, CHK_CMD. -/
def R.CHK_ARG2 : RegDef := ⟨"CHK_ARG2", 0x0000140C, [], 0x00000000#32,
  [⟨"count", 31, 0, .rw⟩]⟩
def F.CHK_ARG2_count : Fld := ⟨R.CHK_ARG2, 31, 0, .rw⟩
/-- COX_CLAIM: 14 R369. -/
def R.COX_CLAIM : RegDef := ⟨"COX_CLAIM", 0x03000004, [], 0x00000000#32,
  [⟨"claim", 31, 0, .ro⟩]⟩
def F.COX_CLAIM_claim : Fld := ⟨R.COX_CLAIM, 31, 0, .ro⟩
/-- COX_BEAT: 14 R369, written only by the active core. -/
def R.COX_BEAT : RegDef := ⟨"COX_BEAT", 0x03000008, [], 0x00000000#32,
  [⟨"beat", 31, 0, .ro⟩]⟩
def F.COX_BEAT_beat : Fld := ⟨R.COX_BEAT, 31, 0, .ro⟩
/-- COX_HOLD: 14 R369. -/
def R.COX_HOLD : RegDef := ⟨"COX_HOLD", 0x03000080, [(6, 0x4)], 0x00000000#32,
  [⟨"h", 31, 0, .ro⟩]⟩
def F.COX_HOLD_h : Fld := ⟨R.COX_HOLD, 31, 0, .ro⟩
/-- LOG_CURSOR: 14 R354. -/
def R.LOG_CURSOR : RegDef := ⟨"LOG_CURSOR", 0x03800000, [], 0x00000000#32,
  [⟨"seq", 31, 0, .rw⟩]⟩
def F.LOG_CURSOR_seq : Fld := ⟨R.LOG_CURSOR, 31, 0, .rw⟩
/-- LOG_OLDEST: 14 R354. -/
def R.LOG_OLDEST : RegDef := ⟨"LOG_OLDEST", 0x03800004, [], 0x00000000#32,
  [⟨"seq", 31, 0, .ro⟩]⟩
def F.LOG_OLDEST_seq : Fld := ⟨R.LOG_OLDEST, 31, 0, .ro⟩
/-- LOG_NEWEST: 14 R354. -/
def R.LOG_NEWEST : RegDef := ⟨"LOG_NEWEST", 0x03800008, [], 0x00000000#32,
  [⟨"seq", 31, 0, .ro⟩]⟩
def F.LOG_NEWEST_seq : Fld := ⟨R.LOG_NEWEST, 31, 0, .ro⟩
/-- JNL_CURSOR_LO: 14 R357. -/
def R.JNL_CURSOR_LO : RegDef := ⟨"JNL_CURSOR_LO", 0x03801000, [], 0x00000000#32,
  [⟨"lo", 31, 0, .rw⟩]⟩
def F.JNL_CURSOR_LO_lo : Fld := ⟨R.JNL_CURSOR_LO, 31, 0, .rw⟩
/-- JNL_CURSOR_HI: 14 R357. -/
def R.JNL_CURSOR_HI : RegDef := ⟨"JNL_CURSOR_HI", 0x03801004, [], 0x00000000#32,
  [⟨"hi", 31, 0, .rw⟩]⟩
def F.JNL_CURSOR_HI_hi : Fld := ⟨R.JNL_CURSOR_HI, 31, 0, .rw⟩
/-- JNL_OLDEST_LO: 14 R357. -/
def R.JNL_OLDEST_LO : RegDef := ⟨"JNL_OLDEST_LO", 0x03801008, [], 0x00000000#32,
  [⟨"lo", 31, 0, .ro⟩]⟩
def F.JNL_OLDEST_LO_lo : Fld := ⟨R.JNL_OLDEST_LO, 31, 0, .ro⟩
/-- JNL_OLDEST_HI: 14 R357. -/
def R.JNL_OLDEST_HI : RegDef := ⟨"JNL_OLDEST_HI", 0x0380100C, [], 0x00000000#32,
  [⟨"hi", 31, 0, .ro⟩]⟩
def F.JNL_OLDEST_HI_hi : Fld := ⟨R.JNL_OLDEST_HI, 31, 0, .ro⟩
/-- JNL_NEWEST_LO: 14 R357. -/
def R.JNL_NEWEST_LO : RegDef := ⟨"JNL_NEWEST_LO", 0x03801010, [], 0x00000000#32,
  [⟨"lo", 31, 0, .ro⟩]⟩
def F.JNL_NEWEST_LO_lo : Fld := ⟨R.JNL_NEWEST_LO, 31, 0, .ro⟩
/-- JNL_NEWEST_HI: 14 R357. -/
def R.JNL_NEWEST_HI : RegDef := ⟨"JNL_NEWEST_HI", 0x03801014, [], 0x00000000#32,
  [⟨"hi", 31, 0, .ro⟩]⟩
def F.JNL_NEWEST_HI_hi : Fld := ⟨R.JNL_NEWEST_HI, 31, 0, .ro⟩
/-- PMC_HEAD: 15 R375. -/
def R.PMC_HEAD : RegDef := ⟨"PMC_HEAD", 0x00000E0C, [], 0x00000000#32,
  [⟨"head", 31, 0, .rw⟩]⟩
def F.PMC_HEAD_head : Fld := ⟨R.PMC_HEAD, 31, 0, .rw⟩
/-- PMC_TAIL: 15 R375. -/
def R.PMC_TAIL : RegDef := ⟨"PMC_TAIL", 0x00000E10, [], 0x00000000#32,
  [⟨"tail", 31, 0, .ro⟩]⟩
def F.PMC_TAIL_tail : Fld := ⟨R.PMC_TAIL, 31, 0, .ro⟩
/-- TRC_HEAD: 15 R379. -/
def R.TRC_HEAD : RegDef := ⟨"TRC_HEAD", 0x00000F04, [(16, 0x10)], 0x00000000#32,
  [⟨"head", 31, 0, .rw⟩]⟩
def F.TRC_HEAD_head : Fld := ⟨R.TRC_HEAD, 31, 0, .rw⟩
/-- TRC_TAIL: 15 R379. -/
def R.TRC_TAIL : RegDef := ⟨"TRC_TAIL", 0x00000F08, [(16, 0x10)], 0x00000000#32,
  [⟨"tail", 31, 0, .ro⟩]⟩
def F.TRC_TAIL_tail : Fld := ⟨R.TRC_TAIL, 31, 0, .ro⟩
/-- TRC_LOST: 15 R379. -/
def R.TRC_LOST : RegDef := ⟨"TRC_LOST", 0x00000F0C, [(16, 0x10)], 0x00000000#32,
  [⟨"lost", 31, 0, .ro⟩]⟩
def F.TRC_LOST_lost : Fld := ⟨R.TRC_LOST, 31, 0, .ro⟩
/-- RIG_ADDR_LO: 16 R400. -/
def R.RIG_ADDR_LO : RegDef := ⟨"RIG_ADDR_LO", 0x00000804, [], 0x00000000#32,
  [⟨"addr_lo", 31, 6, .rw⟩, ⟨"reserved", 5, 0, .ro⟩]⟩
def F.RIG_ADDR_LO_addr_lo : Fld := ⟨R.RIG_ADDR_LO, 31, 6, .rw⟩
/-- RIG_ADDR_HI: 16 R400. -/
def R.RIG_ADDR_HI : RegDef := ⟨"RIG_ADDR_HI", 0x00000808, [], 0x00000000#32,
  [⟨"addr_hi", 31, 0, .rw⟩]⟩
def F.RIG_ADDR_HI_addr_hi : Fld := ⟨R.RIG_ADDR_HI, 31, 0, .rw⟩
/-- RIG_AT_LO: 16 R400. -/
def R.RIG_AT_LO : RegDef := ⟨"RIG_AT_LO", 0x0000080C, [], 0x00000000#32,
  [⟨"stroke_lo", 31, 0, .rw⟩]⟩
def F.RIG_AT_LO_stroke_lo : Fld := ⟨R.RIG_AT_LO, 31, 0, .rw⟩
/-- RIG_AT_HI: 16 R400. -/
def R.RIG_AT_HI : RegDef := ⟨"RIG_AT_HI", 0x00000810, [], 0x00000000#32,
  [⟨"stroke_hi", 31, 0, .rw⟩]⟩
def F.RIG_AT_HI_stroke_hi : Fld := ⟨R.RIG_AT_HI, 31, 0, .rw⟩
/-- RIG_ID: 16 R400. -/
def R.RIG_ID : RegDef := ⟨"RIG_ID", 0x00000818, [], 0x00000000#32,
  [⟨"id", 31, 0, .ro⟩]⟩
def F.RIG_ID_id : Fld := ⟨R.RIG_ID, 31, 0, .ro⟩
/-- RIG_SHORT_LO: 16 R400. -/
def R.RIG_SHORT_LO : RegDef := ⟨"RIG_SHORT_LO", 0x0000081C, [], 0x00000000#32,
  [⟨"lo", 31, 0, .ro⟩]⟩
def F.RIG_SHORT_LO_lo : Fld := ⟨R.RIG_SHORT_LO, 31, 0, .ro⟩
/-- RIG_SHORT_HI: 16 R400. -/
def R.RIG_SHORT_HI : RegDef := ⟨"RIG_SHORT_HI", 0x00000820, [], 0x00000000#32,
  [⟨"hi", 31, 0, .ro⟩]⟩
def F.RIG_SHORT_HI_hi : Fld := ⟨R.RIG_SHORT_HI, 31, 0, .ro⟩
/-- GATE_TABLE: 16 R385. -/
def R.GATE_TABLE : RegDef := ⟨"GATE_TABLE", 0x02200000, [(2, 0x800000), (48, 0x2000), (2, 0x1000), (1024, 0x4)], 0x00000000#32,
  [⟨"entry", 31, 0, .ro⟩]⟩
def F.GATE_TABLE_entry : Fld := ⟨R.GATE_TABLE, 31, 0, .ro⟩
/-- CST_BYTES_RD_LO: 15 R370, R371. -/
def R.CST_BYTES_RD_LO : RegDef := ⟨"CST_BYTES_RD_LO", 0x01003100, [(144, 0x10000)], 0x00000000#32,
  [⟨"bytes_lo", 31, 0, .ro⟩]⟩
def F.CST_BYTES_RD_LO_bytes_lo : Fld := ⟨R.CST_BYTES_RD_LO, 31, 0, .ro⟩
/-- CST_BYTES_RD_HI: 15 R370, R371. -/
def R.CST_BYTES_RD_HI : RegDef := ⟨"CST_BYTES_RD_HI", 0x01003104, [(144, 0x10000)], 0x00000000#32,
  [⟨"bytes_hi", 31, 0, .ro⟩]⟩
def F.CST_BYTES_RD_HI_bytes_hi : Fld := ⟨R.CST_BYTES_RD_HI, 31, 0, .ro⟩
/-- CST_BYTES_WR_LO: 15 R370, R371. -/
def R.CST_BYTES_WR_LO : RegDef := ⟨"CST_BYTES_WR_LO", 0x01003108, [(144, 0x10000)], 0x00000000#32,
  [⟨"bytes_lo", 31, 0, .ro⟩]⟩
def F.CST_BYTES_WR_LO_bytes_lo : Fld := ⟨R.CST_BYTES_WR_LO, 31, 0, .ro⟩
/-- CST_BYTES_WR_HI: 15 R370, R371. -/
def R.CST_BYTES_WR_HI : RegDef := ⟨"CST_BYTES_WR_HI", 0x0100310C, [(144, 0x10000)], 0x00000000#32,
  [⟨"bytes_hi", 31, 0, .ro⟩]⟩
def F.CST_BYTES_WR_HI_bytes_hi : Fld := ⟨R.CST_BYTES_WR_HI, 31, 0, .ro⟩
/-- DMA_NOC_TX_LO: 15 R370, R371. -/
def R.DMA_NOC_TX_LO : RegDef := ⟨"DMA_NOC_TX_LO", 0x01003110, [(144, 0x10000)], 0x00000000#32,
  [⟨"bytes_lo", 31, 0, .ro⟩]⟩
def F.DMA_NOC_TX_LO_bytes_lo : Fld := ⟨R.DMA_NOC_TX_LO, 31, 0, .ro⟩
/-- DMA_NOC_TX_HI: 15 R370, R371. -/
def R.DMA_NOC_TX_HI : RegDef := ⟨"DMA_NOC_TX_HI", 0x01003114, [(144, 0x10000)], 0x00000000#32,
  [⟨"bytes_hi", 31, 0, .ro⟩]⟩
def F.DMA_NOC_TX_HI_bytes_hi : Fld := ⟨R.DMA_NOC_TX_HI, 31, 0, .ro⟩
/-- DMA_NOC_RX_LO: 15 R370, R371. -/
def R.DMA_NOC_RX_LO : RegDef := ⟨"DMA_NOC_RX_LO", 0x01003118, [(144, 0x10000)], 0x00000000#32,
  [⟨"bytes_lo", 31, 0, .ro⟩]⟩
def F.DMA_NOC_RX_LO_bytes_lo : Fld := ⟨R.DMA_NOC_RX_LO, 31, 0, .ro⟩
/-- DMA_NOC_RX_HI: 15 R370, R371. -/
def R.DMA_NOC_RX_HI : RegDef := ⟨"DMA_NOC_RX_HI", 0x0100311C, [(144, 0x10000)], 0x00000000#32,
  [⟨"bytes_hi", 31, 0, .ro⟩]⟩
def F.DMA_NOC_RX_HI_bytes_hi : Fld := ⟨R.DMA_NOC_RX_HI, 31, 0, .ro⟩
/-- GLB_UCIE_TX_LO: 15 R370, R371. -/
def R.GLB_UCIE_TX_LO : RegDef := ⟨"GLB_UCIE_TX_LO", 0x02300000, [(2, 0x800000)], 0x00000000#32,
  [⟨"bytes_lo", 31, 0, .ro⟩]⟩
def F.GLB_UCIE_TX_LO_bytes_lo : Fld := ⟨R.GLB_UCIE_TX_LO, 31, 0, .ro⟩
/-- GLB_UCIE_TX_HI: 15 R370, R371. -/
def R.GLB_UCIE_TX_HI : RegDef := ⟨"GLB_UCIE_TX_HI", 0x02300004, [(2, 0x800000)], 0x00000000#32,
  [⟨"bytes_hi", 31, 0, .ro⟩]⟩
def F.GLB_UCIE_TX_HI_bytes_hi : Fld := ⟨R.GLB_UCIE_TX_HI, 31, 0, .ro⟩
/-- GLB_UCIE_RX_LO: 15 R370, R371. -/
def R.GLB_UCIE_RX_LO : RegDef := ⟨"GLB_UCIE_RX_LO", 0x02300008, [(2, 0x800000)], 0x00000000#32,
  [⟨"bytes_lo", 31, 0, .ro⟩]⟩
def F.GLB_UCIE_RX_LO_bytes_lo : Fld := ⟨R.GLB_UCIE_RX_LO, 31, 0, .ro⟩
/-- GLB_UCIE_RX_HI: 15 R370, R371. -/
def R.GLB_UCIE_RX_HI : RegDef := ⟨"GLB_UCIE_RX_HI", 0x0230000C, [(2, 0x800000)], 0x00000000#32,
  [⟨"bytes_hi", 31, 0, .ro⟩]⟩
def F.GLB_UCIE_RX_HI_bytes_hi : Fld := ⟨R.GLB_UCIE_RX_HI, 31, 0, .ro⟩
/-- HBM_BYTES_RD_LO: 15 R370, R371. -/
def R.HBM_BYTES_RD_LO : RegDef := ⟨"HBM_BYTES_RD_LO", 0x02040800, [(2, 0x800000), (4, 0x1000), (32, 0x10)], 0x00000000#32,
  [⟨"bytes_lo", 31, 0, .ro⟩]⟩
def F.HBM_BYTES_RD_LO_bytes_lo : Fld := ⟨R.HBM_BYTES_RD_LO, 31, 0, .ro⟩
/-- HBM_BYTES_RD_HI: 15 R370, R371. -/
def R.HBM_BYTES_RD_HI : RegDef := ⟨"HBM_BYTES_RD_HI", 0x02040804, [(2, 0x800000), (4, 0x1000), (32, 0x10)], 0x00000000#32,
  [⟨"bytes_hi", 31, 0, .ro⟩]⟩
def F.HBM_BYTES_RD_HI_bytes_hi : Fld := ⟨R.HBM_BYTES_RD_HI, 31, 0, .ro⟩
/-- HBM_BYTES_WR_LO: 15 R370, R371. -/
def R.HBM_BYTES_WR_LO : RegDef := ⟨"HBM_BYTES_WR_LO", 0x02040808, [(2, 0x800000), (4, 0x1000), (32, 0x10)], 0x00000000#32,
  [⟨"bytes_lo", 31, 0, .ro⟩]⟩
def F.HBM_BYTES_WR_LO_bytes_lo : Fld := ⟨R.HBM_BYTES_WR_LO, 31, 0, .ro⟩
/-- HBM_BYTES_WR_HI: 15 R370, R371. -/
def R.HBM_BYTES_WR_HI : RegDef := ⟨"HBM_BYTES_WR_HI", 0x0204080C, [(2, 0x800000), (4, 0x1000), (32, 0x10)], 0x00000000#32,
  [⟨"bytes_hi", 31, 0, .ro⟩]⟩
def F.HBM_BYTES_WR_HI_bytes_hi : Fld := ⟨R.HBM_BYTES_WR_HI, 31, 0, .ro⟩
/-- HBM_BYTES_PKG_LO: 15 R370, R371. -/
def R.HBM_BYTES_PKG_LO : RegDef := ⟨"HBM_BYTES_PKG_LO", 0x0204F008, [], 0x00000000#32,
  [⟨"bytes_lo", 31, 0, .ro⟩]⟩
def F.HBM_BYTES_PKG_LO_bytes_lo : Fld := ⟨R.HBM_BYTES_PKG_LO, 31, 0, .ro⟩
/-- HBM_BYTES_PKG_HI: 15 R370, R371. -/
def R.HBM_BYTES_PKG_HI : RegDef := ⟨"HBM_BYTES_PKG_HI", 0x0204F00C, [], 0x00000000#32,
  [⟨"bytes_hi", 31, 0, .ro⟩]⟩
def F.HBM_BYTES_PKG_HI_bytes_hi : Fld := ⟨R.HBM_BYTES_PKG_HI, 31, 0, .ro⟩
/-- GRN_BYTES_RD_LO: 15 R370, R371. -/
def R.GRN_BYTES_RD_LO : RegDef := ⟨"GRN_BYTES_RD_LO", 0x02300040, [(2, 0x800000)], 0x00000000#32,
  [⟨"bytes_lo", 31, 0, .ro⟩]⟩
def F.GRN_BYTES_RD_LO_bytes_lo : Fld := ⟨R.GRN_BYTES_RD_LO, 31, 0, .ro⟩
/-- GRN_BYTES_RD_HI: 15 R370, R371. -/
def R.GRN_BYTES_RD_HI : RegDef := ⟨"GRN_BYTES_RD_HI", 0x02300044, [(2, 0x800000)], 0x00000000#32,
  [⟨"bytes_hi", 31, 0, .ro⟩]⟩
def F.GRN_BYTES_RD_HI_bytes_hi : Fld := ⟨R.GRN_BYTES_RD_HI, 31, 0, .ro⟩
/-- GRN_BYTES_WR_LO: 15 R370, R371. -/
def R.GRN_BYTES_WR_LO : RegDef := ⟨"GRN_BYTES_WR_LO", 0x02300048, [(2, 0x800000)], 0x00000000#32,
  [⟨"bytes_lo", 31, 0, .ro⟩]⟩
def F.GRN_BYTES_WR_LO_bytes_lo : Fld := ⟨R.GRN_BYTES_WR_LO, 31, 0, .ro⟩
/-- GRN_BYTES_WR_HI: 15 R370, R371. -/
def R.GRN_BYTES_WR_HI : RegDef := ⟨"GRN_BYTES_WR_HI", 0x0230004C, [(2, 0x800000)], 0x00000000#32,
  [⟨"bytes_hi", 31, 0, .ro⟩]⟩
def F.GRN_BYTES_WR_HI_bytes_hi : Fld := ⟨R.GRN_BYTES_WR_HI, 31, 0, .ro⟩
/-- ATM_BYTES_LO: 15 R370, R371. -/
def R.ATM_BYTES_LO : RegDef := ⟨"ATM_BYTES_LO", 0x02300050, [(2, 0x800000)], 0x00000000#32,
  [⟨"bytes_lo", 31, 0, .ro⟩]⟩
def F.ATM_BYTES_LO_bytes_lo : Fld := ⟨R.ATM_BYTES_LO, 31, 0, .ro⟩
/-- ATM_BYTES_HI: 15 R370, R371. -/
def R.ATM_BYTES_HI : RegDef := ⟨"ATM_BYTES_HI", 0x02300054, [(2, 0x800000)], 0x00000000#32,
  [⟨"bytes_hi", 31, 0, .ro⟩]⟩
def F.ATM_BYTES_HI_bytes_hi : Fld := ⟨R.ATM_BYTES_HI, 31, 0, .ro⟩
/-- LNK_BYTES_TX_LO: 15 R370, R371. -/
def R.LNK_BYTES_TX_LO : RegDef := ⟨"LNK_BYTES_TX_LO", 0x02100020, [(2, 0x800000), (48, 0x100)], 0x00000000#32,
  [⟨"bytes_lo", 31, 0, .ro⟩]⟩
def F.LNK_BYTES_TX_LO_bytes_lo : Fld := ⟨R.LNK_BYTES_TX_LO, 31, 0, .ro⟩
/-- LNK_BYTES_TX_HI: 15 R370, R371. -/
def R.LNK_BYTES_TX_HI : RegDef := ⟨"LNK_BYTES_TX_HI", 0x02100024, [(2, 0x800000), (48, 0x100)], 0x00000000#32,
  [⟨"bytes_hi", 31, 0, .ro⟩]⟩
def F.LNK_BYTES_TX_HI_bytes_hi : Fld := ⟨R.LNK_BYTES_TX_HI, 31, 0, .ro⟩
/-- LNK_BYTES_RX_LO: 15 R370, R371. -/
def R.LNK_BYTES_RX_LO : RegDef := ⟨"LNK_BYTES_RX_LO", 0x02100028, [(2, 0x800000), (48, 0x100)], 0x00000000#32,
  [⟨"bytes_lo", 31, 0, .ro⟩]⟩
def F.LNK_BYTES_RX_LO_bytes_lo : Fld := ⟨R.LNK_BYTES_RX_LO, 31, 0, .ro⟩
/-- LNK_BYTES_RX_HI: 15 R370, R371. -/
def R.LNK_BYTES_RX_HI : RegDef := ⟨"LNK_BYTES_RX_HI", 0x0210002C, [(2, 0x800000), (48, 0x100)], 0x00000000#32,
  [⟨"bytes_hi", 31, 0, .ro⟩]⟩
def F.LNK_BYTES_RX_HI_bytes_hi : Fld := ⟨R.LNK_BYTES_RX_HI, 31, 0, .ro⟩
/-- PCI_BYTES_TX_LO: 15 R370, R371. -/
def R.PCI_BYTES_TX_LO : RegDef := ⟨"PCI_BYTES_TX_LO", 0x02300060, [], 0x00000000#32,
  [⟨"bytes_lo", 31, 0, .ro⟩]⟩
def F.PCI_BYTES_TX_LO_bytes_lo : Fld := ⟨R.PCI_BYTES_TX_LO, 31, 0, .ro⟩
/-- PCI_BYTES_TX_HI: 15 R370, R371. -/
def R.PCI_BYTES_TX_HI : RegDef := ⟨"PCI_BYTES_TX_HI", 0x02300064, [], 0x00000000#32,
  [⟨"bytes_hi", 31, 0, .ro⟩]⟩
def F.PCI_BYTES_TX_HI_bytes_hi : Fld := ⟨R.PCI_BYTES_TX_HI, 31, 0, .ro⟩
/-- PCI_BYTES_RX_LO: 15 R370, R371. -/
def R.PCI_BYTES_RX_LO : RegDef := ⟨"PCI_BYTES_RX_LO", 0x02300068, [], 0x00000000#32,
  [⟨"bytes_lo", 31, 0, .ro⟩]⟩
def F.PCI_BYTES_RX_LO_bytes_lo : Fld := ⟨R.PCI_BYTES_RX_LO, 31, 0, .ro⟩
/-- PCI_BYTES_RX_HI: 15 R370, R371. -/
def R.PCI_BYTES_RX_HI : RegDef := ⟨"PCI_BYTES_RX_HI", 0x0230006C, [], 0x00000000#32,
  [⟨"bytes_hi", 31, 0, .ro⟩]⟩
def F.PCI_BYTES_RX_HI_bytes_hi : Fld := ⟨R.PCI_BYTES_RX_HI, 31, 0, .ro⟩

/-- Registers, part 0. -/
def allRegs0 : List RegDef :=
  [R.GLB_ID,
   R.GLB_REMAP_LO,
   R.GLB_REMAP_HI,
   R.GLB_MODE,
   R.GLB_MODE_AT_LO,
   R.GLB_MODE_AT_HI,
   R.GLB_EASY,
   R.GLB_WAKE_AT_LO,
   R.GLB_WAKE_AT_HI,
   R.STK_CTL,
   R.STK_PHASE_LO,
   R.STK_PHASE_HI,
   R.STK_NUM_LO,
   R.STK_NUM_HI,
   R.STK_RX,
   R.STK_CREW,
   R.STK_SHARE,
   R.SEQ_QSEL,
   R.SEQ_QCFG,
   R.SEQ_QRING_LO,
   R.SEQ_QRING_HI,
   R.SEQ_QCPL_LO,
   R.SEQ_QCPL_HI,
   R.SEQ_QSEQ]
/-- Registers, part 1. -/
def allRegs1 : List RegDef :=
  [R.SEQ_QSTAT,
   R.SEQ_ACCNUM_LO,
   R.SEQ_ACCNUM_HI,
   R.SEQ_STATUS,
   R.TAL_VAL,
   R.TAL_ADD,
   R.TAL_INFO,
   R.TAL_SET,
   R.SEQ_CREWCFG,
   R.ENG_RING,
   R.ENG_RFILL,
   R.ENG_RUSE,
   R.ENG_STATUS,
   R.ENG_PROGRESS,
   R.ENG_CHAINK_LO,
   R.ENG_CHAINK_HI,
   R.ENG_ACC_SEL,
   R.ENG_ACC_DATA,
   R.CST_ECC,
   R.CST_ERRADDR,
   R.CST_PATROL,
   R.VEC_STATUS,
   R.DMA_STATUS,
   R.HBM_STAT]
/-- Registers, part 2. -/
def allRegs2 : List RegDef :=
  [R.HBM_PRIO,
   R.HBM_ECC,
   R.HBM_ODECC,
   R.HBM_ERRADDR_LO,
   R.HBM_ERRADDR_HI,
   R.HBM_SCRUB,
   R.HBM_VOID,
   R.ATM_WIN_LO,
   R.ATM_WIN_HI,
   R.HBM_LOOP,
   R.HBM_LOOP_ERR,
   R.LNK_CFG,
   R.LNK_FLIGHT,
   R.LNK_STAT,
   R.LNK_HEALTH,
   R.LNK_DROP,
   R.LNK_DISCARD,
   R.LNK_CREDIT,
   R.LNK_SELF,
   R.LNK_CREW,
   R.LNK_CREW2,
   R.LNK_GROUP,
   R.LNK_ROUTE_LO,
   R.LNK_ROUTE_HI]
/-- Registers, part 3. -/
def allRegs3 : List RegDef :=
  [R.LNK_COLL,
   R.TIM_NOW_FRAC,
   R.TIM_NOW_LO,
   R.TIM_NOW_HI,
   R.TIM_RAW_LO,
   R.TIM_RAW_HI,
   R.TIM_RATE,
   R.TIM_SRC,
   R.TIM_ASYM,
   R.TIM_PTPM_LO,
   R.TIM_PTPM_HI,
   R.TIM_SERVO,
   R.TIM_STAT,
   R.TIM_THETA,
   R.TIM_DELAY,
   R.TIM_SET_LO,
   R.TIM_SET_HI,
   R.TIM_TS_STAT,
   R.TIM_TS_FRAC,
   R.TIM_TS_LO,
   R.TIM_TS_HI,
   R.TIM_CAP,
   R.TIM_UTC_LO,
   R.TIM_UTC_HI]
/-- Registers, part 4. -/
def allRegs4 : List RegDef :=
  [R.ENG_SCHK,
   R.UMP_CFG,
   R.UMP_STAT,
   R.WCH_SEL,
   R.WCH_CTL,
   R.WCH_COORD,
   R.GLB_DET,
   R.GLB_FLT_BASE_LO,
   R.GLB_FLT_BASE_HI,
   R.GLB_FLT_CTL,
   R.GLB_FLT_TAIL,
   R.GLB_FLT_HEAD,
   R.GLB_FLT_LOST,
   R.GLB_HEALTH,
   R.GLB_WDOG_A,
   R.GLB_WDOG_B,
   R.GLB_FMGR,
   R.GLB_DUMP_BASE_LO,
   R.GLB_DUMP_BASE_HI,
   R.GLB_DUMP,
   R.GLB_RCV_CMD,
   R.GLB_RCV,
   R.CHK_CFG,
   R.CHK_TIMER]
/-- Registers, part 5. -/
def allRegs5 : List RegDef :=
  [R.CHK_STEPS,
   R.CHK_RSV,
   R.CHK_FREE,
   R.CHK_STAT,
   R.CHK_ACK,
   R.CHK_CKPT,
   R.CHK_CKSZ,
   R.CHK_SAVE_LO,
   R.CHK_SAVE_HI,
   R.CHK_CMD,
   R.COX_STAT,
   R.COX_GATE,
   R.NVS_STAT,
   R.NVS_WEAR,
   R.LOG_CTL,
   R.JNL_STAT,
   R.PMC_CNT_LO_CORE,
   R.PMC_CNT_LO_IOD,
   R.PMC_CNT_HI_CORE,
   R.PMC_CNT_HI_IOD,
   R.PMC_SEL_CORE,
   R.PMC_SEL_IOD,
   R.PMC_OVF_CORE,
   R.PMC_OVF_IOD]
/-- Registers, part 6. -/
def allRegs6 : List RegDef :=
  [R.PMC_CTL,
   R.PMC_RING_LO,
   R.PMC_RING_HI,
   R.PMC_CREW,
   R.TRC_CTL,
   R.PCI_BAR4,
   R.PCI_APER_LO,
   R.PCI_APER_HI,
   R.PCI_APER_SZ,
   R.GLB_PERS,
   R.GLB_NF6_SEL,
   R.GLB_NF6_SEQ,
   R.GLB_NF6_DATA,
   R.GLB_NF6_CLR,
   R.GLB_CFGPAR,
   R.SEQ_CREW,
   R.ENG_PRESET,
   R.RIG_CREW,
   R.RIG_CTL,
   R.RIG_STAT,
   R.COX_TEMP,
   R.COX_RAIL,
   R.LNK_LOOP,
   R.LNK_LOOP_ERR]
/-- Registers, part 7. -/
def allRegs7 : List RegDef :=
  [R.GLB_RCV_ARG_LO,
   R.GLB_RCV_ARG_HI,
   R.GLB_RCV_ARG2_LO,
   R.GLB_RCV_ARG2_HI,
   R.CHK_ARG_LO,
   R.CHK_ARG_HI,
   R.CHK_ARG2,
   R.COX_CLAIM,
   R.COX_BEAT,
   R.COX_HOLD,
   R.LOG_CURSOR,
   R.LOG_OLDEST,
   R.LOG_NEWEST,
   R.JNL_CURSOR_LO,
   R.JNL_CURSOR_HI,
   R.JNL_OLDEST_LO,
   R.JNL_OLDEST_HI,
   R.JNL_NEWEST_LO,
   R.JNL_NEWEST_HI,
   R.PMC_HEAD,
   R.PMC_TAIL,
   R.TRC_HEAD,
   R.TRC_TAIL,
   R.TRC_LOST]
/-- Registers, part 8. -/
def allRegs8 : List RegDef :=
  [R.RIG_ADDR_LO,
   R.RIG_ADDR_HI,
   R.RIG_AT_LO,
   R.RIG_AT_HI,
   R.RIG_ID,
   R.RIG_SHORT_LO,
   R.RIG_SHORT_HI,
   R.GATE_TABLE,
   R.CST_BYTES_RD_LO,
   R.CST_BYTES_RD_HI,
   R.CST_BYTES_WR_LO,
   R.CST_BYTES_WR_HI,
   R.DMA_NOC_TX_LO,
   R.DMA_NOC_TX_HI,
   R.DMA_NOC_RX_LO,
   R.DMA_NOC_RX_HI,
   R.GLB_UCIE_TX_LO,
   R.GLB_UCIE_TX_HI,
   R.GLB_UCIE_RX_LO,
   R.GLB_UCIE_RX_HI,
   R.HBM_BYTES_RD_LO,
   R.HBM_BYTES_RD_HI,
   R.HBM_BYTES_WR_LO,
   R.HBM_BYTES_WR_HI]
/-- Registers, part 9. -/
def allRegs9 : List RegDef :=
  [R.HBM_BYTES_PKG_LO,
   R.HBM_BYTES_PKG_HI,
   R.GRN_BYTES_RD_LO,
   R.GRN_BYTES_RD_HI,
   R.GRN_BYTES_WR_LO,
   R.GRN_BYTES_WR_HI,
   R.ATM_BYTES_LO,
   R.ATM_BYTES_HI,
   R.LNK_BYTES_TX_LO,
   R.LNK_BYTES_TX_HI,
   R.LNK_BYTES_RX_LO,
   R.LNK_BYTES_RX_HI,
   R.PCI_BYTES_TX_LO,
   R.PCI_BYTES_TX_HI,
   R.PCI_BYTES_RX_LO,
   R.PCI_BYTES_RX_HI]
/-- Every register. -/
def allRegs : List RegDef :=
  allRegs0 ++ allRegs1 ++ allRegs2 ++ allRegs3 ++ allRegs4 ++ allRegs5 ++ allRegs6 ++ allRegs7 ++ allRegs8 ++ allRegs9

end Sys2Proof.Machine
end

