-- ==== Sys2Proof/Machine/State.lean ====
section
/-!
DEFINITION. The state of the block: every register (by BAR0 offset), memory, queue, buffer, counter and pin the spec
gives the NF8, and the queue of waiting commands. INVENTORY.md lists each with its rule and reset value.
-/
namespace Sys2Proof.Machine

/-! ### Values -/

/-- A decoded number (05 R118): an exact dyadic m × 2^e with its sign, an infinity or NaN. -/
inductive FVal | nan | inf (neg : Bool) | fin (neg : Bool) (m : Nat) (e : Int)
  deriving DecidableEq, Repr

/-! ### Memory -/

/-- A granule's check state (07 R164): its poison mark and its symbol errors (symbol, pattern). -/
structure Gran where
  poison : Bool := false
  errs : List (Nat × Nat) := []
  deriving DecidableEq, Repr

/-- A core-store word's check state (06 R140): its poison mark and its flipped bits of 72. -/
structure WordSt where
  poison : Bool := false
  flips : List Nat := []
  deriving DecidableEq, Repr

/-- A queued write-back (07 R172, R173): granule address, poisoning or correcting; `stale` once a write was accepted. -/
structure WriteBack where
  gran : Nat
  poisoning : Bool
  stale : Bool := false
  deriving DecidableEq, Repr

/-- A piece of a row that run-ahead has read into the prefetch buffer (03 R81; 06 R154): its entry and command word, the
address of the row, the bytes from its start on. -/
structure PreRow where
  entry : Nat
  word : CmdWord
  addr : Nat
  data : List (Byte × Bool)
  deriving DecidableEq, Repr

/-- A request to an ordered atomic window held for its turn (07 R183). -/
structure AReq where
  crew : Nat
  core : Nat
  pkg : Option Nat
  stroke : Nat
  addr : Nat
  poisoned : Bool
  data : Bytes
  link : Option Nat := none
  deriving DecidableEq, Repr

/-! ### Matrix engine -/

/-- A result cell (04 R94; 05 R123): sum, error term, poison bit and the products of the open group. -/
structure Cell where
  s : Word := 0
  e : Word := 0
  poison : Bool := false
  opn : List FVal := []
  deriving DecidableEq, Repr

/-- A check accumulator with its bound β (04 R102; 10 R234). -/
structure Chk where
  s : Word := 0
  e : Word := 0
  beta : Word := 0
  poison : Bool := false
  opn : List FVal := []
  deriving DecidableEq, Repr

/-- The chain an engine holds (04 R108): its launch, context, shape and group, whether it is sampled, its issue index in the
core's sequence (10 R244), the problems of its instructions, its K count per problem, and the scale exponents held for the
block in progress (`none`: the byte was 0xFF), rows of A and columns of B per problem (04 R104). -/
structure Chain where
  accept : Nat
  ctx : Nat
  shape : Nat
  group : Nat
  sampled : Bool := false
  index : Nat := 0
  qs : List Nat := []
  k : List Nat := [0, 0, 0, 0]
  heldA : List (List (Option Int × Bool)) := []
  heldB : List (List (Option Int × Bool)) := []
  deriving DecidableEq, Repr

/-- A held command word with the launch that issued it, the stroke it was due in, its entry, its issue index among the
core's chains eligible for sampling (10 R240) and among all its chains (`ord`, 10 R244), the progress made, whether it has
started, and the QUAD descriptor read then (04 R99). `tag` numbers the commands of a core in issue order. -/
structure QCmd where
  word : CmdWord
  accept : Nat
  stroke : Nat
  entry : Nat := 0
  tag : Nat := 0
  idx : Nat := 0
  ord : Nat := 0
  desc : Bytes := []
  done : Nat := 0
  rows : Nat := 0
  poison : Bool := false
  started : Bool := false
  deriving DecidableEq, Repr

/-- One drained result cell: physical row and column, and s, e with any open group closed into them, and poison. -/
structure Drained where
  row : Nat
  col : Nat
  s : Word
  e : Word
  beta : Word := 0
  poison : Bool
  deriving DecidableEq, Repr

/-- A tile of a result: first physical row and column, rows, columns, destination and pitch in bytes
(04 R109 to R113). -/
structure Tile where
  row0 : Nat
  col0 : Nat
  rows : Nat
  cols : Nat
  dst : Nat
  pitch : Nat
  deriving DecidableEq, Repr

/-- A full output buffer waiting for the commit of its command (04 R109); its tiles in problem order; `poison`: its chain
had consumed poison by then (10 R242). -/
structure OutBuf where
  cmd : QCmd
  ctx : Nat
  shape : Nat
  group : Nat
  outFmt : Nat
  watch : Option Nat
  sampled : Bool
  index : Nat
  k : List Nat
  tiles : List Tile
  cells : List Drained
  chk : List Drained
  poison : Bool := false
  deriving DecidableEq, Repr

/-- A matrix engine (04 R94); `sig`: tag and progress of its commands at the last drive end, and `noProgress` the drives in
which they have stood still (12 R294); `part`: what it has read from rings of a position that it cannot yet take (04 R106),
by problem (four keys each: A, B and their scales). -/
structure Engine where
  cells : List (Nat × Cell) := []
  chk : List (Nat × Chk) := []
  chain : Option Chain := none
  q : List QCmd := []
  out : List OutBuf := []
  part : List (Nat × List (Byte × Bool)) := []
  frozen : Bool := false
  noProgress : Nat := 0
  sig : List (Nat × Nat × Nat) := []
  deriving DecidableEq, Repr

/-! ### Sequencer -/

/-- A wait in progress (03 R67): tally, threshold, timeout (0: none), the stroke W it began in, and the raw instant;
`begun` once conditions 1 to 3 of R66 hold, or the wait is current on every unit it names. -/
structure Wait where
  tally : Nat
  value : Word
  timeout : Nat
  w : Nat
  since : Nat
  begun : Bool := true
  sat : Bool := false
  expired : Bool := false
  deriving DecidableEq, Repr

/-- An unsatisfied WAIT_GE held by the unit it names (03 R85). -/
structure UWait where
  unit : Nat
  cmd : QCmd
  wait : Wait
  deriving DecidableEq, Repr

/-- Where a table lies: in the table area of core store, or in HBM (03 R63). -/
structure TableRef where
  inStore : Bool
  addr : Nat
  len : Nat
  deriving DecidableEq, Repr

/-- A LOOP in progress (03 R70): the repeated entries by index of their headers in table order, those left of this
pass, the pass number, the passes and the stride; and the words of the holding entry that follow the LOOP word. -/
structure LoopFrame where
  entries : List Nat
  left : List Nat
  pass : Nat
  count : Nat
  stride : Nat
  base : Nat
  rest : List CmdWord
  resume : Nat
  deriving DecidableEq, Repr

/-- The calling table of a sub-table run by POOL_TAKE (03 R92). -/
structure CallFrame where
  table : TableRef
  pos : Nat
  start : Nat
  last : Nat
  starts : List Nat
  loops : List LoopFrame
  rest : List CmdWord
  deriving DecidableEq, Repr

/-- A core's sequencer (03 R65 to R71). -/
structure Seq where
  accept : Option Nat := none
  ctx : Nat := 0
  table : TableRef := ⟨false, 0, 0⟩
  start : Nat := 0
  pos : Nat := 0
  last : Nat := 0
  starts : List Nat := []
  loops : List LoopFrame := []
  caller : Option CallFrame := none
  held : List CmdWord := []
  due : Nat := 0
  entry : Nat := 0
  waits : Option (List Wait) := none
  argLanded : Bool := true
  stopped : Bool := false
  ended : Bool := true
  ctr : Nat := 0
  chains : Nat := 0
  aheadPos : Nat := 0
  ahead : Nat := 0
  specs : List Nat := []
  deriving DecidableEq, Repr

/-! ### Verification -/

/-- A comparison due in the recovery of a stroke (02 R62; 10 R241): engine, launch, chain index, both digests, and flags;
`shadow`: its emit fell in the shadowed span of a diagnostic replay (10 R245). -/
structure UmpCmp where
  stroke : Nat
  eng : Nat
  accept : Nat
  index : Nat
  row : Nat
  worker : Nat
  umpire : Nat
  poison : Bool
  umpFail : Bool
  shadow : Bool := false
  deriving DecidableEq, Repr

/-- The umpire hosted for a worker core, kept with the worker (10 R239 to R243); `failed`: launches a comparison of whose
emits did not pass. -/
structure Ump where
  chain : Option (Nat × Nat) := none
  poison : Bool := false
  pend : List UmpCmp := []
  failed : List Nat := []
  deriving DecidableEq, Repr

/-- A watch partial or result (10 R251, R254), exact: sums in units of 2^-149 and 2^-298; `mn`, `mx`: FP32 order. -/
structure Watch where
  digest : Nat := 0
  elements : Nat := 0
  tiles : Nat := 0
  zeros : Nat := 0
  nans : Nat := 0
  infs : Nat := 0
  mn : Word := 0x7FC00000
  mx : Word := 0x7FC00000
  sum : Int := 0
  sumsq : Nat := 0
  poisoned : Nat := 0
  overflow : Bool := false
  deriving DecidableEq, Repr

/-- A slot of a crew: active, step_close, close requested, merge due, the closed result and its stamps (10 R253). -/
structure Slot where
  active : Bool := false
  stepClose : Bool := false
  requested : Bool := false
  merging : Option Nat := none
  result : Watch := {}
  closeStroke : Nat := 0
  closeSeq : Nat := 0
  valid : Bool := false
  deriving DecidableEq, Repr

/-- What the diagnostic replay saw at one emit (10 R246). -/
structure Obs where
  eDiff : Bool
  uDiff : Bool
  sDiff : Bool
  eFail : Bool
  uFail : Bool
  s0Fail : Bool
  s1Fail : Bool
  deriving DecidableEq, Repr

/-- A diagnostic replay (10 R245): the suspect core and engine, the accept number and index of the suspect chain, an
umpire mismatch or a sum-check one, the stroke offset within the step of the detection, whether S0 and S1 take part, what
was seen. -/
structure Diag where
  core : Nat
  eng : Nat
  accept : Nat := 0
  index : Nat := 0
  byUmpire : Bool
  offset : Nat
  shadows : Bool
  running : Bool := false
  obs : List Obs := []
  deriving DecidableEq, Repr

/-! ### Trace and counters -/

/-- A trace record (15 R377). -/
structure Trc where
  time : Nat
  kind : Nat
  unit : Nat
  core : Nat
  flags : Nat
  ctx : Nat
  entry : Nat
  accept : Nat
  stroke : Nat
  detail : Nat
  deriving DecidableEq, Repr

/-- A run of dropped records (15 R379). -/
structure LossRun where
  count : Nat
  time : Nat
  stroke : Nat
  deriving DecidableEq, Repr

/-! ### Cores -/

/-- A logical core (01 R12). Its registers are in `State.regs`. `vecSig` to `dmaIdle` watch the vector and DMA engines as
`sig` and `noProgress` an engine (12 R294). `patrolled`: the banks whose patrol has read the row in progress, and `patrolAt`
the stroke of each bank's last read (06 R142). `msgTags`: the next message number of each source unit (08 R191); `uefWin`: the
stroke of a UE-F of the core's logic whose window is open (11 R278). -/
structure Core where
  store : List (Nat × Byte) := []
  words : List (Nat × WordSt) := []
  ceWb : List Nat := []
  patrolled : List Nat := []
  patrolAt : List (Nat × Nat) := []
  seq : Seq := {}
  eng : List (Nat × Engine) := []
  vecq : List QCmd := []
  dmaq : List QCmd := []
  vecSig : List (Nat × Nat × Nat) := []
  vecIdle : Nat := 0
  dmaSig : List (Nat × Nat × Nat) := []
  dmaIdle : Nat := 0
  tq : List QCmd := []
  nextTag : Nat := 0
  msgTags : List (Nat × Nat) := []
  pre : List PreRow := []
  posts : List (Bool × Nat × Nat) := []
  waits : List UWait := []
  fences : List QCmd := []
  added : List (Nat × Word) := []
  ump : Ump := {}
  transOpen : Option Nat := none
  trans : Nat := 0
  ueWin : Option (Nat × Nat) := none
  uefWin : Option Nat := none
  progFault : Option Nat := none
  watch : List (Nat × Watch) := []
  cursors : List (Nat × Nat) := []
  trc : List Trc := []
  trcLoss : Option LossRun := none
  trcReset : Bool := false
  deriving DecidableEq, Repr

/-! ### Queues and launches -/

/-- A fetched ring entry: its slot, its 64 bytes and the raw instant of the fetch (03 R75); `bad`: its read failed, which
stops the queue when the entries before it have been taken (R73). -/
structure Fetched where
  slot : Nat
  data : Bytes
  since : Nat
  bad : Bool := false
  deriving DecidableEq, Repr

/-- A queue (03 R72, R73); `rsv`: the reserved bits [24:12] of SEQ_QCFG as test mode wrote them (16 R386). -/
structure Queue where
  enable : Bool := false
  ringInHbm : Bool := false
  cplInHbm : Bool := false
  log2 : Nat := 4
  context : Nat := 0
  rsv : Nat := 0
  ringLo : Word := 0
  ringHi : Word := 0
  cplLo : Word := 0
  cplHi : Word := 0
  expected : Word := 0
  head : Nat := 0
  tail : Nat := 0
  error : Nat := 0
  stopped : Bool := false
  bell : Nat := 0
  fetched : List Fetched := []
  lastAccept : Nat := 0
  lastCmd : Bytes := []
  deriving DecidableEq, Repr

/-- A tally (03 R84). -/
structure Tally where
  value : Word := 0
  allocated : Bool := false
  remote : Bool := false
  crew : Nat := 0
  deriving DecidableEq, Repr

/-- A context's binding by the rig (03 R72). -/
structure Ctx where
  bound : Bool := false
  privileged : Bool := false
  crew : Nat := 0
  deriving DecidableEq, Repr

/-- An accepted launch (03 R77, R79). `members`: core, table, address of the argument block; `worked`: the latest stroke
in which work of it was performed (12 R309); `planned`: its start stroke before it starts, `start` the one it started in. -/
structure Launch where
  accept : Nat
  queue : Nat
  slot : Nat
  seq : Word
  cookie : DWord
  ctx : Nat
  named : Bool
  start : Nat
  planned : Nat
  directory : Nat
  args : Nat
  argsLen : Nat
  argsInHbm : Bool
  since : Nat
  checked : Bool := false
  running : Bool := false
  members : List (Nat × TableRef × Nat) := []
  ended : List Nat := []
  statuses : List Nat := []
  worked : Option Nat := none
  replayed : Bool := false
  finished : Option Nat := none
  poisoned : Bool := false
  stopNext : Bool := false
  ring : Nat × Bool := (0, false)
  deriving DecidableEq, Repr

/-- A completion record to be written when its step retires (12 R286). `ring`: the completion ring at acceptance, and
whether it lies in HBM. -/
structure Cpl where
  accept : Nat
  queue : Nat
  slot : Nat
  seq : Word
  cookie : DWord
  op : Nat
  ctx : Nat
  crew : Nat
  stroke : Nat
  status : Nat
  replayed : Bool
  step : Nat
  poisoned : Bool := false
  ring : Nat × Bool := (0, false)
  deriving DecidableEq, Repr

/-- An item in a work pool (03 R93): its put ordinal, the stroke and core of the put, and its number i once numbered. -/
structure PoolItem where
  ord : Nat
  stroke : Nat
  core : Nat
  num : Option Nat := none
  deriving DecidableEq, Repr

/-- A work pool (03 R92, R93): ring base and capacity, puts made, the next number i, the items not yet taken in put
order. -/
structure Pool where
  base : Nat := 0
  cap : Nat := 0
  nput : Nat := 0
  next : Nat := 0
  items : List PoolItem := []
  deriving DecidableEq, Repr

/-! ### Checkpoint and recovery -/

/-- A region of a crew's range (13 R311): class 0 STATE to 4 CKPT, first page, pages. -/
structure Region where
  cls : Nat
  first : Nat
  pages : Nat
  deriving DecidableEq, Repr

/-- A frame of a page (13 R313, R314): its address page; `fill`: none when complete, else the filled lines; `eid`: the
epochs made up to then, so that the frame serves later ones. -/
structure Frame where
  page : Nat
  fill : Option (List Nat) := none
  eid : Nat := 0
  deriving DecidableEq, Repr

/-- A STATE page's live frame and its copies, newest first (13 R314, R315). -/
structure PageSt where
  live : Frame
  copies : List Frame := []
  deriving DecidableEq, Repr

/-- A member core as a snapshot holds it (13 R320). -/
structure CoreSnap where
  core : Nat
  store : List (Nat × Byte)
  words : List (Nat × WordSt)
  eng : List (Nat × Engine)
  seq : Seq
  rings : List (Nat × Word × Word)
  deriving DecidableEq, Repr

/-- What a flit carries: the 112 B body of a WRITE, TALLY_ADD or MGMT flit, or the content of a class whose body the
spec does not lay out. -/
inductive FlitBody
  | data (b : Bytes) | coll (f : CollFlit) | acks (pairs : List (Nat × Nat))
  deriving DecidableEq, Repr

/-- A flit waiting to be launched, in the replay buffer, or landed and held (08 R190 to R207). `cls` is its launch
class; `core`, `unit`, `cmd`, `msg` and `accept` name its source; `stroke` is its launch stroke; `launched` in ns; `slot`: it
takes a receive slot, which a flit that a rollback put back does not. -/
structure Flit where
  body : FlitBody
  vc : Vc
  cls : Nat
  crew : Option Nat := none
  job : Nat := 0
  dst : Nat := 0
  poison : Bool := false
  last : Bool := true
  core : Nat := 0
  unit : Nat := 0
  cmd : Nat := 0
  msg : Nat := 0
  accept : Nat := 0
  seq : Nat := 0
  stroke : Nat := 0
  launched : Nat := 0
  replays : Nat := 0
  slot : Bool := true
  deriving DecidableEq, Repr

/-- A COLL flit in a receive buffer: its crew, launch stroke and content; `slot`: it takes a receive slot (R196). -/
structure CollHeld where
  crew : Nat
  stroke : Nat
  flit : CollFlit
  slot : Bool := true
  deriving DecidableEq, Repr

/-- An on-chip snapshot (13 R320) with the slot that holds it; `held`, `heldColl`: by link, the receive-buffer contents of an
ELASTIC crew, which belong to the boundary (02 R44, R45). -/
structure Snap where
  slot : Nat
  cores : List CoreSnap
  tallies : List (Nat × Word)
  pools : List Pool
  launches : List Launch
  remAdds : List (Nat × Word × Nat)
  aord : List AReq
  watch : List (Nat × List (Nat × Watch))
  slip : Nat := 0
  held : List (Nat × Flit) := []
  heldColl : List (Nat × CollHeld) := []
  deriving DecidableEq, Repr

/-- A rollback point (12 R285; 13 R318): its boundary, the boundary at which the work since then runs anew after a replay
(12 R289), its epoch and its snapshot. -/
structure Point where
  stroke : Nat
  current : Nat
  eid : Nat
  snap : Snap
  deriving DecidableEq, Repr

/-- A tally command of an accepted TALLY_ADD or TALLY_SET, with the boundary at which it acts (12 R289); `todo`: it has
yet to act, or to act again; `cpl`: the completion it then makes. -/
structure TalCmd where
  accept : Nat
  stroke : Nat
  isSet : Bool
  tally : Nat
  value : Word
  todo : Bool := false
  cpl : Option Cpl := none
  deriving DecidableEq, Repr

/-- Why and how a crew stops (12 R287 to R293). -/
structure Stop where
  bStop : Nat
  target : Option Nat := none
  hold : Bool := false
  releaseAt : Option Nat := none
  replay : Bool := true
  cause : Nat := 2
  deriving DecidableEq, Repr

/-- A checkpoint in progress (13 R325, R330): kind, B_c, its epoch, whether its freeze lasts, the pages left to copy, the
lines of the first of them that are copied (02 R60), the save entries of a tensor checkpoint, steps committed at B_c,
whether the package was suspect at B_c. -/
structure Ckpt where
  tensor : Bool
  stroke : Nat
  eid : Nat
  freezing : Bool
  left : List Nat
  line : Nat := 0
  shards : List Bytes := []
  steps : Nat := 0
  suspectAt : Bool := false
  deriving DecidableEq, Repr

/-- The clients of the recovery (02 R59). -/
inductive Client | scrub | cow | pmc | trace | log
  deriving DecidableEq, Repr

/-- The background clients in a recovery (02 R59, R60): by stack, the slots that each client has used of the round of 32 in
progress, and the stacks whose floor line of scrub has issued. -/
structure Recess where
  used : List (Nat × List Client) := []
  floor : List Nat := []
  deriving DecidableEq, Repr

/-- A trigger of a checkpoint that waits for its boundary (13 R324): kind, stroke, whether CHK_CMD made it. -/
structure CkReq where
  tensor : Bool
  stroke : Nat
  cmd : Bool
  deriving DecidableEq, Repr

/-- A restore in progress (13 R328, R332). -/
structure Restore where
  tensor : Bool
  addr : Nat
  count : Nat
  deriving DecidableEq, Repr

/-- A collective of a crew (08 R214 to R216). `own`: partials of this rank that wait for the chain of their level, and
`inc`: partials of a chain that wait for this rank's, both at key level × count + element; `results`: result elements
written; `via`: what is being taken in came over a link whose credits are frozen (11 R270). -/
structure Coll where
  id : BitVec 32
  op : Nat
  fmt : Nat
  red : Nat
  outFmt : Nat
  fan : List Nat
  src : Nat
  dst : Nat
  count : Nat
  rank : Nat
  n : Nat
  rankTable : Nat
  tally : Nat
  group : Nat
  since : Nat
  accept : Nat
  own : List (Nat × Nat × Nat × Bool) := []
  inc : List (Nat × Nat × Nat × Bool) := []
  results : List Nat := []
  via : Bool := false
  deriving DecidableEq, Repr

/-- A crew (01 R17). Its registers are in `State.regs`. `firstFrom`: where a first step began at B_L (R415). `clash`: the launch
whose start stroke, the one in progress, found another launch running (03 R77). `retime`: the replays' windows, the last
accepted stroke to which each applies and its delay (12 R289). -/
structure Crew where
  regions : List Region := []
  key : BitVec 128 := 0
  launches : List Launch := []
  cpls : List Cpl := []
  talCmds : List TalCmd := []
  pools : List Pool := []
  slots : List (Nat × Slot) := []
  pages : List (Nat × PageSt) := []
  eid : Nat := 0
  points : List Point := []
  stepStart : Nat := 0
  stepNext : Bool := false
  stepSnapEid : Nat := 0
  unprot : Bool := true
  freezeEnd : Option Nat := none
  freezePoint : Bool := false
  freezeSnap : Option Snap := none
  firstStep : Bool := false
  firstFrom : Option Nat := none
  stop : Option Stop := none
  bRestore : Option Nat := none
  delta : Nat := 0
  replayEnd : Option Nat := none
  retime : List (Nat × Nat) := []
  releaseAt : Option Nat := none
  restart : Bool := false
  lastStop : Nat := 0
  slip : Nat := 0
  clash : Option Nat := none
  consecTarget : Option Nat := none
  ckpt : Option Ckpt := none
  ckReq : List CkReq := []
  restore : Option Restore := none
  restoredDelta : Option Nat := none
  colls : List Coll := []
  aborted : List (BitVec 32) := []
  diag : Option Diag := none
  drainStop : Bool := false
  steps : Nat := 0
  lastTimer : Option Nat := none
  everLaunch : Bool := false
  remHeld : List (Nat × Word × Nat) := []
  deriving DecidableEq, Repr

/-! ### Links -/

/-- An unacknowledged job flit (08 R202, R204); `lost`: discarded with its link, so never acknowledged (R210). -/
structure Unacked where
  bulk : Bool
  crew : Nat
  core : Nat
  unit : Nat
  dst : Nat
  msg : Nat
  cmd : Nat
  accept : Nat
  launched : Nat
  isAdd : Bool
  lost : Bool := false
  deriving DecidableEq, Repr

/-- A link (08 R186 to R211). Its registers are in `State.regs`. `hdrs`: class, crew and launch stroke of the COLL
and LAND_ACK flits passed whose content is to come; `badMsgs`: crew and descriptor bytes 16 to 23 of messages that lost a flit here; `freed`,
`freedSent`, `freedSeen`: slots freed since the last CREDIT_SYNC, as last reported, and as the partner last reported its own;
`withheld`: by crew, freed BULK slots kept back while it is at its share (R196); `restripeDue`: a recovery has begun since the
lane messages (R209); `idleFrom`: its state before Easy (R187). -/
structure Link where
  txSeq : Nat := 0
  replay : List Flit := []
  timedQ : List Flit := []
  bulkQ : List Flit := []
  ctlQ : List Flit := []
  mgmtQ : List Flit := []
  unacked : List Unacked := []
  rxSeq : Nat := 0
  rxHeld : List Flit := []
  rxColl : List CollHeld := []
  hdrs : List (Nat × Nat × Nat) := []
  badMsgs : List (Nat × Nat) := []
  freed : Credits := ⟨0, 0, 0, 0⟩
  freedSent : Credits := ⟨0, 0, 0, 0⟩
  freedSeen : Credits := ⟨0, 0, 0, 0⟩
  withheld : List (Nat × Nat) := []
  sinceLink : Nat := 0
  lastLinkTx : Nat := 0
  lastLinkRx : Nat := 0
  retryOut : Bool := false
  usable : List Bool := [true, true]
  degSent : Bool := false
  degRecv : Bool := false
  restripeDue : Bool := false
  restriped : Bool := false
  reconciled : Bool := false
  shares : List Nat := []
  retrained : Option Bool := none
  rejoin : Bool := false
  ucwStart : Nat := 0
  idleFrom : Option Nat := none
  deriving DecidableEq, Repr

/-! ### Time -/

/-- A timestamp entry (09 R230): id, late, refused, unlocked, time in units of 2^-32 ns. -/
structure TsEntry where
  id : Nat
  late : Bool
  refused : Bool
  unlocked : Bool
  time : Nat
  deriving DecidableEq, Repr

/-- Fabric time and its servo (09 R217 to R227). By link: the delays of the last 16 accepted exchanges, the exchanges since
d_min was cleared (4 rebuild it), and the width of the last exchange. `exch`: link, identifier, t1, width of those open. `txq`:
a frame and the time since which it is at the head of its queue; `mgmtDone`: the ends of MGMT flits with a launch time;
`sync1`, `sync2`: Sync interval of a PTP source, ns; `capDue`: channel, time and unlocked flag of events seen whose capture is
to be entered. -/
structure Tim where
  offset : Nat := 0
  anchor : Nat := 0
  integ : Int := 0
  dHist : List (Nat × List Int) := []
  rebuilt : List (Nat × Nat) := []
  width : List (Nat × Bool) := []
  lockRun : Nat := 0
  lastAcc1 : Option Nat := none
  lastAcc2 : Option Nat := none
  lastAny : Nat := 0
  exch : List (Nat × Nat × Nat × Bool) := []
  exchId : Nat := 0
  ts : List (Nat × List TsEntry) := []
  capNum : List (Nat × Nat) := []
  capNext : List (Nat × Word) := []
  capDue : List (Nat × Nat × Bool) := []
  txq : List (Nat × List (TxDesc × Nat)) := []
  mgmtDone : List TsEntry := []
  sync1 : Nat := 0
  sync2 : Nat := 0
  rxFrames : List (Nat × Nat × Bytes) := []
  deriving DecidableEq, Repr

/-- A stroke receiver's flywheel (02 R47): the number and predicted instant (ns of fabric time) of its next boundary, the
runs of ignored and missed marks, whether that boundary has been emitted, the prediction after it once its mark has been
classified, and whether the first mark is to be adopted as it comes (R413). `repBase`, `repRaw`, `repRate`: the anchor of the die's replica
of fabric time (09 R220). Its STK_RX_n is in `State.regs`. -/
structure Flywheel where
  count : Nat := 0
  pred : Nat := 0
  run : Nat := 0
  missRun : Nat := 0
  emitted : Bool := false
  next : Option Nat := none
  adopt : Bool := true
  repBase : Nat := 0
  repRaw : Nat := 0
  repRate : Int := 0
  deriving DecidableEq, Repr

/-- The stroke generator (02 R37 to R48, R413): the stroke in progress and its boundary in ns, whether its drive lasts, the
strokes without work, each with a die whose count jumped (R48), a renumbering in progress (least instant of its first
boundary, last recovery of the old numbering), the frame on the stroke line, the receivers. -/
structure Stk where
  num : Nat := 0
  bound : Nat := 0
  drive : Bool := false
  noWork : List (Nat × Nat) := []
  renum : Option (Nat × Nat) := none
  frame : Word := 0
  rx : List (Nat × Flywheel) := []
  deriving DecidableEq, Repr

/-! ### Power -/

/-- Easy (01 R29 to R33). -/
inductive EasyPhase | awake | requested | entering | asleep | waking
  deriving DecidableEq, Repr

/-- An accepted mode change (01 R22): target, named start stroke (none: the next boundary), B0 and the end of the
settling interval once it has begun. -/
structure ModeChange where
  target : Nat
  start : Option Nat
  b0 : Option Nat := none
  settle : Nat := 0
  settled : Bool := false
  deriving DecidableEq, Repr

/-- Power, clocks and power-up. -/
structure Pow where
  mode : Option ModeChange := none
  easy : EasyPhase := .awake
  entry : Nat := 0
  wakeReq : Bool := false
  wakeW : Nat := 0
  tFirst : Nat := 0
  tFirstStroke : Nat := 0
  held : List (Nat × Word) := []
  armed : List Nat := []
  rearm : List (Nat × Nat) := []
  idle : List Block := []
  tripped : Bool := false
  critical : Bool := false
  step : Nat := 0
  testMode : Bool := false
  testEnSeen : Bool := false
  badSites : List (Nat × Nat) := []
  stuck : Bool := false
  perst : Bool := false
  warn : Option Nat := none
  warnFlush : Bool := false
  bootKind : Nat := 0
  deriving DecidableEq, Repr

/-- Pins the package drives and straps it samples (17 R405 to R411). -/
structure Pins where
  enArr : Bool := false
  enCmp : Bool := false
  enIod : Bool := false
  enHbm : Bool := false
  vid : BitVec 7 := 0
  alertN : Bool := true
  faultLedN : Bool := true
  thermTripN : Bool := true
  slot : BitVec 2 := 0
  chipRst : Bool := false
  pkgRst : Bool := false
  linkEn : BitVec 96 := 0xFFFFFFFFFFFFFFFFFFFFFFFF
  deriving DecidableEq, Repr

/-! ### Faults -/

/-- A fault raised and not yet numbered (11 R272): every field of its record but the logbook number and CRC; `phys`: the
physical address of an HBM error (11 R276); `raw`, `timStat`: the raw counter and TIM_STAT at detection (R277). -/
structure Fault0 where
  cls : Nat
  sev : Nat
  space : Nat := 0
  unlocked : Bool := false
  degrade : Bool := false
  die : Nat := 0
  core : Nat := 0xFF
  site : Nat := 0xFF
  unit : Nat := 0xFF
  crew : Option Nat := none
  time : Nat := 0
  stroke : Nat := 0
  accept : Option Nat := none
  ctx : Option Nat := none
  queue : Nat := 0xFFFF
  addr : Nat := 0
  syndrome : Nat := 0
  loc : Nat := 0xFFFF
  event : Nat
  detail : Nat := 0
  phys : Nat := 0
  raw : Nat := 0
  timStat : Word := 0
  deriving DecidableEq, Repr

/-- A drain (11 R281, R282). -/
structure Drain where
  suspect : Bool
  since : Nat
  deriving DecidableEq, Repr

/-- What a dump or a reset concerns (12 R301). -/
inductive Dom | engine (core e : Nat) | core (c : Nat) | crew (n : Nat) | chip | package | cold
  deriving DecidableEq, Repr

/-- A dump asked for or being written (12 R299): its domain and cause code, and once frozen the stroke and fabric time. -/
structure DumpReq where
  dom : Dom
  cause : Nat
  writing : Bool := false
  stroke : Nat := 0
  time : Nat := 0
  deriving DecidableEq, Repr

/-- Fault logic (11, 12). `ceTally`, `ceQueue`, `ceSram`: corrected errors of the tallies, of the queue and sequencer state and
of the always-on SRAM since package reset (11 R274). -/
structure Flt where
  queue : List Fault0 := []
  lostNext : Bool := false
  ringWait : List Bytes := []
  drain : Option Drain := none
  dumps : List DumpReq := []
  resets : List Dom := []
  resetting : Option Dom := none
  lastChip : Option Nat := none
  switches : List (Nat × Nat) := []
  infoSub : Bool := false
  ueSeen : List (Nat × List Nat) := []
  pendingDrain : Option (Bool × Nat) := none
  lastSlot : Option Nat := none
  ucie : List Nat := []
  request : Option Dom := none
  chipReload : Bool := false
  ceTally : Nat := 0
  ceQueue : Nat := 0
  ceSram : Nat := 0
  deriving DecidableEq, Repr

/-! ### Cox die -/

/-- A logbook trigger waiting to be taken (14 R350): class, body, and the link of a LINK trigger. -/
structure Trigger where
  cls : Nat
  body : Bytes
  loc : Nat := 0
  deriving DecidableEq, Repr

/-- A logbook record (14 R351) without its sync and CRC. -/
structure LogRec where
  seq : Nat
  cls : Nat
  flushed : Bool := false
  full : Bool := false
  lost : Bool := false
  rep : Nat := 0
  first : Nat
  last : Nat
  body : Bytes
  snapshot : List Word
  deriving DecidableEq, Repr

/-- A journal entry (14 R355) without its CRC. -/
structure JnlEntry where
  num : Nat
  kind : Nat
  status : Nat
  op : Nat
  flags : Nat
  queue : Nat
  ctx : Nat
  seq : Word
  accept : Nat
  stroke : Nat
  cookie : DWord
  time : Nat
  deriving DecidableEq, Repr

/-- An NV sector of the logbook or journal area (14 R359). -/
structure Sector where
  journal : Bool
  order : Nat
  recs : List LogRec
  entries : List JnlEntry
  torn : Bool := false
  deriving DecidableEq, Repr

/-- A sector being programmed (14 R361). -/
structure Program where
  sector : Sector
  attempts : Nat := 0
  powerFail : Bool := false
  deriving DecidableEq, Repr

/-- A firmware slot: version and image with its signature (14 R337). -/
structure FwSlot where
  version : Nat
  image : Bytes
  sig : Bytes
  deriving DecidableEq, Repr

/-- The NV store (14 R358 to R361). -/
structure Nv where
  epoch : Nat := 0
  securityVersion : Nat := 0
  preferredB : Bool := false
  spareMap : List (Nat × Nat) := []
  replace : Bool := false
  reason : Nat := 0
  bounded : List Bool := [false, false, false, false, true, true]
  bounds : List Nat := [0, 0, 0, 0, 5000000, 1000000]
  snapLists : List (Nat × List Nat) := []
  trayList : List Bytes := []
  timeSrc : Word := 0xFFFDB200
  timeServo : Word := 0x15080888
  linkCfg : List (Nat × Nat) := []
  debugPermit : Bool := false
  mgmtKey : BitVec 128 := 0
  ownerKey : Bytes := []
  serviceCounter : Nat := 0
  macs : List (Nat × Nat) := []
  fw0 : Option FwSlot := none
  fw1 : Option FwSlot := none
  shadow : Option Bytes := none
  shadowDone : Bool := false
  sectors : List Sector := []
  order : Nat := 0
  spares : Nat := 1024
  retired : Nat := 0
  retries : Nat := 0
  programs : Nat := 0
  ro : Bool := false
  deriving DecidableEq, Repr

/-- A claim gate group's outputs and gap (14 R344 to R346). -/
structure Gate where
  value : BitVec 96 := 0
  gapH : Word := 0
  gapAt : Nat := 0
  deriving DecidableEq, Repr

/-- A message the package sends (11 R275; 12 R305; 14 R349, R366, R367): kind, destination, bytes. -/
inductive Msg
  | msix (vector : Nat) | cper (rec : Bytes) | inband (pkg : Nat) (rec : Bytes) | tray (claim : Word)
  | handoff (claim : Word) | trayList (b : Bytes) | reply (b : Bytes) | gone | pldmReadOnly | frame (port : Nat) (buf : Nat)
  | lane (link : Nat) (lane : Nat) (ack : Bool) | linkFlit (link : Nat) (seq : Nat) (freed : Credits)
  | roleReq (claim : Word) | retry (link : Nat) (seq : Nat) | creditSync (link : Nat) (seq : Nat) (free : Credits)
  | timeReq (link : Nat) (b : TimeBody) (flit : Bytes) | timeResp (link : Nat) (b : TimeBody) (flit : Bytes)
  | flit (link : Nat) (pkg : Nat) (bytes : Bytes) | coll (link : Nat) (pkg : Nat) (f : CollFlit) (bytes : Bytes)
  | landAck (link : Nat) (pkg : Nat) (pairs : List (Nat × Nat)) (bytes : Bytes)
  | casOld (core : Nat) (addr : Nat) (old : List (Byte × Bool))
  deriving DecidableEq, Repr

/-- An item of the NV system area that SET_CONFIG rewrites (14 R358, R367). -/
inductive ConfigItem
  | gates (bounded : List Bool) (bounds : List Nat) | snapList (cls : Nat) (offsets : List Nat) | trayList (writes : List Bytes)
  | time (src servo : Word) | links (l : List (Nat × Nat)) | debugPermit (on : Bool) | macs (l : List (Nat × Nat))
  | preferred (b : Bool) | securityVersion (n : Nat) | spareMap (l : List (Nat × Nat))
  deriving DecidableEq, Repr

/-- The cox die (14). `saved`: the sequence numbers of the valid copies of the takeover state, `savedSeq` the one loaded last;
`core`: the core that boots or takes over; `fwSlot`: the image slot in use. -/
structure Cox where
  saved : List Nat := []
  savedSeq : Nat := 0
  beat : Nat := 0
  takeoverAt : Option Nat := none
  trigger : Nat := 0
  presented : Bool := false
  halted : Bool := false
  waiting : Bool := false
  starts : List Nat := []
  gates : List (Nat × Gate) := []
  trayClaim : Word := 0
  trayAt : Nat := 0
  lastClaim : Word := 0
  logSeq : Nat := 0
  log : List LogRec := []
  triggers : List Trigger := []
  lostNext : Bool := false
  threshold : Nat := 400
  flush : Bool := false
  programs : List Program := []
  logWin : Bytes := []
  jnlNum : Nat := 0
  jnl : List JnlEntry := []
  mirrored : Nat := 0
  jnlWin : Bytes := []
  cper : List Bytes := []
  core : Nat := 0
  fwSlot : Nat := 0
  mgmtKey : BitVec 128 := 0
  mgmtNext : Option (BitVec 128) := none
  mgmtLatch : List (Nat × Word) := []
  deriving DecidableEq, Repr

/-! ### Rig -/

/-- A rig load in progress (16 R397); the stroke and the fabric time of its go. -/
structure RigLoad where
  addr : Nat
  inHbm : Bool
  at_ : Option Nat
  goStroke : Nat
  goNs : Nat
  staged : Bool := false
  deriving DecidableEq, Repr

/-- A rig as parsed (16 R392 to R395): its sections by type, its identifier and package number. -/
structure RigImg where
  id : Word
  package : Nat
  sections : List (Nat × Bytes)
  bytes : Bytes
  deriving DecidableEq, Repr

/-- The rig loader. -/
structure RigSt where
  load : Option RigLoad := none
  staged : Option RigImg := none
  inForce : Option RigImg := none
  effect : Option Nat := none
  deriving DecidableEq, Repr

/-! ### Register conventions -/

/-- NF6 personality latches, the host's latches of register pairs, and configuration parity (16 R382, R387, R389 to R391).
`latch` is keyed by the register that reads it; `failed` holds a register and the queue that SEQ_QSEL selected then. -/
structure Conv where
  nf6Latch : List (Nat × Word) := []
  nf6Seq : List (Nat × BitVec 8) := []
  latch : List (Nat × Word) := []
  badPar : List Nat := []
  failed : List (Nat × Nat) := []
  counted : List (Nat × Nat) := []
  heldWrites : List (Nat × Word) := []
  deriving DecidableEq, Repr

/-- Performance-counter dump in progress (15 R374, R375); `done`: the records of the set that are written (02 R60). -/
structure Pmc where
  counts : List (Nat × Nat) := []
  set : Option Bytes := none
  done : Nat := 0
  skipped : Nat := 0
  clearNext : Bool := false
  selNext : List (Nat × Word) := []
  trcRun : List (Nat × LossRun) := []
  trcNext : List (Nat × Nat) := []
  seq : Nat := 0
  deriving DecidableEq, Repr

/-- A host write to TAL_ADD_n or TAL_SET_n waiting for the boundary (03 R88), or a table SET under FIXED (03 R89). -/
structure TalWrite where
  isSet : Bool
  tally : Nat
  value : Word
  core : Nat := 0
  deriving DecidableEq, Repr

/-! ### The whole machine -/

/-- The state of the NF8. -/
structure State where
  pending : List Instr := []
  regs : List (Nat × Word) := []
  raw : Nat := 0
  mem : List (Nat × Byte) := []
  gran : List (Nat × Gran) := []
  wbq : List (Nat × List WriteBack) := []
  atm : List (Nat × List Nat) := []
  aord : List AReq := []
  hostMem : List (Nat × Byte) := []
  hostPoison : List Nat := []
  tim : Tim := {}
  stk : Stk := {}
  pow : Pow := {}
  pins : Pins := {}
  fuseMem : Nat := 1
  fuseSites : List (Nat × Nat) := []
  recess : Recess := {}
  queues : List (Nat × Queue) := []
  lastServed : Nat := 65535
  taken : Nat := 0
  nextAccept : Nat := 0
  hostTal : List TalWrite := []
  tabSets : List TalWrite := []
  tallies : List (Nat × Tally) := []
  ctxs : List (Nat × Ctx) := []
  crews : List (Nat × Crew) := []
  cores : List (Nat × Core) := []
  links : List (Nat × Link) := []
  flt : Flt := {}
  cox : Cox := {}
  nv : Nv := {}
  rig : RigSt := {}
  conv : Conv := {}
  pmc : Pmc := {}
  out : List Msg := []
  hostData : Bytes := []
  hostEP : Bool := false
  free : Nat := 0
  images : List (Bytes × Snap) := []
  deriving DecidableEq, Repr

/-- No command of the NF8 stops the machine: a fault of the device is an effect on its state (11), so this type has no
constructor and no meaning ends in a fault. -/
inductive Fault
  deriving DecidableEq, Repr

/-- Reasons to refuse a command. -/
inductive Refusal
  /-- Raised by Machine/Dispatch.lean alone, for a command whose meaning is not written yet: safe. -/
  | notModelled (mnemonic : String)
  deriving DecidableEq, Repr

/-- The package with its rails off and its NV store as never provisioned, the instant before PWROK_AON rises: what a
cold reset leaves (12 R301; 17 R401). Registers stand at their reset values, memories list nothing. The values the
spec does not give are those of assumption logs 2 to 6. -/
def State.reset : State := {}

end Sys2Proof.Machine
end

