-- ==== Sys2Proof/Machine/Float.lean ====
section
/-!
DEFINITION. Number formats and exact arithmetic: decoding, rounding to a format, IEEE operations, and the matrix dot
product (05 R118 to R134).
-/
namespace Sys2Proof.Machine

/-! ### Formats (R118) -/

/-- How a format uses its top encodings: as IEEE 754 does, as E4M3 (one NaN per sign), not at all, or as an INT8
element. -/
inductive FKind | ieee | e4m3 | plain | int8
  deriving DecidableEq, Repr

/-- A format: exponent and fraction widths, bias, kind. -/
structure Fmt where
  eb : Nat
  mb : Nat
  bias : Nat
  kind : FKind
  deriving DecidableEq, Repr

def fE4M3 : Fmt := ⟨4, 3, 7, .e4m3⟩
def fE5M2 : Fmt := ⟨5, 2, 15, .ieee⟩
def fE3M2 : Fmt := ⟨3, 2, 3, .plain⟩
def fE2M3 : Fmt := ⟨2, 3, 1, .plain⟩
def fE2M1 : Fmt := ⟨2, 1, 1, .plain⟩
def fINT8 : Fmt := ⟨0, 7, 0, .int8⟩
def fBF16 : Fmt := ⟨8, 7, 127, .ieee⟩
def fFP16 : Fmt := ⟨5, 10, 15, .ieee⟩
def fFP32 : Fmt := ⟨8, 23, 127, .ieee⟩
def fFP64 : Fmt := ⟨11, 52, 1023, .ieee⟩

/-- Width of an encoding. -/
def Fmt.width (f : Fmt) : Nat := f.eb + f.mb + 1

/-- Least exponent of a normal value. -/
def Fmt.emin (f : Fmt) : Int := 1 - Int.ofNat f.bias

/-- Encoding of the largest finite magnitude. -/
def Fmt.maxFin (f : Fmt) : Nat :=
  match f.kind with
  | .ieee => (2 ^ f.eb - 1) * 2 ^ f.mb - 1
  | .e4m3 => 2 ^ (f.eb + f.mb) - 2
  | .plain => 2 ^ (f.eb + f.mb) - 1
  | .int8 => 127

/-- Exact value of an encoding (R118, R119). -/
def Fmt.decode (f : Fmt) (x : Nat) : FVal :=
  match f.kind with
  | .int8 => let i := toSigned 8 x; .fin (decide (i < 0)) i.natAbs (-6)
  | k =>
    let mag := x % 2 ^ (f.eb + f.mb)
    let neg := decide (x / 2 ^ (f.eb + f.mb) % 2 = 1)
    let ex := mag / 2 ^ f.mb
    let m := mag % 2 ^ f.mb
    if k = .e4m3 ∧ mag = 2 ^ (f.eb + f.mb) - 1 then .nan
    else if k = .ieee ∧ ex = 2 ^ f.eb - 1 then (if m = 0 then .inf neg else .nan)
    else if ex = 0 then .fin neg m (f.emin - Int.ofNat f.mb)
    else .fin neg (2 ^ f.mb + m) (Int.ofNat ex - 1 + f.emin - Int.ofNat f.mb)

/-! ### Exact values -/

/-- floor_log2 of a non-zero magnitude m × 2^e. -/
def flog2 (m : Nat) (e : Int) : Int := Int.ofNat (Nat.log2 m) + e

/-- m × 2^e rounded to an integer multiple of 2^u, ties to even. -/
def rneAt (m : Nat) (e u : Int) : Nat :=
  if u ≤ e then m * 2 ^ (e - u).toNat
  else
    let k := (u - e).toNat
    let q := m / 2 ^ k
    let r := m % 2 ^ k
    if 2 ^ k < 2 * r ∨ (2 * r = 2 ^ k ∧ q % 2 = 1) then q + 1 else q

/-- Magnitude encoding of m × 2^e rounded to nearest even with the exponent unbounded above (R125 step 1). -/
def Fmt.roundMag (f : Fmt) (m : Nat) (e : Int) : Nat :=
  if m = 0 then 0
  else
    let l := flog2 m e
    let u := (if l < f.emin then f.emin else l) - Int.ofNat f.mb
    (u - (f.emin - Int.ofNat f.mb)).toNat * 2 ^ f.mb + rneAt m e u

/-- The sign bit of an encoding. -/
def Fmt.signBit (f : Fmt) (neg : Bool) : Nat := if neg then 2 ^ (f.eb + f.mb) else 0

/-- The canonical NaN encoding (R125, R132). -/
def Fmt.qnan (f : Fmt) : Nat :=
  match f.kind with
  | .e4m3 => 0x7F
  | .ieee => (2 ^ f.eb - 1) * 2 ^ f.mb + 2 ^ (f.mb - 1)
  | _ => 0

/-- Infinity, or what stands for it (R125, table Output conversion). -/
def Fmt.infEnc (f : Fmt) (neg : Bool) : Nat :=
  match f.kind with
  | .ieee => f.signBit neg + (2 ^ f.eb - 1) * 2 ^ f.mb
  | .e4m3 => 0x7F
  | _ => f.signBit neg + f.maxFin

/-- Does a finite overflow saturate: the FP8 formats (R125). -/
def Fmt.saturates (f : Fmt) : Bool := decide (f ≠ fFP32 ∧ f ≠ fBF16 ∧ f ≠ fFP16 ∧ f ≠ fFP64)

/-- rne(fmt, v) and its encoding (R125). -/
def Fmt.rne (f : Fmt) (v : FVal) : Nat :=
  match v with
  | .nan => f.qnan
  | .inf neg => f.infEnc neg
  | .fin neg m e =>
    let x := f.roundMag m e
    if f.kind = .int8 then
      let y := if f.maxFin < x then f.maxFin else x
      if neg then (256 - y) % 256 else y
    else if f.maxFin < x then (if f.saturates then f.signBit neg + f.maxFin else f.infEnc neg)
    else f.signBit neg + x

/-- The value an encoding rounds to. -/
def Fmt.round (f : Fmt) (v : FVal) : FVal := f.decode (f.rne v)

/-- A finite value from a signed multiple of 2^e; `zneg`: the sign of a zero. -/
def ofInt (i : Int) (e : Int) (zneg : Bool) : FVal :=
  if i = 0 then .fin zneg 0 e else .fin (decide (i < 0)) i.natAbs e

/-- The signed multiple. -/
def signed (neg : Bool) (m : Nat) : Int := if neg then -Int.ofNat m else Int.ofNat m

/-- Exact sum (R121 exact_sum): IEEE rules for NaN and infinities; an exact zero is −0 only from two −0. -/
def FVal.add : FVal → FVal → FVal
  | .nan, _ => .nan
  | _, .nan => .nan
  | .inf a, .inf b => if a = b then .inf a else .nan
  | .inf a, _ => .inf a
  | _, .inf b => .inf b
  | .fin a m e, .fin b n d =>
    let l := if e ≤ d then e else d
    ofInt (signed a (m * 2 ^ (e - l).toNat) + signed b (n * 2 ^ (d - l).toNat)) l
      (decide (m = 0) && decide (n = 0) && a && b)

/-- Change the sign. -/
def FVal.neg : FVal → FVal
  | .nan => .nan
  | .inf a => .inf !a
  | .fin a m e => .fin (!a) m e

/-- Exact product. -/
def FVal.mul : FVal → FVal → FVal
  | .nan, _ => .nan
  | _, .nan => .nan
  | .inf a, .inf b => .inf (a != b)
  | .inf a, .fin b n _ => if n = 0 then .nan else .inf (a != b)
  | .fin a m _, .inf b => if m = 0 then .nan else .inf (a != b)
  | .fin a m e, .fin b n d => .fin (a != b) (m * n) (e + d)

/-- Is it zero? -/
def FVal.isZero : FVal → Bool
  | .fin _ m _ => decide (m = 0)
  | _ => false

/-- Is it NaN? -/
def FVal.isNan : FVal → Bool
  | .nan => true
  | _ => false

/-- Is it infinite? -/
def FVal.isInf : FVal → Bool
  | .inf _ => true
  | _ => false

/-- Its sign. -/
def FVal.sign : FVal → Bool
  | .inf a => a
  | .fin a _ _ => a
  | .nan => false

/-- Magnitude. -/
def FVal.abs : FVal → FVal
  | .nan => .nan
  | .inf _ => .inf false
  | .fin _ m e => .fin false m e

/-- Multiply by 2^k. -/
def FVal.scale (k : Int) : FVal → FVal
  | .fin a m e => .fin a m (e + k)
  | v => v

/-- Order of two values that are not NaN, −0 equal to +0. -/
def FVal.lt : FVal → FVal → Bool
  | .inf a, .inf b => a && !b
  | .inf a, .fin _ _ _ => a
  | .fin _ _ _, .inf b => !b
  | .fin a m e, .fin b n d =>
    let l := if e ≤ d then e else d
    decide (signed a (m * 2 ^ (e - l).toNat) < signed b (n * 2 ^ (d - l).toNat))
  | _, _ => false

/-- Equality of two values that are not NaN. -/
def FVal.eqv (a b : FVal) : Bool := !a.isNan && !b.isNan && !a.lt b && !b.lt a

/-- Order with −0 below +0 (R132). -/
def FVal.ltz (a b : FVal) : Bool := a.lt b || (a.isZero && b.isZero && a.sign && !b.sign)

/-- Minimum (R132): NaN if either is. -/
def FVal.min (a b : FVal) : FVal := if a.isNan || b.isNan then .nan else if b.ltz a then b else a

/-- Maximum (R132). -/
def FVal.max (a b : FVal) : FVal := if a.isNan || b.isNan then .nan else if a.ltz b then b else a

/-- A quotient with enough bits and a sticky bit, so that rounding it rounds the exact quotient (R131). -/
def FVal.div : FVal → FVal → FVal
  | .nan, _ => .nan
  | _, .nan => .nan
  | .inf _, .inf _ => .nan
  | .inf a, .fin b _ _ => .inf (a != b)
  | .fin a _ _, .inf b => .fin (a != b) 0 0
  | .fin a m e, .fin b n d =>
    if n = 0 then (if m = 0 then .nan else .inf (a != b))
    else
      let k := 64 + Nat.log2 n
      .fin (a != b) (2 * (m * 2 ^ k / n) + if m * 2 ^ k % n = 0 then 0 else 1) (e - d - Int.ofNat k - 1)

/-- Integer square root, one result bit at a time. -/
def isqrt (n : Nat) : Nat → Nat → Nat
  | 0, r => r
  | k + 1, r => isqrt n k (if (r + 2 ^ k) * (r + 2 ^ k) ≤ n then r + 2 ^ k else r)

/-- A square root with enough bits and a sticky bit (R131). −0 gives −0; a negative value NaN. -/
def FVal.sqrt : FVal → FVal
  | .nan => .nan
  | .inf a => if a then .nan else .inf false
  | .fin a m e =>
    if m = 0 then .fin a 0 0
    else if a then .nan
    else
      let odd := (e % 2).toNat
      let k := 64
      let n := m * 2 ^ odd * 2 ^ (2 * k)
      let r := isqrt n (Nat.log2 n / 2 + 1) 0
      .fin false (2 * r + if r * r = n then 0 else 1) ((e - Int.ofNat odd) / 2 - Int.ofNat k - 1)

/-- Round to an integer, to nearest even or toward zero. -/
def toInt (nearest : Bool) (neg : Bool) (m : Nat) (e : Int) : Int :=
  signed neg (if nearest then rneAt m e 0 else if 0 ≤ e then m * 2 ^ e.toNat else m / 2 ^ (-e).toNat)

/-- Conversion to INT32 (R131, R132): NaN gives 0, values beyond the range saturate. -/
def FVal.toInt32 (nearest : Bool) : FVal → Nat
  | .nan => 0
  | .inf a => if a then 2 ^ 31 else 2 ^ 31 - 1
  | .fin a m e =>
    let i := toInt nearest a m e
    if i < -(2 ^ 31) then 2 ^ 31 else if 2 ^ 31 - 1 < i then 2 ^ 31 - 1 else fromSigned 32 i

/-! ### FP32 words -/

/-- Value of an FP32 word. -/
def f32 (w : Word) : FVal := fFP32.decode w.toNat

/-- FP32 word of a value, rounded. -/
def to32 (v : FVal) : Word := BitVec.ofNat 32 (fFP32.rne v)

/-- The canonical FP32 NaN. -/
def qnan32 : Word := 0x7FC00000

/-- ieee_add (R121). -/
def add32 (a b : Word) : Word := to32 ((f32 a).add (f32 b))

/-! ### The matrix dot product (R121) -/

/-- Greatest exponent of the non-zero products. -/
def groupExp : List FVal → Option Int
  | [] => none
  | .fin _ m e :: r =>
    if m = 0 then groupExp r
    else
      match groupExp r with
      | some x => some (if x < flog2 m e then flog2 m e else x)
      | none => some (flog2 m e)
  | _ :: r => groupExp r

/-- floor(p ÷ 2^u) of a finite product (step 3). -/
def floorAt (neg : Bool) (m : Nat) (e u : Int) : Int :=
  if u ≤ e then signed neg (m * 2 ^ (e - u).toNat) else signed neg m / Int.ofNat (2 ^ (u - e).toNat)

/-- Sum of the truncated products (step 4). -/
def truncSum (u : Int) : List FVal → Int
  | [] => 0
  | .fin a m e :: r => floorAt a m e u + truncSum u r
  | _ :: r => truncSum u r

/-- group_value over the group's products, each already scaled by its block scales and NaN where an operand or a scale
is (R121 steps 1 to 6: a common power of two leaves steps 2 to 4 unchanged). -/
def groupValue (p : List FVal) : Word :=
  if p.any FVal.isNan then qnan32
  else
    let pos := p.any fun v => v.isInf && !v.sign
    let neg := p.any fun v => v.isInf && v.sign
    if pos && neg then qnan32
    else if pos then to32 (.inf false)
    else if neg then to32 (.inf true)
    else
      match groupExp p with
      | none => 0
      | some e =>
        let t := truncSum (e - 30) p
        if t = 0 then 0 else to32 (ofInt t (e - 30) false)

/-- accumulate (R121 step 7): new s and e. -/
def accumulate (s e x : Word) : Word × Word :=
  if (f32 s).isNan || (f32 x).isNan then (qnan32, 0)
  else if (f32 s).isInf || (f32 x).isInf then (add32 s x, 0)
  else
    let s1 := add32 s x
    if (f32 s1).isInf then (s1, 0)
    else
      let err := ((f32 s).add (f32 x)).add (f32 s1).neg
      (s1, to32 ((f32 e).add (f32 (to32 err))))

/-- One product of one position: NaN where an element is NaN or a block scale is 0xFF (R120, R121). -/
def scaledProduct (a b : FVal) (sa sb : Option Int) : FVal :=
  match sa, sb with
  | some x, some y => if a.isNan || b.isNan then .nan else (a.mul b).scale (x + y)
  | _, _ => .nan

/-- exact_sum(s, e) (R121). -/
def exactSum (s e : Word) : FVal := (f32 s).add (f32 e)

/-- Take one product into a cell with group size g (R122): close the group when it is full. -/
def Cell.take (g : Nat) (c : Cell) (p : FVal) : Cell :=
  let l := c.opn ++ [p]
  if l.length < g then { c with opn := l }
  else
    let (s, e) := accumulate c.s c.e (groupValue l)
    { c with s := s, e := e, opn := [] }

/-- s and e of a chain that would end here (R124): an open group counts without being closed. -/
def Cell.value (c : Cell) : Word × Word :=
  match c.opn with
  | [] => (c.s, c.e)
  | l => accumulate c.s c.e (groupValue l)

/-- emit (R121 step 8). -/
def emitWord (f : Fmt) (se : Word × Word) : Nat := f.rne (exactSum se.1 se.2)

end Sys2Proof.Machine
end

