-- ==== Sys2Proof/Machine/Operands.lean ====
section
/-!
DEFINITION. The operand forms of the vector and DMA engines: the fields of their command bodies, formats, streams,
per-row operands and scalars, spaces and extents (06 R144, R150, R151).
-/
namespace Sys2Proof.Machine

/-! ### Vector operands (R144) -/

/-- An element format: its floating-point format (none: INT32) and its bytes. -/
abbrev VFmt := Option Fmt × Nat

/-- Source format of a code. -/
def vSrc (code : Nat) : Option VFmt :=
  match code with
  | 0 => some (some fFP32, 4)
  | 1 => some (some fBF16, 2)
  | 2 => some (some fFP64, 8)
  | 3 => some (none, 4)
  | _ => none

/-- Output format of a code. -/
def vOut (code : Nat) : Option VFmt :=
  match code with
  | 0 => some (some fFP32, 4)
  | 1 => some (some fBF16, 2)
  | 2 => some (some fFP16, 2)
  | 3 => some (some fE4M3, 1)
  | 4 => some (some fE5M2, 1)
  | 5 => some (some fFP64, 8)
  | 6 => some (none, 4)
  | _ => none

/-- The body of a vector command. -/
structure VCmd where
  op : Nat
  fmt : Nat
  out : Nat
  bMode : Nat
  cMode : Nat
  a : Nat
  b : Nat
  c : Nat
  d : Nat
  n : Nat
  rows : Nat
  pitch : Nat
  imm : Nat
  pos : Nat
  key : Nat
  rz : Bool
  half : Bool
  deriving DecidableEq, Repr

/-- Read the fields of a vector command word. -/
def vcmd (w : CmdWord) : VCmd :=
  { op := wbits w 235 230, fmt := wbits w 229 227, out := wbits w 226 224, bMode := wbits w 223 222
    cMode := wbits w 221 220, a := wbits w 219 198, b := wbits w 197 176, c := wbits w 175 154, d := wbits w 153 132
    n := wbits w 131 112, rows := wbits w 111 100, pitch := wbits w 99 84, imm := wbits w 83 52, pos := wbits w 51 29
    key := wbits w 28 6, rz := decide (wbits w 5 5 = 1), half := decide (wbits w 4 4 = 1) }

/-- Operations that exist. -/
def vOpKnown (op : Nat) : Bool :=
  decide (op ≤ 0x17) || (decide (0x20 ≤ op) && decide (op ≤ 0x24)) || decide (op = 0x28) || decide (op = 0x29)

/-- Operations that need b. -/
def vNeedsB (op : Nat) : Bool :=
  decide (op ≤ 6) || (decide (0x14 ≤ op) && decide (op ≤ 0x17)) || decide (op = 0x28)

/-- Operations that need c. -/
def vNeedsC (op : Nat) : Bool := decide (op = 3) || decide (op = 0x17)

/-- Comparisons. -/
def vCompares (op : Nat) : Bool := decide (0x14 ≤ op) && decide (op ≤ 0x16)

/-- Row reductions. -/
def vReduces (op : Nat) : Bool := decide (0x20 ≤ op) && decide (op ≤ 0x24)

/-- Operations that take INT32 (R160). -/
def vTakesInt (op : Nat) : Bool :=
  decide (op ≤ 2) || decide (op = 5) || decide (op = 6) || (decide (0x13 ≤ op) && decide (op ≤ 0x17)) || decide (op = 0x20)

/-- Bytes from one row of a stream of this element size to the next (R144). -/
def VCmd.step (v : VCmd) (size : Nat) : Nat := if v.pitch = 0 then ceilDiv (v.n * size) 4 * 4 else v.pitch * 4

/-- Where an operand lies: its mode, address and element size. -/
structure VOpd where
  mode : Nat
  addr : Nat
  size : Nat
  deriving DecidableEq, Repr

/-- The operands in core store that a command uses, its destination last. -/
def VCmd.operands (v : VCmd) : List VOpd :=
  let sz := match vSrc v.fmt with | some f => f.2 | none => 4
  let oz := match vOut v.out with | some f => f.2 | none => 4
  let posC := decide (v.op = 0x28) || decide (v.op = 0x29)
  [⟨0, v.a, sz⟩]
    ++ (if vNeedsB v.op then [⟨v.bMode, v.b, if v.op = 0x28 then 4 else sz⟩] else [])
    ++ (if vNeedsC v.op then [⟨v.cMode, v.c, if v.op = 0x17 then 4 else sz⟩]
        else if posC then [⟨v.cMode, v.c, 4⟩] else [])
    ++ [⟨if vReduces v.op then 2 else 0, v.d, oz⟩]

/-- Is an operand aligned, and its extent within the data area (R160)? ROPE's frequencies are one row of n/2. -/
def VCmd.opdOk (v : VCmd) (freq : Bool) (o : VOpd) : Bool :=
  if o.mode = 0 then
    decide (o.addr % o.size = 0) &&
      (if freq then decide (o.addr + v.n / 2 * 4 ≤ 0x2C0000)
       else decide (o.addr + (v.rows - 1) * v.step o.size + v.n * o.size ≤ 0x2C0000) &&
         decide (v.pitch = 0 ∨ v.n * o.size ≤ v.pitch * 4))
  else if o.mode = 2 then decide (o.addr % o.size = 0) && decide (o.addr + v.rows * o.size ≤ 0x2C0000)
  else true

/-- A format error of a vector command (R145, R147, R160). -/
def VCmd.bad (v : VCmd) : Bool :=
  match vSrc v.fmt, vOut v.out with
  | some (src, _), some (out, _) =>
    let int := src.isNone
    let oint := out.isNone
    let pos := decide (v.op = 0x28) || decide (v.op = 0x29)
    !vOpKnown v.op || decide (v.n = 0) || decide (v.rows = 0)
    || (int && !vTakesInt v.op)
    || (vCompares v.op && !oint)
    || (!vCompares v.op && decide (v.op ≠ 0x13) && (int != oint))
    || (vNeedsB v.op && decide (v.bMode = 3)) || (vNeedsC v.op && decide (v.cMode = 3))
    || (decide (v.op = 0x28) && (decide (v.bMode ≠ 0) || decide (v.n % 2 = 1)))
    || (pos && !(decide (v.fmt = 0) || decide (v.fmt = 1)))
    || (decide (v.op = 0x28) && decide (4 < v.out))
    || (decide (v.op = 0x29) && decide (2 < v.out))
    || (v.operands.zipIdx.any fun p => !v.opdOk (decide (v.op = 0x28 ∧ p.2 = 1)) p.1)
    || (pos && decide (v.cMode = 3) && decide (8388607 < v.pos + v.rows - 1))
    || (decide (v.op = 0x29) && decide (8388607 < v.key + v.n - 1))
  | _, _ => true

/-- Value of an element (R145). -/
def decodeV (f : Option Fmt) (x : Nat) : FVal :=
  match f with
  | some f => f.decode x
  | none => ofInt (toSigned 32 x) 0 false

/-- INT32 encoding of an integer value, modulo 2^32. -/
def wrapV : FVal → Nat
  | .fin a m e => fromSigned 32 (toInt false a m e)
  | _ => 0

/-- Encoding of a result in the output format: rounded once; to INT32 from a float it rounds as rz says. -/
def encodeV (src out : Option Fmt) (rz : Bool) (v : FVal) : Nat :=
  match out with
  | some f => f.rne v
  | none => match src with | none => wrapV v | some _ => v.toInt32 (!rz)

/-- The scalar of imm. -/
def scalarV (f : Option Fmt) (imm : Nat) : FVal :=
  match f with
  | none => decodeV none imm
  | some g => if g = fBF16 then fBF16.decode (imm % 2 ^ 16) else fFP32.decode imm

/-! ### DMA operands (R150, R151) -/

/-- The body of a DMA command. -/
structure DCmd where
  op : Nat
  src : Nat
  dst : Nat
  codec : Nat
  wide : Bool
  mx : Nat
  axis : Nat
  prefetch : Bool
  latency : Bool
  srcA : Nat
  dstA : Nat
  pkg : Nat
  rowBytes : Nat
  rows : Nat
  srcS : Nat
  dstS : Nat
  aux : Nat
  ring : Nat
  deriving DecidableEq, Repr

/-- Read the fields of a DMA command word. -/
def dcmd (w : CmdWord) : DCmd :=
  { op := wbits w 235 232, src := wbits w 231 229, dst := wbits w 228 226, codec := wbits w 225 224
    wide := decide (wbits w 223 223 = 1), mx := wbits w 222 220, axis := wbits w 219 219
    prefetch := decide (wbits w 218 218 = 1), latency := decide (wbits w 217 217 = 1), srcA := wbits w 216 178
    dstA := wbits w 177 139, pkg := wbits w 138 121, rowBytes := wbits w 120 101, rows := wbits w 100 85
    srcS := wbits w 84 65, dstS := wbits w 64 45, aux := wbits w 44 6, ring := wbits w 5 3 }

/-- Element format of an mx_fmt code, its bits, and the exponent of its largest value (R157 EMAX). -/
def mxFmt (code : Nat) : Option (Fmt × Nat × Int) :=
  match code with
  | 0 => some (fE4M3, 8, 8)
  | 1 => some (fE5M2, 8, 15)
  | 2 => some (fE3M2, 6, 4)
  | 3 => some (fE2M3, 6, 2)
  | 4 => some (fE2M1, 4, 2)
  | 5 => some (fINT8, 8, 0)
  | _ => none

end Sys2Proof.Machine
end

