-- ==== Sys2Proof/Config.lean ====
section
/-!
DEFINITION. What the spec fixes by reference to another standard or leaves open: constants without a body. Nothing in
Lean can evaluate them, so a statement that mentions one holds for every value it could have.
-/
namespace Sys2Proof.Config

/-- Free values, one per index (State.free): a value the spec leaves open after a step that goes on. Assumption log 7. -/
opaque freeValue : Nat → Nat

/-- The results of the vector functions inside the error bound of 05 R135, a fixed function of operation, format code
and operand bits (05 R136). Assumption log 10. -/
opaque vecFn : Nat → Nat → Nat → Nat

/-- cos and sin of a RoPE angle before the final rounding (06 R147): operation, format code, angle operands. Assumption
log 10. -/
opaque ropeFn : Nat → Nat → Nat → Nat → Nat

/-- How a granule with errors beyond the guarantee of 07 R164 reads: 0 clean, 1 corrected, 2 uncorrectable, 3 poison,
and what data it then gives. Arguments: the stored word and the error pattern as one number each. Assumption log 11. -/
opaque hbmBeyond : Nat → Nat → Nat

/-- The data delivered where hbmBeyond answers clean or corrected. Assumption log 11. -/
opaque hbmBeyondData : Nat → Nat → Nat

/-- The same for a core-store word with more than two flipped bits (06 R140). Assumption log 11. -/
opaque storeBeyond : Nat → Nat → Nat

/-- The data delivered where storeBeyond answers clean or corrected. Assumption log 11. -/
opaque storeBeyondData : Nat → Nat → Nat

/-- The syndrome of a core-store word by its error pattern (06 R140): the spec gives the code's properties and no columns.
Assumption log 23. -/
opaque storeSyndrome : Nat → Nat

/-- The syndrome of a granule by its error pattern (07 R164). Assumption log 23. -/
opaque hbmSyndrome : Nat → Nat

/-- SHA-384 of FIPS 180-4 (14 R337, R367; 16 R392). Assumption log 12. -/
opaque sha384 : Bytes → Bytes

/-- ECDSA P-384 verification of FIPS 186: public key, digest, signature. Assumption log 12. -/
opaque ecdsaVerify : Bytes → Bytes → Bytes → Bool

/-- AES-CMAC of RFC 4493: key, message (08 R193; 14 R365). Assumption log 12. -/
opaque aesCmac : BitVec 128 → Bytes → BitVec 128

/-- The public key of Mladaskold, whose hash is fused into the cox die (14 R337). Assumption log 12. -/
opaque vendorKey : Bytes

/-- Revision of a CPER record header and of a section descriptor (11 R276: UEFI 2.10, Appendix N). Assumption log 18. -/
opaque cperRev : Nat

/-- Revision of a CPER section descriptor. Assumption log 18. -/
opaque cperSecRev : Nat

/-- The bytes of an on-chip snapshot or image (13 R320): the spec lists its parts and gives no layout. Assumption log 17. -/
opaque imageBytes : Machine.Snap → Bytes

/-- The snapshot that image bytes of another package stand for. Assumption log 17. -/
opaque imageOf : Bytes → Option Machine.Snap

/-- The version that a firmware image carries (14 R337): the spec gives its images no layout. Assumption log 21. -/
opaque fwVersion : Bytes → Nat

/-- The system-area item that the data of a SET_CONFIG message names, with its value (14 R367): the spec gives the data no
layout. Assumption log 21. -/
opaque configItem : Bytes → Option Machine.ConfigItem

/-- The size of the TLPs in which PCIe data crosses, as a power of two past 128 B (11 R262): the spec names the TLP as the grain of
the EP bit and gives no size. Assumption log 34. -/
opaque tlpLog : Nat

/-- What a management frame says of the fabric manager's subscription to Info records (11 R275; 14 R338): on, off, or nothing. The
spec lays no message out. Assumption log 33. -/
opaque infoSubscription : Bytes → Option Bool

/-- The body of a COLL flit (08 R216) and of a LAND_ACK flit (08 R202): the spec says what they carry and lays no bytes out.
Assumption log 31. -/
opaque collBody : CollFlit → Bytes

/-- See collBody. -/
opaque ackBody : List (Nat × Nat) → Bytes

end Sys2Proof.Config
end

