-- ==== Sys2Proof/Machine/Update.lean ====
section
/-!
DEFINITION. One field of the state changed and every other kept: every change the operations make goes through these.
-/
namespace Sys2Proof.Machine

/-- The state with `pending` given. -/
def State.setPending (s : State) (x : List Instr) : State := { s with pending := x }

/-- The state with `regs` given. -/
def State.setRegs (s : State) (x : List (Nat × Word)) : State := { s with regs := x }

/-- The state with `raw` given. -/
def State.setRaw (s : State) (x : Nat) : State := { s with raw := x }

/-- The state with `mem` given. -/
def State.setMem (s : State) (x : List (Nat × Byte)) : State := { s with mem := x }

/-- The state with `gran` given. -/
def State.setGran (s : State) (x : List (Nat × Gran)) : State := { s with gran := x }

/-- The state with `wbq` given. -/
def State.setWbq (s : State) (x : List (Nat × List WriteBack)) : State := { s with wbq := x }

/-- The state with `atm` given. -/
def State.setAtm (s : State) (x : List (Nat × List Nat)) : State := { s with atm := x }

/-- The state with `aord` given. -/
def State.setAord (s : State) (x : List AReq) : State := { s with aord := x }

/-- The state with `hostMem` given. -/
def State.setHostMem (s : State) (x : List (Nat × Byte)) : State := { s with hostMem := x }

/-- The state with `hostPoison` given. -/
def State.setHostPoison (s : State) (x : List Nat) : State := { s with hostPoison := x }

/-- The state with `tim` given. -/
def State.setTim (s : State) (x : Tim) : State := { s with tim := x }

/-- The state with `stk` given. -/
def State.setStk (s : State) (x : Stk) : State := { s with stk := x }

/-- The state with `pow` given. -/
def State.setPow (s : State) (x : Pow) : State := { s with pow := x }

/-- The state with `pins` given. -/
def State.setPins (s : State) (x : Pins) : State := { s with pins := x }

/-- The state with `fuseMem` given. -/
def State.setFuseMem (s : State) (x : Nat) : State := { s with fuseMem := x }

/-- The state with `fuseSites` given. -/
def State.setFuseSites (s : State) (x : List (Nat × Nat)) : State := { s with fuseSites := x }

/-- The state with `recess` given. -/
def State.setRecess (s : State) (x : Recess) : State := { s with recess := x }

/-- The state with `queues` given. -/
def State.setQueues (s : State) (x : List (Nat × Queue)) : State := { s with queues := x }

/-- The state with `lastServed` given. -/
def State.setLastServed (s : State) (x : Nat) : State := { s with lastServed := x }

/-- The state with `taken` given. -/
def State.setTaken (s : State) (x : Nat) : State := { s with taken := x }

/-- The state with `nextAccept` given. -/
def State.setNextAccept (s : State) (x : Nat) : State := { s with nextAccept := x }

/-- The state with `hostTal` given. -/
def State.setHostTal (s : State) (x : List TalWrite) : State := { s with hostTal := x }

/-- The state with `tabSets` given. -/
def State.setTabSets (s : State) (x : List TalWrite) : State := { s with tabSets := x }

/-- The state with `tallies` given. -/
def State.setTallies (s : State) (x : List (Nat × Tally)) : State := { s with tallies := x }

/-- The state with `ctxs` given. -/
def State.setCtxs (s : State) (x : List (Nat × Ctx)) : State := { s with ctxs := x }

/-- The state with `crews` given. -/
def State.setCrews (s : State) (x : List (Nat × Crew)) : State := { s with crews := x }

/-- The state with `cores` given. -/
def State.setCores (s : State) (x : List (Nat × Core)) : State := { s with cores := x }

/-- The state with `links` given. -/
def State.setLinks (s : State) (x : List (Nat × Link)) : State := { s with links := x }

/-- The state with `flt` given. -/
def State.setFlt (s : State) (x : Flt) : State := { s with flt := x }

/-- The state with `cox` given. -/
def State.setCox (s : State) (x : Cox) : State := { s with cox := x }

/-- The state with `nv` given. -/
def State.setNv (s : State) (x : Nv) : State := { s with nv := x }

/-- The state with `rig` given. -/
def State.setRig (s : State) (x : RigSt) : State := { s with rig := x }

/-- The state with `conv` given. -/
def State.setConv (s : State) (x : Conv) : State := { s with conv := x }

/-- The state with `pmc` given. -/
def State.setPmc (s : State) (x : Pmc) : State := { s with pmc := x }

/-- The state with `out` given. -/
def State.setOut (s : State) (x : List Msg) : State := { s with out := x }

/-- The state with `hostData` given. -/
def State.setHostData (s : State) (x : Bytes) : State := { s with hostData := x }

/-- The state with `hostEP` given. -/
def State.setHostEP (s : State) (x : Bool) : State := { s with hostEP := x }

/-- The state with `free` given. -/
def State.setFree (s : State) (x : Nat) : State := { s with free := x }

/-- The state with `images` given. -/
def State.setImages (s : State) (x : List (Bytes × Snap)) : State := { s with images := x }

end Sys2Proof.Machine
end

