-- ==== Sys2Proof/Machine/Ops.lean ====
section
/-!
DEFINITION. The named operations over State: registers and their fields, time, units, messages, faults, the logbook,
crews and their stops.
-/
namespace Sys2Proof.Machine

/-! ### Registers (00 R6; 16 R386, R387) -/

/-- Base plus stride × index, one index per dimension. -/
def addrFrom : Nat → List (Nat × Nat) → List Nat → Nat
  | b, (_, st) :: ds, i :: is => addrFrom (b + st * i) ds is
  | b, _, _ => b

/-- The BAR0 offset of an instance of a register. -/
def RegDef.addr (r : RegDef) (ix : List Nat) : Nat := addrFrom r.base r.dims ix

/-- The stored value of a register. -/
def State.reg (s : State) (r : RegDef) (ix : List Nat) : Word := Map.getD r.reset s.regs (r.addr ix)

/-- Store a register. -/
def State.setReg (s : State) (r : RegDef) (ix : List Nat) (v : Word) : State :=
  s.setRegs (Map.setD r.reset s.regs (r.addr ix) v)

/-- Replace bits [hi:lo] of a word. -/
def putBits (w : Word) (hi lo v : Nat) : Word :=
  BitVec.ofNat 32 (w.toNat / 2 ^ (hi + 1) * 2 ^ (hi + 1) + v % 2 ^ (hi + 1 - lo) * 2 ^ lo + w.toNat % 2 ^ lo)

/-- The value of a field. -/
def State.fld (s : State) (f : Fld) (ix : List Nat) : Nat := bits (s.reg f.reg ix).toNat f.hi f.lo

/-- Give a field a value, whatever its access code: the hardware's own write. -/
def State.setFld (s : State) (f : Fld) (ix : List Nat) (v : Nat) : State :=
  s.setReg f.reg ix (putBits (s.reg f.reg ix) f.hi f.lo v)

/-- Does a one-bit field read 1? -/
def State.isSet (s : State) (f : Fld) (ix : List Nat) : Bool := decide (s.fld f ix = 1)

/-- The greatest value of a field. -/
def Fld.top (f : Fld) : Nat := 2 ^ (f.hi + 1 - f.lo) - 1

/-- Add to a counter field, which saturates. -/
def State.bump (s : State) (f : Fld) (ix : List Nat) (d : Nat) : State :=
  s.setFld f ix (satAdd (s.fld f ix) d f.top)

/-- Add to a counter field, modulo its width. -/
def State.wrap (s : State) (f : Fld) (ix : List Nat) (d : Nat) : State := s.setFld f ix (s.fld f ix + d)

/-- Take from a counter field, not below 0. -/
def State.lower (s : State) (f : Fld) (ix : List Nat) (d : Nat) : State := s.setFld f ix (s.fld f ix - d)

/-- Is the NF6 personality in force (R387)? -/
def State.nf6 (s : State) : Bool := s.isSet F.GLB_PERS_nf6 []

/-- A field of a status register: RL or W1C (R387). -/
def Acc.isStatus : Acc → Bool
  | .rl | .w1c => true
  | _ => false

/-- The mask of the RL or W1C fields of a register. -/
def RegDef.statusMask (r : RegDef) (a : Acc) : Word :=
  r.fields.foldl (fun m f => if f.acc = a then putBits m f.hi f.lo (2 ^ (f.hi + 1 - f.lo) - 1) else m) 0

/-- Note an event on a status field for the NF6 personality: latch it and advance the register's sequence number. -/
def State.noteNf6 (s : State) (f : Fld) (ix : List Nat) : State :=
  if s.nf6 && f.acc.isStatus then
    s.setConv { s.conv with
        nf6Latch := Map.setD 0 s.conv.nf6Latch (f.reg.addr ix)
          (putBits (Map.getD 0 s.conv.nf6Latch (f.reg.addr ix)) f.hi f.lo 1)
        nf6Seq := Map.setD 0 s.conv.nf6Seq (f.reg.addr ix) (Map.getD 0 s.conv.nf6Seq (f.reg.addr ix) + 1) }
  else s

/-- The cause of a status bit occurs: the bit reads 1 (R6), and NF6 software sees the event (R387). -/
def State.raiseBit (s : State) (f : Fld) (ix : List Nat) : State := (s.setFld f ix 1).noteNf6 f ix

/-- The cause of a live bit is gone. -/
def State.dropBit (s : State) (f : Fld) (ix : List Nat) : State := s.setFld f ix 0

/-- Raise or drop a live bit as its cause says; only a rise is an event. -/
def State.liveBit (s : State) (f : Fld) (ix : List Nat) (on : Bool) : State :=
  if on then (if s.isSet f ix then s else s.raiseBit f ix) else s.dropBit f ix

/-- The 64-bit value of a _LO and _HI pair. -/
def State.pair (s : State) (lo hi : RegDef) (ix : List Nat) : Nat := (s.reg lo ix).toNat + 2 ^ 32 * (s.reg hi ix).toNat

/-- Store a 64-bit value in a _LO and _HI pair. -/
def State.setPair (s : State) (lo hi : RegDef) (ix : List Nat) (v : Nat) : State :=
  (s.setReg lo ix (BitVec.ofNat 32 v)).setReg hi ix (BitVec.ofNat 32 (v / 2 ^ 32))

/-! ### Sparse units -/

/-- A core, by logical index. -/
def State.core (s : State) (c : Nat) : Core := Map.getD {} s.cores c

/-- Change a core. -/
def State.modCore (s : State) (c : Nat) (f : Core → Core) : State :=
  s.setCores (Map.setD {} s.cores c (f (s.core c)))

/-- A matrix engine. -/
def State.eng (s : State) (c e : Nat) : Engine := Map.getD {} (s.core c).eng e

/-- Change an engine. -/
def State.modEng (s : State) (c e : Nat) (f : Engine → Engine) : State :=
  s.modCore c fun k => { k with eng := Map.setD {} k.eng e (f (Map.getD {} k.eng e)) }

/-- Change a sequencer. -/
def State.modSeq (s : State) (c : Nat) (f : Seq → Seq) : State := s.modCore c fun k => { k with seq := f k.seq }

/-- A crew. -/
def State.crew (s : State) (n : Nat) : Crew := Map.getD {} s.crews n

/-- Change a crew. -/
def State.modCrew (s : State) (n : Nat) (f : Crew → Crew) : State :=
  s.setCrews (Map.setD {} s.crews n (f (s.crew n)))

/-- A link. -/
def State.link (s : State) (l : Nat) : Link := Map.getD {} s.links l

/-- Change a link. -/
def State.modLink (s : State) (l : Nat) (f : Link → Link) : State :=
  s.setLinks (Map.setD {} s.links l (f (s.link l)))

/-- LNK_STAT.state of a link. -/
def State.linkState (s : State) (l : Nat) : Nat := s.fld F.LNK_STAT_state [l / 48, l % 48]

/-- Is the link in service, at x2 or x1? -/
def State.linkUp (s : State) (l : Nat) : Bool := decide (s.linkState l = 2) || decide (s.linkState l = 3)

/-- A queue. -/
def State.queue (s : State) (q : Nat) : Queue := Map.getD {} s.queues q

/-- Change a queue. -/
def State.modQueue (s : State) (q : Nat) (f : Queue → Queue) : State :=
  s.setQueues (Map.setD {} s.queues q (f (s.queue q)))

/-- A tally. -/
def State.tally (s : State) (t : Nat) : Tally := Map.getD {} s.tallies t

/-- Change a tally. -/
def State.modTally (s : State) (t : Nat) (f : Tally → Tally) : State :=
  s.setTallies (Map.setD {} s.tallies t (f (s.tally t)))

/-- A context. -/
def State.ctx (s : State) (c : Nat) : Ctx := Map.getD {} s.ctxs c

/-- Do f for each member of a list, first to last. -/
def State.each {α : Type} (s : State) (l : List α) (f : State → α → State) : State := l.foldl f s

/-- Do f for each member of a list, first to last, with a value carried along. -/
def State.eachWith {α β : Type} (s : State) (b : β) (l : List α) (f : β → State → α → β × State) : β × State :=
  l.foldl (fun p x => f p.1 p.2 x) (b, s)

/-- A free value of a given number of values, and the state that has taken it (Config.freeValue; assumption log 7). -/
def State.fresh (s : State) : Nat × State := (Config.freeValue s.free, (s.setFree (s.free + 1)))

/-! ### Index helpers of the register map -/

/-- Index of a stack's registers: die, stack of the die (00 R4; 07 Registers). -/
def stk4 (n : Nat) : List Nat := [n / 4, n % 4]

/-- Index of a link's registers: die, link of the die (00 R4; 08 Registers). -/
def lnk48 (n : Nat) : List Nat := [n / 48, n % 48]

/-! ### Time (09 R218; 02 R37) -/

/-- The servo rate in force. -/
def State.rate (s : State) : Int := toSigned 32 (s.reg R.TIM_RATE []).toNat

/-- Fabric time at a raw count, in units of 2^-32 ns (R218). -/
def State.fabricAt (s : State) (raw : Nat) : Nat :=
  fromSigned 96 (Int.ofNat s.tim.offset + Int.ofNat raw * 2 ^ 32 +
    (Int.ofNat raw - Int.ofNat s.tim.anchor) * s.rate / 2 ^ 8)

/-- Fabric time now. -/
def State.fabric (s : State) : Nat := s.fabricAt s.raw

/-- Fabric time now, truncated to whole nanoseconds. -/
def State.ns (s : State) : Nat := s.fabric / 2 ^ 32

/-- The raw counter reaches t; it never falls, and it counts from power-up step 1 on (R217). -/
def State.advance (s : State) (t : Nat) : State := s.setRaw (if s.raw ≤ t ∧ s.pow.step ≠ 0 then t else s.raw)

/-- Does the replica of fabric time of a die run free: is its receiver in HUNT or DEAD (R220)? -/
def State.dieFree (s : State) (die : Nat) : Bool := decide (die < 3) && decide (s.fld F.STK_RX_state [die] ≠ 0)

/-- The fabric time that a die gives: the cox die's while its receiver is LOCKED, exactly (DESIGN CHOICE inside the ±1 ns of R220,
assumption log 32); else its replica running free from its last anchor. -/
def State.dieTime (s : State) (die : Nat) : Nat :=
  if s.dieFree die then
    let f := Map.getD {} s.stk.rx die
    let ticks := Int.ofNat s.raw - Int.ofNat f.repRaw
    fromSigned 96 (Int.ofNat f.repBase + ticks * 2 ^ 32 + ticks * f.repRate / 2 ^ 8)
  else s.fabric

/-- Change the rate, keeping the value continuous; also the re-anchoring (R218). -/
def State.setRate (s : State) (rate : Int) : State :=
  s.setReg R.TIM_RATE [] (BitVec.ofNat 32 (fromSigned 32 rate))
    |>.setTim { s.tim with
      offset := fromSigned 96 (Int.ofNat s.fabric - Int.ofNat s.raw * 2 ^ 32)
      anchor := s.raw }

/-- The stroke period in ns. -/
def State.period (s : State) : Nat := s.fld F.STK_CTL_period_ns []

/-- The recovery is the period divided by this: 32, 16 or 8 (R36). -/
def recDiv (code : Nat) : Nat := if code = 0 then 32 else if code = 1 then 16 else 8

/-- Length of the recovery in ns. -/
def State.recovery (s : State) : Nat := s.period / recDiv (s.fld F.STK_CTL_rec_frac [])

/-- The phase, i64 nanoseconds. -/
def State.phase (s : State) : Int := toSigned 64 (s.pair R.STK_PHASE_LO R.STK_PHASE_HI [])

/-- The number of the stroke that holds an instant of fabric time in ns (R37). -/
def strokeNumber (phase : Int) (period ns : Nat) : Nat := fromSigned 64 ((toSigned 64 ns - phase) / Int.ofNat period)

/-- Is fabric time locked (STK_CTL.time_locked; 09 R227)? -/
def State.locked (s : State) : Bool := s.isSet F.STK_CTL_time_locked []

/-! ### Cores, sites and crews (01 R12 to R17) -/

/-- The crew of a core, from SEQ_CREW. -/
def State.crewOf (s : State) (c : Nat) : Option Nat :=
  if s.isSet F.SEQ_CREW_member [c] then some (s.fld F.SEQ_CREW_crew [c]) else none

/-- The logical cores of a crew, ascending. -/
def State.members (s : State) (n : Nat) : List Nat := (iota 0 144).filter fun c => decide (s.crewOf c = some n)

/-- Does the rig in force hold this crew? -/
def State.crewValid (s : State) (n : Nat) : Bool := s.isSet F.RIG_CREW_valid [n]

/-- The crews of the rig in force. -/
def State.crewList (s : State) : List Nat := (iota 0 16).filter s.crewValid

/-- TIMED or ELASTIC (02 R54). -/
def State.timed (s : State) (n : Nat) : Bool := s.isSet F.STK_CREW_timed [n]

/-- First address of a crew's HBM range. -/
def State.rangeBase (s : State) (n : Nat) : Nat := s.fld F.RIG_CREW_base_gib [n] * 2 ^ 30

/-- Length of a crew's HBM range. -/
def State.rangeSize (s : State) (n : Nat) : Nat := s.fld F.RIG_CREW_size_gib [n] * 2 ^ 30

/-- Does an extent lie wholly in a crew's range? -/
def State.inRange (s : State) (n a len : Nat) : Bool :=
  decide (s.rangeBase n ≤ a) && decide (a + len ≤ s.rangeBase n + s.rangeSize n)

/-- The crew whose range holds an address. -/
def State.crewAt (s : State) (a : Nat) : Option Nat :=
  (s.crewList.filter fun n => s.inRange n a 1).head?

/-- Physical column of a logical column of a row (R15). -/
def State.physCol (s : State) (row col : Nat) : Nat :=
  if col = 8 then s.fld F.GLB_REMAP_HI_col8 [row]
  else bits (s.reg R.GLB_REMAP_LO [row]).toNat (4 * col + 3) (4 * col)

/-- The physical site of a core, row in [7:4] and column in [3:0] (11 R272). -/
def State.site (s : State) (c : Nat) : Nat := c / 9 * 16 + s.physCol (c / 9) (c % 9)

/-- Is FIXED in force (10)? -/
def State.fixed (s : State) : Bool := s.isSet F.GLB_DET_fixed []

/-- The launch a crew is running. -/
def Crew.runningLaunch (k : Crew) : Option Launch := k.launches.find? fun l => l.running && l.finished.isNone

/-- Change the launch of an accept number. -/
def State.modLaunch (s : State) (n accept : Nat) (f : Launch → Launch) : State :=
  s.modCrew n fun k => { k with launches := k.launches.map fun l => if l.accept = accept then f l else l }

/-- Add an abnormal status to a launch (03 R79). -/
def State.launchStatus (s : State) (n accept status : Nat) : State :=
  s.modLaunch n accept fun l => { l with statuses := status :: l.statuses }

/-- A crew's state code in GLB_RCV_n (12 R302). -/
def State.rcvState (s : State) (n : Nat) : Nat := s.fld F.GLB_RCV_state [n]

/-! ### Counters and trace (15 R370 to R379) -/

/-- Bytes pass a counting point of a 64-bit counter pair (15 R370). -/
def State.count (s : State) (lo : RegDef) (ix : List Nat) (n : Nat) : State :=
  let a := lo.addr ix
  s.setPmc { s.pmc with counts := Map.setD 0 s.pmc.counts a ((Map.getD 0 s.pmc.counts a + n) % 2 ^ 64) }

/-- Does a PMC_SEL value choose an event, of a sub-unit where the event has one (15 R373)? -/
def selects (v : Word) (code : Nat) (sub : Option Nat) : Bool :=
  decide (bits v.toNat 31 31 = 1) && decide (bits v.toNat 7 0 = code) &&
    (match sub with | some k => decide (bits v.toNat 15 8 = k) | none => true)

/-- One cycle in which an event holds, for n counters of a place; a wrap sets the counter's overflow bit (15 R372). -/
def State.pmcTick (s : State) (cnt sel ovf : RegDef) (ix : List Nat) (n code : Nat) (sub : Option Nat) : State :=
  s.each (iota 0 n) fun s k =>
    if selects (s.reg sel (ix ++ [k])) code sub then
      let a := cnt.addr (ix ++ [k])
      let v := Map.getD 0 s.pmc.counts a + 1
      let s := s.setPmc { s.pmc with counts := Map.setD 0 s.pmc.counts a (v % 2 ^ 48) }
      if v = 2 ^ 48 then s.setReg ovf ix (putBits (s.reg ovf ix) k k 1) else s
    else s

/-- An event of a core. -/
def State.pmcCore (s : State) (c code : Nat) (sub : Option Nat) : State :=
  s.pmcTick R.PMC_CNT_LO_CORE R.PMC_SEL_CORE R.PMC_OVF_CORE [c] 16 code sub

/-- An event of an I/O die (0 port, 1 starboard). -/
def State.pmcDie (s : State) (die code : Nat) (sub : Option Nat) : State :=
  s.pmcTick R.PMC_CNT_LO_IOD R.PMC_SEL_IOD R.PMC_OVF_IOD [die] 32 code sub

/-- Bytes go from an I/O die to a core (15 R370). -/
def State.nocIn (s : State) (c die n : Nat) : State := (s.count R.DMA_NOC_RX_LO [c] n).count R.GLB_UCIE_TX_LO [die] n

/-- Bytes go from a core to an I/O die (15 R370). -/
def State.nocOut (s : State) (c die n : Nat) : State := (s.count R.DMA_NOC_TX_LO [c] n).count R.GLB_UCIE_RX_LO [die] n

/-- The host writes n bytes of a register or doorbell (15 R370). -/
def State.fromHost (s : State) (n : Nat) : State := s.count R.PCI_BYTES_RX_LO [] n

/-- Put a record into a core's staging buffer of 256, of which a LOSS record keeps one (15 R378, R379); with no room it
is dropped and counted. -/
def State.stageTrace (s : State) (c n : Nat) (r : Trc) : State :=
  let k := s.core c
  if 255 ≤ k.trc.length then
    let run : LossRun := match k.trcLoss with
      | some l => { l with count := satAdd l.count 1 0xFFFFFFFF }
      | none => { count := 1, time := r.time, stroke := r.stroke }
    let s := s.modCore c fun k => { k with trcLoss := some run }
    s.setReg R.TRC_LOST [n] (BitVec.ofNat 32 (satAdd (s.reg R.TRC_LOST [n]).toNat 1 0xFFFFFFFF))
  else
    let loss : Option LossRun :=
      if k.trcReset then some { count := 0xFFFFFFFF, time := r.time, stroke := r.stroke } else k.trcLoss
    let pre := match loss with
      | some l =>
        let x : Trc := { r with
          time := l.time, kind := 4, unit := 0xFF, flags := r.flags % 64, entry := 0, accept := 2 ^ 64 - 1, stroke := l.stroke, detail := l.count }
        [x]
      | none => []
    s.modCore c fun k => { k with trc := k.trc ++ pre ++ [r], trcLoss := none, trcReset := false }

/-- A trace record of a command word of core c (15 R377). `how` is the END code of flags [7:6]. -/
def State.trace (s : State) (c kind how : Nat) (word : CmdWord) (entry accept detail : Nat) : State :=
  match s.crewOf c with
  | none => s
  | some n =>
    if s.isSet F.TRC_CTL_enable [n] then
      let r : Trc := {
        time := s.dieTime 0 / 2 ^ 32
        kind := kind
        unit := wbits word 239 236 + 16 * wbits word 255 252
        core := c
        flags := n + (if s.locked && !s.dieFree 0 then 0 else 16) + (if s.rcvState n = 3 then 32 else 0) + 64 * how
        ctx := wbits word 251 240
        entry := entry
        accept := accept
        stroke := s.stk.num % 2 ^ 32
        detail := detail % 2 ^ 32 }
      s.stageTrace c n r
    else s

/-- BEGIN of a held command. -/
def State.traceBegin (s : State) (c : Nat) (q : QCmd) : State := s.trace c 1 0 q.word q.entry q.accept 0

/-- END of a held command, with its code and detail. -/
def State.traceEnd (s : State) (c how detail : Nat) (q : QCmd) : State := s.trace c 2 how q.word q.entry q.accept detail

/-! ### Messages, faults and logbook triggers -/

/-- Send a message out of the package. -/
def State.send (s : State) (m : Msg) : State := s.setOut (s.out ++ [m])

/-- Take a logbook trigger (14 R350). -/
def State.trigger (s : State) (t : Trigger) : State := s.setCox { s.cox with triggers := s.cox.triggers ++ [t] }

/-- A fault detected now, of a class, severity and event, with nothing else named (11 R272, R277). -/
def State.fault0 (s : State) (cls sev event : Nat) : Fault0 :=
  { cls := cls, sev := sev, event := event, unlocked := !s.locked, time := s.ns, stroke := s.stk.num, raw := s.raw
    timStat := s.reg R.TIM_STAT [] }

/-- Name a crew, and with it the running launch's accept number, context and queue (11 R271). -/
def Fault0.charge (f : Fault0) (n : Nat) (l : Option Launch) : Fault0 :=
  match l with
  | some l => { f with crew := some n, accept := some l.accept, ctx := some l.ctx, queue := l.queue }
  | none => { f with crew := some n }

/-- Name a core and its site. -/
def Fault0.atCore (f : Fault0) (s : State) (c : Nat) : Fault0 := { f with core := c, site := s.site c }

/-- Where a stop would hold the crew's boundary: the stroke after this one. -/
def State.nextStroke (s : State) : Nat := s.stk.num + 1

/-- Combine two causes to stop: the earlier boundary, the more severe handling (11 R260; 12 R293). -/
def Stop.meet (a b : Stop) : Stop :=
  { bStop := if a.bStop ≤ b.bStop then a.bStop else b.bStop
    target := match b.target with | some x => some x | none => a.target
    hold := a.hold || b.hold
    releaseAt := match b.releaseAt with | some x => some x | none => a.releaseAt
    replay := a.replay && b.replay
    cause := if a.cause ≤ b.cause then a.cause else b.cause }

/-- A crew is to stop (12 R287); while it is being restored, its restoration starts again (R293). -/
def State.stopCrew (s : State) (n : Nat) (st : Stop) : State :=
  let again := decide (s.fld F.GLB_RCV_state [n] = 2)
  let join := fun (o : Option Stop) => match o with | some a => a.meet st | none => st
  s.modCrew n fun k => { k with stop := some (join k.stop), restart := k.restart || again }

/-- Every crew is to stop at the next boundary (11, severity Package). -/
def State.stopAll (s : State) : State :=
  s.each s.crewList fun s n => s.stopCrew n { bStop := s.nextStroke, replay := false }

/-- Does the syndrome field of a record hold a check value that the spec does not give: the ECC of tallies, queue state or
always-on SRAM, a parity or a residue (11 R272; assumption log 23)? -/
def Fault0.hasDetail (f : Fault0) : Bool :=
  decide (f.event = 0x0103) || decide (f.event = 0x0104) || (decide (0x0301 ≤ f.event) && decide (f.event ≤ 0x0307))
    || decide (f.event = 0x0310) || decide (f.event = 0x0314) || decide (f.cls = 9)

/-- The time of a fault is that of the die that detects it (11 R272; 09 R220). -/
def State.stampFault (s : State) (f : Fault0) : Fault0 :=
  if s.dieFree f.die then { f with time := s.dieTime f.die / 2 ^ 32, unlocked := true } else f

/-- Raise a fault: it waits for its record (11 R275). A Domain fault of a crew stops the crew at the next boundary, a
Package fault every crew (11 R258), but a THERMAL or POWER fault or a drain notice as its own chapter says. -/
def State.raiseFault (s : State) (f : Fault0) : State :=
  let (v, s) := if f.hasDetail then s.fresh else (f.syndrome, s)
  let f := { s.stampFault f with syndrome := v % 2 ^ 32 }
  let s := s.setFlt { s.flt with queue := s.flt.queue ++ [f] }
  if f.sev = 3 then (if f.event % 256 = 0xFF then s else s.stopAll)
  else if f.sev = 2 then
    match f.crew with
    | some n => s.stopCrew n { bStop := s.nextStroke, cause := if f.cls = 6 then 1 else 2 }
    | none => s
  else s

/-- A crew crabs (02 R53, R54; 12 R296): a TIMED crew takes a CRAB fault and stops. -/
def State.crab (s : State) (n event detail : Nat) : State :=
  let s := (s.bump F.STK_CREW_crab_count [n] 1).raiseBit F.STK_CREW_crab_hist [n]
  if s.timed n then s.raiseFault { (s.fault0 5 2 event).charge n (s.crew n).runningLaunch with detail := detail } else s

/-- A Domain fault charged to a crew. -/
def State.crewFault (s : State) (n cls event detail : Nat) : State :=
  s.raiseFault { (s.fault0 cls 2 event).charge n (s.crew n).runningLaunch with detail := detail }

/-- Poison is consumed by an action or a control word of a crew (11 R266 to R269): the running launch is charged, stops
at the drive end and is not replayed; with none running the record is of Info severity and names the crew alone. -/
def State.poisonFault (s : State) (n : Nat) (f : Fault0) : State :=
  match (s.crew n).runningLaunch with
  | some l =>
    let s := s.modLaunch n l.accept fun l => { l with poisoned := true }
    let s := s.raiseFault { f.charge n (some l) with cls := 2, sev := 1 }
    s.stopCrew n { bStop := s.nextStroke }
  | none => s.raiseFault { f with cls := 2, sev := 0, crew := some n }

/-- A format error (03 R71): the sequencer stops issuing, the launch will complete with FORMAT, its other members stop
at the next boundary. -/
def State.formatError (s : State) (c accept : Nat) : State :=
  let s := s.modCore c fun k => { k with seq := { k.seq with stopped := true }, posts := [] }
  match s.crewOf c with
  | some n => (s.launchStatus n accept 4).modLaunch n accept fun l => { l with stopNext := true }
  | none => s

/-- A core has a hard fault (11 R278): it waits for its spare switch-in at the next boundary, and its crew stops. -/
def State.hardFault (s : State) (c cls : Nat) : State :=
  if (s.flt.switches.map fun p => p.1).elem c then s
  else
    let s := s.setFlt { s.flt with switches := s.flt.switches ++ [(c, cls)] }
    match s.crewOf c with
    | some n => s.stopCrew n { bStop := s.nextStroke }
    | none => s

/-- Has the boundary at which a crew is to stop been reached (12 R287)? -/
def State.stopDue (s : State) (n : Nat) : Bool :=
  match (s.crew n).stop with | some st => decide (st.bStop ≤ s.stk.num) | none => false

/-- Is the crew stopped, due to stop, restoring, held or resetting, so that it issues nothing (12 R287, R291)? -/
def State.halted (s : State) (n : Nat) : Bool :=
  let st := s.rcvState n
  decide (st = 1) || decide (st = 2) || decide (st = 4) || decide (st = 5) || s.stopDue n

/-- Is a staged rig to take effect at the boundary that has begun (16 R397)? -/
def State.rigDue (s : State) : Bool :=
  s.rig.staged.isSome && s.stk.renum.isNone && (match s.rig.effect with | some b => decide (b ≤ s.stk.num) | none => false)

/-- Is a mode-change stall in force (01 R22)? -/
def State.stalled (s : State) : Bool :=
  match s.pow.mode with | some m => m.b0.isSome | none => false

/-- Is the crew frozen for a snapshot (13 R318)? -/
def State.frozen (s : State) (n : Nat) : Bool := (s.crew n).freezeEnd.isSome

/-- Asleep, entering or waking (01 R29). -/
def State.inEasy (s : State) : Bool := decide (s.pow.easy ≠ .awake ∧ s.pow.easy ≠ .requested)

/-- A domain is in reset, so that its clocks do not run (12 R301). -/
def State.inReset (s : State) : Bool :=
  decide (s.flt.resetting = some .chip ∨ s.flt.resetting = some .package ∨ s.flt.resetting = some .cold)

/-- Is the stroke in progress one that a count jump leaves without work on every crew (02 R48)? -/
def State.emptyStroke (s : State) : Bool := s.stk.noWork.any fun p => decide (p.1 = s.stk.num)

/-- A crew does job work now: in a drive, not stalled, frozen, stopped or asleep, in a stroke that carries work (02
R42). -/
def State.works (s : State) (n : Nat) : Bool :=
  s.stk.drive && s.crewValid n && !s.stalled && !s.frozen n && !s.halted n && !s.inEasy && !s.inReset && !s.emptyStroke
    && !s.pow.tripped && !s.rigDue

/-- Does unit code u name unit v: itself, or 0xF for every unit of the core, its sequencer too (R68, R85)? -/
def namesUnit (u v : Nat) : Bool := decide (u = v) || (decide (u = 0xF) && decide (v ≤ 0xE))

/-- Tags of the commands a unit holds and has not completed. -/
def Core.tagsOf (k : Core) (u : Nat) : List Nat :=
  if u < 12 then
    let e := Map.getD {} k.eng u
    e.q.map (fun q => q.tag) ++ e.out.map fun b => b.cmd.tag
  else if u = 0xC then k.vecq.map fun q => q.tag
  else if u = 0xD then k.dmaq.map fun q => q.tag
  else []

/-- Has every command issued before a tag to the units a code names been performed (R90 rules 2 and 4)? -/
def Core.released (k : Core) (u tag : Nat) : Bool :=
  ((iota 0 14).filter fun v => namesUnit u v).all fun v => (k.tagsOf v).all fun t => decide (tag ≤ t)

/-- Is everything performed that a FENCE orders: the units' commands issued before it, and the tally READs, which write
core store (R90 rule 4; R85)? -/
def Core.fencePast (k : Core) (tag : Nat) : Bool :=
  k.released 0xF tag && k.tq.all fun q => decide (wbits q.word 235 232 ≠ 3) || decide (tag ≤ q.tag)

/-- Is a command of a unit held by an unsatisfied WAIT_GE or FENCE issued before it (R85, R90 rule 4)? -/
def State.unitBlocked (s : State) (c u tag : Nat) : Bool :=
  let k := s.core c
  (k.waits.any fun w => namesUnit w.unit u && decide (w.cmd.tag < tag)) ||
    k.fences.any fun f => decide (f.tag < tag) && !k.fencePast f.tag

/-- May a core's units do job work now? -/
def State.coreWorks (s : State) (c : Nat) : Bool :=
  match s.crewOf c with
  | some n => s.works n
  | none => false

/-- Does a domain hold engine or unit e of core c (12 R298, R301)? -/
def State.domHolds (s : State) (d : Dom) (c e : Nat) : Bool :=
  match d with
  | .engine c' e' => decide (c = c' ∧ e = e')
  | .core c' => decide (c = c')
  | .crew n => decide (s.crewOf c = some n)
  | .chip | .package | .cold => true

/-- Is a unit frozen by a dump (12 R299)? -/
def State.dumpFrozen (s : State) (c e : Nat) : Bool := s.flt.dumps.any fun d => d.writing && s.domHolds d.dom c e

/-- Has an ELASTIC crew's unit work to go on with outside the drive, so that it shows paused (02 R54)? -/
def State.pausedUnit (s : State) (c : Nat) : Bool :=
  match s.crewOf c with
  | some n => !s.timed n && !s.stk.drive
  | none => false

/-- May a unit run a command: the crew works, no WAIT_GE or FENCE holds the command, no dump freezes the unit? -/
def State.unitRuns (s : State) (c u tag : Nat) : Bool := s.coreWorks c && !s.unitBlocked c u tag && !s.dumpFrozen c u

/-- Is a recovery in progress, in which the background clients issue (02 R58)? -/
def State.background (s : State) : Bool := !s.stk.drive && !s.inEasy && !s.inReset && !s.pow.tripped

/-- Is the HBM pin rate changing (01 R22; 02 R60)? -/
def State.pinChanging (s : State) : Bool :=
  match s.pow.mode with
  | some m => m.b0.isSome && !m.settled && (decide (m.target = 2) != decide (s.fld F.GLB_MODE_current [] = 2))
  | none => false

/-- Does the recovery in progress serve the clients of HBM (02 R58, R60)? -/
def State.hbmServed (s : State) : Bool := s.background && decide (6 ≤ s.pow.step)

/-- May scrub and copies issue in it: they pause while the HBM pin rate changes (01 R22; 02 R60)? -/
def State.copyServed (s : State) : Bool := s.hbmServed && !s.pinChanging

/-- Does a stack serve accesses: its controller runs and the stack is not in self-refresh, as it is in Easy, in a chip reset
and in a loop-back test until mode 0 is written (01 R29; 02 R60; 07 R185)? -/
def State.stackUp (s : State) (k : Nat) : Bool :=
  !s.inEasy && !s.inReset && !s.pow.tripped && decide (6 ≤ s.pow.step) && !s.isSet F.HBM_LOOP_busy (stk4 k)
    && decide (s.fld F.HBM_STAT_rate (stk4 k) ≠ 3)

/-- Registers held in domains that Easy stops (01 R19, R35; assumption log 15): core windows, tallies, SEQ_, WCH_, CHK_
and the I/O dies' blocks but for PCI_. -/
def stoppedReg (off : Nat) : Bool :=
  (decide (0x01000000 ≤ off) && decide (off < 0x02000000)) ||
  (decide (0x02000000 ≤ off) && decide (off < 0x03000000) && !(decide (0x02320000 ≤ off) && decide (off < 0x02330000))) ||
  (decide (0x03400000 ≤ off) && decide (off < 0x03800000)) ||
  (decide (0x400 ≤ off) && decide (off < 0x480)) || (decide (0xC00 ≤ off) && decide (off < 0xE00)) ||
  (decide (0x1000 ≤ off) && decide (off < 0x1410))

/-- Is a host access to this register stray now, in Easy or in a reset (01 R35; 12 R301)? -/
def State.strayAt (s : State) (off : Nat) : Bool := (s.inEasy || s.inReset) && stoppedReg off

/-- Note a stray access. -/
def State.stray (s : State) : State := s.raiseBit F.GLB_EASY_stray_access []

/-- The host reads bytes; EP tells that some byte was poisoned (11 R262). -/
def State.giveHost (s : State) (b : Bytes) (ep : Bool) : State :=
  ((s.count R.PCI_BYTES_TX_LO [] b.length).setHostData b).setHostEP ep

/-- The host reads one register word. -/
def State.giveWord (s : State) (w : Word) : State := s.giveHost (natLe 4 w.toNat) false

/-- The die of a core, link or stack (11 R272): 0 compute chip, 1 port, 2 starboard, 3 cox. -/
def dieOfLink (l : Nat) : Nat := if l < 48 then 1 else 2

/-- The die of a stack. -/
def dieOfStack (k : Nat) : Nat := if k < 4 then 1 else 2

end Sys2Proof.Machine
end

