-- ==== Sys2Proof/Machine/CoreStore.lean ====
section
/-!
DEFINITION. Core store with its SEC-DED code and poison (06 R137, R140 to R142), and the commands CE_WRITEBACK and
PATROL_READ.
-/
namespace Sys2Proof.Machine

/-- The data area ends here; the table area follows (R137). -/
def dataEnd : Nat := 0x2C0000

/-- Core store ends here. -/
def storeEnd : Nat := 0x300000

/-- The bank of a core-store address (R137). -/
def bankOf (a : Nat) : Nat := a / 64 % 24

/-- XOR a list of flipped bit positions, of those below 64, into a word's data. -/
def flipData (data : Nat) (flips : List Nat) : Nat :=
  flips.foldl (fun d i => if i < 64 then d ^^^ 2 ^ i else d) data

/-- The flipped bits as one number of 72 bits. -/
def flipMask (flips : List Nat) : Nat := flips.foldl (fun d i => d ^^^ 2 ^ i) 0

/-- What a read of a word gives (R140): class 0 clean, 1 CE, 2 UE, 3 poison; the data; the poison mark. -/
structure WordRead where
  cls : Nat
  data : Nat
  poison : Bool
  deriving DecidableEq, Repr

/-- Decode a word by its errors (R140). Beyond the code's guarantee the outcome is a free value (assumption log 11). -/
def decodeWord (data : Nat) (w : WordSt) : WordRead :=
  match w.poison, w.flips with
  | false, [] => ⟨0, data, false⟩
  | true, [] => ⟨3, data, true⟩
  | false, [_] => ⟨1, data, false⟩
  | false, [i, j] => ⟨2, flipData data [i, j], true⟩
  | true, [i] => ⟨2, flipData data [i], true⟩
  | p, fl =>
    let k := Config.storeBeyond data (flipMask fl + if p then 2 ^ 72 else 0)
    if k = 0 then ⟨0, flipData data fl, false⟩
    else if k = 1 then ⟨1, Config.storeBeyondData data (flipMask fl) % 2 ^ 64, false⟩
    else if k = 2 then ⟨2, flipData data fl, true⟩
    else ⟨3, flipData data fl, true⟩

/-- The stored data of word i (8 B, by index) of a core. -/
def State.wordData (s : State) (c i : Nat) : Nat := leNat (Map.bytes unlisted (s.core c).store (8 * i) 8)

/-- The check state of a word. -/
def State.wordSt (s : State) (c i : Nat) : WordSt := Map.getD {} (s.core c).words i

/-- Store a word with fresh check bits, poisoned or not; any pending write-back is superseded (R140, R141). -/
def State.putWord (s : State) (c i data : Nat) (poison : Bool) : State :=
  s.modCore c fun k => { k with
    store := Map.store unlisted k.store (8 * i) (natLe 8 data)
    words := Map.setD {} k.words i { poison := poison }
    ceWb := k.ceWb.filter fun j => decide (j ≠ i) }

/-- Count a CE of a source and raise the CE record that R274 asks for: the first, and each multiple of
2^ce_stride. -/
def State.ceRecord (s : State) (count event : Nat) (f : Fault0 → Fault0) : State :=
  if count = 1 ∨ count % 2 ^ s.fld F.GLB_FLT_CTL_ce_stride [] = 0 then
    s.raiseFault (f { s.fault0 1 0 event with detail := count })
  else s

/-- Open or continue the window of 2^24 strokes in which UEs of a core store count; the 16th is a hard fault (11
R278). -/
def State.countStoreUe (s : State) (c : Nat) : State :=
  let n := match (s.core c).ueWin with
    | some (at0, k) => if s.stk.num < at0 + 2 ^ 24 then (at0, k + 1) else (s.stk.num, 1)
    | none => (s.stk.num, 1)
  let s := s.modCore c fun x => { x with ueWin := some n }
  if n.2 = 16 then s.hardFault c 2 else s

/-- A CE or UE of a word is counted, recorded and its write-back arranged (R140). -/
def State.reportWord (s : State) (c i : Nat) (r : WordRead) : State :=
  let w := s.wordSt c i
  let syn := Config.storeSyndrome (flipMask w.flips + if w.poison then 2 ^ 72 else 0) % 2 ^ 8
  if r.cls = 1 then
    if (s.core c).ceWb.elem i then s
    else
      let s := ((s.bump F.CST_ECC_ce_count [c] 1).raiseBit F.CST_ECC_ce_hist [c]).setReg R.CST_ERRADDR [c]
        (BitVec.ofNat 32 (1 * 2 ^ 30 + 8 * i))
      let s := s.modCore c fun k => { k with ceWb := k.ceWb ++ [i] }
      s.ceRecord (s.fld F.CST_ECC_ce_count [c]) 0x0101 fun f =>
        { f.atCore s c with space := 2, addr := 8 * i, crew := s.crewOf c, syndrome := syn }
  else if r.cls = 2 then
    let s := ((s.bump F.CST_ECC_ue_count [c] 1).raiseBit F.CST_ECC_ue_hist [c]).setReg R.CST_ERRADDR [c]
      (BitVec.ofNat 32 (2 * 2 ^ 30 + 8 * i))
    let s := (s.putWord c i r.data true).countStoreUe c
    s.raiseFault { (s.fault0 2 0 0x0201).atCore s c with space := 2, addr := 8 * i, crew := s.crewOf c, syndrome := syn }
  else s

/-- Read a word: its outcome, and the machine after its report. -/
def State.readWord (s : State) (c i : Nat) : WordRead × State :=
  let r := decodeWord (s.wordData c i) (s.wordSt c i)
  (r, s.reportWord c i r)

/-- Read words i, i+1, … : data bytes, each with its word's poison. -/
def State.readWords (s : State) (c i : Nat) : Nat → List (Byte × Bool) × State
  | 0 => ([], s)
  | n + 1 =>
    let (r, s) := s.readWord c i
    let (rest, s) := s.readWords c (i + 1) n
    ((natLe 8 r.data).map (fun b => (b, r.poison)) ++ rest, s)

/-- Read n bytes at an address, each with its word's poison. -/
def State.storeRead (s : State) (c a n : Nat) : List (Byte × Bool) × State :=
  if n = 0 then ([], s)
  else
    let (l, s) := (s.count R.CST_BYTES_RD_LO [c] n).readWords c (a / 8) ((a + n - 1) / 8 + 1 - a / 8)
    ((l.drop (a % 8)).take n, s)

/-- Any byte of a run poisoned? -/
def anyPoison (l : List (Byte × Bool)) : Bool := l.any fun p => p.2

/-- The bytes of a run. -/
def plain (l : List (Byte × Bool)) : Bytes := l.map fun p => p.1

/-- Write bytes [pos, pos+n) of one word (R141). -/
def State.writeWord (s : State) (c i pos : Nat) (data : List (Byte × Bool)) : State :=
  let p := anyPoison data
  if data.length = 8 then s.putWord c i (leNat (plain data)) p
  else
    let (r, s) := (s.count R.CST_BYTES_RD_LO [c] 8).readWord c i
    let old := natLe 8 r.data
    s.putWord c i (leNat (old.take pos ++ plain data ++ old.drop (pos + data.length))) (p || r.poison)

/-- Write bytes at an address, word by word; `fuel` bounds the words. -/
def State.storeWriteFrom (s : State) (c a : Nat) (data : List (Byte × Bool)) : Nat → State
  | 0 => s
  | fuel + 1 =>
    match data with
    | [] => s
    | _ :: _ =>
      let n := 8 - a % 8
      (s.writeWord c (a / 8) (a % 8) (data.take n)).storeWriteFrom c (a + n) (data.drop n) fuel

/-- Write bytes at a core-store address, each with its poison. -/
def State.storeWrite (s : State) (c a : Nat) (data : List (Byte × Bool)) : State :=
  (s.count R.CST_BYTES_WR_LO [c] data.length).storeWriteFrom c a data (data.length / 8 + 2)

/-- Bytes without poison. -/
def clean (b : Bytes) : List (Byte × Bool) := b.map fun x => (x, false)

/-! ### Operand rings (04 R106) -/

/-- Base address of a ring. -/
def State.ringBase (s : State) (c n : Nat) : Nat := s.fld F.ENG_RING_base [c, n] * 2 ^ 12

/-- Size of a ring. -/
def State.ringSize (s : State) (c n : Nat) : Nat := 2 ^ s.fld F.ENG_RING_log2_size [c, n]

/-- Bytes present in a ring: fill − use, serial. -/
def State.ringFill (s : State) (c n : Nat) : Nat := (serial32 (s.reg R.ENG_RFILL [c, n]) (s.reg R.ENG_RUSE [c, n])).toNat

/-- Has the ring room for a line? -/
def State.ringRoom (s : State) (c ring : Nat) : Bool := decide (s.ringFill c ring + 64 ≤ s.ringSize c ring)

/-! ### Places -/

/-- Does an extent lie in the data area (R137, R160)? -/
def inData (a n : Nat) : Bool := decide (a + n ≤ dataEnd)

/-- CE_WRITEBACK (R140): in the bank's next idle cycle the corrected word is stored with fresh check bits. In Easy and in a
reset the bank has no clock (01 R29). -/
def execCeWriteback (core addr : Nat) (s : State) : Host.Outcome State Fault Refusal :=
  if (s.core core).ceWb.elem (addr / 8) && !s.inEasy && !s.inReset then
    let r := decodeWord (s.wordData core (addr / 8)) (s.wordSt core (addr / 8))
    if r.cls = 1 then .next ((s.count R.CST_BYTES_WR_LO [core] 8).putWord core (addr / 8) r.data false)
    else .next (s.modCore core fun k => { k with ceWb := k.ceWb.filter fun j => decide (j ≠ addr / 8) })
  else .next s

/-- Flip bits of words: the errors of the silicon that a read finds. `flips`: (word index, bit 0 to 71). -/
def State.flipWords (s : State) (c : Nat) (flips : List (Nat × Nat)) : State :=
  s.each flips fun s p =>
    s.modCore c fun k =>
      let w := Map.getD {} k.words p.1
      let fl := if w.flips.elem (p.2 % 72) then w.flips.filter (fun j => decide (j ≠ p.2 % 72)) else w.flips ++ [p.2 % 72]
      { k with words := Map.setD {} k.words p.1 { w with flips := fl } }

/-- The eight word indices of a bank row (R137). -/
def rowWords (bank row : Nat) : List Nat := iota (8 * (24 * row + bank)) 8

/-- A bank's patrol has read the row in progress; when all 24 have, the row moves on (R142). -/
def State.patrolNote (s : State) (core bank : Nat) : State :=
  let row := s.fld F.CST_PATROL_row [core]
  let done := bank :: (s.core core).patrolled
  let full := decide (24 ≤ done.length)
  let s := s.modCore core fun k => { k with
    patrolled := if full then [] else done, patrolAt := Map.insert bank s.stk.num k.patrolAt }
  if !full then s
  else if row = 2047 then (s.setFld F.CST_PATROL_row [core] 0).bump F.CST_PATROL_passes [core] 1
  else s.setFld F.CST_PATROL_row [core] (row + 1)

/-- Is a bank's patrol due: it has read neither the row in progress nor another in this recovery (R142)? -/
def State.patrolDue (s : State) (core bank : Nat) : Bool :=
  s.background && decide (bank < 24) && !(s.core core).patrolled.elem bank
    && decide (Map.find bank (s.core core).patrolAt ≠ some s.stk.num)

/-- PATROL_READ (R142): in a recovery each bank's patrol reads one row, the one that CST_PATROL names, acts on every word
under R140 and writes each corrected word back. `flips`: the errors of the silicon that have struck words of the core by
then; those of other rows wait for their reader (assumption log 8). -/
def execPatrolRead (core bank : Nat) (flips : List (Nat × Nat)) (s : State) : Host.Outcome State Fault Refusal :=
  if !s.patrolDue core bank then .next s
  else
    let row := s.fld F.CST_PATROL_row [core]
    let s := (s.count R.CST_BYTES_RD_LO [core] 64).flipWords core (flips.filter fun p => decide (8 * p.1 < storeEnd))
    let s := s.each (rowWords bank row) fun s i =>
      let (r, s) := s.readWord core i
      if r.cls = 1 then s.putWord core i r.data false else s
    .next (s.patrolNote core bank)

end Sys2Proof.Machine
end

