-- ==== Sys2Proof/Machine/Crc.lean ====
section
/-!
DEFINITION. CRC-32 of IEEE 802.3 (08 R192) and CRC-64 of ECMA-182 (10 R250).
-/
namespace Sys2Proof.Machine

/-- One bit of a reflected CRC-32. -/
def crc32Bit (x : BitVec 32) : BitVec 32 := if x.toNat % 2 = 1 then (x >>> 1) ^^^ 0xEDB88320#32 else x >>> 1

/-- One byte of a reflected CRC-32. -/
def crc32Byte (x : BitVec 32) (b : Byte) : BitVec 32 :=
  (List.range 8).foldl (fun y _ => crc32Bit y) (x ^^^ b.setWidth 32)

/-- The frame check sequence of a byte string (R192). -/
def crc32 (bs : Bytes) : BitVec 32 := bs.foldl crc32Byte 0xFFFFFFFF#32 ^^^ 0xFFFFFFFF#32

/-- One bit of the CRC-64, most significant bit first. -/
def crc64Bit (x : BitVec 64) : BitVec 64 := if x.msb then (x <<< 1) ^^^ 0x42F0E1EBA9EA3693#64 else x <<< 1

/-- One byte of the CRC-64. -/
def crc64Byte (x : BitVec 64) (b : Byte) : BitVec 64 :=
  (List.range 8).foldl (fun y _ => crc64Bit y) (x ^^^ (b.setWidth 64 <<< 56))

/-- The tile digest of a byte string (R250). -/
def crc64 (bs : Bytes) : BitVec 64 := bs.foldl crc64Byte 0#64

/-- A record with its CRC-32 in little-endian after it. -/
def withCrc32 (bs : Bytes) : Bytes := bs ++ natLe 4 (crc32 bs).toNat

end Sys2Proof.Machine
end

