-- ==== Sys2Proof/Machine/Hbm.lean ====
section
/-!
DEFINITION. HBM: the address map, the granule code with poison and write-backs (07 R161 to R173), the page map with
its copy-on-write frames (13 R313 to R316), host memory.
-/
namespace Sys2Proof.Machine

/-! ### Address map (R162, R163) -/

/-- Line index within the SID, 29 bits. -/
def lineN (a : Nat) : Nat := a / 2 ^ 8 % 2 ^ 29

/-- Stack-ID layer. -/
def sidOf (a : Nat) : Nat := a / 2 ^ 37 % 4

/-- Pseudo-channel index, 0 to 511. -/
def pcOf (a : Nat) : Nat := (lineN a ^^^ lineN a / 2 ^ 9 ^^^ lineN a / 2 ^ 18) % 512

/-- Stack, 0 to 7. -/
def stackOf (a : Nat) : Nat := pcOf a / 64

/-- Line within the row. -/
def colOf (a : Nat) : Nat := lineN a / 2 ^ 9 % 8

/-- Bank group. -/
def bgOf (a : Nat) : Nat := (lineN a / 2 ^ 12 ^^^ lineN a / 2 ^ 23) % 4

/-- Bank within the group. -/
def bankInGroup (a : Nat) : Nat := (lineN a / 2 ^ 14 ^^^ lineN a / 2 ^ 25) % 4

/-- Row. -/
def rowOf (a : Nat) : Nat := lineN a / 2 ^ 16 % 2 ^ 13

/-- Four SID layers (NF8-512-F) or three (NF8-384-F), by the memory fuse (00 R3). -/
def State.sids (s : State) : Nat := if s.fuseMem = 2 then 3 else 4

/-- The fuses show in GLB_ID.mem_code and HBM_STAT.sid3 (00 R3; 07, Registers). -/
def State.showFuses (s : State) : State :=
  (s.setFld F.GLB_ID_mem_code [] (if s.fuseMem = 2 then 2 else 1)).each (iota 0 8) fun s k =>
    s.setFld F.HBM_STAT_sid3 (stk4 k) (if s.fuseMem = 2 then 0 else 1)

/-- First unpopulated address. -/
def State.hbmTop (s : State) : Nat := s.sids * 2 ^ 37

/-- The line of a stack with a given index (R173): the index counts the stack's lines in ascending address. Within
each block of 512 consecutive lines a stack has exactly 64, those whose pseudo-channel lies on it. -/
def stackLine (stack i : Nat) : Nat :=
  let blk := i / 64
  let h := (blk ^^^ blk / 2 ^ 9) % 512
  let lows := (iota 0 512).filter fun l => decide ((l ^^^ h) % 512 / 64 = stack)
  (blk * 512 + lows.getD (i % 64) 0) * 256

/-- Lines of a stack. -/
def State.stackLines (s : State) : Nat := s.sids * 2 ^ 26

/-! ### Granules (R164, R165) -/

/-- What a granule read gives: class 0 clean, 1 CE, 2 UE, 3 poison; 32 data bytes; the poison mark. -/
structure GranRead where
  cls : Nat
  data : Bytes
  poison : Bool
  deriving DecidableEq, Repr

/-- XOR of the symbol errors of data symbols (0 to 63) into 32 bytes as one number. -/
def symData (data : Nat) (errs : List (Nat × Nat)) : Nat :=
  errs.foldl (fun d p => if p.1 < 64 then d ^^^ (p.2 % 16) * 2 ^ (4 * p.1) else d) data

/-- All symbol errors as one number. -/
def symMask (errs : List (Nat × Nat)) : Nat := errs.foldl (fun d p => d ^^^ (p.2 % 16) * 2 ^ (4 * p.1)) 0

/-- Decode a granule by its errors (R164, R165). An error confined to two symbols reads as UE or as Poison by its
syndrome, and more errors are beyond the guarantee: free values (assumption log 11). -/
def decodeGran (data : Nat) (g : Gran) : GranRead :=
  match g.poison, g.errs with
  | false, [] => ⟨0, natLe 32 data, false⟩
  | true, [] => ⟨3, natLe 32 data, true⟩
  | false, [_] => ⟨1, natLe 32 data, false⟩
  | true, [e] => ⟨3, natLe 32 (symData data [e]), true⟩
  | false, [e, f] =>
    if Config.hbmBeyond data (symMask [e, f]) = 3 then ⟨3, natLe 32 (symData data [e, f]), true⟩
    else ⟨2, natLe 32 (symData data [e, f]), true⟩
  | p, errs =>
    let k := Config.hbmBeyond data (symMask errs + if p then 2 ^ 288 else 0)
    if k = 0 then ⟨0, natLe 32 (symData data errs), false⟩
    else if k = 1 then ⟨1, natLe 32 (Config.hbmBeyondData data (symMask errs)), false⟩
    else if k = 2 then ⟨2, natLe 32 (symData data errs), true⟩
    else ⟨3, natLe 32 (symData data errs), true⟩

/-- The stored data of a granule, by physical address. -/
def State.granData (s : State) (pa : Nat) : Nat := leNat (Map.bytes unlisted s.mem (pa / 32 * 32) 32)

/-- The check state of a granule. -/
def State.granSt (s : State) (pa : Nat) : Gran := Map.getD {} s.gran (pa / 32)

/-- A queued write-back of a granule that a write overtakes is dropped when its turn comes (R173). -/
def State.staleWb (s : State) (pa : Nat) : State :=
  s.setWbq (s.wbq.map fun q => (q.1, q.2.map fun w =>
      if w.gran = pa / 32 then { w with stale := true } else w))

/-- Count one 32 B burst on the pseudo-channel of a granule (15 R370, R373). -/
def State.burst (s : State) (pa : Nat) (write : Bool) : State :=
  let k := stackOf pa
  let ix := [k / 4, k % 4, pcOf pa % 64 / 2]
  let s := (s.count (if write then R.HBM_BYTES_WR_LO else R.HBM_BYTES_RD_LO) ix 32).count R.HBM_BYTES_PKG_LO [] 32
  s.pmcDie (k / 4) (if write then 0x41 else 0x40) (some (pcOf pa % 256))

/-- A granule's new contents with fresh check bits, poisoned or not. -/
def State.storeGran (s : State) (pa : Nat) (data : Bytes) (poison : Bool) : State :=
  (s.setMem (Map.store unlisted s.mem (pa / 32 * 32) (data.take 32))).setGran (Map.setD {} s.gran (pa / 32) { poison := poison })

/-- Write a whole granule. -/
def State.putGran (s : State) (pa : Nat) (data : Bytes) (poison : Bool) : State := (s.burst pa true).storeGran pa data poison

/-- Queue one write-back for a granule; only one waits at a time (R173), so one that a write has overtaken gives way: it
would be dropped, and is noted as dropped. -/
def State.queueWb (s : State) (pa : Nat) (poisoning : Bool) : State :=
  let q := Map.getD [] s.wbq (stackOf pa)
  let mine := q.filter fun w => decide (w.gran = pa / 32)
  if mine.any fun w => !w.stale then s
  else
    let s := if mine = [] then s else s.raiseBit F.HBM_ECC_wb_dropped (stk4 (stackOf pa))
    let rest := q.filter fun w => decide (w.gran ≠ pa / 32)
    s.setWbq (Map.setD [] s.wbq (stackOf pa) (rest ++ [{ gran := pa / 32, poisoning := poisoning }]))

/-- Record a CE (kind 1) or UE (kind 2) in HBM_ERRADDR. -/
def State.hbmErrAddr (s : State) (pa kind : Nat) : State :=
  s.setPair R.HBM_ERRADDR_LO R.HBM_ERRADDR_HI (stk4 (stackOf pa)) (pa / 32 * 32 + kind)

/-- Count, record and arrange the write-back of what a granule read found (R165). `name` is the address software
uses. A controller raises no second record for a granule among its last 16 UE granules. -/
def State.reportGran (s : State) (pa name : Nat) (r : GranRead) : State :=
  let k := stackOf pa
  let ix := stk4 k
  let g := s.granSt pa
  let syn := Config.hbmSyndrome (symMask g.errs + if g.poison then 2 ^ 288 else 0) % 2 ^ 32
  if r.cls = 1 then
    let s := (((s.bump F.HBM_ECC_ce_count ix 1).raiseBit F.HBM_ECC_ce_hist ix).hbmErrAddr pa 1).queueWb pa false
    s.ceRecord (s.fld F.HBM_ECC_ce_count ix) 0x0102 fun f =>
      { f with space := 1, die := dieOfStack k, addr := name / 32 * 32, loc := pcOf pa, phys := pa / 32 * 32, syndrome := syn }
  else if r.cls = 2 then
    let s := (((s.bump F.HBM_ECC_ue_count ix 1).raiseBit F.HBM_ECC_ue_hist ix).hbmErrAddr pa 2).queueWb pa true
    let seen := Map.getD [] s.flt.ueSeen k
    if seen.elem (pa / 32) then s
    else
      let s := s.setFlt { s.flt with ueSeen := Map.setD [] s.flt.ueSeen k ((pa / 32 :: seen).take 16) }
      s.raiseFault { s.fault0 2 0 0x0202 with
        space := 1, die := dieOfStack k, addr := name / 32 * 32, loc := pcOf pa, phys := pa / 32 * 32, syndrome := syn }
  else if r.cls = 3 then s.raiseBit F.HBM_ECC_poison_hist ix
  else s

/-- Read a granule by physical address; `name` is the address software uses for it. -/
def State.readGran (s : State) (pa name : Nat) : GranRead × State :=
  let r := decodeGran (s.granData pa) (s.granSt pa)
  (r, (s.burst pa false).reportGran pa name r)

/-- Write bytes [pos, pos+n) of a granule (R168): whole, or merged as one indivisible action (R169). The read half
reports a CE or UE and nothing else. -/
def State.writeGran (s : State) (pa name pos : Nat) (data : Bytes) (poisoned : Bool) : State :=
  if data.length = 32 then (s.staleWb pa).putGran pa data poisoned
  else
    let r := decodeGran (s.granData pa) (s.granSt pa)
    let s := s.burst pa false
    let s := if r.cls = 3 then s else s.reportGran pa name r
    (s.staleWb pa).putGran pa (r.data.take pos ++ data ++ r.data.drop (pos + data.length)) (poisoned || r.poison)

/-! ### Host memory -/

/-- Do two host addresses cross PCIe in one TLP of a transfer (11 R262)? -/
def sameTlp (x y : Nat) : Bool := decide (x / 2 ^ (Config.tlpLog % 6 + 7) = y / 2 ^ (Config.tlpLog % 6 + 7))

/-- Read host memory: every byte of a completion that comes with EP is taken as poisoned (11 R262). -/
def State.hostRead (s : State) (a n : Nat) : List (Byte × Bool) :=
  let bad := (iota a n).filter fun x => s.hostPoison.elem x
  (iota a n).map fun x => (Map.getD unlisted s.hostMem x, bad.any (sameTlp x))

/-- Read host memory, counting the bytes (15 R370). -/
def State.hostFetch (s : State) (a n : Nat) : List (Byte × Bool) × State :=
  (s.hostRead a n, s.count R.PCI_BYTES_RX_LO [] n)

/-- Write host memory: each TLP that carries a poisoned byte goes with EP set, and what it wrote is later read with EP (11 R262;
PRESUMED of the host, assumption log 34). -/
def State.hostWrite (s : State) (a : Nat) (data : List (Byte × Bool)) : State :=
  let bad := ((iota a data.length).zip data).filterMap fun p => if p.2.2 then some p.1 else none
  s.count R.PCI_BYTES_TX_LO [] data.length
    |>.setHostMem (Map.store unlisted s.hostMem a (plain data))
    |>.setHostPoison ((s.hostPoison.filter fun x => decide (x < a) || decide (a + data.length ≤ x)) ++
      (iota a data.length).filter fun x => bad.any (sameTlp x))

/-! ### The page map (13 R311 to R316) -/

/-- The region class of an address of a crew's range: 0 STATE to 4 CKPT. -/
def Crew.classAt (k : Crew) (a : Nat) : Option Nat :=
  (k.regions.find? fun r => decide (r.first ≤ a / 2 ^ 21) && decide (a / 2 ^ 21 < r.first + r.pages)).map fun r => r.cls

/-- The page of a crew that holds a STATE address. -/
def State.pageAt (s : State) (a : Nat) : Option (Nat × PageSt) :=
  match s.crewAt a with
  | some n => (Map.find (a / 2 ^ 21) (s.crew n).pages).map fun p => (n, p)
  | none => none

/-- The frame from which a line of a page is read: the live frame, or the newest copy that holds the line (R314
step 3). -/
def frameOfLine (line : Nat) : Frame → List Frame → Nat
  | f, [] => f.page
  | f, c :: cs =>
    match f.fill with
    | none => f.page
    | some l => if l.elem line then f.page else frameOfLine line c cs

/-- Physical address for a read (R313). -/
def State.readPa (s : State) (a : Nat) : Nat :=
  match s.pageAt a with
  | some (_, p) => frameOfLine (a % 2 ^ 21 / 256) p.live p.copies * 2 ^ 21 + a % 2 ^ 21
  | none => a

/-- The epochs of a page that are still needed (R314): the held points, a freeze's boundary, a checkpoint that has not
yet copied the page. -/
def Crew.epochs (k : Crew) (page : Nat) : List Nat :=
  k.points.map (fun p => p.eid) ++ (if k.freezePoint then [k.stepSnapEid] else []) ++
    match k.ckpt with
    | some c => if c.freezing || c.left.elem page then [c.eid] else []
    | none => []

/-- Frames of a crew: the pages of STATE and RESERVE, ascending. -/
def Crew.frames (k : Crew) : List Nat :=
  (k.regions.filter fun r => decide (r.cls = 0) || decide (r.cls = 2)).flatMap fun r => iota r.first r.pages

/-- Frames in use. -/
def Crew.used (k : Crew) : List Nat := k.pages.flatMap fun p => p.2.live.page :: p.2.copies.map fun c => c.page

/-- Free frames of the pool. -/
def Crew.freeFrames (k : Crew) : List Nat := k.frames.filter fun f => !k.used.elem f

/-- Copies of a page that must stay (R315): an epoch needs it, or the frame made from it has lines still to fill. `f` is
the frame kept just before. -/
def keepCopies (epochs : List Nat) : Frame → List Frame → List Frame
  | _, [] => []
  | f, c :: cs =>
    if (epochs.any fun e => decide (c.eid < e) && decide (e ≤ f.eid)) || f.fill.isSome then c :: keepCopies epochs c cs
    else keepCopies epochs f cs

/-- Let go of every copy of a crew that nothing needs, and show the free frames (R315). -/
def State.releaseCopies (s : State) (n : Nat) : State :=
  let s := s.modCrew n fun k => { k with pages := k.pages.map fun p =>
    (p.1, { p.2 with copies := keepCopies (k.epochs p.1) p.2.live p.2.copies }) }
  s.setFld F.CHK_FREE_free [n] (s.crew n).freeFrames.length

/-- Does a page of a crew need its first write: is its live frame the only one with a value some epoch needs? -/
def Crew.needsFirst (k : Crew) (page : Nat) (p : PageSt) : Bool := (k.epochs page).any fun e => decide (p.live.eid < e)

/-- End a checkpoint of a crew with a status and release what it held (R316, R326). -/
def State.endCkpt (s : State) (n status : Nat) : State :=
  let tensor := match (s.crew n).ckpt with | some c => c.tensor | none => false
  let s := s.modCrew n fun k => { k with ckpt := none }
  let s := ((s.setFld F.CHK_STAT_state [n] 0).setFld F.CHK_STAT_status [n] status).setFld F.CHK_STAT_kind [n]
    (if tensor then 1 else 0)
  s.releaseCopies n

/-- The logbook trigger of class CHK (14 R350): crew, status, stroke. -/
def State.chkTrigger (s : State) (n : Nat) : State :=
  s.trigger { cls := 5, body := [BitVec.ofNat 8 n, BitVec.ofNat 8 (s.fld F.CHK_STAT_status [n])] ++ natLe 8 s.stk.num }

/-- The current step becomes unprotected (R316 step 2): both points go at once. -/
def State.unprotect (s : State) (n : Nat) : State :=
  let s := s.modCrew n fun k => { k with points := [], unprot := true, freezePoint := false }
  let s := ((s.raiseBit F.CHK_FREE_unprot [n]).raiseBit F.CHK_FREE_unprot_hist [n]).setFld F.GLB_RCV_points [n] 0
  (s.releaseCopies n).chkTrigger n

/-- Take a free frame for a page: it becomes the live frame, the old one a frozen copy (R314 step 1). -/
def State.takeFrame (s : State) (n page f : Nat) : State :=
  let s := s.modCrew n fun k =>
    match Map.find page k.pages with
    | some p =>
      let q : PageSt := { live := { page := f, fill := some [], eid := k.eid }, copies := p.live :: p.copies }
      { k with pages := Map.insert page q k.pages }
    | none => k
  s.setFld F.CHK_FREE_free [n] (s.crew n).freeFrames.length

/-- FIRST_WRITE (R314, R316): before a write to a STATE page, when some epoch needs the old value: take a free frame;
with none free abandon the crew's checkpoint in its copy phase and try again; else the step becomes unprotected. -/
def State.firstWrite (s : State) (a : Nat) : State :=
  match s.pageAt a with
  | none => s
  | some (n, p) =>
    if (s.crew n).needsFirst (a / 2 ^ 21) p then
      match (s.crew n).freeFrames with
      | f :: _ => (s.takeFrame n (a / 2 ^ 21) f).pmcDie (stackOf a / 4) 0x50 none
      | [] =>
        let copying := match (s.crew n).ckpt with | some c => !c.freezing | none => false
        let s := if copying then s.endCkpt n 4 else s
        match s.pageAt a with
        | some (_, p) =>
          if (s.crew n).needsFirst (a / 2 ^ 21) p then
            match (s.crew n).freeFrames with
            | f :: _ => (s.takeFrame n (a / 2 ^ 21) f).pmcDie (stackOf a / 4) 0x50 none
            | [] => s.unprotect n
          else s
        | none => s
    else s

/-- Mark a line of a page's live frame filled; a frame with every line filled is complete, and copies may go (R314
step 4, R315). -/
def State.markFilled (s : State) (n page line : Nat) : State :=
  match Map.find page (s.crew n).pages with
  | some p =>
    match p.live.fill with
    | some l =>
      let l := if l.elem line then l else line :: l
      if l.length = 8192 then
        let q : PageSt := { p with live := { p.live with fill := none } }
        (s.modCrew n fun k => { k with pages := Map.insert page q k.pages }).releaseCopies n
      else
        let q : PageSt := { p with live := { p.live with fill := some l } }
        s.modCrew n fun k => { k with pages := Map.insert page q k.pages }
    | none => s
  | none => s

/-- Copy the eight granules of a 256 B line from one physical line to another, with their poison. -/
def State.copyLine (s : State) (src dst name : Nat) : State :=
  (s.pmcDie (stackOf dst / 4) 0x51 none).each (iota 0 8) fun s g =>
    let (r, s) := s.readGran (src + 32 * g) (name + 32 * g)
    (s.staleWb (dst + 32 * g)).putGran (dst + 32 * g) r.data r.poison

/-- Make a line of a page's live frame ready for a write (R314 step 2): a line covered wholly is marked filled, one
covered in part is first merged with the copy's. `a` is any address of the line. -/
def State.readyLine (s : State) (a : Nat) (whole : Bool) : State :=
  match s.pageAt a with
  | none => s
  | some (n, p) =>
    let line := a % 2 ^ 21 / 256
    match p.live.fill with
    | none => s
    | some l =>
      if l.elem line then s
      else
        let dst := p.live.page * 2 ^ 21 + line * 256
        let s := if whole then s else s.copyLine (s.readPa (a / 256 * 256)) dst (a / 256 * 256)
        s.markFilled n (a / 2 ^ 21) line

/-- Physical address for a write, once the line is ready: the live frame. -/
def State.writePa (s : State) (a : Nat) : Nat :=
  match s.pageAt a with
  | some (_, p) => p.live.page * 2 ^ 21 + a % 2 ^ 21
  | none => a

/-! ### Reads and writes by the address software uses -/

/-- Read n bytes from HBM, granule by granule; `fuel` bounds the granules. -/
def State.hbmReadFrom (s : State) (a n : Nat) : Nat → List (Byte × Bool) × State
  | 0 => ([], s)
  | fuel + 1 =>
    if n = 0 then ([], s)
    else
      let k := if 32 - a % 32 ≤ n then 32 - a % 32 else n
      let (r, s) := s.readGran (s.readPa a) a
      let (rest, s) := s.hbmReadFrom (a + k) (n - k) fuel
      ((((r.data.drop (a % 32)).take k).map fun b => (b, r.poison)) ++ rest, s)

/-- Read n bytes of HBM, each with its granule's poison (R165). -/
def State.hbmBytes (s : State) (a n : Nat) : List (Byte × Bool) × State := s.hbmReadFrom a n (n / 32 + 2)

/-- Write one granule's part of a run. -/
def State.hbmWriteGran (s : State) (a : Nat) (data : List (Byte × Bool)) : State :=
  s.writeGran (s.writePa a) a (a % 32) (plain data) (anyPoison data)

/-- Write bytes of one line, granule by granule. -/
def State.hbmWriteIn (s : State) (a : Nat) (data : List (Byte × Bool)) : Nat → State
  | 0 => s
  | fuel + 1 =>
    match data with
    | [] => s
    | _ :: _ =>
      let k := 32 - a % 32
      (s.hbmWriteGran a (data.take k)).hbmWriteIn (a + k) (data.drop k) fuel

/-- Write a run line by line: first write, line ready, granules (R168, R314). -/
def State.hbmWriteFrom (s : State) (a : Nat) (data : List (Byte × Bool)) : Nat → State
  | 0 => s
  | fuel + 1 =>
    match data with
    | [] => s
    | _ :: _ =>
      let k := 256 - a % 256
      let s := (s.firstWrite a).readyLine a (decide (a % 256 = 0) && decide (256 ≤ data.length))
      (s.hbmWriteIn a (data.take k) 9).hbmWriteFrom (a + k) (data.drop k) fuel

/-- Write bytes to HBM, each with its poison (R168; 13 R314). -/
def State.hbmPut (s : State) (a : Nat) (data : List (Byte × Bool)) : State := s.hbmWriteFrom a data (data.length / 256 + 2)

/-- Does an address lie in a crew's counter window (15 R376)? -/
def State.inWindow (s : State) (a : Nat) : Bool :=
  (iota 0 16).any fun n => s.isSet F.PMC_CREW_permit [n] && decide (a / 2 ^ 15 = s.fld F.PMC_CREW_base [n])

/-- Do the stacks of every line of an extent serve accesses? -/
def State.extentUp (s : State) (a n : Nat) : Bool :=
  (iota (a / 256) (ceilDiv (a % 256 + n) 256)).all fun l => s.stackUp (stackOf (256 * l))

/-- Is a run of addresses populated? -/
def State.populated (s : State) (a n : Nat) : Bool := decide (a + n ≤ s.hbmTop)

/-- Is the address in a STATE page? -/
def State.isState (s : State) (a : Nat) : Bool := (s.pageAt a).isSome

end Sys2Proof.Machine
end

