-- ==== Sys2Proof/Machine/Recess.lean ====
section
/-!
DEFINITION. The recovery shared out (02 R58 to R60, R62): what each background client of HBM would issue next and on which
controller, its share of the controller's slots, and the charge of a slot.
-/
namespace Sys2Proof.Machine

/-! ### Counter dumps, traces and the journal (14 R356; 15 R374, R378) -/

/-- Capacity of the dump ring in sets (15 R374). -/
def State.pmcSets (s : State) : Nat := 2 ^ s.fld F.PMC_RING_LO_log2_size [] / 19008

/-- Place and length in a dump set of its i-th record: the header, one of 128 B per logical core, one of 256 B per I/O die
(15 R374). -/
def pmcRecord (i : Nat) : Nat × Nat :=
  if i = 0 then (0, 64) else if i ≤ 144 then (64 + 128 * (i - 1), 128) else (18496 + 256 * (i - 145), 256)

/-- Address of the next record of the set that is being written. -/
def State.pmcAddr (s : State) : Nat :=
  s.fld F.PMC_RING_LO_base_lo [] * 2 ^ 20 + 2 ^ 32 * s.fld F.PMC_RING_HI_base_hi []
    + (s.reg R.PMC_TAIL []).toNat % s.pmcSets * 19008 + (pmcRecord s.pmc.done).1

/-- Records of a crew's trace ring (15 R378). -/
def State.traceSize (s : State) (n : Nat) : Nat := 2 ^ s.fld F.TRC_CTL_log2_size [n] / 32

/-- Has a crew's trace ring no room? -/
def State.traceFull (s : State) (n : Nat) : Bool :=
  decide (s.traceSize n ≤ (s.reg R.TRC_TAIL [n] - s.reg R.TRC_HEAD [n]).toNat)

/-- Address of the next record of a crew's trace ring. -/
def State.traceAddr (s : State) (n : Nat) : Nat :=
  s.fld F.TRC_CTL_base [n] * 2 ^ 20 + (s.reg R.TRC_TAIL [n]).toNat % s.traceSize n * 32

/-- The next core that holds a record of crew n, in ascending logical order from the core after the last one served. -/
def State.traceCore (s : State) (n : Nat) : Option Nat :=
  let from_ := Map.getD 0 s.pmc.trcNext n
  ((iota from_ (144 - from_)) ++ iota 0 from_).find? fun c =>
    match (s.core c).trc with | r :: _ => decide (r.flags % 16 = n) | [] => false

/-- Base of the journal ring: the 4 MiB below the top 16 MiB of the populated space (14 R356). -/
def State.jnlRing (s : State) : Nat := s.hbmTop - 0x1400000

/-- The oldest journal entry that is not yet in the ring. -/
def State.jnlNext (s : State) : Option JnlEntry := s.cox.jnl.find? fun j => decide (j.num = s.cox.mirrored)

/-- Does a comparison of the umpire wait (R62)? It goes before counter dumps and trace drains. -/
def State.comparing (s : State) : Bool := s.cores.any fun p => !p.2.ump.pend.isEmpty

/-! ### Pages to copy (13 R314) -/

/-- The first line of a page that a frame lacks, ascending. -/
def firstUnfilled (l : List Nat) : Option Nat := (iota 0 8192).find? fun i => !l.elem i

/-- The first of a page's frames, newest first, with a line to fill: its place, the line, the frame that holds it, its
own page. -/
def unfilled : Nat → List Frame → Option (Nat × Nat × Nat × Nat)
  | _, [] => none
  | i, f :: rest =>
    match f.fill, rest with
    | some l, c :: cs =>
      match firstUnfilled l with
      | some k => some (i, k, frameOfLine k c cs, f.page)
      | none => unfilled (i + 1) rest
    | _, _ => unfilled (i + 1) rest

/-- Where the next copy-on-write line of a page is read. -/
def PageSt.cowSource (p : PageSt) : Option Nat :=
  (unfilled 0 (p.live :: p.copies)).map fun x => x.2.2.1 * 2 ^ 21 + 256 * x.2.1

/-! ### Pages of a checkpoint (13 R325, R329, R330) -/

/-- S, the bytes of a crew's on-chip snapshot (13 R320). -/
def State.snapSize (s : State) (n : Nat) : Nat := (s.members n).length * 0x340000 + 0x200000

/-- STATE pages of a crew, ascending. -/
def Crew.statePages (k : Crew) : List Nat := k.pages.map fun p => p.1

/-- Base of a crew's CKPT region. -/
def State.ckptBase (s : State) (n : Nat) : Nat := s.fld F.CHK_CKPT_base [n] * 2 ^ 21

/-- Element size of a shard format (13 R329). -/
def shardSize (fmt : Nat) : Nat :=
  if fmt = 1 then 4 else if fmt = 2 then 2 else if fmt = 3 then 2 else if fmt = 6 then 4 else if fmt = 7 then 8 else 1

/-- A box of a shard header, save entry or restore descriptor: origin and extents of its axes. -/
structure Box where
  off : List Nat
  ext : List Nat
  deriving DecidableEq, Repr

/-- The box in bytes [pos, pos+96) of a record, for a number of axes. -/
def boxAt (b : Bytes) (pos axes : Nat) : Box :=
  { off := (iota 0 axes).map fun i => field b (pos + 8 * i) 8
    ext := (iota 0 axes).map fun i => field b (pos + 48 + 8 * i) 8 }

/-- Elements of a box. -/
def Box.count (x : Box) : Nat := x.ext.foldl (fun a b => a * b) 1

/-- Data bytes of a save entry or shard. -/
def shardBytes (e : Bytes) : Nat := (boxAt e 32 (field e 6 1)).count * shardSize (field e 7 1)

/-- Room of a shard in the image: header and data, to the next 256 B. -/
def shardRoom (e : Bytes) : Nat := ceilDiv (256 + shardBytes e) 256 * 256

/-- Where the shards of a tensor image lie: each entry with the place of its header. -/
def shardPlaces (at0 : Nat) : List Bytes → List (Nat × Bytes)
  | [] => []
  | e :: r => (at0, e) :: shardPlaces (at0 + shardRoom e) r

/-- The pieces of a page that an image holds: source, length, destination. -/
def State.pieces (s : State) (n : Nat) (c : Ckpt) (page : Nat) : List (Nat × Nat × Nat) :=
  let base := s.ckptBase n + 4096
  if c.tensor then
    (shardPlaces base c.shards).filterMap fun p =>
      let src := field p.2 200 8
      let lo := Nat.max src (page * 2 ^ 21)
      let hi := Nat.min (src + shardBytes p.2) ((page + 1) * 2 ^ 21)
      if lo < hi then some (lo, hi - lo, p.1 + 256 + (lo - src)) else none
  else
    [(page * 2 ^ 21, 2 ^ 21,
      base + s.snapSize n + ((s.crew n).statePages.takeWhile fun p => decide (p < page)).length * 2 ^ 21)]

/-- The first line of a page from a given one on that the pieces cover. -/
def coveredFrom (line : Nat) (l : List (Nat × Nat × Nat)) : Option Nat :=
  l.foldl (fun m x =>
    let first := Nat.max line (x.1 % 2 ^ 21 / 256)
    if first * 256 < x.1 % 2 ^ 21 + x.2.1 then some (match m with | some k => Nat.min k first | none => first) else m) none

/-- The frames of a page from the one that holds the value of an epoch on. -/
def framesAt (e : Nat) : List Frame → List Frame
  | [] => []
  | f :: r => if f.eid < e then f :: r else framesAt e r

/-- Physical address of a line of a page's value at an epoch. -/
def epochPa (fs : List Frame) (a : Nat) : Nat :=
  match fs with
  | f :: r => frameOfLine (a % 2 ^ 21 / 256) f r * 2 ^ 21 + a % 2 ^ 21
  | [] => a

/-- The next line that the copy phase of a crew's checkpoint copies: its page, the line, the page's frames at B_c. -/
def State.nextCopy (s : State) (n : Nat) : Option (Nat × Nat × List Frame) :=
  match (s.crew n).ckpt with
  | some c =>
    match c.left with
    | page :: _ =>
      let fs := match Map.find page (s.crew n).pages with | some p => framesAt c.eid (p.live :: p.copies) | none => []
      if c.freezing then none else (coveredFrom c.line (s.pieces n c page)).map fun l => (page, l, fs)
    | [] => none
  | none => none

/-- Where that line is read. -/
def State.copySource (s : State) (n : Nat) : Option Nat :=
  (s.nextCopy n).map fun x => epochPa x.2.2 (x.1 * 2 ^ 21 + 256 * x.2.1)

/-! ### Shares (R59) -/

/-- A client's share of a controller's slots, in 32nds. -/
def State.share (s : State) : Client → Nat
  | .scrub => s.fld F.STK_SHARE_scrub []
  | .cow => s.fld F.STK_SHARE_cow []
  | .pmc => s.fld F.STK_SHARE_pmc []
  | .trace => s.fld F.STK_SHARE_trace []
  | .log => s.fld F.STK_SHARE_log []

/-- The order in which slots are given away. -/
def giveOrder : List Client := [.cow, .trace, .log, .pmc, .scrub]

/-- Has a client something to issue at controller k? A line that is copied counts at the controller that reads it, a record
at the one that its first byte lies on. DESIGN CHOICE (assumption log 26). -/
def State.wants (s : State) (k : Nat) (c : Client) : Bool :=
  s.hbmServed && s.stackUp k &&
  match c with
  | .scrub => s.copyServed
  | .cow => s.copyServed && s.crews.any fun p =>
      (p.2.pages.any fun q => q.2.cowSource.any fun a => decide (stackOf a = k)) || (s.copySource p.1).any fun a => decide (stackOf a = k)
  | .pmc => s.pmc.set.isSome && decide (stackOf s.pmcAddr = k) && !s.comparing
  | .trace => !s.comparing && (iota 0 16).any fun n =>
      s.isSet F.TRC_CTL_enable [n] && (s.traceCore n).isSome && !s.traceFull n && decide (stackOf (s.traceAddr n) = k)
  | .log => s.jnlNext.any fun j => decide (stackOf (s.jnlRing + j.num % 65536 * 64) = k)

/-- A client's slots of a round of 32 at controller k: its share, and for the first in order of those with something to
issue also the slots unallocated or given away. -/
def State.quota (s : State) (k : Nat) (c : Client) : Nat :=
  let want := giveOrder.filter (s.wants k)
  s.share c + if want.head? = some c then 32 - (want.map s.share).foldl (fun a b => a + b) 0 else 0

/-- The slots of the round in progress that a client has left. -/
def State.slotsLeft (s : State) (k : Nat) (c : Client) : Nat :=
  s.quota k c - ((Map.getD [] s.recess.used k).filter fun x => decide (x = c)).length

/-- Has every client with something to issue used its slots, so that a round begins? -/
def State.roundOver (s : State) (k : Nat) : Bool := (giveOrder.filter (s.wants k)).all fun c => decide (s.slotsLeft k c = 0)

/-- Is it a client's turn at controller k (R59)? -/
def State.turn (s : State) (k : Nat) (c : Client) : Bool :=
  s.wants k c && decide (0 < s.quota k c) && (decide (0 < s.slotsLeft k c) || s.roundOver k)

/-- A client issues a request at controller k: the slot is charged. -/
def State.charge (s : State) (k : Nat) (c : Client) : State :=
  let old := if s.roundOver k then [] else Map.getD [] s.recess.used k
  s.setRecess { s.recess with used := Map.setD [] s.recess.used k (c :: old) }

end Sys2Proof.Machine
end

