-- ==== Sys2Proof/Machine/Memory.lean ====
section
/-!
DEFINITION. HBM commands: reads, writes, scrub, refresh, the grain path, the memory-side atomics, BAR4 and the
interface loop-back (07 R165 to R185; 16 R384).
-/
namespace Sys2Proof.Machine

/-! ### Atomic windows (R177 to R183) -/

/-- Base address of a window. -/
def State.winBase (s : State) (w : Nat) : Nat := s.fld F.ATM_WIN_LO_base [w] * 2 ^ 21

/-- Size of a window. -/
def State.winSize (s : State) (w : Nat) : Nat := s.fld F.ATM_WIN_HI_size [w] * 2 ^ 21

/-- Operation code of a window. -/
def State.winOp (s : State) (w : Nat) : Nat := s.fld F.ATM_WIN_HI_op [w]

/-- The windows that an extent touches. -/
def State.windowsOf (s : State) (a n : Nat) : List Nat :=
  (iota 0 64).filter fun w => s.isSet F.ATM_WIN_LO_valid [w] && decide (a < s.winBase w + s.winSize w) && decide (s.winBase w < a + n)

/-- The window that holds an address. -/
def State.windowAt (s : State) (a : Nat) : Option Nat := (s.windowsOf a 1).head?

/-- Element width of an operation (R177). -/
def atomWidth (op : Nat) : Nat :=
  if op = 1 then 2 else if op = 3 ∨ op = 8 ∨ op = 9 ∨ op = 0xB then 8 else 4

/-- Is it a CAS? -/
def isCas (op : Nat) : Bool := decide (op = 0xA) || decide (op = 0xB)

/-- Is a window of this operation ordered under FIXED (R183)? -/
def State.winOrdered (s : State) (w : Nat) : Bool :=
  s.fixed && (decide (s.winOp w ≤ 1) || isCas (s.winOp w))

/-- The new memory element (R177). `x` is the written element; for CAS `x` is the expected and `y` the new value. -/
def atomElem (op m x y : Nat) : Nat :=
  if op = 0 then (add32 (BitVec.ofNat 32 m) (BitVec.ofNat 32 x)).toNat
  else if op = 1 then fBF16.rne ((fBF16.decode m).add (fBF16.decode x))
  else if op = 2 then (m + x) % 2 ^ 32
  else if op = 3 then (m + x) % 2 ^ 64
  else if op = 4 then fFP32.rne ((fFP32.decode m).min (fFP32.decode x))
  else if op = 5 then fFP32.rne ((fFP32.decode m).max (fFP32.decode x))
  else if op = 6 then (if toSigned 32 x < toSigned 32 m then x else m)
  else if op = 7 then (if toSigned 32 m < toSigned 32 x then x else m)
  else if op = 8 then (if toSigned 64 x < toSigned 64 m then x else m)
  else if op = 9 then (if toSigned 64 m < toSigned 64 x then x else m)
  else if m = x then y else m

/-- The new memory bytes: element by element. -/
def atomBytes (op : Nat) : Nat → Bytes → Bytes → Bytes
  | 0, _, _ => []
  | n + 1, mem, x =>
    let w := atomWidth op
    let k := if isCas op then 2 * w else w
    natLe w (atomElem op (leNat (mem.take w)) (leNat (x.take w)) (leNat ((x.drop w).take w)))
      ++ atomBytes op n (mem.drop w) (x.drop k)

/-- Does the atomic unit of a controller hold a granule (R180)? -/
def State.atomHeld (s : State) (pa : Nat) : Bool := (Map.getD [] s.atm (stackOf pa)).elem (pa / 32)

/-- A granule is the one that its controller's unit used last; of more than 256 the one longest unused goes, its write-back
having been counted with its read (R180). Which one goes: DESIGN CHOICE (assumption log 29). -/
def State.atomHold (s : State) (pa : Nat) : State :=
  let l := Map.getD [] s.atm (stackOf pa)
  s.setAtm (Map.setD [] s.atm (stackOf pa) ((pa / 32 :: l.filter fun g => decide (g ≠ pa / 32)).take 256))

/-- One request: update every element of a granule that the data covers (R180, R182), with a read and a write-back of its
pseudo-channel unless the unit holds it. Answers the old bytes, with the granule's poison. -/
def State.atomGran (s : State) (op a : Nat) (data : List (Byte × Bool)) : List (Byte × Bool) × State :=
  let n := if isCas op then data.length / 2 else data.length
  let s := (s.count R.ATM_BYTES_LO [stackOf a / 4] data.length).pmcDie (stackOf a / 4) 0x48 (some (pcOf a % 256))
  let s := (s.firstWrite a).readyLine a false
  let pa := s.writePa a
  let held := s.atomHeld pa
  let (r, s) := if held then (decodeGran (s.granData pa) (s.granSt pa), s) else s.readGran (s.readPa a) a
  let old := (r.data.drop (a % 32)).take n
  let new := atomBytes op (n / atomWidth op) old (plain data)
  let p := r.poison || anyPoison data
  let s := if held then s else s.burst pa true
  let s := ((s.staleWb pa).storeGran pa (r.data.take (a % 32) ++ new ++ r.data.drop (a % 32 + n)) p).atomHold pa
  (old.map fun b => (b, r.poison), s)

/-- A run of requests, granule by granule in ascending address. -/
def State.atomRow (s : State) (op a : Nat) (data : List (Byte × Bool)) : Nat → List (Byte × Bool) × State
  | 0 => ([], s)
  | fuel + 1 =>
    match data with
    | [] => ([], s)
    | _ :: _ =>
      let room := 32 - a % 32
      let k := if isCas op then 2 * room else room
      let (o, s) := s.atomGran op a (data.take k)
      let (rest, s) := s.atomRow op (a + room) (data.drop k) fuel
      (o ++ rest, s)

/-- The result bytes of a row of requests, with the poison of what made each (R182): of the old element and the written
one. -/
def resultPoison (op : Nat) (old data : List (Byte × Bool)) : List (Byte × Bool) :=
  if isCas op then
    let w := atomWidth op
    old.zipIdx.map fun p => (p.1.1, p.1.2 || anyPoison ((data.drop (p.2 / w * (2 * w))).take (2 * w)))
  else (old.zip data).map fun p => (p.1.1, p.1.2 || p.2.2)

/-- The 8 B words of a run at an address that hold a poisoned byte which `is` admits. -/
def wordsWhere (is : Nat → Bool) (a : Nat) (d : List (Byte × Bool)) : Nat :=
  if !anyPoison d then 0
  else (((iota a d.length).zip d).filterMap fun p => if p.2.2 && is p.1 then some (p.1 / 8) else none).eraseReps.length

/-- Poisoned 8 B words of a run at an address. -/
def poisonWordsAt (a : Nat) (d : List (Byte × Bool)) : Nat := wordsWhere (fun _ => true) a d

/-- Poisoned 8 B words of a run that lie in STATE pages (11 R266). -/
def State.stateWords (s : State) (a : Nat) (d : List (Byte × Bool)) : Nat := wordsWhere s.isState a d

/-- Poisoned data written into a STATE page is an irreversible action (11 R266, event 0x0213). -/
def State.stateWritePoison (s : State) (n : Nat) (core : Option Nat) (unit a : Nat) (d : List (Byte × Bool)) : State :=
  let words := s.stateWords a d
  if words = 0 then s
  else
    let f := s.fault0 2 1 0x0213
    let f := match core with | some c => f.atCore s c | none => f
    s.poisonFault n { f with unit := unit, space := 1, addr := a, detail := words }

/-- Has a core of lower index than c a posting for a window (isWin) or a tally (03 R89; R183)? -/
def State.lowerPosts (s : State) (c : Nat) (isWin : Bool) (id : Nat) : Bool :=
  (s.cores.filter fun p => decide (p.1 < c) && decide (s.crewOf p.1 = s.crewOf c)).any fun p =>
    p.2.posts.any fun q => decide (q.1 = isWin) && decide (q.2.1 = id) && decide (0 < q.2.2)

/-- Has core c itself a posting? -/
def State.ownPost (s : State) (c : Nat) (isWin : Bool) (id : Nat) : Bool :=
  (s.core c).posts.any fun q => decide (q.1 = isWin) && decide (q.2.1 = id) && decide (0 < q.2.2)

/-- One posting of a core ends. -/
def State.endPost (s : State) (c : Nat) (isWin : Bool) (id : Nat) : State :=
  s.modCore c fun k => { k with posts := (k.posts.map fun q =>
    if q.1 = isWin ∧ q.2.1 = id then (q.1, q.2.1, q.2.2 - 1) else q).filter fun q => decide (0 < q.2.2) }

/-- Do remote requests of earlier strokes still wait for a window (R183 rule 4)? -/
def State.remoteFirst (s : State) (w : Nat) : Bool :=
  s.aord.any fun r => r.pkg.isSome && decide (r.stroke < s.stk.num) && decide (s.windowAt r.addr = some w)

/-- Do local requests of cores up to c, earlier in the order, still wait for a window (R183)? -/
def State.localFirst (s : State) (c w : Nat) : Bool :=
  s.aord.any fun r => r.pkg.isNone && decide (r.core ≤ c) && decide (s.windowAt r.addr = some w)

/-- Apply one request. The old elements of a CAS go back to the requesting core's DMA engine (R178), as a message: the command
names no source address (assumption log 29). A poisoned result in a STATE page is charged to the crew (11 R266, R270). -/
def State.applyReq (s : State) (r : AReq) : State :=
  match s.windowAt r.addr with
  | some w =>
    let op := s.winOp w
    let data := r.data.map fun b => (b, r.poisoned)
    let (old, s) := s.atomRow op r.addr data 4
    let s := if isCas op && r.pkg.isNone then s.send (.casOld r.core r.addr old) else s
    let res := resultPoison op old data
    match r.link with
    | none => s.stateWritePoison r.crew (some r.core) 0xD r.addr res
    | some l =>
      if s.stateWords r.addr res = 0 then s
      else s.poisonFault r.crew { s.fault0 2 1 0x0213 with
        space := 1, die := dieOfLink l, addr := r.addr, loc := l, detail := s.stateWords r.addr res
        degrade := s.isSet F.LNK_STAT_frozen (lnk48 l) }
  | none => s

/-- Does a core's write of a row into a window break R179? -/
def State.reqBad (s : State) (c w a len : Nat) : Bool :=
  let op := s.winOp w
  let e := atomWidth op
  let n := if isCas op then len / 2 else len
  decide (a < s.winBase w) || decide (s.winBase w + s.winSize w < a + n) || decide (a % e ≠ 0) || decide (n % e ≠ 0)
    || (isCas op && decide (len % (2 * e) ≠ 0)) || (s.winOrdered w && !s.ownPost c true w)

/-- A core's write of a row into a window (R177 to R183): a format error where it breaks R179; an ordered request is applied
when its turn has come, and else held while the controller's buffer of 4,096 has room. -/
def State.requestRow (s : State) (core n w addr : Nat) (poisoned : Bool) (data : Bytes) : State :=
  let r : AReq := { crew := n, core := core, pkg := none, stroke := s.stk.num, addr := addr, poisoned := poisoned, data := data }
  if s.reqBad core w addr data.length || !s.inRange n addr 1 then
    match (s.core core).seq.accept with | some a => s.formatError core a | none => s
  else if s.winOrdered w && (s.lowerPosts core true w || s.remoteFirst w || s.localFirst core w) then
    if (s.aord.filter fun q => decide (stackOf q.addr = stackOf addr)).length < 4096 then s.setAord (s.aord ++ [r]) else s
  else s.applyReq r

/-- ATOMIC_REQUEST (R180, R183): a DMA write of a core into a window, one 32 B request. -/
def execAtomicRequest (core addr : Nat) (poisoned : Bool) (data : List (BitVec 8)) (s : State) :
    Host.Outcome State Fault Refusal :=
  match s.windowAt addr, s.crewOf core with
  | some w, some n => .next (if s.coreWorks core then s.requestRow core n w addr poisoned data else s)
  | _, _ => .next s

/-- Does request p come before q in an ordered window (R183): stroke, then package for remote ones, then core? -/
def AReq.before (p q : AReq) : Bool :=
  decide (p.stroke < q.stroke) || (decide (p.stroke = q.stroke) &&
    (decide (p.pkg.getD 0 < q.pkg.getD 0) || (decide (p.pkg.getD 0 = q.pkg.getD 0) && decide (p.core < q.core))))

/-- The first of a list by that order; the earliest arrived among equals. -/
def firstReq : List AReq → Option AReq
  | [] => none
  | r :: l =>
    match firstReq l with
    | some q => if q.before r then some q else some r
    | none => some r

/-- Take the first equal member out. -/
def takeOut {α : Type} [DecidableEq α] (x : α) : List α → List α
  | [] => []
  | y :: r => if y = x then r else y :: takeOut x r

/-- ORDERED_ATOMIC_APPLY (R183): the unit applies the next held request of a window whose turn has come: remote
requests of earlier strokes first, then local ones whose lower-index posters have ended. -/
def execOrderedAtomicApply (win : Nat) (s : State) : Host.Outcome State Fault Refusal :=
  let here := s.aord.filter fun r => decide (s.windowAt r.addr = some win) && s.works r.crew
  let remote := here.filter fun r => r.pkg.isSome && decide (r.stroke < s.stk.num)
  let local_ := here.filter fun r => r.pkg.isNone && !s.lowerPosts r.core true win
  match firstReq (if remote = [] then local_ else remote) with
  | some r => .next ((s.setAord (takeOut r s.aord)).applyReq r)
  | none => .next s

/-! ### Reads and writes of the controllers -/

/-- Symbol errors of the silicon strike a granule. -/
def State.strikeGran (s : State) (pa : Nat) (errs : List (Nat × Nat)) : State :=
  let g := s.granSt pa
  let e := errs.foldl (fun l p =>
    let old := (Map.find (p.1 % 72) l).getD 0
    Map.setD 0 l (p.1 % 72) (old ^^^ p.2 % 16)) g.errs
  s.setGran (Map.setD {} s.gran (pa / 32) { g with errs := e })

/-- A command-address or write-CRC error that persists after the third retry (R167): UE-F of the pseudo-channel. -/
def State.pcFault (s : State) (a : Nat) : State :=
  s.raiseFault { s.fault0 3 3 0x0312 with
    space := 1, die := dieOfStack (stackOf a), addr := a, loc := pcOf a, detail := pcOf a }

/-- HBM_READ (R165 to R167): a controller reads the granule at an address. `errs`: the errors of the silicon found;
`onDie`: what the stack's own ECC reports (1 corrected, 2 not); `retries`: command errors met. -/
def execHbmRead (addr retries onDie : Nat) (errs : List (Nat × Nat)) (s : State) : Host.Outcome State Fault Refusal :=
  let pa := s.readPa addr
  if !s.populated pa 1 || !s.extentUp pa 1 then .next s
  else if 3 < retries then .next (s.pcFault pa)
  else
    let ix := stk4 (stackOf pa)
    let s := s.strikeGran pa errs
    let s := if onDie = 1 then s.bump F.HBM_ODECC_od_ce ix 1 else if onDie = 2 then s.bump F.HBM_ODECC_od_ue ix 1 else s
    .next (s.readGran pa addr).2

/-- HBM_WRITE (R167 to R169; 13 R314): a write, split into granules. -/
def execHbmWrite (addr retries : Nat) (poisoned : Bool) (data : List (BitVec 8)) (s : State) :
    Host.Outcome State Fault Refusal :=
  if !s.populated addr data.length || !s.extentUp addr data.length then .next s
  else if 3 < retries then .next (s.pcFault (s.writePa addr))
  else
    let d := data.map fun b => (b, poisoned)
    let s := s.hbmPut addr d
    .next (match s.crewAt addr with | some n => s.stateWritePoison n none 0xFF addr d | none => s)

/-- Must a local access to an extent wait for the remote requests of earlier strokes to its windows (R183 rule 4)? -/
def State.remoteHolds (s : State) (a len : Nat) : Bool :=
  decide (s.aord ≠ []) && (s.windowsOf a len).any s.remoteFirst

/-! ### Ranges that are no memory (08 R215; 15 R376) -/

/-- Does an address lie in the collective port of a crew (08 R215)? -/
def State.inPort (s : State) (n a : Nat) : Bool :=
  decide (0 < s.fld F.LNK_COLL_port [n]) && decide (a / 4096 = s.fld F.LNK_COLL_port [n])

/-- Is an address no memory: in a counter window or a collective port? -/
def State.silentAt (s : State) (a : Nat) : Bool := s.inWindow a || (iota 0 16).any fun n => s.inPort n a

/-- Does an extent meet a counter window or a collective port? -/
def State.silentIn (s : State) (a len : Nat) : Bool :=
  (iota 0 16).any fun n =>
    (s.isSet F.PMC_CREW_permit [n] && decide (a / 2 ^ 15 ≤ s.fld F.PMC_CREW_base [n])
      && decide (s.fld F.PMC_CREW_base [n] * 2 ^ 15 < a + len))
    || (decide (0 < s.fld F.LNK_COLL_port [n]) && decide (a / 4096 ≤ s.fld F.LNK_COLL_port [n])
      && decide (s.fld F.LNK_COLL_port [n] * 4096 < a + len))

/-- The runs of a write whose bytes are not silent, each with its address. -/
def loudRuns (silent : Nat → Bool) (a : Nat) : List (Byte × Bool) → List (Nat × List (Byte × Bool))
  | [] => []
  | x :: r =>
    let rest := loudRuns silent (a + 1) r
    if silent a then rest
    else
      match rest with
      | (b, d) :: t => if b = a + 1 then (a, x :: d) :: t else (a, [x]) :: rest
      | [] => [(a, [x])]

/-- Write bytes to HBM, but for those that fall in a counter window, which are discarded (15 R376), or in a collective port,
which go to the reduction units (08 R215): only a COPY of one descriptor starts anything there, so other writes to the port
have no effect: DESIGN CHOICE (assumption log 30). -/
def State.hbmStore (s : State) (a : Nat) (data : List (Byte × Bool)) : State :=
  if s.silentIn a data.length then s.each (loudRuns s.silentAt a data) fun s p => s.hbmPut p.1 p.2 else s.hbmPut a data

/-- Read bytes of HBM: a port reads 0 (08 R215), and a byte of a counter window what `w` gives (15 R376). -/
def State.hbmLoad (s : State) (w : Nat → Byte) (a len : Nat) : List (Byte × Bool) × State :=
  if !s.silentIn a len then s.hbmBytes a len
  else
    let r := if (iota a len).all s.silentAt then (clean (List.replicate len 0), s) else s.hbmBytes a len
    (r.1.zipIdx.map fun p =>
      if s.inWindow (a + p.2) then (w (a + p.2), false) else if s.silentAt (a + p.2) then (0, false) else p.1, r.2)

/-- GRAIN_READ (R176): one granule to a core, LATENCY class. -/
def execGrainRead (core addr : Nat) (s : State) : Host.Outcome State Fault Refusal :=
  if s.coreWorks core && s.populated addr 1 && !s.remoteHolds (addr / 32 * 32) 32 then
    let die := stackOf addr / 4
    .next (((s.count R.GRN_BYTES_RD_LO [die] 32).nocIn core die 32).readGran (s.readPa addr) addr).2
  else .next s

/-- GRAIN_WRITE (R176): written directly when it covers the granule, else merged (R168); a row into an atomic window goes by
its operation (R177), and one that lies partly in a window is a format error (R179). -/
def execGrainWrite (core addr : Nat) (poisoned : Bool) (data : List (BitVec 8)) (s : State) :
    Host.Outcome State Fault Refusal :=
  if s.coreWorks core && decide (addr % 32 + data.length ≤ 32) && s.populated addr data.length then
    let die := stackOf addr / 4
    let s := (s.count R.GRN_BYTES_WR_LO [die] data.length).nocOut core die data.length
    let d := data.map fun b => (b, poisoned)
    match s.crewOf core, s.windowAt addr with
    | some n, some w => .next (s.requestRow core n w addr poisoned data)
    | some n, none =>
      if s.windowsOf addr data.length = [] then .next ((s.hbmStore addr d).stateWritePoison n (some core) 0xD addr d)
      else .next (match (s.core core).seq.accept with | some a => s.formatError core a | none => s)
    | none, _ => .next s
  else .next s

/-- HBM_WRITEBACK (R172, R173; 02 R59): in a recovery, on the scrub client's turn, the oldest queued write-back of a stack is
performed, or dropped if a write was accepted since. -/
def execHbmWriteback (stack : Nat) (s : State) : Host.Outcome State Fault Refusal :=
  match Map.getD [] s.wbq stack with
  | [] => .next s
  | w :: rest =>
    if !s.turn stack .scrub then .next s
    else
      let t := (s.charge stack .scrub).setWbq (Map.setD [] s.wbq stack rest)
      if w.stale then .next (t.raiseBit F.HBM_ECC_wb_dropped (stk4 stack))
      else
        let r := decodeGran (s.granData (32 * w.gran)) (s.granSt (32 * w.gran))
        .next (t.putGran (32 * w.gran) r.data (w.poisoning || r.poison))

/-- A controller reads the eight granules of its next line under R165, and its pointer moves on (R173). `errs`: errors of the
silicon found, as granule 0 to 7, symbol, pattern. -/
def State.scrubLine (s : State) (stack : Nat) (errs : List (Nat × Nat × Nat)) : State :=
  let i := s.fld F.HBM_SCRUB_next_line (stk4 stack)
  let a := stackLine stack i
  let s := s.pmcDie (stack / 4) 0x49 (some (stack % 4))
  let s := s.each (iota 0 8) fun s g =>
    let s := s.strikeGran (a + 32 * g) ((errs.filter fun e => decide (e.1 = g)).map fun e => e.2)
    (s.readGran (a + 32 * g) (a + 32 * g)).2
  s.setFld F.HBM_SCRUB_next_line (stk4 stack) (if i + 1 < s.stackLines then i + 1 else 0)

/-- Is a stack's floor line of this recovery still to issue (02 R60)? -/
def State.floorDue (s : State) (stack : Nat) : Bool := s.copyServed && s.stackUp stack && !s.recess.floor.elem stack

/-- The floor line of a stack issues, whatever the shares (02 R60). -/
def State.floorLine (s : State) (stack : Nat) (errs : List (Nat × Nat × Nat)) : State :=
  (s.setRecess { s.recess with floor := stack :: s.recess.floor }).scrubLine stack errs

/-- SCRUB_LINE (R172, R173; 02 R59, R60): in a recovery the first line of a stack is its floor line; a further one issues on
the scrub client's turn, once no write-back waits. -/
def execScrubLine (stack : Nat) (errs : List (Nat × Nat × Nat)) (s : State) : Host.Outcome State Fault Refusal :=
  if s.floorDue stack then .next (s.floorLine stack errs)
  else if s.turn stack .scrub && (Map.getD [] s.wbq stack).isEmpty then .next ((s.charge stack .scrub).scrubLine stack errs)
  else .next s

/-- The floor lines that a recovery still owes when it ends (02 R60). -/
def State.floorLines (s : State) : State := s.each ((iota 0 8).filter s.floorDue) fun s k => s.floorLine k []

/-- REFRESH (R175): refresh changes no result. -/
def execHbmRefresh (_pc : Nat) (s : State) : Host.Outcome State Fault Refusal := .next s

/-- HBM_TEMP_CHANGE (R175): above 85 °C tREFI is halved, at 83 °C or below it is restored. -/
def execHbmTempChange (stack temp : Nat) (s : State) : Host.Outcome State Fault Refusal :=
  let s := s.setFld F.HBM_STAT_temp (stk4 stack) temp
  .next (if 85 < temp then s.liveBit F.HBM_STAT_hot (stk4 stack) true
    else if temp ≤ 83 then s.liveBit F.HBM_STAT_hot (stk4 stack) false else s)

/-! ### BAR4 (16 R384) -/

/-- The HBM address of a BAR4 offset. -/
def State.bar4Addr (s : State) (off : Nat) : Nat := s.fld F.PCI_BAR4_base_gib [] * 2 ^ 30 + off

/-- Count an access to an unpopulated address (R163). -/
def State.voidAccess (s : State) : State := (s.bump F.HBM_VOID_count [] 1).raiseBit F.HBM_VOID_hist []

/-- BAR4_READ (16 R384; R163; 01 R35); a counter window and a collective port read 0 (15 R376; 08 R215). -/
def execBar4Read (off len : Nat) (s : State) : Host.Outcome State Fault Refusal :=
  if s.inEasy || s.inReset then .next (s.stray.giveHost (List.replicate len 0xFF) false)
  else if !s.populated (s.bar4Addr off) len then .next (s.voidAccess.giveHost (List.replicate len 0xFF) false)
  else if !s.extentUp (s.bar4Addr off) len then .next s
  else
    let r := s.hbmLoad (fun _ => 0) (s.bar4Addr off) len
    .next (r.2.giveHost (plain r.1) (anyPoison r.1))

/-- BAR4_WRITE (16 R384; R163, R177; 01 R35); what falls in a counter window is discarded (15 R376), and a collective port is
not memory (08 R215). -/
def execBar4Write (off : Nat) (data : List (BitVec 8)) (s : State) : Host.Outcome State Fault Refusal :=
  let s := s.fromHost data.length
  if s.inEasy || s.inReset then .next s.stray
  else if !s.populated (s.bar4Addr off) data.length then .next s.voidAccess
  else if !s.extentUp (s.bar4Addr off) data.length then .next s
  else .next (s.hbmStore (s.bar4Addr off) (clean data))

/-! ### Interface loop-back (R185) -/

/-- The code of the pin rate of the mode in force (07, HBM_STAT). -/
def State.pinRate (s : State) : Nat := if s.fld F.GLB_MODE_current [] = 2 then 1 else 0

end Sys2Proof.Machine
end

