-- ==== Sys2Proof/Machine/Tally.lean ====
section
/-!
DEFINITION. Tallies: waits, the tally operations of a core, and what FIXED makes them observe (03 R84 to R90).
-/
namespace Sys2Proof.Machine

/-! ### Fields of a tally word (R69) -/

/-- Operation of a tally word. -/
def talOp (w : CmdWord) : Nat := wbits w 235 232

/-- Tally number. -/
def talNum (w : CmdWord) : Nat := wbits w 212 199

/-- Addend, threshold or new value. -/
def talValue (w : CmdWord) : Word := BitVec.ofNat 32 (wbits w 190 159)

/-- Unit code of a command word (R68). -/
def unitOf (w : CmdWord) : Nat := wbits w 239 236

/-- Context of an issued command word. -/
def ctxOf (w : CmdWord) : Nat := wbits w 251 240

/-! ### Waits (R66, R67, R85, R86) -/

/-- Is a tally allocated to a crew (R84)? -/
def State.tallyOf (s : State) (n t : Nat) : Bool := (s.tally t).allocated && decide ((s.tally t).crew = n)

/-- Does the comparison of a wait hold (R86)? -/
def State.holds (s : State) (w : Wait) : Bool := decide (0 ≤ serial32 (s.tally w.tally).value w.value)

/-- Tags of a unit's commands that have not started. -/
def Core.unstarted (k : Core) (u : Nat) : List Nat :=
  let l := if u < 12 then (Map.getD {} k.eng u).q else if u = 0xC then k.vecq else if u = 0xD then k.dmaq else []
  (l.filter fun q => !q.started).map fun q => q.tag

/-- Is a WAIT_GE the current command of every unit it names: has each started all its earlier commands (R67)? -/
def Core.current (k : Core) (w : UWait) : Bool :=
  (iota 0 14).all fun u => !namesUnit w.unit u || (k.unstarted u).all fun t => decide (w.cmd.tag < t)

/-- What becomes of a held WAIT_GE: it begins when it is current, and is gone once begun and satisfied. -/
def State.settleWait (s : State) (k : Core) (w : UWait) : Option UWait :=
  if w.wait.begun || k.current w then
    if s.holds w.wait then none
    else if w.wait.begun then some w
    else some { w with wait := { w.wait with begun := true, w := s.stk.num, since := s.raw } }
  else some w

/-- Latch the satisfaction of a header wait that has begun. -/
def State.latchWait (s : State) (w : Wait) : Wait := if w.begun && !w.expired && s.holds w then { w with sat := true } else w

/-- Let go of what a core's waits and FENCEs no longer hold (R85, R90 rule 4). -/
def State.settleCore (s : State) (c : Nat) : State :=
  let k := s.core c
  if k.waits = [] ∧ k.fences = [] ∧ k.seq.waits = none then s
  else
    let gone := (k.waits.filter fun w => (s.settleWait k w).isNone).map fun w => w.cmd
    let past := k.fences.filter fun f => k.fencePast f.tag
    let s := s.modCore c fun k => { k with
      waits := k.waits.filterMap fun w => s.settleWait k w
      fences := k.fences.filter fun f => !k.fencePast f.tag
      seq := { k.seq with waits := k.seq.waits.map fun l => l.map s.latchWait } }
    s.each (gone ++ past) fun s q => s.traceEnd c 0 0 q

/-- Let go of waits of every core. -/
def State.settleAll (s : State) : State := s.each (s.cores.map fun p => p.1) fun s c => s.settleCore c

/-- Give a tally a value and release the waiters it satisfies (R85). -/
def State.putTally (s : State) (t : Nat) (v : Word) : State := (s.modTally t fun x => { x with value := v }).settleAll

/-! ### Tally operations of a core (R84, R85, R89) -/

/-- What a READ or condition of core c observes: the value; under FIXED without the ADDs of higher cores in this stroke
(R89 rule 1; remote ADDs of the stroke are held). -/
def State.observed (s : State) (c t : Nat) : Word :=
  if s.fixed then
    (s.cores.filter fun p => decide (c < p.1)).foldl (fun v p => v - Map.getD 0 p.2.added t) (s.tally t).value
  else (s.tally t).value

/-- Perform a local ADD of core c (R84, R85); under FIXED its posting ends (R89 rule 2). -/
def State.localAdd (s : State) (c n : Nat) (q : QCmd) : State :=
  let t := talNum q.word
  let s := s.endPost c false t
  if s.tallyOf n t then
    let s := s.modCore c fun k => { k with added := Map.setD 0 k.added t (Map.getD 0 k.added t + talValue q.word) }
    s.putTally t ((s.tally t).value + talValue q.word)
  else s.launchStatus n q.accept 7

/-- Perform a SET of core c: at once, or under FIXED at the next boundary (R85, R89 rule 3). -/
def State.localSet (s : State) (c n : Nat) (q : QCmd) : State :=
  let t := talNum q.word
  let mine := s.tallyOf n t
  let priv := (s.ctx (ctxOf q.word)).privileged
  let s := if mine then s else s.launchStatus n q.accept 7
  let s := if priv then s else s.launchStatus n q.accept 3
  if !mine || !priv then s
  else if s.fixed then
    s.setTabSets (s.tabSets ++ [{ isSet := true, tally := t, value := talValue q.word, core := c }])
  else s.putTally t (talValue q.word)

/-- Must a READ or condition of core c on a tally wait under FIXED (R89 rule 2)? -/
def State.mustWait (s : State) (c t : Nat) : Bool := s.fixed && s.lowerPosts c false t

/-- Perform a READ of core c: the value goes to core store at dst (R85). -/
def State.localRead (s : State) (c n : Nat) (q : QCmd) : State :=
  let t := talNum q.word
  if s.tallyOf n t then s.storeWrite c (wbits q.word 158 137) (clean (natLe 4 (s.observed c t).toNat))
  else s.launchStatus n q.accept 7

/-- A core's tally operations go one at a time in command order (R90 rule 5): the head leaves, with its END. -/
def State.nextTally (s : State) (c : Nat) (q : QCmd) : State :=
  ((s.modCore c fun k => { k with tq := k.tq.tail }).traceEnd c 0 0 q).settleCore c

/-- SET (R85): the oldest tally operation of a core, if it is a SET. -/
def execTallySetCmd (core : Nat) (s : State) : Host.Outcome State Fault Refusal :=
  match (s.core core).tq, s.crewOf core with
  | q :: _, some n =>
    if talOp q.word = 2 ∧ s.coreWorks core then .next ((s.localSet core n q).nextTally core q) else .next s
  | _, _ => .next s

/-- READ (R85): the oldest tally operation of a core, if it is a READ and FIXED does not make it wait. -/
def execTallyReadCmd (core : Nat) (s : State) : Host.Outcome State Fault Refusal :=
  match (s.core core).tq, s.crewOf core with
  | q :: _, some n =>
    if talOp q.word = 3 ∧ s.coreWorks core ∧ s.mustWait core (talNum q.word) = false then
      .next ((s.localRead core n q).nextTally core q)
    else .next s
  | _, _ => .next s

end Sys2Proof.Machine
end

