-- ==== Sys2Proof/Machine/Flags.lean ====
section
/-!
DEFINITION. Status fields computed from the state of a DMA engine and of a sequencer (03 SEQ_STATUS; 06 DMA_STATUS).
-/
namespace Sys2Proof.Machine

/-- Show a DMA engine in DMA_STATUS. -/
def State.showDma (s : State) (c : Nat) : State :=
  let q := (s.core c).dmaq
  let act := q.filter fun x => x.started
  let st := if s.dumpFrozen c 0xD then 3 else if q = [] then 0 else if s.pausedUnit c then 2 else 1
  let s := ((s.setFld F.DMA_STATUS_state [c] st).setFld F.DMA_STATUS_held [c] q.length).setFld F.DMA_STATUS_active [c] act.length
  let s := s.liveBit F.DMA_STATUS_ring_wait [c]
    (act.any fun x => decide (wbits x.word 235 232 = 3) && !s.ringRoom c (wbits x.word 5 3))
  let s := s.liveBit F.DMA_STATUS_poison [c] (act.any fun x => x.poison)
  s.setFld F.DMA_STATUS_rows_done [c] (match act with | x :: _ => x.rows | [] => 0)

/-- The strokes of run-ahead in force: `ahead` is the stroke of the last entry looked at (R81, R83). -/
def Seq.aheadBy (q : Seq) (now : Nat) : Nat := Nat.min (q.ahead - now) 4

/-- Show a sequencer in SEQ_STATUS (R65, R81, R83): frozen by a dump, waiting on header waits or an argument block, issuing,
or idle. -/
def State.showSeq (s : State) (c : Nat) : State :=
  let q := (s.core c).seq
  let st := if s.dumpFrozen c 0xE then 3 else if q.accept.isNone || q.ended then 0
    else if (match q.waits with | some l => l.any fun w => !w.sat && !w.expired | none => false) || !q.argLanded then 2 else 1
  let s := (s.setFld F.SEQ_STATUS_state [c] st).setFld F.SEQ_STATUS_entry [c] (q.pos % 8192)
  (s.setFld F.SEQ_STATUS_ahead [c] (q.aheadBy s.stk.num)).liveBit F.SEQ_STATUS_spec [c] (decide (q.specs ≠ []))

end Sys2Proof.Machine
end

