-- ==== Sys2Proof/Machine/Servo.lean ====
section
/-!
DEFINITION. Fabric time: the servo, its sources and states, exchanges over links, timestamp queues and captures (09 R217 to
R232).
-/
namespace Sys2Proof.Machine

/-! ### Servo states (R227) -/

/-- The servo state in TIM_STAT. -/
def State.servo (s : State) : Nat := s.fld F.TIM_STAT_state []

/-- The servo enters a state; locked follows it, and its fall is recorded (R227; 14 R350). -/
def State.servoState (s : State) (st : Nat) : State :=
  let was := s.isSet F.TIM_STAT_locked []
  let on := decide (st = 0) || decide (st = 2) || decide (st = 3)
  let s := (s.setFld F.TIM_STAT_state [] st).liveBit F.TIM_STAT_locked [] on
  let s := s.liveBit F.STK_CTL_time_locked [] on
  if was && !on then
    let source := if s.isSet F.TIM_STAT_on_secondary [] then s.fld F.TIM_SRC_secondary [] else s.fld F.TIM_SRC_primary []
    (s.raiseBit F.TIM_STAT_unlock_hist []).trigger {
      cls := 3, body := natLe 4 (s.reg R.TIM_THETA []).toNat ++ natLe 1 source ++ natLe 1 st }
  else s

/-- 2^(20 + rate_lim), the rate limit (R226). -/
def State.rateLim (s : State) : Int := 2 ^ (20 + s.fld F.TIM_SERVO_rate_lim [])

/-- Put an integer between two others. -/
def clamp (lo hi x : Int) : Int := if x < lo then lo else if hi < x then hi else x

/-- Set the rate and show whether it is at its limit. -/
def State.steer (s : State) (rate : Int) : State :=
  (s.setRate rate).liveBit F.TIM_STAT_slewing [] (decide (rate = s.rateLim) || decide (rate = -s.rateLim))

/-- A forward step of fabric time (R219). -/
def State.stepForward (s : State) (by_ : Int) : State :=
  (s.setTim { s.tim with offset := fromSigned 96 (Int.ofNat s.tim.offset + by_) }).raiseBit F.TIM_STAT_step_hist []

/-- TIM_SRC is set, by the rig or by firmware (R221, R227): none as primary makes a root; another value than before starts
to acquire. -/
def State.setSource (s : State) (v : Word) : State :=
  let same := decide (s.reg R.TIM_SRC [] = v)
  let s := s.setReg R.TIM_SRC [] v
  if s.fld F.TIM_SRC_primary [] = 0x7F then
    let s := (s.setRate 0).liveBit F.TIM_STAT_slewing [] false
    ((s.liveBit F.TIM_STAT_on_secondary [] false).setFld F.TIM_STAT_hops [] 0).servoState 0
  else if same && decide (s.servo ≠ 0) then s
  else
    let s := s.setTim { s.tim with
      dHist := [], rebuilt := [], lockRun := 0, lastAcc1 := none, lastAcc2 := none, lastAny := s.raw, sync1 := 0, sync2 := 0 }
    ((s.liveBit F.TIM_STAT_on_secondary [] false).setFld F.TIM_STAT_hops [] 0xF).servoState 1

/-! ### The servo (R226) -/

/-- One servo update; θ in units of 2^-32 ns, the interval in ns (R226). -/
def State.servoUpdate (s : State) (theta interval : Int) : State :=
  if s.isSet F.TIM_SERVO_step_en [] && s.rig.inForce.isNone && decide (theta < -(1000 * 2 ^ 32)) then s.stepForward (-theta)
  else
    let e := clamp (-(2 ^ 31)) (2 ^ 31 - 1) (theta * 2 ^ 8 / interval)
    let integ := clamp (-s.rateLim) s.rateLim (s.tim.integ + e / 2 ^ s.fld F.TIM_SERVO_ki_shift [])
    let s := s.setTim { s.tim with integ := integ }
    s.steer (clamp (-s.rateLim) s.rateLim (-(e / 2 ^ s.fld F.TIM_SERVO_kp_shift [] + integ)))

/-- The servo state after an accepted measurement of the source in use (table Servo states). -/
def State.servoJudge (s : State) (theta : Int) : State :=
  let mag := if theta < 0 then -theta else theta
  let lock : Int := Int.ofNat (s.fld F.TIM_SERVO_lock_ns []) * 2 ^ 32
  match s.servo with
  | 1 =>
    if mag ≤ lock then
      if 7 ≤ s.tim.lockRun then (s.setTim { s.tim with lockRun := 0 }).servoState 2
      else s.setTim { s.tim with lockRun := s.tim.lockRun + 1 }
    else s.setTim { s.tim with lockRun := 0 }
  | 2 => if 8 * lock < mag then (s.setTim { s.tim with lockRun := 0 }).servoState 1 else s
  | 3 => s.servoState (if mag ≤ lock then 2 else 1)
  | 4 => s.servoState (if mag ≤ lock then 2 else 1)
  | _ => s

/-- Is the source the one in use? -/
def State.inUse (s : State) (secondary : Bool) : Bool := s.isSet F.TIM_STAT_on_secondary [] == secondary

/-- A change of the source in use keeps integ and clears d_min (R223, R227). -/
def State.useSource (s : State) (secondary : Bool) : State :=
  (s.setTim { s.tim with dHist := [], rebuilt := [] }).liveBit F.TIM_STAT_on_secondary [] secondary

/-- An accepted measurement of a source (R226, R227): counted and shown; one of the source in use steers, and in HOLDOVER
and LOST one of the other source brings that source into use. -/
def State.accept (s : State) (secondary : Bool) (theta interval : Int) (hops : Option Nat) : State :=
  let s := (s.wrap F.TIM_STAT_accepted [] 1).setReg R.TIM_THETA []
    (BitVec.ofNat 32 (fromSigned 32 (clamp (-(2 ^ 31)) (2 ^ 31 - 1) (theta / 2 ^ 24))))
  let s := s.setTim { s.tim with
    lastAny := s.raw
    lastAcc1 := if secondary then s.tim.lastAcc1 else some s.raw
    lastAcc2 := if secondary then some s.raw else s.tim.lastAcc2 }
  let s := if !s.inUse secondary && (decide (s.servo = 3) || decide (s.servo = 4)) then s.useSource secondary else s
  if s.inUse secondary && decide (s.servo ≠ 0) then
    let s := match hops with | some h => s.setFld F.TIM_STAT_hops [] (Nat.min (h + 1) 15) | none => s
    (s.servoUpdate theta interval).servoJudge theta
  else s

/-! ### Exchanges over links (R222, R223) -/

/-- The code of a source. -/
def State.sourceCode (s : State) (secondary : Bool) : Nat :=
  if secondary then s.fld F.TIM_SRC_secondary [] else s.fld F.TIM_SRC_primary []

/-- The exchange interval in ns. -/
def State.interval (s : State) : Nat := 1000 * 2 ^ s.fld F.TIM_SRC_interval []

/-- Is a link at x2? -/
def State.atX2 (s : State) (l : Nat) : Bool := decide (s.linkState l = 2)

/-- Fabric time at the ball: the commands name raw ticks, and where in its tick a flit's first bit stands, to one lane symbol of
18.82 ps, is a free value (R222; assumption log 20). -/
def State.ballTime (s : State) : Nat × State := let (v, s) := s.fresh; (s.fabric + v % 53 * 80831284, s)

/-- A time in a TIME flit: u64 ns, then u32 fraction. -/
def stampBytes (t : Nat) : Bytes := natLe 8 (t / 2 ^ 32) ++ natLe 4 (t % 2 ^ 32)

/-- The 128 bytes of a TIME flit (R190, R192, R222); `req`: a TIME_REQ, in which t2 and t3 are 0. -/
def timeFlitOf (b : TimeBody) (req : Bool) (stroke : Nat) : Bytes :=
  let m := natLe 8 (2 * 2 ^ 62 + 5 * 2 ^ 12 + stroke % 256 * 2 ^ 4 + 8) ++ natLe 1 (if req then 1 else 2)
    ++ natLe 1 (if b.locked then 1 else 0) ++ natLe 2 b.exchId.toNat ++ natLe 1 b.domain.toNat ++ natLe 1 b.hops.toNat ++ natLe 2 0
    ++ stampBytes b.t1 ++ stampBytes b.t2 ++ stampBytes b.t3 ++ List.replicate 68 0
  m ++ natLe 4 (crc32 m).toNat ++ natLe 4 0

/-- The content of a TIME flit (table TIME flit body); the link width it came at is the link's. -/
def timeBodyOf (flit : Bytes) (x2 : Bool) : TimeBody :=
  let stamp := fun (o : Nat) => field flit o 8 * 2 ^ 32 + field flit (o + 8) 4
  { locked := decide (field flit 9 1 % 2 = 1), exchId := BitVec.ofNat 16 (field flit 10 2), domain := BitVec.ofNat 8 (field flit 12 1)
    hops := BitVec.ofNat 8 (field flit 13 1), t1 := stamp 16, t2 := stamp 28, t3 := stamp 40, x2 := x2 }

/-- TIME_REQ_SEND (R222): the child sends a TIME_REQ on a source link in service. -/
def execTimeReqSend (secondary : Bool) (t : Nat) (s : State) : Host.Outcome State Fault Refusal :=
  let s := s.advance t
  let l := s.sourceCode secondary
  if decide (96 ≤ l) || !s.linkUp l || decide (s.servo = 0) then .next s
  else
    let (now, s) := s.ballTime
    let b : TimeBody := {
      locked := false
      exchId := BitVec.ofNat 16 s.tim.exchId
      domain := BitVec.ofNat 8 (s.fld F.TIM_SRC_domain [])
      hops := 0
      t1 := now
      t2 := 0
      t3 := 0
      x2 := s.atX2 l }
    let s := s.setTim { s.tim with
      exch := s.tim.exch ++ [(l, s.tim.exchId, now, s.atX2 l)]
      exchId := (s.tim.exchId + 1) % 2 ^ 16 }
    .next ((s.count R.LNK_BYTES_TX_LO [l / 48, l % 48] 128).send (.timeReq l b (timeFlitOf b true s.stk.num)))

/-- A partner's request on a link in service is answered (R222): within 1 µs, and when exactly is open (assumption log 20). -/
def State.answerTime (s : State) (link : Nat) (body : TimeBody) : State :=
  if s.linkUp link then
    let (now, s) := s.ballTime
    let (v, s) := s.fresh
    let b : TimeBody := {
      locked := s.locked
      exchId := body.exchId
      domain := BitVec.ofNat 8 (s.fld F.TIM_SRC_domain [])
      hops := BitVec.ofNat 8 (s.fld F.TIM_STAT_hops [])
      t1 := body.t1
      t2 := now
      t3 := now + v % (1000 * 2 ^ 32 + 1)
      x2 := s.atX2 link }
    (s.count R.LNK_BYTES_TX_LO [link / 48, link % 48] 128).send (.timeResp link b (timeFlitOf b false s.stk.num))
  else s

/-- TIME_REQ (R222). -/
def execTimeReq (link t : Nat) (body : TimeBody) (s : State) : Host.Outcome State Fault Refusal :=
  .next ((s.advance t).answerTime link body)

/-- The least of the delays of a link's last accepted exchanges. -/
def minOf : List Int → Option Int
  | [] => none
  | x :: r => match minOf r with | some y => some (if x ≤ y then x else y) | none => some x

/-- Is a source code named as primary (false) or secondary (true)? -/
def State.sourceOf (s : State) (l : Nat) : Option Bool :=
  if s.fld F.TIM_SRC_primary [] = l then some false else if s.fld F.TIM_SRC_secondary [] = l then some true else none

/-- A change of a link's width clears its d_min, and 4 exchanges rebuild it (R223). -/
def State.clearDMin (s : State) (l : Nat) : State :=
  s.setTim { s.tim with dHist := Map.erase l s.tim.dHist, rebuilt := Map.erase l s.tim.rebuilt }

/-- θ of an exchange from t1 to t4 and the asymmetry, and its d (R223). -/
def exchangeOf (t1 t2 t3 t4 asym : Int) : Int × Int := (((t4 - t3) - (t2 - t1) + asym) / 2, ((t4 - t3) + (t2 - t1)) / 2)

/-- A response to an open exchange: θ and d; discarded, taken to rebuild d_min, or accepted (R223). -/
def State.takeTime (s : State) (link : Nat) (body : TimeBody) : State :=
  let mine := fun (e : Nat × Nat × Nat × Bool) => decide (e.1 = link) && decide (e.2.1 = body.exchId.toNat)
  match s.tim.exch.find? mine, s.sourceOf link with
  | some e, some secondary =>
    let s := s.setTim { s.tim with exch := s.tim.exch.filter fun x => !mine x }
    let (now, s) := s.ballTime
    let asym := toSigned 32 (s.reg R.TIM_ASYM [link]).toNat * 2 ^ 24
    let (theta, d) := exchangeOf (Int.ofNat e.2.2.1) (Int.ofNat body.t2) (Int.ofNat body.t3) (Int.ofNat now) asym
    let wide := e.2.2.2
    if e.2.2.1 + 10000 * 2 ^ 32 < now ∨ body.domain.toNat ≠ s.fld F.TIM_SRC_domain [] ∨ body.locked = false ∨ body.x2 ≠ wide then s
    else
      let changed := match Map.find link s.tim.width with | some w => w != wide | none => false
      let s := (if changed then s.clearDMin link else s)
      let s := s.setTim { s.tim with width := Map.insert link wide s.tim.width }
      let hist := Map.getD [] s.tim.dHist link
      let n := Map.getD 0 s.tim.rebuilt link
      let gate : Int := Int.ofNat (s.fld F.TIM_SERVO_delay_gate []) * 2 ^ 32
      let keep := s.setTim { s.tim with
        dHist := Map.setD [] s.tim.dHist link ((d :: hist).take 16)
        rebuilt := Map.setD 0 s.tim.rebuilt link (n + 1) }
      if n < 4 then keep
      else if (match minOf hist with | some m => decide (m + gate < d) | none => false) then s
      else
        let shown := Int.toNat (clamp 0 (2 ^ 32 - 1) (d / 2 ^ 24))
        (keep.setReg R.TIM_DELAY [] (BitVec.ofNat 32 shown)).accept secondary theta (Int.ofNat s.interval) (some body.hops.toNat)
  | _, _ => s

/-- TIME_RESP (R223). -/
def execTimeResp (link t : Nat) (body : TimeBody) (s : State) : Host.Outcome State Fault Refusal :=
  .next ((s.advance t).takeTime link body)

/-- A TIME flit in bytes: a request is answered, a response taken (R222). -/
def State.timeFlit (s : State) (link : Nat) (flit : Bytes) : State :=
  let body := timeBodyOf flit (s.atX2 link)
  let kind := field flit 8 1
  if kind = 1 then s.answerTime link body else if kind = 2 then s.takeTime link body else s

/-- EXCHANGE_ABANDON (R222): 10 µs after t1 an exchange without its TIME_RESP is given up. -/
def execExchangeAbandon (link t : Nat) (s : State) : Host.Outcome State Fault Refusal :=
  let s := s.advance t
  let old := fun (e : Nat × Nat × Nat × Bool) => decide (e.1 = link) && decide (e.2.2.1 + 10000 * 2 ^ 32 ≤ s.fabric)
  .next (s.setTim { s.tim with exch := s.tim.exch.filter fun e => !old e })

/-- The interval of a source, ns: that of the exchanges, or for PTP the Sync interval last named (R227). -/
def State.sourceInterval (s : State) (secondary : Bool) : Nat :=
  let sync := if secondary then s.tim.sync2 else s.tim.sync1
  if 0x60 ≤ s.sourceCode secondary ∧ sync ≠ 0 then sync else s.interval

/-- SOURCE_SILENCE (R227): 8 intervals without an accepted measurement from the source in use: the servo moves to the other
source where that one has given one within its last 8 intervals, else it holds over, from LOCKED or from ACQUIRE. An ACQUIRE to which
the source in use has given no measurement stays: DEDUCED (assumption log 36). -/
def execSourceSilence (t : Nat) (s : State) : Host.Outcome State Fault Refusal :=
  let s := s.advance t
  let span := fun (sec : Bool) => 8 * s.sourceInterval sec
  let second := s.isSet F.TIM_STAT_on_secondary []
  let last := fun (sec : Bool) => if sec then s.tim.lastAcc2 else s.tim.lastAcc1
  let silent := fun (sec : Bool) => match last sec with | some w => decide (w + span sec ≤ s.raw) | none => true
  let started := decide (s.tim.lastAny + span second ≤ s.raw) || (last second).isSome
  if s.servo = 0 ∨ silent second = false ∨ started = false then .next s
  else if s.sourceCode (!second) ≠ 0x7F ∧ silent (!second) = false then .next (s.useSource (!second))
  else if s.servo = 2 ∨ (s.servo = 1 ∧ (last second).isSome) then .next ((s.servoState 3).steer (-s.tim.integ))
  else .next s

/-- HOLDOVER_EXPIRY (R227). -/
def execHoldoverExpiry (t : Nat) (s : State) : Host.Outcome State Fault Refusal :=
  let s := s.advance t
  if s.servo = 3 ∧ s.tim.lastAny + 1000000 * s.fld F.TIM_SRC_holdover_ms [] ≤ s.raw then .next (s.servoState 4) else .next s

/-- RE_ANCHOR (R218). -/
def execReAnchor (t : Nat) (s : State) : Host.Outcome State Fault Refusal :=
  let s := s.advance t
  .next (s.setRate s.rate)

/-! ### Timestamp queues and captures (R230, R232) -/

/-- Enter a timestamp in a queue: 16 entries for a port, 8 for a capture channel; a full queue discards it (R230). -/
def State.enterTs (s : State) (x : Nat) (e : TsEntry) : State :=
  let q := Map.getD [] s.tim.ts x
  if (if x < 2 then 16 else 8) ≤ q.length then s.raiseBit F.TIM_TS_STAT_overflow [x]
  else s.setTim { s.tim with ts := Map.setD [] s.tim.ts x (q ++ [e]) }

/-- A capture enters its channel's queue under the channel's next number (R230, R232). -/
def State.enterCapture (s : State) (ch time : Nat) (unlocked : Bool) : State :=
  let n := Map.getD 0 s.tim.capNum ch
  let full := decide (8 ≤ (Map.getD [] s.tim.ts (2 + ch)).length)
  let s := if full then s else s.setTim { s.tim with capNum := Map.setD 0 s.tim.capNum ch ((n + 1) % 2 ^ 16) }
  s.enterTs (2 + ch) { id := n, late := false, refused := false, unlocked := unlocked, time := time }

/-- Does a channel select an event (TIM_CAP_c)? -/
def State.captures (s : State) (ch src link cls : Nat) : Bool :=
  decide (s.fld F.TIM_CAP_src [ch] = src) && (decide (src ≠ 8)
    || (decide (s.fld F.TIM_CAP_link [ch] = link) && decide (s.fld F.TIM_CAP_launch_class [ch] = cls)))

/-- A boundary taken on a die, or a flit's arrival, with the time that die gives: each channel that selects it has a capture to
enter (R220, R232). -/
def State.noteCapture (s : State) (src link cls die : Nat) : State :=
  s.each ((iota 0 4).filter fun ch => s.captures ch src link cls) fun s ch =>
    s.setTim { s.tim with capDue := s.tim.capDue ++ [(ch, s.dieTime die, !s.locked || s.dieFree die)] }

end Sys2Proof.Machine
end

