-- ==== Sys2Proof/Machine/Links.lean ====
section
/-!
DEFINITION. The links: flits, replay and credits, launch, gates, receive checks, delivery, lane changes (08 R186 to
R213; 11 R263, R267, R269, R270).
-/
namespace Sys2Proof.Machine

/-! ### Registers and channels -/

/-- Are its credits frozen (R209)? -/
def State.linkFrozen (s : State) (l : Nat) : Bool := s.isSet F.LNK_STAT_frozen (lnk48 l)

/-- Code of a channel in a flit header (R190). -/
def vcCode : Vc → Nat
  | .timed => 0
  | .bulk => 1
  | .control => 2
  | .management => 3

/-- The channel of a code. -/
def vcOf (c : Nat) : Vc := if c = 0 then .timed else if c = 1 then .bulk else if c = 2 then .control else .management

/-- The credit field of a channel. -/
def creditFld : Vc → Fld
  | .timed => F.LNK_CREDIT_timed
  | .bulk => F.LNK_CREDIT_bulk
  | .control => F.LNK_CREDIT_control
  | .management => F.LNK_CREDIT_mgmt

/-- Receive slots of a channel (R196). -/
def slotsOf : Vc → Nat
  | .timed => 256
  | .bulk => 512
  | .control => 32
  | .management => 32

/-- Slots of one channel in a report. -/
def creditOf (c : Credits) : Vc → Nat
  | .timed => c.timed
  | .bulk => c.bulk
  | .control => c.control
  | .management => c.mgmt

/-- One more slot of a channel. -/
def freeOne (c : Credits) : Vc → Credits
  | .timed => { c with timed := c.timed + 1 }
  | .bulk => { c with bulk := c.bulk + 1 }
  | .control => { c with control := c.control + 1 }
  | .management => { c with mgmt := c.mgmt + 1 }

/-- The four channels. -/
def channels : List Vc := [.timed, .bulk, .control, .management]

/-- Is a crew allocated a link: a BULK share, or a gate entry that names it (16 R394)? -/
def State.onLink (s : State) (l n : Nat) : Bool :=
  decide (0 < (s.link l).shares.getD n 0) ||
    (Map.range s.regs (R.GATE_TABLE.addr (lnk48 l ++ [0, 0])) 0x2000).any fun p =>
      decide (0 < bits p.2.toNat 15 8) && decide (bits p.2.toNat 7 4 = n)

/-! ### Flits (R190 to R193) -/

/-- A flit header with a sequence number. -/
def Flit.header (f : Flit) (seq : Nat) : Nat :=
  vcCode f.vc * 2 ^ 62 + f.job % 2 ^ 16 * 2 ^ 46 + f.dst % 2 ^ 18 * 2 ^ 28 + seq % 2 ^ 12 * 2 ^ 16
    + (if f.poison then 2 ^ 15 else 0) + f.cls % 8 * 2 ^ 12 + f.stroke % 256 * 2 ^ 4 + (if f.last then 8 else 0)

/-- The first four bytes of the AES-CMAC of a message (R192). -/
def cmac4 (key : BitVec 128) (m : Bytes) : Bytes :=
  (iota 0 4).map fun i => BitVec.ofNat 8 ((Config.aesCmac key m).toNat / 2 ^ (120 - 8 * i))

/-- The key that covers a flit: its crew's, or the management key. -/
def State.flitKey (s : State) (f : Flit) : BitVec 128 :=
  match f.crew with | some n => (s.crew n).key | none => s.cox.mgmtKey

/-- The 128 bytes of a flit with a 112 B body. -/
def State.wire (s : State) (f : Flit) (body : Bytes) : Bytes :=
  let m := natLe 8 (f.header f.seq) ++ body
  m ++ natLe 4 (crc32 m).toNat ++ cmac4 (s.flitKey f) (natLe 8 (f.header 0) ++ body)

/-- Pad to n bytes. -/
def padTo (n : Nat) (b : Bytes) : Bytes := b ++ List.replicate (n - b.length) 0

/-- The 112 B body of a flit: bytes that the spec lays out, or what stands for those it does not. -/
def Flit.bytes (f : Flit) : Bytes :=
  match f.body with
  | .data b => b
  | .coll c => padTo 112 ((Config.collBody c).take 112)
  | .acks p => padTo 112 ((Config.ackBody p).take 112)

/-- A flit leaves on a link (R190, R192); replays too count (15 R370). -/
def State.transmit (s : State) (l : Nat) (f : Flit) : State :=
  let s := (s.count R.LNK_BYTES_TX_LO (lnk48 l) 128).pmcDie (l / 48) 0x4A (some (l % 48))
  match f.body with
  | .data b => s.send (.flit l f.dst (s.wire f b))
  | .coll c => s.send (.coll l f.dst c (s.wire f f.bytes))
  | .acks p => s.send (.landAck l f.dst p (s.wire f f.bytes))

/-- Launch a flit against a credit: it takes the next sequence number and a place in the replay buffer (R194, R196);
a job flit of class WRITE or TALLY_ADD then waits for its acknowledgement (R202). -/
def State.launch (s : State) (l : Nat) (f : Flit) : State :=
  let f := { f with seq := (s.link l).txSeq, stroke := s.stk.num, launched := s.ns }
  let u : Unacked := {
    bulk := decide (f.vc = .bulk), crew := f.crew.getD 0, core := f.core, unit := f.unit, dst := f.dst, msg := f.msg
    cmd := f.cmd, accept := f.accept, launched := f.launched, isAdd := decide (f.cls = 1) }
  let s := s.modLink l fun k => { k with
    txSeq := (k.txSeq + 1) % 4096
    replay := k.replay ++ [f]
    unacked := if f.cls ≤ 1 then k.unacked ++ [u] else k.unacked }
  (s.lower (creditFld f.vc) (lnk48 l) 1).transmit l f

/-- May a channel of a link launch anything now (R194, R196)? While its credits are frozen for a change of width, CONTROL alone
(R209). -/
def State.linkReady (s : State) (l : Nat) (vc : Vc) : Bool :=
  (s.linkUp l || (decide (s.linkState l = 4) && decide (vc = .control))) && (!s.linkFrozen l || decide (vc = .control))
    && decide ((s.link l).replay.length < 512) && decide (0 < s.fld (creditFld vc) (lnk48 l))

/-- The drive end of the stroke in progress, ns of fabric time. -/
def State.driveEndNs (s : State) : Nat := s.stk.bound + s.period - s.recovery

/-- Unacknowledged WRITE flits of a unit to a package (R199). -/
def State.writesOut (s : State) (core unit dst : Nat) : Bool :=
  s.links.any fun p => p.2.unacked.any fun u => !u.isAdd && decide (u.core = core ∧ u.unit = unit ∧ u.dst = dst)

/-- May a job flit be launched now: its crew works, its window has room (R204), it lands within the drive of a TIMED
crew (R203), and a TALLY_ADD follows its unit's acknowledged writes (R199)? -/
def State.mayLaunch (s : State) (l : Nat) (f : Flit) : Bool :=
  match f.crew with
  | none => false
  | some n =>
    s.works n
      && (decide (f.vc ≠ .bulk) || decide (((s.link l).unacked.filter fun u => u.bulk && decide (u.crew = n)).length
        < s.fld F.LNK_CREW2_window [n]))
      && (!s.timed n || decide (s.ns + s.fld F.LNK_FLIGHT_flight_ns (lnk48 l) < s.driveEndNs))
      && (decide (f.cls ≠ 1) || !s.writesOut f.core f.unit f.dst)

/-- Do two flits come from one unit to one package, so that their order is kept (R199)? -/
def Flit.sameFlow (f g : Flit) : Bool :=
  decide (f.crew = g.crew ∧ f.core = g.core ∧ f.unit = g.unit ∧ f.dst = g.dst)

/-- The first flit of a queue that may go and overtakes none of its flow; and the queue without it. -/
def firstFlit (ok : Flit → Bool) : List Flit → List Flit → Option (Flit × List Flit)
  | _, [] => none
  | seen, f :: r =>
    if ok f && !(seen.any fun g => g.sameFlow f) then some (f, seen ++ r) else firstFlit ok (seen ++ [f]) r

/-- FLIT_LAUNCH (R194, R196): the next flit of a channel's queue that may go. TIMED flits go in gate slots only (R200). -/
def execFlitLaunch (link : Nat) (vc : Vc) (s : State) : Host.Outcome State Fault Refusal :=
  if !s.linkReady link vc then
    if vc = .bulk ∧ s.fld F.LNK_CREDIT_bulk (lnk48 link) = 0 ∧ (s.link link).bulkQ ≠ [] then
      .next (s.pmcDie (link / 48) 0x4E (some (link % 48)))
    else .next s
  else
    match vc with
    | .timed => .next s
    | .bulk =>
      match firstFlit (s.mayLaunch link) [] (s.link link).bulkQ with
      | some (f, q) => .next ((s.modLink link fun k => { k with bulkQ := q }).launch link f)
      | none => .next s
    | .control =>
      match (s.link link).ctlQ with
      | f :: q => .next ((s.modLink link fun k => { k with ctlQ := q }).launch link f)
      | [] => .next s
    | .management =>
      match (s.link link).mgmtQ with
      | f :: q => .next ((s.modLink link fun k => { k with mgmtQ := q }).launch link f)
      | [] => .next s

/-- Launch up to k flits of a crew's TIMED queue in consecutive slots; empty slots go unused (R200). -/
def State.gateRun (s : State) (l n : Nat) : Nat → State
  | 0 => s
  | k + 1 =>
    match (if s.linkReady l .timed then
        firstFlit (fun f => decide (f.crew = some n) && s.mayLaunch l f) [] (s.link l).timedQ else none) with
    | some (f, q) => ((s.modLink l fun x => { x with timedQ := q }).launch l f).gateRun l n k
    | none => (s.pmcDie (l / 48) 0x4D (some (l % 48))).gateRun l n k

/-- GATE_SLOT (R200): entry `slot` of the gate table of the link's width comes to its slot. -/
def execGateSlot (link slot : Nat) (s : State) : Host.Outcome State Fault Refusal :=
  if !s.stk.drive || !s.linkUp link then .next s
  else
    let w := (s.reg R.GATE_TABLE (lnk48 link ++ [s.linkState link - 2, slot])).toNat
    .next (s.gateRun link (bits w 7 4) (bits w 15 8))

/-! ### Routing and sending (R198; R191) -/

/-- The member links of a group, ascending. -/
def State.groupLinks (s : State) (g : Nat) : List Nat :=
  (iota 0 96).filter fun l => decide (bits (s.reg R.LNK_GROUP [g, l / 32]).toNat (l % 32) (l % 32) = 1)

/-- The link and channel of a SEND or TALLY_ADD of core c of crew n to package d. -/
def State.route (s : State) (n c d : Nat) : Option (Nat × Vc) :=
  match (iota 0 16).find? fun i => s.isSet F.LNK_ROUTE_LO_valid [n, i] &&
      decide (s.fld F.LNK_ROUTE_LO_match [n, i] = d &&& s.fld F.LNK_ROUTE_HI_mask [n, i]) with
  | some i =>
    let m := s.groupLinks (s.fld F.LNK_ROUTE_LO_group [n, i])
    match m[(d + 7 * c) % m.length]? with
    | some l => some (l, if s.isSet F.LNK_ROUTE_LO_bulk [n, i] then .bulk else .timed)
    | none => none
  | none => none

/-- Put a flit into a channel's queue. -/
def State.enqueue (s : State) (l : Nat) (f : Flit) : State :=
  s.modLink l fun k => match f.vc with
    | .timed => { k with timedQ := k.timedQ ++ [f] }
    | .bulk => { k with bulkQ := k.bulkQ ++ [f] }
    | .control => { k with ctlQ := k.ctlQ ++ [f] }
    | .management => { k with mgmtQ := k.mgmtQ ++ [f] }

/-- One bit for each 8 B of a flit's data that holds poison (R191). -/
def poisonMask (d : List (Byte × Bool)) : Nat :=
  (iota 0 12).foldl (fun m i => if anyPoison ((d.drop (8 * i)).take 8) then m + 2 ^ i else m) 0

/-- The body of a WRITE or TALLY_ADD flit (R191). -/
def State.jobBody (s : State) (target msg core unit link : Nat) (d : List (Byte × Bool)) : Bytes :=
  padTo 112 (natLe 5 target ++ natLe 1 d.length ++ natLe 2 (poisonMask d) ++ natLe 3 (s.fld F.LNK_SELF_package [])
    ++ natLe 1 core ++ natLe 2 msg ++ natLe 1 link ++ natLe 1 unit ++ plain d)

/-- Cut a run at a target into pieces of at most 96 B. -/
def pieces96 (target : Nat) (d : List (Byte × Bool)) : Nat → List (Nat × List (Byte × Bool))
  | 0 => []
  | fuel + 1 => if d = [] then [] else (target, d.take 96) :: pieces96 (target + 96) (d.drop 96) fuel

/-- Queue a message of flits of one class on the route to a package, under its unit's next message number (R191); its last flit
says so. Answers false with no route (R198). -/
def State.sendMsg (s : State) (n c unit : Nat) (q : QCmd) (cls dst : Nat) (parts : List (Nat × List (Byte × Bool))) :
    Bool × State :=
  match s.route n c dst with
  | none => (false, s)
  | some (l, vc) =>
    let msg := Map.getD 0 (s.core c).msgTags unit
    let s := s.modCore c fun k => { k with msgTags := Map.setD 0 k.msgTags unit ((msg + 1) % 65536) }
    (true, s.each parts.zipIdx fun s p =>
      s.enqueue l {
        body := .data (s.jobBody p.1.1 msg c unit l p.1.2)
        vc := vc
        cls := cls
        crew := some n
        job := s.fld F.LNK_CREW_job_tag [n]
        dst := dst
        poison := anyPoison p.1.2
        last := decide (p.2 + 1 = parts.length)
        core := c
        unit := unit
        cmd := q.tag
        msg := msg
        accept := q.accept })

/-! ### Acknowledgements (R202, R204) -/

/-- Has a command of a core flits that wait, or are not acknowledged? -/
def State.outstanding (s : State) (c tag : Nat) : Bool :=
  s.links.any fun p =>
    (p.2.unacked.any fun u => decide (u.core = c ∧ u.cmd = tag)) ||
      ((p.2.timedQ ++ p.2.bulkQ).any fun f => decide (f.cls ≤ 1 ∧ f.core = c ∧ f.cmd = tag))

/-- A started command of the DMA queue to another package whose flits have all been acknowledged (06 R153). -/
def State.sendDone (s : State) (c : Nat) (q : QCmd) : Bool :=
  let d := dcmd q.word
  q.started && (decide (d.op = 5) || ((decide (d.dst = 4) || decide (d.dst = 5)) && decide (d.op ≠ 3))) && !s.outstanding c q.tag

/-- SENDs and a remote ADD of a core that are acknowledged complete (R202; 06 R153; 03 R90 rule 5). -/
def State.settleSends (s : State) (c : Nat) : State :=
  let k := s.core c
  let gone := k.dmaq.filter (s.sendDone c)
  let adds := match k.tq with | q :: _ => if q.started && !s.outstanding c q.tag then [q] else [] | [] => []
  if gone = [] ∧ adds = [] then s
  else
    let s' := s.modCore c fun k => { k with
      dmaq := k.dmaq.filter fun q => !s.sendDone c q
      tq := if adds = [] then k.tq else k.tq.tail }
    let s' := s'.each gone fun t q => t.traceEnd c 0 q.done q
    let s' := s'.each adds fun t q => t.traceEnd c 0 0 q
    (s'.showDma c).settleCore c

/-- Let go of acknowledged flits of a link, and of the commands they complete. -/
def State.acknowledge (s : State) (l : Nat) (acked : Unacked → Bool) : State :=
  let cs := ((s.link l).unacked.filter acked).map fun u => u.core
  let s := s.modLink l fun k => { k with unacked := k.unacked.filter fun u => !acked u }
  s.each cs.eraseDups fun s c => s.settleSends c

/-- TIMED_ACKNOWLEDGEMENT (R202): TIMED flits are acknowledged at their launch time plus flight_ns. -/
def execTimedAcknowledgement (link t : Nat) (s : State) : Host.Outcome State Fault Refusal :=
  let s := s.advance t
  .next (s.acknowledge link fun u => !u.bulk && !u.lost && decide (u.launched + s.fld F.LNK_FLIGHT_flight_ns (lnk48 link) ≤ s.ns))

/-- The first header of a class that passed the receive checks and whose content is to come; and the list without it. -/
def takeHeader (cls : Nat) (crew : Option Nat) : List (Nat × Nat × Nat) → Option ((Nat × Nat) × List (Nat × Nat × Nat))
  | [] => none
  | h :: r =>
    if h.1 = cls ∧ (crew = none ∨ crew = some h.2.1) then some (h.2, r)
    else (takeHeader cls crew r).map fun p => (p.1, h :: p.2)

/-- A pair of a LAND_ACK acknowledges one message (R202): of the crew's BULK messages on that link under that tag, the one
launched first. The pair names no unit: DEDUCED (assumption log 31). -/
def State.landPair (s : State) (n link msg : Nat) : State :=
  match (s.link link).unacked.find? fun u => u.bulk && !u.lost && decide (u.crew = n ∧ u.msg = msg) with
  | some m => s.acknowledge link fun u =>
      u.bulk && !u.lost && decide (u.crew = n ∧ u.msg = msg ∧ u.core = m.core ∧ u.unit = m.unit ∧ u.cmd = m.cmd)
  | none => s

/-- LAND_ACK (R202): the content of a LAND_ACK flit that FLIT_RECEIVE passed: messages named by source link and message tag have
been delivered. -/
def execLandAck (link : Nat) (pairs : List (Nat × Nat)) (s : State) : Host.Outcome State Fault Refusal :=
  match takeHeader 3 none (s.link link).hdrs with
  | some (h, rest) => .next ((s.modLink link fun k => { k with hdrs := rest }).each pairs fun s p => s.landPair h.1 p.1 p.2)
  | none => .next s

/-- ACK_TIMEOUT (R204): a BULK flit older than its crew's limit is a HANG of the crew. -/
def execAckTimeout (link t : Nat) (s : State) : Host.Outcome State Fault Refusal :=
  let s := s.advance t
  let late := ((s.link link).unacked.filter fun u => u.bulk &&
    decide (u.launched + 1000 * s.fld F.LNK_CREW_ack_timeout_us [u.crew] ≤ s.ns)).map fun u => u.crew
  .next (s.each late.eraseDups fun s n =>
    if s.halted n || (s.crew n).stop.isSome then s else s.crewFault n 6 0x0608 link)

/-! ### Link flits (R194, R195, R197) -/

/-- Send a LINK flit: the last sequence number received and all the slots freed since the last CREDIT_SYNC, so that a flit lost on
the way is made good by the next one (R194): DEDUCED (assumption log 31). -/
def State.sendLink (s : State) (l : Nat) : State :=
  let k := s.link l
  let s := s.modLink l fun k => { k with freedSent := k.freed, sinceLink := 0, lastLinkTx := s.raw }
  (s.count R.LNK_BYTES_TX_LO (lnk48 l) 128).send (.linkFlit l ((k.rxSeq + 4095) % 4096) k.freed)

/-- Does the end of a link run its LINK flits: is it in service, or changing width (R194, R209)? -/
def State.linkTalks (s : State) (l : Nat) : Bool := s.linkUp l || decide (s.linkState l = 4)

/-- LINK_FLIT_SEND (R194): 128 ns after the last one while something is to be told, else after 1 µs. -/
def execLinkFlitSend (link t : Nat) (s : State) : Host.Outcome State Fault Refusal :=
  let s := s.advance t
  let k := s.link link
  let some_ := decide (0 < k.sinceLink) || decide (k.freed ≠ k.freedSent)
  if s.linkTalks link && !s.inEasy && decide (k.lastLinkTx + (if some_ then 128 else 1000) ≤ s.raw) then .next (s.sendLink link)
  else .next s

/-- Drop the flits up to a sequence number from a replay buffer. -/
def dropThrough (seq : Nat) (l : List Flit) : List Flit :=
  if l.any fun f => decide (f.seq = seq) then (l.dropWhile fun f => decide (f.seq ≠ seq)).tail else l

/-- Credits come back, to at most the partner's slots. -/
def State.credit (s : State) (l : Nat) (c : Credits) : State :=
  s.each channels fun s v => s.setFld (creditFld v) (lnk48 l) (satAdd (s.fld (creditFld v) (lnk48 l)) (creditOf c v) (slotsOf v))

/-- What one report of freed slots adds to the one before. -/
def moreThan (now old : Credits) : Credits :=
  { timed := now.timed - old.timed, bulk := now.bulk - old.bulk, control := now.control - old.control, mgmt := now.mgmt - old.mgmt }

/-- LINK_FLIT (R194): the partner acknowledges flits and returns the credits of the slots it has freed, counted since its last
CREDIT_SYNC; frozen credits stay as they are (R209). -/
def execLinkFlit (link : Nat) (lastSeq : BitVec 12) (freed : Credits) (s : State) : Host.Outcome State Fault Refusal :=
  if s.linkState link = 0 ∨ s.linkState link = 5 then .next s
  else
    let s := s.count R.LNK_BYTES_RX_LO (lnk48 link) 128
    let t := s.modLink link fun k => { k with replay := dropThrough lastSeq.toNat k.replay, lastLinkRx := s.raw }
    if s.linkFrozen link then .next t
    else .next ((t.modLink link fun k => { k with freedSeen := freed }).credit link (moreThan freed (s.link link).freedSeen))

/-- Resend the flits of the replay buffer from position i on (R195); a resend of any counts as one replay. -/
def State.resend (s : State) (l i : Nat) : State :=
  let fs := (s.link l).replay.drop i
  if fs = [] then s
  else
    let s := (s.bump F.LNK_STAT_replays (lnk48 l) 1).pmcDie (l / 48) 0x4C (some (l % 48))
    let s := s.modLink l fun k => { k with
      replay := k.replay.take i ++ (k.replay.drop i).map fun f => { f with replays := f.replays + 1 } }
    s.each fs fun s f => s.transmit l f

/-- Every credit reported, in one CREDIT_SYNC of ours: the free slots of our receive buffers (R197). -/
def State.sendSync (s : State) (l : Nat) : State :=
  let k := s.link l
  let held := fun v => (k.rxHeld.filter fun f => f.slot && decide (f.vc = v)).length
    + if v = .bulk then (k.rxColl.filter fun f => f.slot).length + (k.hdrs.filter fun h => decide (h.1 = 2)).length else 0
  let free : Credits := {
    timed := 256 - held .timed, bulk := 512 - held .bulk, control := 32 - held .control, mgmt := 32 - held .management }
  let s := s.modLink l fun k => { k with
    freed := ⟨0, 0, 0, 0⟩, freedSent := ⟨0, 0, 0, 0⟩, withheld := [], sinceLink := 0, lastLinkTx := s.raw }
  (s.count R.LNK_BYTES_TX_LO (lnk48 l) 128).send (.creditSync l ((k.rxSeq + 4095) % 4096) free)

/-- CREDIT_SYNC (R197): credits are set, acknowledged flits go, the rest is resent: at once, or where the link changes
width or returns to service, at the boundary at which it enters service (R209). -/
def execCreditSync (link : Nat) (lastSeq : BitVec 12) (free : Credits) (s : State) : Host.Outcome State Fault Refusal :=
  if (s.linkState link = 0 ∧ (s.link link).retrained ≠ some true) ∨ s.linkState link = 5 then .next s
  else
    let s := s.count R.LNK_BYTES_RX_LO (lnk48 link) 128
    let s := s.each channels fun s v =>
      s.setFld (creditFld v) (lnk48 link) (if creditOf free v ≤ slotsOf v then creditOf free v else slotsOf v)
    let s := s.modLink link fun k => { k with
      replay := dropThrough lastSeq.toNat k.replay, lastLinkRx := s.raw, reconciled := true, freedSeen := ⟨0, 0, 0, 0⟩ }
    .next (if s.linkUp link then s.resend link 0 else s)

/-! ### Lane changes and LINK-DOWN (R208 to R211) -/

/-- A LINK-DEGRADE record and its logbook trigger (11; 14 R350; assumption log 16 for the event code). -/
def State.degradeRecord (s : State) (l lane : Nat) : State :=
  (s.trigger { cls := 2, body := [], loc := l }).raiseFault { s.fault0 7 0 0x0701 with space := 5, die := dieOfLink l, loc := l, detail := lane }

/-- LINK-DOWN (R210): the link stops, its replay buffer and TIMED queues are discarded, and each crew allocated the link
takes a fault, whose record names no launch (11 R271). -/
def State.linkDown (s : State) (l : Nat) : State :=
  if s.linkState l = 0 ∨ s.linkState l = 5 then s
  else
    let dead : Flit → Unacked := fun f => {
      bulk := false, crew := f.crew.getD 0, core := f.core, unit := f.unit, dst := f.dst, msg := f.msg, cmd := f.cmd
      accept := f.accept, launched := 0, isAdd := decide (f.cls = 1), lost := true }
    let s := ((s.setFld F.LNK_STAT_state (lnk48 l) 0).raiseBit F.LNK_STAT_down_hist (lnk48 l)).dropBit F.LNK_STAT_frozen (lnk48 l)
    let s := s.modLink l fun k => { k with
      unacked := k.unacked ++ (k.timedQ.filter fun f => decide (f.cls ≤ 1)).map dead
      replay := []
      timedQ := []
      degSent := false
      degRecv := false
      restripeDue := false
      restriped := false
      reconciled := false
      retrained := none
      idleFrom := none }
    let s := s.trigger { cls := 2, body := [], loc := l }
    let crews := s.crewList.filter (s.onLink l)
    let rec0 := { s.fault0 8 2 0x0801 with space := 5, die := dieOfLink l, loc := l, detail := l }
    if crews = [] then s
    else s.each crews fun s n => s.raiseFault { rec0 with crew := some n }

/-- A lane of a link can no longer be used (R208): at x2 the link freezes and offers the change to x1; with no lane left
it is LINK-DOWN. -/
def State.laneLost (s : State) (l lane : Nat) : State :=
  let st := s.linkState l
  let s := s.modLink l fun k => { k with usable := k.usable.set lane false }
  if !((s.link l).usable.any fun u => u) then s.linkDown l
  else if st = 3 then (if s.fld F.LNK_STAT_good_lane (lnk48 l) = lane then s.linkDown l else s)
  else if st = 2 then
    let s := (s.setFld F.LNK_STAT_state (lnk48 l) 4).liveBit F.LNK_STAT_frozen (lnk48 l) true
    let s := (s.setFld F.LNK_STAT_good_lane (lnk48 l) (1 - lane)).modLink l fun k => { k with
      degSent := true, degRecv := false, restripeDue := false, restriped := false, reconciled := false, retrained := none }
    (s.send (.lane l lane false)).degradeRecord l lane
  else s

/-- A window of 2^20 codewords, 53,687,091 ns, that has ended gives way to the one in progress, whose counts start from 0 (R208). -/
def State.ucwWindow (s : State) (l : Nat) : State :=
  let w := (s.link l).ucwStart
  if w + 53687091 ≤ s.raw then
    ((s.setFld F.LNK_HEALTH_ucw_lane0 (lnk48 l) 0).setFld F.LNK_HEALTH_ucw_lane1 (lnk48 l) 0).modLink l fun k => { k with
      ucwStart := s.raw - (s.raw - w) % 53687091 }
  else s

/-- Uncorrectable codewords of a lane in the current window. -/
def State.ucw (s : State) (l lane : Nat) : Nat :=
  if lane = 0 then s.fld F.LNK_HEALTH_ucw_lane0 (lnk48 l) else s.fld F.LNK_HEALTH_ucw_lane1 (lnk48 l)

/-- LANE_UNUSABLE (R208): FEC lock lost; more codewords than the limit; or a failed eighth replay, on the lane with more
uncorrectable codewords. -/
def execLaneUnusable (link lane : Nat) (cause : LaneCause) (s : State) : Host.Outcome State Fault Refusal :=
  let s := s.ucwWindow link
  let holds := match cause with
    | .fecLock => true
    | .ucwLimit => decide (s.fld F.LNK_HEALTH_ucw_limit (lnk48 link) < s.ucw link lane)
    | .eighthReplay => decide (s.ucw link (1 - lane) < s.ucw link lane) && (s.link link).replay.any fun f => decide (8 ≤ f.replays)
  if holds && decide (lane < 2) then .next (s.laneLost link lane) else .next s

/-- LANE_DEGRADE (R209): the partner names an unusable lane; this end freezes in the same way and answers LANE_ACK. -/
def execLaneDegrade (link lane : Nat) (s : State) : Host.Outcome State Fault Refusal :=
  let st := s.linkState link
  if (st = 2 ∨ st = 4) ∧ lane < 2 then
    let s := s.modLink link fun k => { k with usable := k.usable.set lane false }
    if !((s.link link).usable.any fun u => u) then .next (s.linkDown link)
    else
      let s := (s.setFld F.LNK_STAT_state (lnk48 link) 4).liveBit F.LNK_STAT_frozen (lnk48 link) true
      let s := (s.setFld F.LNK_STAT_good_lane (lnk48 link) (1 - lane)).send (.lane link lane true)
      let s := if st = 2 then
          (s.modLink link fun k => { k with
            restripeDue := false, restriped := false, reconciled := false, retrained := none }).degradeRecord link lane
        else s
      .next (s.modLink link fun k => { k with degSent := true, degRecv := true })
  else .next s

/-- LANE_ACK (R209): the partner has frozen too. -/
def execLaneAck (link : Nat) (s : State) : Host.Outcome State Fault Refusal :=
  if s.linkState link = 4 ∧ (s.link link).degSent then .next (s.modLink link fun k => { k with degRecv := true }) else .next s

/-- A recovery begins: the links that have both sent and received a lane message are to re-stripe in it (R209). -/
def State.recoveryLinks (s : State) : State :=
  s.each ((iota 0 96).filter fun l => decide (s.linkState l = 4) && (s.link l).degSent && (s.link l).degRecv) fun s l =>
    s.modLink l fun k => { k with restripeDue := true }

/-- RESTRIPE (R209): in the first recovery that begins after the end has both sent and received a lane message, it re-stripes to
the remaining lane and sends CREDIT_SYNC. -/
def execRestripe (link : Nat) (s : State) : Host.Outcome State Fault Refusal :=
  let k := s.link link
  if !s.stk.drive && decide (s.linkState link = 4) && k.restripeDue && !k.restriped then
    .next ((s.modLink link fun k => { k with restriped := true }).sendSync link)
  else .next s

/-- LINK_DOWN (R210). -/
def execLinkDown (link : Nat) (s : State) : Host.Outcome State Fault Refusal := .next (s.linkDown link)

/-- LINK_SILENCE_TIMEOUT (R210): no LINK flit for 10 µs while in service. -/
def execLinkSilenceTimeout (link t : Nat) (s : State) : Host.Outcome State Fault Refusal :=
  let s := s.advance t
  if s.linkUp link && !s.inEasy && decide ((s.link link).lastLinkRx + 10000 ≤ s.raw) then .next (s.linkDown link) else .next s

/-- LINK_RETRAIN (R211; 16 R399): the training of a link, in recovery slices, ends, and with CREDIT_SYNC (R197). A link that a rig
or power-up set to train waits for the boundary after the partner's; another stays as it is until a rig is loaded, and LNK_STAT
shows the result. Training that fails is LINK-DOWN (R210). -/
def execLinkRetrain (link : Nat) (ok : Bool) (s : State) : Host.Outcome State Fault Refusal :=
  let st := s.linkState link
  if s.stk.drive || decide (st = 2) || decide (st = 4) || decide (st = 5) then .next s
  else
    let s := s.modLink link fun k => { k with retrained := some ok }
    if !ok then .next (if st = 1 then s.linkDown link else s)
    else if st = 1 ∧ (s.link link).rejoin = true then
      .next ((s.modLink link fun k => { k with usable := [true, true], reconciled := false, txSeq := 0, rxSeq := 0, replay := [] }).sendSync link)
    else .next (s.sendSync link)

/-- What a boundary does to a link: the switch to x1, and entry into service (R209, R211; 02 R41). -/
def State.linkBoundary (s : State) (l : Nat) : State :=
  let k := s.link l
  if s.linkState l = 4 ∧ k.restriped ∧ k.reconciled then
    let s := (s.setFld F.LNK_STAT_state (lnk48 l) 3).raiseBit F.LNK_STAT_degrade_hist (lnk48 l)
    let s := (s.dropBit F.LNK_STAT_frozen (lnk48 l)).modLink l fun k => { k with
      degSent := false, degRecv := false, restripeDue := false, restriped := false, reconciled := false, lastLinkRx := s.raw
      lastLinkTx := s.raw }
    (s.clearDMin l).resend l 0
  else if s.linkState l = 1 ∧ k.rejoin ∧ k.retrained = some true ∧ k.reconciled then
    let s := s.setFld F.LNK_STAT_state (lnk48 l) 2
    (s.clearDMin l).modLink l fun k => { k with
      rejoin := false, reconciled := false, retrained := none, lastLinkRx := s.raw, lastLinkTx := s.raw }
  else s

/-- RETRY (R195), a LINK flit (R210): resend from the named sequence number; when an eighth replay has failed, the lane with more
uncorrectable codewords is unusable, or with none the link is down (R208, R210). A frozen link resends after its CREDIT_SYNC. -/
def execLinkRetry (link : Nat) (seq : BitVec 12) (s : State) : Host.Outcome State Fault Refusal :=
  if !s.linkTalks link then .next s
  else
    let s := (s.count R.LNK_BYTES_RX_LO (lnk48 link) 128).modLink link fun k => { k with lastLinkRx := s.raw }
    let q := (s.link link).replay
    match q.find? fun f => decide (f.seq = seq.toNat) with
    | none => .next s
    | some f =>
      if !s.linkUp link || s.linkFrozen link then .next s
      else if 8 ≤ f.replays then
        let s := s.ucwWindow link
        let u0 := s.ucw link 0
        let u1 := s.ucw link 1
        if s.linkState link = 3 ∨ u0 = u1 then .next (s.linkDown link)
        else .next (s.laneLost link (if u0 < u1 then 1 else 0))
      else .next (s.resend link (q.takeWhile fun g => decide (g.seq ≠ seq.toNat)).length)

/-! ### Receiving (R205, R206) -/

/-- A RETRY that names the sequence number expected. -/
def State.sendRetry (s : State) (l : Nat) : State :=
  ((s.modLink l fun k => { k with retryOut := true }).count R.LNK_BYTES_TX_LO (lnk48 l) 128).send (.retry l (s.link l).rxSeq)

/-- Count an uncorrectable codeword of a lane in its window (R208). -/
def State.countUcw (s : State) (l lane : Nat) : State :=
  let s := s.ucwWindow l
  if lane = 0 then s.bump F.LNK_HEALTH_ucw_lane0 (lnk48 l) 1 else s.bump F.LNK_HEALTH_ucw_lane1 (lnk48 l) 1

/-- A receive slot of a channel is free again. -/
def State.freeSlot (s : State) (l : Nat) (vc : Vc) : State := s.modLink l fun k => { k with freed := freeOne k.freed vc }

/-- Landed and undelivered BULK flits of a crew on a link (R196). -/
def Link.bulkHeld (k : Link) (n : Nat) : Nat :=
  (k.rxHeld.filter fun f => f.slot && decide (f.vc = .bulk ∧ f.crew = some n)).length
    + (k.rxColl.filter fun f => f.slot && decide (f.crew = n)).length
    + (k.hdrs.filter fun h => decide (h.1 = 2 ∧ h.2.1 = n)).length

/-- A flit of a crew leaves its receive slot. A BULK slot gives its credit back once the crew holds fewer than its share of the
link, with those kept back until then (R196): DEDUCED (assumption log 31). -/
def State.leaveSlot (s : State) (l n : Nat) (vc : Vc) (slot : Bool) : State :=
  let k := s.link l
  let share := k.shares.getD n 0
  let back := Map.getD 0 k.withheld n
  if !slot then s
  else if vc = .bulk ∧ 0 < share ∧ share ≤ k.bulkHeld n then s.modLink l fun k => { k with withheld := Map.setD 0 k.withheld n (back + 1) }
  else if vc = .bulk then
    s.modLink l fun k => { k with
      freed := { k.freed with bulk := k.freed.bulk + 1 + back }, withheld := Map.erase n k.withheld }
  else s.freeSlot l vc

/-- Do launch class and channel pair (R190)? -/
def classFits (cls vc : Nat) : Bool :=
  if cls ≤ 2 then decide (vc ≤ 1) else if cls ≤ 5 then decide (vc = 2) else if cls = 6 then decide (vc = 3) else false

/-- The crew of a job tag (R193). -/
def State.crewOfTag (s : State) (tag : Nat) : Option Nat :=
  if tag = 0 then none else (s.crewList.filter fun n => decide (s.fld F.LNK_CREW_job_tag [n] = tag)).head?

/-- The launch stroke of a flit from its 8 bits (R206). -/
def State.strokeOf (s : State) (low : Nat) : Int := Int.ofNat s.stk.num + toSigned 8 (low + 256 - s.stk.num % 256)

/-- Has the drive end of a stroke passed here (R205 check 7)? -/
def State.drivePast (s : State) (n : Int) : Bool :=
  decide (n < Int.ofNat s.stk.num) || (decide (n = Int.ofNat s.stk.num) && !s.stk.drive)

/-- The logbook trigger of an integrity failure: the header and both codes (R205 check 5; 14 R350). -/
def State.linkTrigger (s : State) (l : Nat) (flit want : Bytes) : State :=
  s.trigger { cls := 2, body := flit.take 8 ++ (flit.drop 124).take 4 ++ want, loc := l }

/-- Do a crew's flits meet check 6 of R205: a stall or an emptied stroke (02 R48, R56), a freeze (13 R318), a stop, restoration or
hold (12 R287), a drained package (11 R283)? -/
def State.deaf (s : State) (n : Nat) : Bool :=
  s.stalled || s.emptyStroke || s.frozen n || s.halted n || s.isSet F.GLB_HEALTH_drained []

/-- A message's descriptor bytes 16 to 23: source package, core, tag, link and unit (R191). -/
def msgKey (body : Bytes) : Nat := field body 8 8

/-- A flit of a crew is dropped or discarded here: its BULK message is not acknowledged (R202). Once its last flit has come it is
forgotten. -/
def State.loseFlit (s : State) (l n cls : Nat) (vc : Vc) (last : Bool) (body : Bytes) : State :=
  if vc = .bulk ∧ cls ≤ 1 then
    s.modLink l fun k => { k with
      badMsgs := if last then k.badMsgs.filter fun p => decide (p ≠ (n, msgKey body))
        else if k.badMsgs.elem (n, msgKey body) then k.badMsgs else (n, msgKey body) :: k.badMsgs }
  else s

/-- Checks 2 to 8 of R205 on a flit that passed check 1. MGMT flits have the management key (R192); their content, that of COLL and
that of LAND_ACK flits, whose bodies the spec does not lay out, comes by other commands. -/
def State.receiveChecked (s : State) (l : Nat) (flit : Bytes) : State :=
  let h := field flit 0 8
  let cls := bits h 14 12
  let vc := vcOf (bits h 63 62)
  let tag := bits h 61 46
  let ix := lnk48 l
  let body := (flit.drop 8).take 112
  let badMask := decide (cls ≤ 1) && (decide (bits h 15 15 = 1) != decide (field body 6 2 ≠ 0))
  if cls = 4 ∨ cls = 5 then (if classFits cls (bits h 63 62) then s else s.bump F.LNK_DROP_misrouted ix 1)
  else if !classFits cls (bits h 63 62) || badMask then (s.bump F.LNK_DROP_misrouted ix 1).freeSlot l vc
  else if s.fld F.LNK_SELF_valid [] = 0 ∨ bits h 45 28 ≠ s.fld F.LNK_SELF_package [] then
    (s.bump F.LNK_DROP_misrouted ix 1).freeSlot l vc
  else if tag ≠ 0 ∧ s.crewOfTag tag = none then (s.bump F.LNK_DROP_stranger ix 1).freeSlot l vc
  else
    let crew := if cls = 6 then none else s.crewOfTag tag
    let last := decide (bits h 3 3 = 1)
    let key := match crew with | some n => (s.crew n).key | none => s.cox.mgmtKey
    let want := cmac4 key (natLe 8 (h - bits h 27 16 * 2 ^ 16) ++ body)
    if want ≠ (flit.drop 124).take 4 ∨ (crew = none ∧ cls ≠ 6) then
      ((s.bump F.LNK_DROP_integrity ix 1).freeSlot l vc).linkTrigger l flit want
    else
      match crew with
      | none => s.freeSlot l vc
      | some n =>
        if s.deaf n then ((s.bump F.LNK_DISCARD_stalled ix 1).freeSlot l vc).loseFlit l n cls vc last body
        else if s.timed n && s.drivePast (s.strokeOf (bits h 11 4)) then
          (((s.bump F.LNK_DISCARD_late ix 1).freeSlot l vc).loseFlit l n cls vc last body).crab n 0x0502 l
        else if cls = 2 ∨ cls = 3 then
          let s := s.modLink l fun k => { k with hdrs := k.hdrs ++ [(cls, n, (s.strokeOf (bits h 11 4)).toNat)] }
          if cls = 3 then s.freeSlot l vc else s
        else
          s.modLink l fun k => { k with rxHeld := k.rxHeld ++ [{
            body := .data body
            vc := vc
            cls := cls
            crew := some n
            job := tag
            dst := bits h 45 28
            poison := decide (bits h 15 15 = 1)
            last := last
            stroke := (s.strokeOf (bits h 11 4)).toNat }] }

/-- FLIT_RECEIVE (R195, R205): a flit lands. `badLane` names the lane of an uncorrectable codeword it lies in. A TIME flit is
answered or taken (09 R222), an arrival may be captured (09 R232), a LINK flit ends the silence (R210); the contents of LINK,
LAND_ACK, COLL and MGMT flits, whose bodies the spec does not lay out in bytes, come by the commands of those names. -/
def execFlitReceive (link : Nat) (badLane : Option Nat) (flit : List (BitVec 8)) (s : State) :
    Host.Outcome State Fault Refusal :=
  if s.linkState link < 2 ∨ s.linkState link = 5 then .next s
  else
    let h := field flit 0 8
    let numbered := decide (bits h 14 12 ≠ 4) && decide (bits h 14 12 ≠ 5)
    let s := match badLane with | some k => s.countUcw link k | none => s
    if badLane.isSome || decide (flit.length ≠ 128) || decide (leNat ((flit.drop 120).take 4) ≠ (crc32 (flit.take 120)).toNat) then
      .next (if numbered then s.sendRetry link else s)
    else if numbered && decide (bits h 27 16 ≠ (s.link link).rxSeq) then
      .next (if (s.link link).retryOut then s else s.sendRetry link)
    else
      let s := (s.count R.LNK_BYTES_RX_LO (lnk48 link) 128).pmcDie (link / 48) 0x4B (some (link % 48))
      let s := if numbered then s.modLink link fun k => { k with
          rxSeq := (k.rxSeq + 1) % 4096, retryOut := false, sinceLink := k.sinceLink + 1 } else s
      let cls := bits h 14 12
      let s := s.noteCapture 8 link cls (dieOfLink link)
      let s := if cls = 4 then s.modLink link fun k => { k with lastLinkRx := s.raw } else s
      let s := if cls = 5 ∧ classFits cls (bits h 63 62) = true then s.timeFlit link flit else s.receiveChecked link flit
      .next (if 64 ≤ (s.link link).sinceLink then s.sendLink link else s)

/-! ### Delivery (R207; R44) -/

/-- Cut a run at granule boundaries. -/
def granules (a : Nat) (d : List (Byte × Bool)) : Nat → List (Nat × List (Byte × Bool))
  | 0 => []
  | fuel + 1 =>
    if d = [] then [] else (a, d.take (32 - a % 32)) :: granules (a + (32 - a % 32)) (d.drop (32 - a % 32)) fuel

/-- Poisoned 8 B words of a run. -/
def poisonWords (d : List (Byte × Bool)) : Nat :=
  ((iota 0 ((d.length + 7) / 8)).filter fun i => anyPoison ((d.drop (8 * i)).take 8)).length

/-- Does a write extent break the rules of windows for a writer that is no CAS copy (07 R179)? -/
def State.windowBad (s : State) (a n : Nat) : Bool :=
  match s.windowsOf a n with
  | [] => false
  | [w] =>
    let e := atomWidth (s.winOp w)
    isCas (s.winOp w) || decide (a < s.winBase w) || decide (s.winBase w + s.winSize w < a + n)
      || decide (a % e ≠ 0) || decide (n % e ≠ 0)
  | _ => true

/-- A link write lands in HBM of crew n: plain, or by the operation of its window (R207; 07 R177, R183). A poisoned
STATE write is charged to the running launch (11 R266, R269). -/
def State.landHbm (s : State) (n l src core a : Nat) (d : List (Byte × Bool)) : State :=
  let degrade := s.linkFrozen l
  let charge := fun (s : State) (words : Nat) =>
    if words = 0 then s
    else s.poisonFault n { s.fault0 2 1 0x0213 with
      space := 1, die := dieOfLink l, addr := a, loc := l, detail := words, degrade := degrade }
  match s.windowAt a with
  | some w =>
    if s.winOrdered w then
      s.setAord (s.aord ++ (granules a d 5).map fun p =>
          ({ crew := n, core := core, pkg := some src, stroke := s.stk.num, addr := p.1, poisoned := anyPoison p.2,
             data := plain p.2, link := some l } : AReq))
    else
      let (old, s) := s.atomRow (s.winOp w) a d 5
      charge s (s.stateWords a ((old.zip d).map fun p => (p.1.1, p.1.2 || p.2.2)))
  | none => charge (s.hbmStore a d) (s.stateWords a d)

/-- Queue a LAND_ACK pair for a message on the link it came by; up to 12 pairs share a flit (R202). -/
def State.queueAck (s : State) (l n dst srcLink msg : Nat) : State :=
  let f : Flit := { body := .acks [(srcLink, msg)], vc := .control, cls := 3, crew := some n, job := s.fld F.LNK_CREW_job_tag [n], dst := dst }
  s.modLink l fun k =>
    match k.ctlQ.getLast? with
    | some g =>
      match g.body with
      | .acks p =>
        if g.crew = some n ∧ g.dst = dst ∧ p.length < 12 then
          { k with ctlQ := k.ctlQ.dropLast ++ [{ g with body := .acks (p ++ [(srcLink, msg)]) }] }
        else { k with ctlQ := k.ctlQ ++ [f] }
      | _ => { k with ctlQ := k.ctlQ ++ [f] }
    | none => { k with ctlQ := k.ctlQ ++ [f] }

/-- Deliver a held flit's body for crew n; answers whether it was applied (R207; 03 R87; 11 R267). -/
def State.deliver (s : State) (l n : Nat) (f : Flit) (b : Bytes) : Bool × State :=
  let target := field b 0 5
  let count := field b 5 1
  let mask := field b 6 2
  let src := field b 8 3 % 2 ^ 18
  let core := field b 11 1
  let data := ((b.drop 16).take count).zipIdx.map fun p => (p.1, decide (bits mask (p.2 / 8) (p.2 / 8) = 1))
  let drop := (false, s.bump F.LNK_DROP_misrouted (lnk48 l) 1)
  if count = 0 ∨ 96 < count then drop
  else if f.cls = 1 then
    let t := target % 2 ^ 14
    if mask ≠ 0 then
      (false, s.poisonFault n { s.fault0 2 1 0x0214 with
        die := dieOfLink l, loc := l, detail := poisonWords data, degrade := s.linkFrozen l })
    else if s.tallyOf n t && (s.tally t).remote then
      let v := BitVec.ofNat 32 (leNat (plain (data.take 4)))
      if s.fixed then (true, s.modCrew n fun k => { k with remHeld := k.remHeld ++ [(t, v, src)] })
      else (true, s.putTally t ((s.tally t).value + v))
    else drop
  else if target / 2 ^ 39 = 0 then
    let c := bits target 29 22
    let a := bits target 21 0
    if s.crewOf c = some n ∧ a + count ≤ storeEnd then (true, (s.nocIn c (l / 48) count).storeWrite c a data) else drop
  else
    let a := target % 2 ^ 39
    if !s.inRange n a count || s.windowBad a count then drop
    else (true, s.landHbm n l src core a data)

/-- Is the ordering buffer of the controller that a flit's window write goes to full, so that it must wait (07 R183)? -/
def State.bufferFull (s : State) (f : Flit) : Bool :=
  match f.body with
  | .data b =>
    let target := field b 0 5
    let a := target % 2 ^ 39
    decide (f.cls = 0) && decide (target / 2 ^ 39 = 1)
      && (match s.windowAt a with | some w => s.winOrdered w | none => false)
      && decide (4096 ≤ (s.aord.filter fun q => decide (stackOf q.addr = stackOf a)).length)
  | _ => false

/-- FLIT_DELIVER (R44, R207): the oldest held flit whose crew is in a drive is delivered, unless the ordering buffer it goes to is
full; the last flit of a BULK message none of whose flits was lost here is acknowledged (R202). -/
def execFlitDeliver (link : Nat) (s : State) : Host.Outcome State Fault Refusal :=
  match firstFlit (fun f => !s.bufferFull f && match f.crew with | some n => s.works n | none => false) [] (s.link link).rxHeld with
  | none => .next s
  | some (f, rest) =>
    let s := s.modLink link fun k => { k with rxHeld := rest }
    match f.body, f.crew with
    | .data b, some n =>
      let (ok, s) := (s.leaveSlot link n f.vc f.slot).deliver link n f b
      let whole := ok && !(s.link link).badMsgs.elem (n, msgKey b)
      let s := if !ok || f.last then s.loseFlit link n f.cls f.vc f.last b else s
      if whole && f.last && decide (f.vc = .bulk) then
        .next (s.queueAck link n (field b 8 3 % 2 ^ 18) (field b 14 1) (field b 12 2))
      else .next s
    | _, _ => .next s

end Sys2Proof.Machine
end

