-- ==== Sys2Proof/Machine/Collective.lean ====
section
/-!
DEFINITION. Collectives: descriptors, the chains of partials and results, completion, abort (08 R214 to R216; 12 R306,
R308).
-/
namespace Sys2Proof.Machine

/-! ### Elements and the chain (R214, R216) -/

/-- Bytes of an element of a format code. -/
def collBytes (f : Nat) : Nat := if f = 1 then 2 else if f = 3 then 8 else 4

/-- A partial or contribution: s (or the integer or extreme value), e, poison. -/
abbrev Part3 := Nat × Nat × Bool

/-- The product of the first L fan-outs: ranks under one partial of level L. -/
def spanOf (fan : List Nat) (L : Nat) : Nat := (fan.take L).foldl (fun a b => a * b) 1

/-- Partials of level L of n ranks. -/
def partsAt (fan : List Nat) (n L : Nat) : Nat := ceilDiv n (spanOf fan L)

/-- Is rank r first in its chain of level L? -/
def firstIn (fan : List Nat) (r L : Nat) : Bool := decide (r / spanOf fan L % fan.getD L 1 = 0)

/-- Is rank r last in its chain of level L? -/
def lastIn (fan : List Nat) (n r L : Nat) : Bool := decide ((r + 1) % spanOf fan (L + 1) = 0) || decide (r + 1 = n)

/-- Does rank r take part in the chains of level L: is it last in its chain of every lower level? -/
def inLevel (fan : List Nat) (n r L : Nat) : Bool := (iota 0 L).all fun k => lastIn fan n r k

/-- The next rank of r's chain of level L. -/
def nextRank (fan : List Nat) (n r L : Nat) : Nat :=
  let k := (r / spanOf fan L + 2) * spanOf fan L
  (if k ≤ n then k else n) - 1

/-- The rank before r in its chain of level L. -/
def prevRank (fan : List Nat) (r L : Nat) : Nat := r / spanOf fan L * spanOf fan L - 1

/-- A contribution decoded: FP32 bits for the floating formats, the integer otherwise. -/
def collValue (fmt x : Nat) : Nat :=
  if fmt = 0 then x else if fmt = 1 then (to32 (fBF16.decode x)).toNat else x

/-- The integer width of a format code. -/
def intBits (fmt : Nat) : Nat := if fmt = 3 then 64 else 32

/-- Take a partial p into an accumulation at level L (R214). -/
def collJoin (fmt red L : Nat) (acc p : Part3) : Part3 :=
  let bad := acc.2.2 || p.2.2
  if fmt ≤ 1 then
    if red = 0 then
      let se := accumulate (BitVec.ofNat 32 acc.1) (BitVec.ofNat 32 acc.2.1) (BitVec.ofNat 32 p.1)
      (se.1.toNat, (if L = 0 then se.2 else add32 se.2 (BitVec.ofNat 32 p.2.1)).toNat, bad)
    else
      let a := fFP32.decode acc.1
      let b := fFP32.decode p.1
      (fFP32.rne (if red = 1 then a.min b else a.max b), 0, bad)
  else
    let k := intBits fmt
    if red = 0 then ((acc.1 + p.1) % 2 ^ k, 0, bad)
    else if red = 1 then ((if toSigned k p.1 < toSigned k acc.1 then p.1 else acc.1), 0, bad)
    else ((if toSigned k acc.1 < toSigned k p.1 then p.1 else acc.1), 0, bad)

/-- The accumulation of the first member of a chain: a sum starts from zero, an extreme from its own value. -/
def collStart (fmt red L : Nat) (p : Part3) : Part3 := if red = 0 then collJoin fmt red L (0, 0, false) p else p

/-- The bits of a result, rounded once (R214). -/
def collOut (fmt red outFmt : Nat) (p : Part3) : Nat :=
  if fmt ≤ 1 then
    let v := if red = 0 then exactSum (BitVec.ofNat 32 p.1) (BitVec.ofNat 32 p.2.1) else fFP32.decode p.1
    if outFmt = 1 then fBF16.rne v else fFP32.rne v
  else p.1

/-- Elements a member's result holds. -/
def Coll.needed (k : Coll) : Nat := if k.op = 2 then k.count / k.n else k.count

/-- Bytes of a result element. -/
def Coll.outBytes (k : Coll) : Nat := if k.op = 3 then collBytes k.fmt else collBytes k.outFmt

/-- Key of a partial of an element at a level. -/
def Coll.key (k : Coll) (L i : Nat) : Nat := L * k.count + i

/-- An open collective of a crew. -/
def Crew.coll (k : Crew) (id : BitVec 32) : Option Coll := k.colls.find? fun c => decide (c.id = id)

/-- Change an open collective. -/
def State.modColl (s : State) (n : Nat) (id : BitVec 32) (f : Coll → Coll) : State :=
  s.modCrew n fun k => { k with colls := k.colls.map fun c => if c.id = id then f c else c }

/-! ### Sending -/

/-- Put one element into the COLL flits of a link's BULK queue: 12 partials to a flit, 48 BF16 results, 24 others. -/
def addElem (f : Flit) (c : CollFlit) (cap : Nat) (q : List Flit) : List Flit :=
  match q.getLast? with
  | some g =>
    match g.body with
    | .coll d =>
      if g.crew = f.crew ∧ g.dst = f.dst ∧ d.collId = c.collId ∧ d.isResult = c.isResult ∧ d.level = c.level
          ∧ d.first + d.vals.length = c.first ∧ c.first % cap ≠ 0 then
        q.dropLast ++ [{ g with body := .coll { d with vals := d.vals ++ c.vals }, poison := g.poison || f.poison }]
      else q ++ [{ f with body := .coll c }]
    | _ => q ++ [{ f with body := .coll c }]
  | none => q ++ [{ f with body := .coll c }]

/-- Send one element of a collective to a rank: the package from the rank table, the link by chunk (R198, R216). -/
def State.collSend (s : State) (n : Nat) (k : Coll) (rank : Nat) (isResult : Bool) (L i : Nat) (p : Part3) : State :=
  let (b, s) := s.hbmBytes (k.rankTable + 4 * rank) 4
  let cap := if isResult then (if k.outBytes = 2 then 48 else 24) else 12
  let m := s.groupLinks k.group
  match m[i / cap % m.length]? with
  | none => s
  | some l =>
    let c : CollFlit := { collId := k.id, isResult := isResult, level := L, first := i, vals := [p] }
    let f : Flit := {
      body := .coll c, vc := .bulk, cls := 2, crew := some n, job := s.fld F.LNK_CREW_job_tag [n]
      dst := leNat (plain b) % 2 ^ 18, poison := p.2.2, unit := 16 }
    s.modLink l fun x => { x with bulkQ := addElem f c cap x.bulkQ }

/-! ### Results (R215, R216) -/

/-- Write a result element of this member (11 R266: a poisoned one into a STATE page is an irreversible action). -/
def State.collWrite (s : State) (n : Nat) (k : Coll) (i v : Nat) (poison : Bool) : State :=
  let w := k.outBytes
  let a := k.dst + (if k.op = 2 then i % (k.count / k.n) else i) * w
  let d := (natLe w v).map fun b => (b, poison)
  let words := s.stateWords a d
  let s := s.hbmStore a d
  let s := s.modColl n k.id fun c => { c with results := if c.results.elem i then c.results else i :: c.results }
  if words = 0 then s
  else
    s.poisonFault n { s.fault0 2 1 0x0213 with
      space := 1, die := dieOfStack (stackOf a), addr := a, detail := words, degrade := k.via }

/-- A result element reaches this member: it is written, and an ALL_REDUCE result goes on back along the chains. -/
def State.collResult (s : State) (n : Nat) (k : Coll) (i v : Nat) (poison : Bool) : State :=
  if k.op = 2 then
    if i / (k.count / k.n) = k.rank then s.collWrite n k i v poison
    else s.collSend n k (i / (k.count / k.n)) true 0 i (v, 0, poison)
  else if k.op = 3 then s.collWrite n k i v poison
  else
    let s := s.collWrite n k i v poison
    s.each (iota 0 k.fan.length) fun s L =>
      if inLevel k.fan k.n k.rank L && !firstIn k.fan k.rank L then
        s.collSend n k (prevRank k.fan k.rank L) true L i (v, 0, poison)
      else s

/-- This rank's accumulation of an element at a level is complete: pass it on along the chain, carry it into the next
level, or round the result (R216). -/
def State.collAdvance (s : State) (n : Nat) (id : BitVec 32) (i : Nat) : Nat → Nat → Part3 → State
  | 0, _, _ => s
  | fuel + 1, L, acc =>
    match (s.crew n).coll id with
    | none => s
    | some k =>
      if !lastIn k.fan k.n k.rank L then s.collSend n k (nextRank k.fan k.n k.rank L) false L i acc
      else if L + 1 = k.fan.length then s.collResult n k i (collOut k.fmt k.red k.outFmt acc) acc.2.2
      else if firstIn k.fan k.rank (L + 1) then
        s.collAdvance n id i fuel (L + 1) (collStart k.fmt k.red (L + 1) acc)
      else
        match Map.find (k.key (L + 1) i) k.inc with
        | some inc =>
          (s.modColl n id fun c => { c with inc := Map.erase (c.key (L + 1) i) c.inc }).collAdvance n id i fuel (L + 1)
            (collJoin k.fmt k.red (L + 1) inc acc)
        | none => s.modColl n id fun c => { c with own := Map.insert (c.key (L + 1) i) acc c.own }

/-- This member's contribution to an element. -/
def State.collOwn (s : State) (k : Coll) (i : Nat) : Part3 × State :=
  let w := collBytes k.fmt
  let (b, s) := s.hbmBytes (k.src + i * w) w
  ((collValue k.fmt (leNat (plain b)), 0, anyPoison b), s)

/-- Sending a contribution with poisoned elements is an irreversible action (11 R266). -/
def State.collPoison (s : State) (n : Nat) (k : Coll) (words : Nat) : State :=
  if words = 0 then s
  else s.poisonFault n { s.fault0 2 1 0x0212 with space := 1, die := dieOfStack (stackOf k.src), addr := k.src, detail := words }

/-- The 8 B words that hold poisoned elements of a contribution (11 R273). -/
def Coll.words (k : Coll) (bad : List Nat) : Nat :=
  ((bad.map fun i => (k.src + i * collBytes k.fmt) / 8).eraseDups).length

/-- Take incoming partials of level 0 (or none, for the first of a chain) with this member's own contributions. -/
def State.collContribute (s : State) (n : Nat) (k : Coll) (vals : List (Nat × Option Part3)) : State :=
  let (bad, s) := s.eachWith [] vals fun bad s (v : Nat × Option Part3) =>
    let (own, s) := s.collOwn k v.1
    let acc := match v.2 with | some a => collJoin k.fmt k.red 0 a own | none => collStart k.fmt k.red 0 own
    (if own.2.2 then v.1 :: bad else bad, s.collAdvance n k.id v.1 5 0 acc)
  s.collPoison n k (k.words bad)

/-! ### Opening, landing, completing -/

/-- A COLL flit of an open collective is taken in (R216). -/
def State.collTake (s : State) (n l : Nat) (k : Coll) (f : CollFlit) : State :=
  let vals := f.vals.zipIdx.map fun p => (f.first + p.2, p.1)
  let vals := vals.filter fun p => decide (p.1 < k.count)
  if f.isResult then s.each vals fun s p => s.collResult n k p.1 p.2.1 p.2.2.2
  else
    let s := s.each vals fun s _ => s.pmcDie (l / 48) 0x4F none
    if f.level = 0 then s.collContribute n k (vals.map fun p => (p.1, some p.2))
    else
      s.each vals fun s p =>
        match (s.crew n).coll k.id with
        | none => s
        | some k =>
          match Map.find (k.key f.level p.1) k.own with
          | some own =>
            (s.modColl n k.id fun c => { c with own := Map.erase (c.key f.level p.1) c.own }).collAdvance n k.id p.1 5 f.level
              (collJoin k.fmt k.red f.level p.2 own)
          | none => s.modColl n k.id fun c => { c with inc := Map.insert (c.key f.level p.1) p.2 c.inc }

/-- Take in the held COLL flits of open collectives of crews that work now. -/
def State.drainColl (s : State) (l : Nat) : State :=
  let ready := fun (p : CollHeld) => s.works p.crew && ((s.crew p.crew).coll p.flit.collId).isSome
  let now := (s.link l).rxColl.filter ready
  if now = [] then s
  else
    let s := s.modLink l fun x => { x with rxColl := x.rxColl.filter fun p => !ready p }
    s.each now fun s p =>
      let via := s.linkFrozen l
      let s := s.modColl p.crew p.flit.collId fun c => { c with via := via }
      match (s.crew p.crew).coll p.flit.collId with
      | some k => (s.leaveSlot l p.crew .bulk p.slot).collTake p.crew l k p.flit
      | none => s

/-- COLL_PARTIAL (R216; 12 R308): the content of a COLL flit that FLIT_RECEIVE passed, whose launch stroke its header gave, is
taken in, held while its collective is not open or its crew not in a drive, or dropped when the collective was aborted. -/
def execCollPartial (link crew : Nat) (flit : CollFlit) (s : State) : Host.Outcome State Fault Refusal :=
  match takeHeader 2 (some crew) (s.link link).hdrs with
  | none => .next s
  | some (h, rest) =>
    let s := s.modLink link fun x => { x with hdrs := rest }
    if (s.crew crew).aborted.elem flit.collId then
      .next ((s.bump F.LNK_DROP_misrouted (lnk48 link) 1).leaveSlot link crew .bulk true)
    else
      let x : CollHeld := { crew := crew, stroke := h.2, flit := flit }
      .next ((s.modLink link fun k => { k with rxColl := k.rxColl ++ [x] }).drainColl link)

/-- A collective from its descriptor (R215). -/
def collOf (d : Bytes) (accept now : Nat) : Coll :=
  let levels := field d 3 1
  { id := BitVec.ofNat 32 (field d 4 4)
    op := field d 0 1
    fmt := field d 1 1 % 16
    red := field d 1 1 / 16
    outFmt := field d 2 1
    fan := (iota 0 levels).map fun i => field d (40 + 2 * i) 2
    src := field d 8 8
    dst := field d 16 8
    count := field d 24 8
    rank := field d 32 4
    n := field d 36 4
    rankTable := field d 48 8
    tally := field d 56 2
    group := field d 58 2
    since := now
    accept := accept }

/-- Does a descriptor break a rule of the table Collective descriptor (R215)? -/
def State.collBad (s : State) (n : Nat) (d : Bytes) (k : Coll) : Bool :=
  let w := collBytes k.fmt
  !(decide (1 ≤ k.op) && decide (k.op ≤ 3)) || decide (3 < k.fmt) || decide (2 < k.red) || (decide (k.op = 3) && decide (k.red ≠ 0))
  || (if k.fmt ≤ 1 then decide (1 < k.outFmt) else decide (k.outFmt ≠ k.fmt))
  || decide (field d 3 1 = 0) || decide (4 < field d 3 1) || (k.fan.any fun f => decide (f = 0))
  || decide (k.n = 0) || decide (65536 < k.n) || decide (k.n ≤ k.rank)
  || decide (partsAt k.fan k.n k.fan.length ≠ 1)
  || (decide (k.op ≠ 1) && decide (k.count % k.n ≠ 0))
  || !s.inRange n k.src (w * (if k.op = 3 then k.count / k.n else k.count)) || !s.inRange n k.dst (k.outBytes * k.needed)
  || !s.inRange n k.rankTable (4 * k.n)
  || decide (16384 ≤ k.tally) || decide (15 < k.group) || decide (field d 60 4 ≠ 0)
  || decide (8 ≤ (s.crew n).colls.length)

/-- Show the open collectives of a crew. -/
def State.showColl (s : State) (n : Nat) : State := s.setFld F.LNK_COLL_open [n] (s.crew n).colls.length

/-- The elements of an ALL_GATHER member go into its own result and to every other member (R215). -/
def State.gatherOwn (s : State) (n : Nat) (k : Coll) : State :=
  let per := k.count / k.n
  let r := s.eachWith [] (iota 0 per) fun bad s j =>
    let (b, s) := s.hbmBytes (k.src + j * collBytes k.fmt) (collBytes k.fmt)
    let v := leNat (plain b)
    let i := k.rank * per + j
    let s := s.collWrite n k i v (anyPoison b)
    let s := s.each ((iota 0 k.n).filter fun r => decide (r ≠ k.rank)) fun s r => s.collSend n k r true 0 i (v, 0, anyPoison b)
    (if anyPoison b then j :: bad else bad, s)
  r.2.collPoison n k (k.words r.1)

/-- Open a collective (R215): a member that is first in its chain starts at once; an ALL_GATHER member sends its
elements to every other and keeps them; held flits of the collective are taken in. -/
def State.openColl (s : State) (n : Nat) (k : Coll) : State :=
  let s := (s.modCrew n fun c => { c with colls := c.colls ++ [k] }).showColl n
  let s :=
    if k.op = 3 then s.gatherOwn n k
    else if firstIn k.fan k.rank 0 then s.collContribute n k ((iota 0 k.count).map fun i => (i, none))
    else s
  s.each (s.links.map fun p => p.1) fun s l => s.drainColl l

/-- COLLECTIVE_COMPLETE (R215, R216): every element of the member's result is written: its tally rises by 1. -/
def execCollectiveComplete (crew : Nat) (collId : BitVec 32) (s : State) : Host.Outcome State Fault Refusal :=
  match (s.crew crew).coll collId with
  | none => .next s
  | some k =>
    if s.works crew && decide (k.results.length = k.needed) then
      let s := (s.modCrew crew fun c => { c with colls := c.colls.filter fun x => decide (x.id ≠ collId) }).showColl crew
      if s.tallyOf crew k.tally then .next (s.putTally k.tally ((s.tally k.tally).value + 1))
      else .next (s.launchStatus crew k.accept 7)
    else .next s

/-- Abort collectives of a crew (12 R306, R308): partials and held flits go, credits return, nothing more is launched. -/
def State.abortColls (s : State) (n : Nat) (named : BitVec 32 → Bool) : State :=
  let ids := ((s.crew n).colls.filter fun c => named c.id).map fun c => c.id
  if ids = [] then s
  else
    let s := s.modCrew n fun k => { k with
      colls := k.colls.filter fun c => !ids.elem c.id
      aborted := (ids ++ k.aborted).take 64 }
    let mine := fun (c : CollFlit) => ids.elem c.collId
    let s := s.each (s.links.map fun p => p.1) fun s l =>
      let gone := fun (p : CollHeld) => decide (p.crew = n) && mine p.flit
      let held := (s.link l).rxColl.filter gone
      let s := s.modLink l fun x => { x with
        rxColl := x.rxColl.filter fun p => !gone p
        bulkQ := x.bulkQ.filter fun f =>
          match f.body with | .coll c => !(decide (f.crew = some n) && mine c) | _ => true }
      s.each held fun s p => s.leaveSlot l n .bulk p.slot
    s.showColl n

/-- ABORT_NOTICE (12 R306; 14 R367): an authentic notice aborts the named collectives of a crew; the crew takes a HANG
fault, is rolled back to the point X selects, and held until Y. -/
def execAbortNotice (n : AbortNotice) (s : State) : Host.Outcome State Fault Refusal :=
  match s.crewOfTag n.jobTag.toNat with
  | none => .next s
  | some c =>
    if !n.authentic then .next s
    else
      let s := s.abortColls c fun id => n.allOpen || decide (id = n.collId)
      let s := s.crewFault c 6 0x0605 0
      .next (s.stopCrew c { bStop := s.nextStroke, target := n.x, hold := true, releaseAt := n.y })

end Sys2Proof.Machine
end

