-- ==== Sys2Proof/Machine/Matrix.lean ====
section
/-!
DEFINITION. The matrix engines (04 R94 to R117) with the sum check, the umpire's sampling and the watch slots' tiles
(10 R234 to R252).
-/
namespace Sys2Proof.Machine

/-! ### Formats and operands -/

/-- An input format code (R97): format, element bits, block scale, class (1: 8-bit, 2: MXFP4, 3: 16-bit). -/
def inFmt (code : Nat) : Option (Fmt × Nat × Bool × Nat) :=
  match code with
  | 0 => some (fE4M3, 8, false, 1)
  | 1 => some (fE5M2, 8, false, 1)
  | 2 => some (fE4M3, 8, true, 1)
  | 3 => some (fE5M2, 8, true, 1)
  | 4 => some (fE3M2, 6, true, 1)
  | 5 => some (fE2M3, 6, true, 1)
  | 6 => some (fE2M1, 4, true, 2)
  | 7 => some (fINT8, 8, true, 1)
  | 8 => some (fBF16, 16, false, 3)
  | 9 => some (fFP16, 16, false, 3)
  | _ => none

/-- An output format code (R97): format and bytes per element. -/
def outFmtOf (code : Nat) : Option (Fmt × Nat) :=
  match code with
  | 0 => some (fFP32, 4)
  | 1 => some (fBF16, 2)
  | 2 => some (fFP16, 2)
  | 3 => some (fE4M3, 1)
  | 4 => some (fE5M2, 1)
  | _ => none

/-- The body of a matrix command (R103). -/
structure MCmd where
  shape : Nat
  aFmt : Nat
  bFmt : Nat
  outFmt : Nat
  group : Nat
  keep : Bool
  emit : Bool
  sample : Bool
  watchEn : Bool
  watchId : Nat
  kLen : Nat
  aAddr : Nat
  bAddr : Nat
  aScale : Nat
  bScale : Nat
  cDst : Nat
  cPitch : Nat
  deriving DecidableEq, Repr

/-- Read the fields of a matrix command word. -/
def mcmd (w : CmdWord) : MCmd :=
  { shape := wbits w 235 234, aFmt := wbits w 233 230, bFmt := wbits w 229 226, outFmt := wbits w 225 223
    group := wbits w 222 221, keep := decide (wbits w 220 220 = 1), emit := decide (wbits w 219 219 = 1)
    sample := decide (wbits w 218 218 = 1), watchEn := decide (wbits w 217 217 = 1), watchId := wbits w 216 209
    kLen := wbits w 208 177, aAddr := wbits w 176 155, bAddr := wbits w 154 133, aScale := wbits w 132 111
    bScale := wbits w 110 89, cDst := wbits w 88 67, cPitch := wbits w 66 55 }

/-- Group size of a code (R103). -/
def groupSize (code : Nat) : Nat := if code = 0 then 4 else if code = 1 then 8 else 16

/-- One problem of an instruction: rows and columns, streams, output, pitch, K length. -/
structure Problem where
  q : Nat
  rows : Nat
  cols : Nat
  a : Nat
  b : Nat
  aScale : Nat
  bScale : Nat
  dst : Nat
  pitch : Nat
  k : Nat
  deriving DecidableEq, Repr

/-- Problem q of a QUAD descriptor (R99); none when absent. -/
def quadProblem (d : Bytes) (q : Nat) : Option Problem :=
  let r := d.drop (32 * q)
  if field r 0 3 = 0x3FFFFF then none
  else some { q := q, rows := 16, cols := 16, a := field r 0 3, b := field r 3 3, aScale := field r 6 3
              bScale := field r 9 3, dst := field r 12 3, k := field r 16 4, pitch := field r 20 2 }

/-- The one problem of FULL or WIDE (R98, R100). -/
def plainProblem (m : MCmd) : Problem :=
  { q := 0, rows := if m.shape = 2 then 8 else 32, cols := if m.shape = 2 then 128 else 32, a := m.aAddr, b := m.bAddr
    aScale := m.aScale, bScale := m.bScale, dst := m.cDst, pitch := m.cPitch, k := m.kLen }

/-- The problems of an instruction, the descriptor's bytes given. -/
def problems (m : MCmd) (desc : Bytes) : List Problem :=
  if m.shape = 1 then (iota 0 4).filterMap (quadProblem desc) else [plainProblem m]

/-- Is an address a ring name; which ring (R105)? -/
def ringName (a : Nat) : Option Nat := if 0x3FFFF0 ≤ a ∧ a < 0x3FFFF8 then some (a - 0x3FFFF0) else none

/-- A stream address in order (R105, R115): an enabled ring, or linear, aligned and within the data area. -/
def State.streamOk (s : State) (c a align len : Nat) : Bool :=
  match ringName a with
  | some n => s.isSet F.ENG_RING_enable [c, n]
  | none => decide (a % align = 0) && inData a len && inData a 1

/-- First positions of blocks in positions [from0, from0 + k) of a chain. -/
def blockStarts (from0 k : Nat) : Nat := (from0 + k + 31) / 32 - (from0 + 31) / 32

/-- Bytes of an output row. -/
def rowBytes (p : Problem) (bytes : Nat) : Nat := p.cols * bytes

/-- Pitch of the output in bytes (R104). -/
def pitchBytes (p : Problem) (bytes : Nat) : Nat := if p.pitch = 0 then rowBytes p bytes else p.pitch * 32

/-- Does one problem break a rule of R115? `k0`: its chain positions so far. -/
def State.problemBad (s : State) (c : Nat) (m : MCmd) (p : Problem) (k0 : Nat) : Bool :=
  match inFmt m.aFmt, inFmt m.bFmt with
  | some (_, wa, sa, _), some (_, wb, sb, _) =>
    !s.streamOk c p.a 64 (p.k * p.rows * wa / 8) || !s.streamOk c p.b 64 (p.k * p.cols * wb / 8)
      || (if sa then !s.streamOk c p.aScale 32 (blockStarts k0 p.k * p.rows) else decide (p.aScale ≠ 0))
      || (if sb then !s.streamOk c p.bScale 32 (blockStarts k0 p.k * p.cols) else decide (p.bScale ≠ 0))
      || (!m.emit && decide (p.k % 32 ≠ 0))
      || (m.emit && match outFmtOf m.outFmt with
          | some (_, n) => decide (p.dst % 64 ≠ 0) || !inData p.dst ((p.rows - 1) * pitchBytes p n + rowBytes p n)
              || decide (p.pitch ≠ 0 ∧ p.pitch * 32 < rowBytes p n)
          | none => true)
  | _, _ => true

/-- Are a QUAD descriptor's reserved bytes 0, those of absent problems too, and the upper bits of a present one's pitch
(R99, R115)? -/
def quadReserved (d : Bytes) : Bool :=
  (iota 0 4).all fun q =>
    let r := d.drop (32 * q)
    decide (field r 15 1 = 0) && decide (field r 22 8 = 0) && decide (field r 30 2 = 0)
      && (decide (field r 0 3 = 0x3FFFFF) || decide (field r 20 2 < 4096))

/-- The chain positions of problem q so far: 0 for an instruction that starts a chain. -/
def Engine.chainPos (e : Engine) (m : MCmd) (q : Nat) : Nat :=
  if m.keep then (match e.chain with | some ch => ch.k.getD q 0 | none => 0) else 0

/-- Is the command a format error (R115, R396)? -/
def State.matrixBad (s : State) (c e : Nat) (cmd : QCmd) (ctx : Nat) (desc : Bytes) : Bool :=
  let m := mcmd cmd.word
  let en := s.eng c e
  let classBad := match inFmt m.aFmt, inFmt m.bFmt with
    | some (_, _, _, x), some (_, _, _, y) => decide ((x = 3) ≠ (y = 3))
    | _, _ => true
  let quadBad := decide (m.shape = 1) &&
    (decide (m.bAddr ≠ 0 ∨ m.aScale ≠ 0 ∨ m.bScale ≠ 0 ∨ m.cDst ≠ 0 ∨ m.cPitch ≠ 0 ∨ m.kLen ≠ 0)
      || decide (m.aAddr % 128 ≠ 0) || !inData m.aAddr 128 || !quadReserved desc)
  let chainBad := m.keep && match en.chain with
    | some ch => decide (ch.accept ≠ cmd.accept ∨ ch.ctx ≠ ctx ∨ ch.shape ≠ m.shape ∨ ch.group ≠ m.group)
    | none => true
  let watchBad := m.watchEn && match s.crewOf c with
    | some n => !(Map.getD {} (s.crew n).slots m.watchId).active
    | none => true
  let presetBad := (decide (m.shape = 1) && decide (s.fld F.ENG_PRESET_quad_ok [c] / 2 ^ e % 2 = 0))
    || (decide (m.shape = 2) && decide (s.fld F.ENG_PRESET_wide_ok [c] / 2 ^ e % 2 = 0))
  decide (m.shape = 3 ∨ m.group = 3) || classBad || quadBad || chainBad || watchBad || presetBad
    || (m.emit && (outFmtOf m.outFmt).isNone)
    || (problems m desc).any fun p => s.problemBad c m p (en.chainPos m p.q)

/-! ### Streams and rings (R104 to R106) -/

/-- Read n bytes of a ring from its use counter on, wrapping at its end; use advances by each byte (R106). -/
def State.ringTake (s : State) (c r : Nat) : Nat → List (Byte × Bool) × State
  | 0 => ([], s)
  | n + 1 =>
    let off := (s.reg R.ENG_RUSE [c, r]).toNat % s.ringSize c r
    let (b, s) := s.storeRead c (s.ringBase c r + off) 1
    let s := s.setReg R.ENG_RUSE [c, r] (s.reg R.ENG_RUSE [c, r] + 1)
    let (rest, s) := s.ringTake c r n
    (b ++ rest, s)

/-- What one position needs of a stream: its key (problem and kind), its address, the offset of a linear stream, the
bytes. -/
structure Need where
  key : Nat
  addr : Nat
  off : Nat
  n : Nat
  deriving DecidableEq, Repr

/-- Read from its ring what is present of a need and not yet read (R106). -/
def State.fetchPart (s : State) (c e : Nat) (x : Need) : State :=
  match ringName x.addr with
  | none => s
  | some r =>
    let old := Map.getD [] (s.eng c e).part x.key
    let (b, s) := s.ringTake c r (Nat.min (x.n - old.length) (s.ringFill c r))
    s.modEng c e fun en => { en with part := Map.setD [] en.part x.key (old ++ b) }

/-- Has all of a need been read from its ring? A linear stream is always present. -/
def Engine.complete (e : Engine) (x : Need) : Bool :=
  (ringName x.addr).isNone || decide ((Map.getD [] e.part x.key).length = x.n)

/-- The bytes of a need: those read from its ring, or those of its linear stream. -/
def State.streamTake (s : State) (c e : Nat) (x : Need) : List (Byte × Bool) × State :=
  if (ringName x.addr).isSome then
    (Map.getD [] (s.eng c e).part x.key, s.modEng c e fun en => { en with part := Map.erase x.key en.part })
  else s.storeRead c (x.addr + x.off) x.n

/-- The bytes of a need that a position may be without. -/
def State.streamTakeOpt (s : State) (c e : Nat) (x : Option Need) : List (Byte × Bool) × State :=
  match x with | some x => s.streamTake c e x | none => ([], s)

/-- The elements of one K position: `n` elements of w bits from a little-endian bit string, with their poison. A byte's
poison is that of its 8 B word (R113). -/
def elements (f : Fmt) (w n : Nat) (bs : List (Byte × Bool)) : List (FVal × Bool) :=
  let x := leNat (plain bs)
  (iota 0 n).map fun i =>
    (f.decode (bits x (w * i + w - 1) (w * i)), anyPoison ((bs.drop (w * i / 8)).take ((w * i + w + 7) / 8 - w * i / 8)))

/-- Scale exponents of a block from its bytes (R120): 0xFF is none. -/
def scales (bs : List (Byte × Bool)) : List (Option Int × Bool) :=
  bs.map fun p => (if p.1 = 0xFF then none else some (Int.ofNat p.1.toNat - 127), p.2)

/-- No block scale: exponent 0. -/
def unitScale (n : Nat) : List (Option Int × Bool) := List.replicate n (some 0, false)

/-! ### One K position in the array -/

/-- The operands of one problem at one position: elements and scales of A and B, with poison. -/
structure PosOps where
  q : Nat
  a : List (FVal × Option Int × Bool)
  b : List (FVal × Option Int × Bool)
  deriving DecidableEq, Repr

/-- The problem, row of A and column of B that meet in a result cell (R98 to R100). -/
def cellAt (shape r c : Nat) : Nat × Nat × Nat :=
  if shape = 1 then (2 * (r / 16) + c / 16, r % 16, c % 16)
  else if shape = 2 then (0, r % 8, 32 * (r / 8) + c)
  else (0, r, c)

/-- The problem, row of A, first column and columns of B of check accumulator `acc` of row r (R102); none: unused. -/
def chkAt (shape r acc : Nat) : Option (Nat × Nat × Nat × Nat) :=
  if shape = 1 then some (2 * (r / 16) + acc, r % 16, 0, 16)
  else if acc = 1 then none
  else if shape = 2 then some (0, r % 8, 32 * (r / 8), 32)
  else some (0, r, 0, 32)

/-- Operand i, NaN with no scale where the list ends. -/
def opAt (l : List (FVal × Option Int × Bool)) (i : Nat) : FVal × Option Int × Bool := l.getD i (.nan, none, false)

/-- A B element after its block scale; NaN for a scale of 0xFF. -/
def scaledElem (p : FVal × Option Int × Bool) : FVal := match p.2.1 with | some x => p.1.scale x | none => .nan

/-- s_k: FP32 sum in ascending column order, round to nearest even (R102). -/
def checkSum (l : List (FVal × Option Int × Bool)) : Word := l.foldl (fun w p => to32 ((f32 w).add (scaledElem p))) 0

/-- Round a value that is not negative up to FP32 (R234). -/
def up32 (v : FVal) : Word :=
  match v with
  | .nan => 0x7F800000
  | .inf _ => 0x7F800000
  | .fin _ m e =>
    if m = 0 then 0
    else
      let l := flog2 m e
      let u := (if l < fFP32.emin then fFP32.emin else l) - 23
      let k := (u - e).toNat
      let sig := if u ≤ e then m * 2 ^ (e - u).toNat else m / 2 ^ k + if m % 2 ^ k = 0 then 0 else 1
      let x := (u - (fFP32.emin - 23)).toNat * 2 ^ 23 + sig
      BitVec.ofNat 32 (if 0x7F800000 < x then 0x7F800000 else x)

/-- t_k: FP32 sum of magnitudes, rounded up, in ascending column order (R234); a NaN element counts as +infinity, to
which every later use of it leads. -/
def checkMag (l : List (FVal × Option Int × Bool)) : Word := l.foldl (fun w p => up32 ((f32 w).add (scaledElem p).abs)) 0

/-- β after a position: + |a × scale| × t_k, product and sum rounded up; +infinity stays (R234). -/
def betaStep (beta : Word) (a : FVal × Option Int × Bool) (t : Word) : Word :=
  let v := scaledElem a
  if (f32 beta).isInf then beta
  else
    match v, f32 t with
    | .fin _ m e, .fin _ n d => up32 ((f32 beta).add (f32 (up32 (.fin false (m * n) (e + d)))))
    | _, _ => 0x7F800000

/-- Find a problem's operands. -/
def opsOf (l : List PosOps) (q : Nat) : Option PosOps := l.find? fun o => decide (o.q = q)

/-- A result cell after a position. -/
def stepCell (shape g : Nat) (ops : List PosOps) (i : Nat) (x : Cell) : Cell :=
  let at0 := cellAt shape (i / 32) (i % 32)
  match opsOf ops at0.1 with
  | none => x
  | some o =>
    let a := opAt o.a at0.2.1
    let b := opAt o.b at0.2.2
    let y := x.take g (scaledProduct a.1 b.1 a.2.1 b.2.1)
    { y with poison := y.poison || a.2.2 || b.2.2 }

/-- A check accumulator as a cell, without β. -/
def Chk.cell (x : Chk) : Cell := { s := x.s, e := x.e, poison := x.poison, opn := x.opn }

/-- A check accumulator after a position (R102, R130, R234). -/
def stepChk (shape g : Nat) (ops : List PosOps) (i : Nat) (x : Chk) : Chk :=
  match chkAt shape (i / 2) (i % 2) with
  | none => x
  | some (q, r, c0, n) =>
    match opsOf ops q with
    | none => x
    | some o =>
      let a := opAt o.a r
      let b := (o.b.drop c0).take n
      let y := x.cell.take g (scaledProduct a.1 (f32 (checkSum b)) a.2.1 (some 0))
      { s := y.s, e := y.e, opn := y.opn, poison := y.poison || a.2.2 || (b.any fun p => p.2.2)
        beta := betaStep x.beta a (checkMag b) }

/-- Apply a function to each entry of a dense list with its index. -/
def mapIdx {α : Type} (f : Nat → α → α) : Nat → List α → List α
  | _, [] => []
  | i, x :: r => f i x :: mapIdx f (i + 1) r

/-- The array after one position. -/
def Engine.position (e : Engine) (shape g : Nat) (ops : List PosOps) : Engine :=
  { e with
    cells := Map.sparse {} 0 (mapIdx (stepCell shape g ops) 0 (Map.dense {} e.cells 0 1024))
    chk := Map.sparse {} 0 (mapIdx (stepChk shape g ops) 0 (Map.dense {} e.chk 0 64)) }

/-- Start a chain (R108): accumulators of its problems at their initial value, poison clear. -/
def Engine.startChain (e : Engine) (ch : Chain) (qs : List Nat) : Engine :=
  { e with
    chain := some ch
    cells := Map.sparse {} 0 (mapIdx (fun i (x : Cell) =>
      if qs.elem (cellAt ch.shape (i / 32) (i % 32)).1 then {} else x) 0 (Map.dense {} e.cells 0 1024))
    chk := Map.sparse {} 0 (mapIdx (fun i (x : Chk) =>
      match chkAt ch.shape (i / 2) (i % 2) with
      | some (q, _, _, _) => if qs.elem q then {} else x
      | none => {}) 0 (Map.dense {} e.chk 0 64)) }

/-! ### Running a command -/

/-- Any cell of the chain poisoned? -/
def Engine.anyPoison (e : Engine) : Bool :=
  match e.chain with
  | none => false
  | some ch =>
    (e.cells.any fun p => p.2.poison && ch.qs.elem (cellAt ch.shape (p.1 / 32) (p.1 % 32)).1)
      || (e.chk.any fun p => p.2.poison
        && match chkAt ch.shape (p.1 / 2) (p.1 % 2) with | some (q, _, _, _) => ch.qs.elem q | none => false)

/-- Show an engine in ENG_STATUS, ENG_PROGRESS and ENG_CHAINK (R116). -/
def State.showEng (s : State) (c e : Nat) : State :=
  let en := s.eng c e
  let paused := s.pausedUnit c && decide (en.q ≠ [] ∨ en.out ≠ [])
  let host := s.isSet F.UMP_CFG_enable [c] && decide (s.fld F.UMP_CFG_engine [c] = e)
  let stalled := match en.q with | q :: _ => q.started | [] => false
  let st := if en.frozen || s.dumpFrozen c e then 4 else if host then 5 else if paused then 3 else if stalled then 2
    else if en.q = [] && en.out = [] then 0 else 1
  let k := match en.chain with | some ch => ch.k.foldl Nat.max 0 | none => 0
  let s := (s.setFld F.ENG_STATUS_state [c, e] st).liveBit F.ENG_STATUS_chain [c, e] en.chain.isSome
  let s := match en.chain with
    | some ch => ((s.setFld F.ENG_STATUS_chain_shape [c, e] ch.shape).setFld F.ENG_STATUS_chain_group [c, e] ch.group
        ).setFld F.ENG_STATUS_chain_ctx [c, e] ch.ctx
    | none => ((s.setFld F.ENG_STATUS_chain_shape [c, e] 0).setFld F.ENG_STATUS_chain_group [c, e] 0
        ).setFld F.ENG_STATUS_chain_ctx [c, e] 0
  let s := (s.liveBit F.ENG_STATUS_poison [c, e] en.anyPoison).liveBit F.ENG_STATUS_commit_busy [c, e] (decide (en.out ≠ []))
  (s.setFld F.ENG_STATUS_queued [c, e] en.q.length).setPair R.ENG_CHAINK_LO R.ENG_CHAINK_HI [c, e] k

/-- The core that hosts the umpire of a worker core (10 R239): its right neighbour, wrapping in the row. -/
def hostOf (c : Nat) : Nat := c / 9 * 9 + (c % 9 + 1) % 9

/-- The worker core of an umpire's host (10 R239). -/
def workerOf (c : Nat) : Nat := c / 9 * 9 + (c % 9 + 8) % 9

/-- The umpire engine that a worker core's host has. -/
def State.umpireOf (s : State) (c : Nat) : Nat := s.fld F.UMP_CFG_engine [hostOf c]

/-- The umpire lets go of the chain it holds for an engine. -/
def State.dropUmpire (s : State) (c e : Nat) : State :=
  match (s.core c).ump.chain with
  | some (e', _) =>
    if e' = e then
      let s := s.modCore c fun k => { k with ump := { k.ump with chain := none, poison := false } }
      let s := s.modEng (hostOf c) (s.umpireOf c) fun en => { en with chain := none }
      (s.dropBit F.UMP_STAT_busy [hostOf c]).showEng (hostOf c) (s.umpireOf c)
    else s
  | none => s

/-- The umpire runs the chain it holds as the worker engine does (10 R241). -/
def State.mirrorUmpire (s : State) (c e : Nat) : State :=
  match (s.core c).ump.chain with
  | some (e', _) =>
    if e' = e then
      let en := s.eng c e
      let s := s.modEng (hostOf c) (s.umpireOf c) fun x => { x with cells := en.cells, chk := en.chk, chain := en.chain }
      let s := s.modCore c fun k => { k with ump := { k.ump with poison := k.ump.poison || en.anyPoison } }
      (s.setReg R.ENG_PROGRESS [hostOf c, s.umpireOf c] (s.reg R.ENG_PROGRESS [c, e])).showEng (hostOf c) (s.umpireOf c)
    else s
  | none => s

/-- An engine's chain ends (R108): with its launch, at an abandonment, at a reset; so does the umpire's copy. -/
def State.endChain (s : State) (c e : Nat) : State :=
  ((s.dropUmpire c e).modEng c e fun en => { en with chain := none, part := [] }).showEng c e

/-- The chains of a launch end on a core (R108). -/
def State.endChains (s : State) (c accept : Nat) : State :=
  let mine := (s.core c).eng.filter fun p => match p.2.chain with | some ch => decide (ch.accept = accept) | none => false
  s.each (mine.map fun p => p.1) fun s e => s.endChain c e

/-- An engine holds nothing any more: its chain, its commands and both output buffers go (R112). -/
def State.dropEngine (s : State) (c e : Nat) : State :=
  ((s.endChain c e).modEng c e fun en => { en with q := [], out := [] }).setReg R.ENG_PROGRESS [c, e] 0 |>.showEng c e

/-- Sampling at the first slot of an eligible chain (10 R240): is this chain sampled? -/
def State.sampleChain (s : State) (c e : Nat) (cmd : QCmd) : Bool × State :=
  let h := hostOf c
  if (mcmd cmd.word).sample && s.isSet F.UMP_CFG_enable [h]
      && decide ((cmd.idx + s.fld F.UMP_CFG_seed [h]) % 2 ^ s.fld F.UMP_CFG_rate [h] = 0) then
    match (s.core c).ump.chain with
    | none =>
      (true, (s.modCore c fun k => { k with ump := { k.ump with chain := some (e, cmd.idx), poison := false } }).raiseBit
        F.UMP_STAT_busy [h])
    | some _ => (false, s.bump F.UMP_STAT_busy_skips [h] 1)
  else (false, s)

/-- Begin a command: start its chain, or go on with the one held (R108); a QUAD descriptor is held as it was read (R99). -/
def State.beginMatrix (s : State) (c e : Nat) (cmd : QCmd) (ctx : Nat) (desc : Bytes) (ps : List Problem) : State :=
  let m := mcmd cmd.word
  let s :=
    if m.keep then s
    else
      let (smp, s) := (s.dropUmpire c e).sampleChain c e cmd
      s.modEng c e fun en => en.startChain
        { accept := cmd.accept, ctx := ctx, shape := m.shape, group := m.group, sampled := smp, index := cmd.ord }
        (ps.map fun p => p.q)
  let s := (s.traceBegin c cmd).setReg R.ENG_PROGRESS [c, e] 0
  s.modEng c e fun en => { en with
    q := modifyAt (fun q => { q with started := true, desc := desc }) 0 en.q
    part := []
    noProgress := 0
    chain := en.chain.map fun ch => { ch with
      qs := ch.qs ++ ((ps.map fun p => p.q).filter fun q => !ch.qs.elem q) } }

/-- The held scales of a problem, or none held. -/
def heldOf (l : List (List (Option Int × Bool))) (q n : Nat) : List (Option Int × Bool) :=
  match l.getD q [] with | [] => unitScale n | x => x

/-- Put problem q's held scales. -/
def putHeld (l : List (List (Option Int × Bool))) (q : Nat) (x : List (Option Int × Bool)) : List (List (Option Int × Bool)) :=
  (iota 0 4).map fun i => if i = q then x else l.getD i []

/-- What a position of a problem needs: elements of A and B, and scales where it begins a block (R104). -/
structure PosNeeds where
  a : Need
  b : Need
  sa : Option Need
  sb : Option Need
  deriving DecidableEq, Repr

/-- What position i of the instruction needs of each stream of a problem; nothing once its K is over. -/
def posNeeds (m : MCmd) (p : Problem) (k0 i : Nat) : Option PosNeeds :=
  match inFmt m.aFmt, inFmt m.bFmt with
  | some (_, wa, sa, _), some (_, wb, sb, _) =>
    if i < p.k then
      let new := decide ((k0 + i) % 32 = 0)
      let blk := (k0 + i) / 32 - (k0 + 31) / 32
      some {
        a := ⟨4 * p.q, p.a, i * p.rows * wa / 8, p.rows * wa / 8⟩
        b := ⟨4 * p.q + 1, p.b, i * p.cols * wb / 8, p.cols * wb / 8⟩
        sa := if sa && new then some ⟨4 * p.q + 2, p.aScale, blk * p.rows, p.rows⟩ else none
        sb := if sb && new then some ⟨4 * p.q + 3, p.bScale, blk * p.cols, p.cols⟩ else none }
    else none
  | _, _ => none

/-- The needs as a list, in the order in which they are read. -/
def PosNeeds.all (x : PosNeeds) : List Need := [x.a, x.b] ++ x.sa.toList ++ x.sb.toList

/-- Read the operands of position i of one problem. -/
def State.readPos (s : State) (c e : Nat) (m : MCmd) (p : Problem) (k0 i : Nat) : Option PosOps × State :=
  match inFmt m.aFmt, inFmt m.bFmt, posNeeds m p k0 i with
  | some (fa, wa, sa, _), some (fb, wb, sb, _), some x =>
      let (ab, s) := s.streamTake c e x.a
      let (bb, s) := s.streamTake c e x.b
      let new := decide ((k0 + i) % 32 = 0)
      let (asb, s) := s.streamTakeOpt c e x.sa
      let (bsb, s) := s.streamTakeOpt c e x.sb
      let s := s.modEng c e fun en => { en with chain := en.chain.map fun ch => { ch with
        heldA := if new then putHeld ch.heldA p.q (if sa then scales asb else []) else ch.heldA
        heldB := if new then putHeld ch.heldB p.q (if sb then scales bsb else []) else ch.heldB } }
      let ch := (s.eng c e).chain
      let scA := match ch with | some ch => if sa then heldOf ch.heldA p.q p.rows else unitScale p.rows | none => unitScale p.rows
      let scB := match ch with | some ch => if sb then heldOf ch.heldB p.q p.cols else unitScale p.cols | none => unitScale p.cols
      let join := fun (x : (FVal × Bool) × (Option Int × Bool)) => (x.1.1, x.2.1, x.1.2 || x.2.2)
      (some { q := p.q, a := ((elements fa wa p.rows ab).zip scA).map join, b := ((elements fb wb p.cols bb).zip scB).map join }, s)
  | _, _, _ => (none, s)

/-- Read position i of every problem. -/
def State.readAll (s : State) (c e : Nat) (m : MCmd) (k0 : Nat → Nat) (i : Nat) : List Problem → List PosOps × State
  | [] => ([], s)
  | p :: r =>
    let (o, s) := s.readPos c e m p (k0 p.q) i
    let (l, s) := s.readAll c e m k0 i r
    ((match o with | some o => o :: l | none => l), s)

/-- Run positions until the longest problem ends or a ring lacks a byte, when every cell holds in place with what has been
read (R106). -/
def State.runPositions (s : State) (c e : Nat) (m : MCmd) (ps : List Problem) (k0 : Nat → Nat) (len : Nat) : Nat → State
  | 0 => s
  | fuel + 1 =>
    let i := len - (fuel + 1)
    let needs := ps.flatMap fun p => match posNeeds m p (k0 p.q) i with | some x => x.all | none => []
    let s := s.each needs fun s x => s.fetchPart c e x
    if !needs.all (s.eng c e).complete then s
    else
      let (ops, s) := s.readAll c e m k0 i ps
      let s := s.modEng c e fun en =>
        let en := en.position m.shape (groupSize m.group) ops
        { en with
          q := modifyAt (fun q => { q with done := q.done + 1 }) 0 en.q
          noProgress := 0
          chain := en.chain.map fun ch => { ch with
            k := (iota 0 4).map fun q => ch.k.getD q 0 + if (ps.any fun p => decide (p.q = q ∧ i < p.k)) then 1 else 0 } }
      (s.setReg R.ENG_PROGRESS [c, e] (BitVec.ofNat 32 (i + 1))).runPositions c e m ps k0 len fuel

/-- The drain latches of an emit: every result cell and check accumulator of its problems, with an open group closed
into s and e (R109, R124, R235). -/
def Engine.drain (e : Engine) (shape : Nat) (qs : List Nat) : List Drained × List Drained :=
  ((iota 0 1024).filterMap fun i =>
      if qs.elem (cellAt shape (i / 32) (i % 32)).1 then
        let x := Map.getD {} e.cells i
        some { row := i / 32, col := i % 32, s := x.value.1, e := x.value.2, poison := x.poison }
      else none,
   (iota 0 64).filterMap fun i =>
      match chkAt shape (i / 2) (i % 2) with
      | some (q, _, _, _) =>
        if qs.elem q then
          let x := Map.getD {} e.chk i
          some { row := i / 2, col := 32 + i % 2, s := x.cell.value.1, e := x.cell.value.2, beta := x.beta, poison := x.poison }
        else none
      | none => none)

/-- The tiles of an emit, in problem order (10 R249). -/
def tilesOf (m : MCmd) (ps : List Problem) : List Tile :=
  let n := match outFmtOf m.outFmt with | some (_, n) => n | none => 4
  ps.map fun p =>
    { row0 := if m.shape = 1 then 16 * (p.q / 2) else 0, col0 := if m.shape = 1 then 16 * (p.q % 2) else 0
      rows := p.rows, cols := p.cols, dst := p.dst, pitch := pitchBytes p n }

/-- The command has handled its last slot: an emit drains into an output buffer (R109), and the command leaves the
engine; its emit completes with EMIT_COMMIT (R111). -/
def State.endMatrix (s : State) (c e : Nat) (cmd : QCmd) (ctx : Nat) (ps : List Problem) : State :=
  let m := mcmd cmd.word
  let s := if m.emit then s else s.traceEnd c 0 cmd.done cmd
  s.modEng c e fun en =>
    let en := { en with q := en.q.tail, part := [] }
    if m.emit then
      let d := en.drain m.shape (ps.map fun p => p.q)
      let ch := en.chain.getD { accept := cmd.accept, ctx := ctx, shape := m.shape, group := m.group }
      let b : OutBuf := {
        cmd := cmd
        ctx := ctx
        shape := m.shape
        group := m.group
        outFmt := m.outFmt
        watch := if m.watchEn then some m.watchId else none
        sampled := ch.sampled
        index := ch.index
        k := ch.k
        tiles := tilesOf m ps
        cells := d.1
        chk := d.2
        poison := en.anyPoison }
      { en with out := en.out ++ [b] }
    else en

/-- Run the head of an engine's queue if it has the given shape: wait, refuse it as a format error, or run it as far as
its rings allow. -/
def State.runMatrix (s : State) (c e shape : Nat) : State :=
  match (s.eng c e).q with
  | [] => s
  | cmd :: _ =>
    let m := mcmd cmd.word
    let ctx := wbits cmd.word 251 240
    if m.shape ≠ shape || !s.unitRuns c e cmd.tag || (s.eng c e).frozen || (m.emit && decide (2 ≤ (s.eng c e).out.length)) then s
    else
      let (desc, s) :=
        if cmd.started then (clean cmd.desc, s)
        else if m.shape = 1 && decide (m.aAddr % 128 = 0) && inData m.aAddr 128 then s.storeRead c m.aAddr 128 else ([], s)
      if anyPoison desc && !cmd.started then
        let s := (s.traceEnd c 1 0 cmd).modEng c e fun en => { en with q := en.q.tail }
        match s.crewOf c with
        | some n => (s.poisonFault n { (s.fault0 2 1 0x0214).atCore s c with
            unit := e, space := 2, addr := m.aAddr, loc := e, detail := (desc.filter fun p => p.2).length / 8 }).showEng c e
        | none => s.showEng c e
      else if !cmd.started && s.matrixBad c e cmd ctx (plain desc) then
        (((s.traceEnd c 2 0 cmd).modEng c e fun en => { en with q := en.q.tail }).formatError c cmd.accept).showEng c e
      else
        let ps := problems m (plain desc)
        let s := if cmd.started then s else s.beginMatrix c e cmd ctx (plain desc) ps
        let base := (s.eng c e).chain
        let k0 := fun q => match base with
          | some ch => ch.k.getD q 0 - (match ps.find? fun p => decide (p.q = q) with | some p => Nat.min cmd.done p.k | none => 0)
          | none => 0
        let len := (ps.map fun p => p.k).foldl Nat.max 0
        let s := s.runPositions c e m ps k0 len (len - cmd.done)
        match (s.eng c e).q with
        | now :: _ => ((if now.done = len then s.endMatrix c e now ctx ps else s).showEng c e).mirrorUmpire c e
        | [] => s.showEng c e

/-- MATRIX_FULL (R98). -/
def execMatrixFull (core eng : Nat) (s : State) : Host.Outcome State Fault Refusal :=
  .next (((s.runMatrix core eng 0).settleCore core).showDma core)

/-- MATRIX_QUAD (R99). -/
def execMatrixQuad (core eng : Nat) (s : State) : Host.Outcome State Fault Refusal :=
  .next (((s.runMatrix core eng 1).settleCore core).showDma core)

/-- MATRIX_WIDE (R100). -/
def execMatrixWide (core eng : Nat) (s : State) : Host.Outcome State Fault Refusal :=
  .next (((s.runMatrix core eng 2).settleCore core).showDma core)

/-! ### The sum check (10 R235, R236) -/

/-- binary64 sum, round to nearest even. -/
def add64 (a b : FVal) : FVal := fFP64.round (a.add b)

/-- Round a non-negative value up to binary64. -/
def up64 (v : FVal) : FVal :=
  match v with
  | .fin _ m e =>
    if m = 0 then .fin false 0 0
    else
      let l := flog2 m e
      let u := (if l < fFP64.emin then fFP64.emin else l) - 52
      if u ≤ e then .fin false m e
      else
        let k := (u - e).toNat
        let sig := m / 2 ^ k + if m % 2 ^ k = 0 then 0 else 1
        if 1023 < flog2 sig u then .inf false else .fin false sig u
  | v => v

/-- What the comparator finds of a row: nothing to compare, skipped, passed, mismatched. -/
inductive RowCheck | none | skipped | passed | mismatch
  deriving DecidableEq, Repr

/-- Compare physical row r of an emit (R235, R236). -/
def checkRow (auto : Bool) (tol : Nat) (shape g : Nat) (k : List Nat) (cells chk : List Drained) (r : Nat) : RowCheck :=
  let cs := cells.filter fun d => decide (d.row = r)
  let ks := chk.filter fun d => decide (d.row = r)
  if cs = [] then .none
  else if ((cs ++ ks).any fun d => d.poison || (f32 d.s).isNan || (f32 d.s).isInf || (f32 d.e).isNan || (f32 d.e).isInf)
      || (ks.any fun d => (f32 d.beta).isInf) then .skipped
  else
    let sum := cs.foldl (fun v d => add64 (add64 v (f32 d.s)) (f32 d.e)) (.fin false 0 0)
    let delta := (ks.foldl (fun v d => add64 (add64 v (f32 d.s).neg) (f32 d.e).neg) sum).abs
    let beta := ks.foldl (fun v d => up64 (v.add (f32 d.beta))) (.fin false 0 0)
    let qs := ks.filterMap fun d => (chkAt shape d.row (d.col - 32)).map fun p => p.1
    let n := (qs.map fun q => ceilDiv (k.getD q 0) g).foldl Nat.max 0
    let rho := if auto then up64 ((FVal.fin false 1 (-18)).add (up64 (.fin false (n * n) (-46)))) else .fin false 1 (-(Int.ofNat tol))
    let t := up64 ((up64 (beta.mul rho)).add (.fin false n (-143)))
    if t.lt delta then .mismatch else .passed

/-- All rows of an emit. -/
def State.checkRows (s : State) (c : Nat) (b : OutBuf) (cells chk : List Drained) : List RowCheck :=
  (iota 0 32).map (checkRow (s.isSet F.ENG_SCHK_auto [c]) (s.fld F.ENG_SCHK_tol_shift [c]) b.shape (groupSize b.group) b.k cells chk)

/-- The first row that mismatches. -/
def firstMismatch : Nat → List RowCheck → Option Nat
  | _, [] => none
  | i, .mismatch :: _ => some i
  | i, _ :: r => firstMismatch (i + 1) r

/-- An error of the silicon on drained values. -/
def upsetCells (who : Who) (us : List Upset) (l : List Drained) : List Drained :=
  l.map fun d => us.foldl (fun d u =>
    if u.who = who ∧ u.row = d.row ∧ u.col = d.col then
      if u.errTerm then { d with e := d.e ^^^ BitVec.ofNat 32 (2 ^ (u.bit % 32)) }
      else { d with s := d.s ^^^ BitVec.ofNat 32 (2 ^ (u.bit % 32)) }
    else d) d

/-! ### Tiles, digests and watch slots (10 R249 to R252) -/

/-- The rows of a tile as rounded bytes with poison, from the drained cells (R109). -/
def tileRows (b : OutBuf) (t : Tile) (cells : List Drained) : List (List (Byte × Bool)) :=
  match outFmtOf b.outFmt with
  | none => []
  | some (f, n) =>
    (iota 0 t.rows).map fun i => (iota 0 t.cols).flatMap fun j =>
      let r := if b.shape = 2 then 8 * (j / 32) + i else t.row0 + i
      let cc := if b.shape = 2 then j % 32 else t.col0 + j
      match cells.find? fun d => decide (d.row = r ∧ d.col = cc) with
      | some d => (natLe n (emitWord f (d.s, d.e))).map fun x => (x, d.poison)
      | none => (natLe n 0).map fun x => (x, false)

/-- Digest of an emit for the umpire's comparison: the tiles' canonical bytes with a prefix of 16 zero bytes each (10
R241). -/
def emitDigest (b : OutBuf) (cells : List Drained) : Nat :=
  (crc64 (b.tiles.flatMap fun t => List.replicate 16 0 ++ plain (tileRows b t cells).flatten)).toNat

/-- Saturate a signed sum of 320 bits (R251). -/
def satSum (x : Int) : Int × Bool :=
  if 2 ^ 319 ≤ x then (2 ^ 319 - 1, true) else if x < -(2 ^ 319) then (-(2 ^ 319), true) else (x, false)

/-- Saturate a sum of squares of 640 bits. -/
def satSq (x : Nat) : Nat × Bool := if 2 ^ 640 ≤ x then (2 ^ 640 - 1, true) else (x, false)

/-- Least of two FP32 extremes, NaN standing for none. -/
def minWord (a b : Word) : Word := if (f32 a).isNan then b else if (f32 b).isNan then a else to32 ((f32 a).min (f32 b))

/-- Greatest of two FP32 extremes. -/
def maxWord (a b : Word) : Word := if (f32 a).isNan then b else if (f32 b).isNan then a else to32 ((f32 a).max (f32 b))

/-- A value as a multiple of 2^-149 (exact for every FP32 value). -/
def units149 (v : FVal) : Int := match v with | .fin a m e => signed a (m * 2 ^ (e + 149).toNat) | _ => 0

/-- One element into a watch partial (R251). -/
def Watch.element (w : Watch) (v : FVal) : Watch :=
  let w := { w with elements := w.elements + 1 }
  match v with
  | .nan => { w with nans := w.nans + 1 }
  | .inf _ => { w with infs := w.infs + 1, mn := minWord w.mn (to32 v), mx := maxWord w.mx (to32 v) }
  | .fin _ m _ =>
    let x := units149 v
    let a := satSum (w.sum + x)
    let q := satSq (w.sumsq + (x * x).toNat)
    { w with zeros := w.zeros + (if m = 0 then 1 else 0), mn := minWord w.mn (to32 v), mx := maxWord w.mx (to32 v)
             sum := a.1, sumsq := q.1, overflow := w.overflow || a.2 || q.2 }

/-- Elements of a run of bytes. -/
def elemsOf (n : Nat) : Nat → Bytes → List Nat
  | 0, _ => []
  | k + 1, b => leNat (b.take n) :: elemsOf n k (b.drop n)

/-- One tile into a watch partial: its digest and statistics, or its poison count alone (R250 to R252). -/
def Watch.tile (w : Watch) (f : Fmt) (n : Nat) (coord : Bytes) (body : List (Byte × Bool)) : Watch :=
  if Machine.anyPoison body then { w with poisoned := w.poisoned + 1 }
  else
    let w := (elemsOf n (body.length / n) (plain body)).foldl (fun w x => w.element (f.decode x)) w
    { w with tiles := w.tiles + 1, digest := w.digest ^^^ (crc64 (coord ++ plain body)).toNat }

/-- Pass a tile to its watch slot with the next coordinate entry of the core's list (R249). -/
def State.watchTile (s : State) (c w outFmt : Nat) (body : List (Byte × Bool)) : State :=
  match outFmtOf outFmt with
  | none => s
  | some (f, n) =>
    if s.isSet F.WCH_COORD_valid [c, w] then
      let cur := Map.getD 0 (s.core c).cursors w
      let (co, s) := s.storeRead c (s.fld F.WCH_COORD_base [c, w] * 16 + 16 * cur) 16
      s.modCore c fun k => { k with
        cursors := Map.setD 0 k.cursors w ((cur + 1) % 2 ^ s.fld F.WCH_COORD_log2_entries [c, w])
        watch := Map.setD {} k.watch w ((Map.getD {} k.watch w).tile f n (plain co) body) }
    else s

/-! ### EMIT_COMMIT -/

/-- A package that cannot localise a mismatch is to be drained at the next boundary (10 R246; 11 R281). -/
def State.suspect (s : State) : State := s.setFlt { s.flt with pendingDrain := some (true, 1) }

/-- The body of a VERIFY record of the logbook: verdict, and the suspect chain by core, engine, issue index and accept
number (10 R244; 14 R350). -/
def verifyBody (verdict core eng index accept : Nat) : Bytes :=
  [BitVec.ofNat 8 verdict, BitVec.ofNat 8 core, BitVec.ofNat 8 eng, 0] ++ natLe 4 index ++ natLe 8 accept

/-- A mismatch that no diagnostic replay will localise (10 R247): the package is suspect. The logbook names the suspect chain
with verdict 0, there being none: DESIGN CHOICE (assumption log 27). -/
def State.unlocalised (s : State) (c e accept index : Nat) : State :=
  s.suspect.trigger { cls := 4, body := verifyBody 0 c e index accept }

/-- A sum-check or umpire mismatch (10 R244 to R247): the fault, the crew's stop, and the diagnostic replay to come or
the suspect package. A further mismatch before that replay runs joins it where it is of the same engine, and is otherwise
left to the replay: DESIGN CHOICE (assumption log 27). -/
def State.mismatch (s : State) (c e : Nat) (byUmpire : Bool) (accept index : Nat) : State :=
  match s.crewOf c with
  | none => s
  | some n =>
    let k := s.crew n
    let l := k.launches.find? fun l => decide (l.accept = accept)
    let s := s.raiseFault { ((s.fault0 4 2 (if byUmpire then 0x0402 else 0x0401)).charge n l).atCore s c with
      unit := e, loc := e, detail := c / 9 }
    match k.diag with
    | some d =>
      if d.running || k.unprot then s.unlocalised c e accept index
      else if d.core = c ∧ d.eng = e then s.modCrew n fun k => { k with diag := some { d with byUmpire := d.byUmpire || byUmpire } }
      else s
    | none =>
      if k.unprot then s.unlocalised c e accept index
      else s.modCrew n fun k => { k with diag := some {
        core := c, eng := e, accept := accept, index := index, byUmpire := byUmpire
        offset := s.stk.num - (k.stepStart + k.delta), shadows := s.isSet F.GLB_REMAP_HI_spare_avail [c / 9] } }

/-- The diagnostic replay in whose shadowed span an emit of this engine falls (10 R245). -/
def State.shadowed (s : State) (c e : Nat) : Option Diag :=
  match s.crewOf c with
  | some n =>
    match (s.crew n).diag with
    | some d =>
      if d.running && decide (d.core = c) && decide (d.eng = e)
          && decide (s.stk.num ≤ (s.crew n).stepStart + (s.crew n).delta + d.offset) then some d
      else none
    | none => none
  | none => none

/-- Write the rows of a tile to core store. -/
def State.writeRows (s : State) (c dst pitch : Nat) : List (List (Byte × Bool)) → State
  | [] => s
  | r :: rs => (s.storeWrite c dst r).writeRows c (dst + pitch) pitch rs

/-- Commit a buffer: every tile to core store, then to the watch unit; poisoned cells make it a poison fault (R109; 11
R266). -/
def State.commitTiles (s : State) (c e : Nat) (b : OutBuf) (cells : List Drained) : State :=
  let s := s.each b.tiles fun s t => s.writeRows c t.dst t.pitch (tileRows b t cells)
  let s := match b.watch with
    | some w => s.each b.tiles fun s t => s.watchTile c w b.outFmt (tileRows b t cells).flatten
    | none => s
  let bad := (b.tiles.flatMap fun t => (tileRows b t cells).flatMap fun r => r).filter fun p => p.2
  if bad = [] then s
  else
    match s.crewOf c with
    | some n => s.poisonFault n { (s.fault0 2 1 0x0210).atCore s c with
        unit := e, space := 2, loc := e, addr := (b.tiles.map fun t => t.dst).headD 0, detail := (bad.length + 7) / 8 }
    | none => s

/-- Count the rows of a check (R236; 15 R373). -/
def State.countRow (c e : Nat) (s : State) (r : RowCheck) : State :=
  match r with
  | .none => s
  | .skipped => (s.bump F.ENG_SCHK_skipped [c] 1).pmcCore c 0x0D (some e)
  | .passed | .mismatch => s.pmcCore c 0x0C (some e)

/-- Count the row checks of a buffer. -/
def State.countRows (s : State) (c e : Nat) (rows : List RowCheck) : State := s.each rows (State.countRow c e)

/-- Note what the computations of an output tile gave, in the diagnostic replay of the core's crew (R241). -/
def State.noteObs (s : State) (c : Nat) (o : Obs) : State :=
  match s.crewOf c with
  | some n => s.modCrew n fun k => { k with diag := k.diag.map fun (d : Diag) => { d with obs := d.obs ++ [o] } }
  | none => s

/-- What an emit gave: digests of the worker, the umpire and the shadows, the worker's and the umpire's failed sum checks, and
those of the shadows; whether the umpire followed the chain. -/
structure EmitSeen where
  worker : Nat
  umpire : Nat
  z0 : Nat
  z1 : Nat
  wFail : Bool
  uFail : Bool
  fail0 : Bool
  fail1 : Bool
  follows : Bool
  deriving DecidableEq, Repr

/-- What a diagnostic replay of the worker engine notes of an emit (10 R245, R246). -/
def EmitSeen.ofWorker (x : EmitSeen) (d : Diag) : Obs :=
  { eDiff := (d.shadows || x.follows) && decide (x.worker ≠ (if d.shadows then x.z0 else x.umpire))
    uDiff := x.follows && decide (x.umpire ≠ (if d.shadows then x.z0 else x.worker))
    sDiff := decide (x.z0 ≠ x.z1)
    eFail := x.wFail
    uFail := x.uFail
    s0Fail := x.fail0
    s1Fail := x.fail1 }

/-- What a diagnostic replay of the umpire engine, as the suspect of a sum check, notes of an emit. -/
def EmitSeen.ofUmpire (x : EmitSeen) (d : Diag) : Obs :=
  { eDiff := d.shadows && decide (x.umpire ≠ x.z0)
    uDiff := false
    sDiff := decide (x.z0 ≠ x.z1)
    eFail := x.uFail
    uFail := false
    s0Fail := x.fail0
    s1Fail := x.fail1 }

/-- Every computation of an emit, with the errors of the silicon; those of the shadows where they take part. -/
def State.seen (s : State) (c : Nat) (b : OutBuf) (ups : List Upset) (rows urows : List RowCheck) (follows shadows : Bool) :
    EmitSeen :=
  let digest := fun (w : Who) => emitDigest b (upsetCells w ups b.cells)
  let fails := fun (w : Who) => (firstMismatch 0 (s.checkRows c b (upsetCells w ups b.cells) (upsetCells w ups b.chk))).isSome
  { worker := digest .worker
    umpire := if follows then digest .umpire else 0
    z0 := if shadows then digest .s0 else 0
    z1 := if shadows then digest .s1 else 0
    wFail := (firstMismatch 0 rows).isSome
    uFail := follows && (firstMismatch 0 urows).isSome
    fail0 := shadows && fails .s0
    fail1 := shadows && fails .s1
    follows := follows }

/-- A failed sum check is counted in its core (10 R238). -/
def State.countFail (s : State) (c : Nat) (fail : Bool) : State :=
  if fail then (s.bump F.ENG_SCHK_mismatches [c] 1).raiseBit F.ENG_SCHK_mis_hist [c] else s

/-- A failed sum check freezes its engine and is a mismatch of it (10 R238, R244). -/
def State.freezeEng (s : State) (c e accept index : Nat) : State :=
  ((s.modEng c e fun en => { en with frozen := true }).mismatch c e false accept index).showEng c e

/-- EMIT_COMMIT (R109; 10 R235, R238, R241): the oldest full buffer of an engine is checked row by row, and its copy in the
umpire that followed the chain; a mismatch freezes its engine, and that of the worker withholds the commit, except in the
shadowed span of a diagnostic replay, which records what each computation gave. `upsets` are the errors of the silicon. -/
def State.emitCommit (s : State) (c e : Nat) (ups : List Upset) : State :=
  let en := s.eng c e
  match en.out with
  | [] => s
  | b :: rest =>
    if !s.coreWorks c || en.frozen then s
    else
      let wc := upsetCells .worker ups b.cells
      let wk := upsetCells .worker ups b.chk
      let rows := s.checkRows c b wc wk
      let s := s.countRows c e rows
      let h := hostOf c
      let u := s.umpireOf c
      let urows := s.checkRows h b (upsetCells .umpire ups b.cells) (upsetCells .umpire ups b.chk)
      let wDiag := s.shadowed c e
      let uDiag := if b.sampled then (s.shadowed h u).filter fun d => !d.byUmpire else none
      let follows := b.sampled || (match wDiag with | some d => d.byUmpire | none => false)
      let shadows := match wDiag.or uDiag with | some d => d.shadows | none => false
      let x := s.seen c b ups rows urows follows shadows
      let s := if follows then s.countRows h u urows else s
      let s := (s.countFail c x.wFail).countFail h x.uFail
      let s := match wDiag with
        | some d => s.noteObs c (x.ofWorker d)
        | none => match uDiag with | some d => s.noteObs h (x.ofUmpire d) | none => s
      let s := if x.uFail && wDiag.isNone && uDiag.isNone then s.freezeEng h u b.cmd.accept b.index else s
      let s := s.modEng c e fun en => { en with out := rest }
      if x.wFail && wDiag.isNone then (s.traceEnd c 1 b.cmd.done b.cmd).freezeEng c e b.cmd.accept b.index
      else
        let s := (s.commitTiles c e b wc).traceEnd c 0 b.cmd.done b.cmd
        let s := if b.sampled then
            let cmp : UmpCmp := {
              stroke := s.stk.num, eng := e, accept := b.cmd.accept, index := b.index, row := c / 9, worker := x.worker
              umpire := x.umpire, poison := b.poison, umpFail := x.uFail, shadow := wDiag.isSome || uDiag.isSome }
            s.modCore c fun k => { k with ump := { k.ump with pend := k.ump.pend ++ [cmp] } }
          else s
        s.showEng c e

/-- EMIT_COMMIT (R109). -/
def execEmitCommit (core eng : Nat) (upsets : List Upset) (s : State) : Host.Outcome State Fault Refusal :=
  .next ((s.emitCommit core eng upsets).settleCore core)

/-! ### Debug access (R117) -/

/-- May the accumulators of an engine be reached: debug personality, engine idle or frozen? -/
def State.accOpen (s : State) (c e : Nat) : Bool :=
  let st := s.fld F.ENG_STATUS_state [c, e]
  s.isSet F.GLB_PERS_debug [] && (decide (st = 0) || decide (st = 4))

/-- The word that ENG_ACC_SEL selects. -/
def State.accData (s : State) (c e : Nat) : Word :=
  let row := s.fld F.ENG_ACC_SEL_row [c, e]
  let col := s.fld F.ENG_ACC_SEL_col [c, e]
  let w := s.fld F.ENG_ACC_SEL_word [c, e]
  if !s.accOpen c e then 0
  else if col < 32 then
    let x := Map.getD {} (s.eng c e).cells (32 * row + col)
    if w = 0 then x.s else if w = 1 then x.e else if w = 2 then (if x.poison then 1 else 0) else 0
  else if col < 34 then
    let x := Map.getD {} (s.eng c e).chk (2 * row + (col - 32))
    if w = 0 then x.s else if w = 1 then x.e else if w = 2 then (if x.poison then 1 else 0) else 0
  else 0

/-- ENG_ACC_DATA_WRITE (R117): the selected word takes exactly the bits written; the flags word sets or clears the
poison bit. In any other state the write is ignored, and in a stopped domain it is stray (01 R35). -/
def execEngAccDataWrite (core eng : Nat) (v : BitVec 32) (s : State) : Host.Outcome State Fault Refusal :=
  let row := s.fld F.ENG_ACC_SEL_row [core, eng]
  let col := s.fld F.ENG_ACC_SEL_col [core, eng]
  let w := s.fld F.ENG_ACC_SEL_word [core, eng]
  let s := s.fromHost 4
  if s.strayAt (R.ENG_ACC_DATA.addr [core, eng]) then .next s.stray
  else if !s.accOpen core eng then .next s
  else if col < 32 then
    .next ((s.modEng core eng fun en =>
      let x := Map.getD {} en.cells (32 * row + col)
      let y := if w = 0 then { x with s := v } else if w = 1 then { x with e := v }
        else if w = 2 then { x with poison := decide (v.toNat % 2 = 1) } else x
      { en with cells := Map.setD {} en.cells (32 * row + col) y }).showEng core eng)
  else if col < 34 then
    .next ((s.modEng core eng fun en =>
      let x := Map.getD {} en.chk (2 * row + (col - 32))
      let y := if w = 0 then { x with s := v } else if w = 1 then { x with e := v }
        else if w = 2 then { x with poison := decide (v.toNat % 2 = 1) } else x
      { en with chk := Map.setD {} en.chk (2 * row + (col - 32)) y }).showEng core eng)
  else .next s

end Sys2Proof.Machine
end

