-- ==== Sys2Proof/Machine/Counters.lean ====
section
/-!
DEFINITION. Performance-counter records: what a dump set and a counter window hold (15 R375, R376).
-/
namespace Sys2Proof.Machine

/-- A core record, 128 B (R375). -/
def State.coreRecord (s : State) (c : Nat) : Bytes :=
  [BitVec.ofNat 8 c, BitVec.ofNat 8 ((s.crewOf c).getD 0xFF)] ++ natLe 2 (s.reg R.PMC_OVF_CORE [c]).toNat ++ natLe 4 0
    ++ ((iota 0 16).flatMap fun k => natLe 6 (Map.getD 0 s.pmc.counts (R.PMC_CNT_LO_CORE.addr [c, k])))
    ++ ((iota 0 16).map fun k => BitVec.ofNat 8 (s.fld F.PMC_SEL_CORE_event [c, k])) ++ natLe 8 0

/-- An I/O die record, 256 B (R375). -/
def State.dieRecord (s : State) (d : Nat) : Bytes :=
  natLe 4 (d + 1) ++ natLe 4 (s.reg R.PMC_OVF_IOD [d]).toNat
    ++ ((iota 0 32).flatMap fun k => natLe 6 (Map.getD 0 s.pmc.counts (R.PMC_CNT_LO_IOD.addr [d, k])))
    ++ ((iota 0 32).map fun k => BitVec.ofNat 8 (s.fld F.PMC_SEL_IOD_event [d, k])) ++ natLe 24 0

/-- The byte at an offset of crew n's counter window: the record of each member core at 128 × its index, else 0 (R376). -/
def State.windowByte (s : State) (n off : Nat) : Byte :=
  if off / 128 < 144 ∧ s.crewOf (off / 128) = some n then (s.coreRecord (off / 128)).getD (off % 128) 0 else 0

/-- Live bytes of crew n's counter window. -/
def State.windowBytes (s : State) (n off len : Nat) : Bytes := (iota off len).map (s.windowByte n)

/-- COUNTER_WINDOW_READ (R376): a DMA read of a crew's window is served from the live counters. -/
def execCounterWindowRead (crew off len : Nat) (s : State) : Host.Outcome State Fault Refusal :=
  if s.isSet F.PMC_CREW_permit [crew] && s.works crew && decide (off + len ≤ 32768) then
    .next (s.giveHost (s.windowBytes crew off len) false)
  else .next s

end Sys2Proof.Machine
end

