-- ==== Sys2Proof/Machine/Dma.lean ====
section
/-!
DEFINITION. The DMA engine (06 R150 to R160; 07 R177 to R179; 08 R215) with its MX codec, and the commands that open
collectives.
-/
namespace Sys2Proof.Machine

/-! ### The MX codec (06 R157 to R159) -/

/-- Quantise one block of 32 elements: its scale byte and element codes (R157). -/
def quantBlock (f : Fmt) (emax : Int) (xs : List FVal) : Nat × List Nat :=
  if xs.any fun v => v.isNan || v.isInf then (0xFF, xs.map fun _ => 0)
  else
    let top := xs.foldl (fun m v => if m.lt v.abs then v.abs else m) (.fin false 0 0)
    match top with
    | .fin _ m e =>
      if m = 0 then (0, xs.map f.rne)
      else
        let x := flog2 m e - emax
        let x := if x < -127 then -127 else x
        ((x + 127).toNat, xs.map fun v => f.rne (v.scale (-x)))
    | _ => (0xFF, xs.map fun _ => 0)

/-- Pack element codes of w bits into bytes, first element in the lowest bits; a byte that holds part of a poisoned
element is poisoned (04 R104). -/
def packBits (w : Nat) (l : List (Nat × Bool)) : List (Byte × Bool) :=
  let x := (l.foldr (fun p acc => acc * 2 ^ w + p.1 % 2 ^ w) 0)
  let n := (l.length * w + 7) / 8
  (natLe n x).zipIdx.map fun p =>
    (p.1, (l.drop (8 * p.2 / w)).take ((8 * p.2 + 7) / w + 1 - 8 * p.2 / w) |>.any fun q => q.2)

/-- Elements of w bits of a packed row. -/
def unpackBits (w n : Nat) (bs : List (Byte × Bool)) : List (Nat × Bool) :=
  let x := leNat (plain bs)
  (iota 0 n).map fun i =>
    (bits x (w * i + w - 1) (w * i), anyPoison ((bs.drop (w * i / 8)).take ((w * i + w + 7) / 8 - w * i / 8)))

/-- Split a list into runs of n. -/
def runsOf {α : Type} (n : Nat) : Nat → List α → List (List α)
  | 0, _ => []
  | k + 1, l => l.take n :: runsOf n k (l.drop n)

/-- Columns of a block of rows. -/
def columns {α : Type} (d : α) (n : Nat) (rows : List (List α)) : List (List α) :=
  (iota 0 n).map fun j => rows.map fun r => r.getD j d

/-- The blocks of a matrix of rows: along each row, or down each element position of 32 rows (R159). -/
def blocksOf {α : Type} (axis : Nat) (d : α) (n : Nat) (rows : List (List α)) : List (List α) :=
  if axis = 0 then rows.flatMap fun r => runsOf 32 (n / 32) r
  else (runsOf 32 (rows.length / 32) rows).flatMap (columns d n)

/-- The rows of a matrix from its blocks. -/
def rowsOf {α : Type} (axis : Nat) (d : α) (n rows : Nat) (blocks : List (List α)) : List (List α) :=
  if axis = 0 then (runsOf (n / 32) rows blocks).map fun r => r.flatten
  else (runsOf n (rows / 32) blocks).flatMap fun g => columns d 32 g

/-- Quantise rows of values: packed rows and the scale area. -/
def quantRows (f : Fmt) (w : Nat) (emax : Int) (axis n : Nat) (rows : List (List (FVal × Bool))) :
    List (List (Byte × Bool)) × List (Byte × Bool) :=
  let bs := (blocksOf axis (.nan, false) n rows).map fun b =>
    let p := b.any fun x => x.2
    let q := quantBlock f emax (b.map fun x => x.1)
    ((BitVec.ofNat 8 q.1, p), q.2.map fun c => (c, p))
  ((rowsOf axis (0, false) n rows.length (bs.map fun b => b.2)).map (packBits w), bs.map fun b => b.1)

/-- Dequantise rows of codes by their scales to BF16 rows (R158). -/
def dequantRows (f : Fmt) (axis n : Nat) (rows : List (List (Nat × Bool))) (sc : List (Byte × Bool)) :
    List (List (Byte × Bool)) :=
  let bs := ((blocksOf axis (0, false) n rows).zip sc).map fun p =>
    p.1.map fun x =>
      let v : FVal := if p.2.1 = 0xFF then .nan else (f.decode x.1).scale (Int.ofNat p.2.1.toNat - 127)
      (fBF16.rne v, x.2 || p.2.2)
  (rowsOf axis (0, false) n rows.length bs).map fun r => r.flatMap fun x => (natLe 2 x.1).map fun b => (b, x.2)

/-! ### Shape of a command -/

/-- Bits of an element of the MX side. -/
def DCmd.mxBits (d : DCmd) : Nat := match mxFmt d.mx with | some f => f.2.1 | none => 8

/-- Bytes of an element of the plain side of a quantise. -/
def DCmd.wideBytes (d : DCmd) : Nat := if d.wide then 4 else 2

/-- Elements of a row under the codec. -/
def DCmd.elems (d : DCmd) : Nat :=
  if d.codec = 1 then d.rowBytes / d.wideBytes else if d.codec = 2 then d.rowBytes * 8 / d.mxBits else 0

/-- Bytes of a destination row, a CAS window apart. -/
def DCmd.dstBytes (d : DCmd) : Nat :=
  if d.codec = 1 then d.elems * d.mxBits / 8 else if d.codec = 2 then d.elems * 2 else d.rowBytes

/-- Bytes of the scale area (R159). -/
def DCmd.scaleBytes (d : DCmd) : Nat :=
  if d.codec = 0 then 0 else if d.axis = 0 then d.rows * (d.elems / 32) else d.rows / 32 * d.elems

/-- A row that breaks R159. -/
def DCmd.codecBad (d : DCmd) : Bool :=
  if d.codec = 0 then false
  else
    (if d.codec = 1 then decide (d.rowBytes % d.wideBytes ≠ 0) else decide (d.rowBytes * 8 % d.mxBits ≠ 0))
    || (if d.axis = 0 then decide (d.elems % 32 ≠ 0) else decide (d.rows % 32 ≠ 0))
    || decide (d.elems * d.mxBits % 8 ≠ 0)

/-- Is its destination another package? -/
def DCmd.isRemote (d : DCmd) : Bool := (decide (d.dst = 4) || decide (d.dst = 5)) && decide (d.op ≠ 3)

/-- Does the extent [a, a+n) of a space exist for core c of crew n' (R160)? -/
def State.extOk (s : State) (c n space a len : Nat) : Bool :=
  if space = 0 then decide (a + len ≤ storeEnd)
  else if space = 1 then s.inRange n a len
  else if space = 2 then decide (s.crewOf (bits a 29 22) = some n) && decide (a % 2 ^ 22 + len ≤ storeEnd)
  else if space = 3 then decide (a + len ≤ (s.reg R.PCI_APER_SZ [n]).toNat * 4096)
  else decide (c < 144)

/-- Does a row written at an HBM address break R179? -/
def State.dstBad (s : State) (c : Nat) (d : DCmd) (a len : Nat) : Bool :=
  match s.windowAt a with
  | none => decide (s.windowsOf a len ≠ [])
  | some w =>
    let e := atomWidth (s.winOp w)
    let cas := isCas (s.winOp w) && decide (d.op ≠ 4)
    let n := if cas then len / 2 else len
    decide (s.winBase w + s.winSize w < a + n) || decide (a % e ≠ 0) || decide (n % e ≠ 0)
      || (cas && (!(decide (d.op = 0) || decide (d.op = 2)) || decide (d.src ≠ 0) || decide (d.codec ≠ 0) || decide (len % (2 * e) ≠ 0)))
      || (s.winOrdered w && decide (d.op ≠ 4) && !s.ownPost c true w)

/-- Bytes a row of the command covers at an HBM destination: half in a CAS window (R178). -/
def State.dstLen (s : State) (d : DCmd) (a : Nat) : Nat :=
  match s.windowAt a with
  | some w => if isCas (s.winOp w) && decide (d.dst = 1) && decide (d.op ≠ 4) then d.dstBytes / 2 else d.dstBytes
  | none => d.dstBytes

/-- Is a destination row at an address in order? -/
def State.rowDstOk (s : State) (c n : Nat) (d : DCmd) (a : Nat) : Bool :=
  s.extOk c n d.dst a (s.dstLen d a) && !(decide (d.dst = 1) && s.dstBad c d a d.dstBytes)

/-- Is the whole destination of a COPY the descriptor write to the crew's collective port (08 R215)? -/
def State.toPort (s : State) (n : Nat) (d : DCmd) : Bool := decide (d.op = 0) && decide (d.dst = 1) && s.inPort n d.dstA

/-- A format error found before the command reads any operand (R160; 07 R179; 08 R198). -/
def State.dmaBad (s : State) (c n : Nat) (d : DCmd) : Bool :=
  let reads := decide (d.op ≠ 4)
  let list := decide (d.op = 1) || decide (d.op = 2)
  let mxSpace := if d.codec = 1 then (if d.op = 3 then 0 else d.dst) else d.src
  decide (5 < d.op) || decide (5 < d.src) || decide (5 < d.dst) || decide (d.codec = 3) || decide (5 < d.mx)
  || decide (d.rowBytes = 0)
  || (reads && decide (3 < d.src))
  || (decide (d.codec ≠ 0) && (list || decide (d.op = 4)))
  || (decide (d.codec = 2) && decide (d.op ≠ 3) && !(decide (d.dst = 0) || decide (d.dst = 2) || decide (d.dst = 4)))
  || d.codecBad
  || (decide (d.op = 3) && (!s.isSet F.ENG_RING_enable [c, d.ring] || decide (d.dstA ≠ 0) || decide (d.rows * d.dstBytes % 64 ≠ 0)))
  || (d.isRemote && (decide (d.pkg = s.fld F.LNK_SELF_package []) || (s.route n c d.pkg).isNone))
  || (reads && decide (d.op ≠ 1) && (iota 0 d.rows).any fun i => !s.extOk c n d.src (d.srcA + i * d.srcS) d.rowBytes)
  || (list && decide (0 < d.rows) && !s.extOk c n 0 d.aux (8 * d.rows))
  || (decide (0 < d.scaleBytes) && !s.extOk c n mxSpace d.aux d.scaleBytes)
  || (decide (d.codec = 1) && decide (d.op ≠ 3) && decide (d.dst = 1) && decide (0 < d.scaleBytes) && s.dstBad c d d.aux d.scaleBytes)
  || (decide (d.op ≠ 2) && decide (d.op ≠ 3) && !s.toPort n d &&
      (iota 0 d.rows).any fun i => !s.rowDstOk c n d (d.dstA + i * d.dstS))
  || (s.toPort n d && decide (0 < d.rows) && (decide (d.rows ≠ 1) || decide (d.rowBytes ≠ 64) || decide (d.codec ≠ 0)))

/-! ### Moving bytes -/

/-- Count the bytes of an HBM extent on the network-on-chip, line by line (15 R370). -/
def State.nocHbm (s : State) (c a n : Nat) (write : Bool) : State :=
  s.each (iota 0 ((a + n + 255) / 256 - a / 256)) fun s i =>
    let lo := if i = 0 then a else (a / 256 + i) * 256
    let hi := if (a / 256 + i + 1) * 256 ≤ a + n then (a / 256 + i + 1) * 256 else a + n
    if write then s.nocOut c (stackOf lo / 4) (hi - lo) else s.nocIn c (stackOf lo / 4) (hi - lo)

/-- The host address of an offset of a crew's aperture. -/
def State.aperture (s : State) (n off : Nat) : Nat := s.pair R.PCI_APER_LO R.PCI_APER_HI [n] + off

/-- Read a source run (R150). A poisoned PCIe completion is recorded (11 R273). -/
def State.dmaRead (s : State) (c n space a len : Nat) : List (Byte × Bool) × State :=
  if space = 0 then s.storeRead c a len
  else if space = 1 then
    (s.nocHbm c a len false).hbmLoad (fun x => s.windowByte n (x % 2 ^ 15)) a len
  else if space = 2 then
    let p := bits a 29 22
    ((s.count R.DMA_NOC_TX_LO [p] len).count R.DMA_NOC_RX_LO [c] len).storeRead p (a % 2 ^ 22) len
  else
    let (b, s) := (s.nocIn c 0 len).hostFetch (s.aperture n a) len
    let bad := (b.filter fun p => p.2).length
    (b, if bad = 0 then s
      else s.raiseFault { ((s.fault0 2 0 0x0203).charge n (s.crew n).runningLaunch).atCore s c with
        unit := 0xD, space := 3, addr := s.aperture n a, detail := bad })

/-- Read source bytes of a command: those that run-ahead has read for it come from the prefetch buffer, the rest from their
place (R154). -/
def State.dmaSrc (s : State) (c n : Nat) (q : QCmd) (d : DCmd) (a len : Nat) : List (Byte × Bool) × State :=
  match (s.core c).pre.find? fun p => decide (p.entry = q.entry ∧ p.word = q.word ∧ p.addr = a) with
  | some p =>
    let got := p.data.take len
    if got.length < len then
      let (rest, s) := s.dmaRead c n d.src (a + got.length) (len - got.length)
      (got ++ rest, s)
    else (got, s)
  | none => s.dmaRead c n d.src a len

/-- What a command has done: bytes moved, poisoned words written to the host and to STATE pages, whether poison was
carried; why it stopped (1 format error, 2 poisoned index); pieces for another package. -/
structure Moved where
  bytes : Nat := 0
  host : Nat := 0
  state : Nat := 0
  first : Nat := 0
  dirty : Bool := false
  stop : Nat := 0
  rem : List (Nat × List (Byte × Bool)) := []
  deriving DecidableEq, Repr

/-- The target of a remote destination address (08 R191). -/
def DCmd.target (d : DCmd) (a : Nat) : Nat := if d.dst = 5 then 2 ^ 39 + a % 2 ^ 39 else a % 2 ^ 30

/-- Write old values over the expected values of CAS pairs in the source (07 R178). -/
def State.casReturn (s : State) (c a w : Nat) : List (Byte × Bool) → Nat → State
  | _, 0 => s
  | old, k + 1 => (s.storeWrite c a (old.take w)).casReturn c (a + 2 * w) w (old.drop w) k

/-- Write a destination run into HBM: plain, or by the operation of its window; `src` is where CAS pairs came from. -/
def State.dmaHbm (s : State) (c : Nat) (d : DCmd) (a src : Nat) (data : List (Byte × Bool)) : List (Byte × Bool) × State :=
  match (if d.op = 4 then none else s.windowAt a) with
  | none => (data, s.hbmStore a data)
  | some w =>
    let op := s.winOp w
    let (old, s) := s.atomRow op a data (data.length / 32 + 2)
    let s := if isCas op then s.casReturn c src (atomWidth op) old (old.length / atomWidth op) else s
    (resultPoison op old data, s)

/-- Write one destination run of a command (R150, R156; 11 R266). -/
def State.dmaWrite (s : State) (c n : Nat) (d : DCmd) (mv : Moved) (space a src : Nat) (data : List (Byte × Bool)) :
    Moved × State :=
  let mv := { mv with bytes := mv.bytes + data.length, dirty := mv.dirty || anyPoison data }
  if space = 0 then (mv, s.storeWrite c a data)
  else if space = 1 then
    let (res, s) := (s.nocHbm c a data.length true).dmaHbm c d a src data
    let bad := s.stateWords a res
    ({ mv with state := mv.state + bad, first := if mv.state = 0 ∧ 0 < bad then a else mv.first }, s)
  else if space = 2 then
    let p := bits a 29 22
    (mv, ((s.count R.DMA_NOC_TX_LO [c] data.length).count R.DMA_NOC_RX_LO [p] data.length).storeWrite p (a % 2 ^ 22) data)
  else if space = 3 then
    let bad := poisonWordsAt (s.aperture n a) data
    ({ mv with host := mv.host + bad, first := if mv.host = 0 ∧ 0 < bad then s.aperture n a else mv.first },
      (s.nocOut c 0 data.length).hostWrite (s.aperture n a) data)
  else ({ mv with rem := mv.rem ++ pieces96 (d.target a) data (data.length / 96 + 1) }, s)

/-- A FILL row (R151). -/
def fillRow (pattern n : Nat) : List (Byte × Bool) := (iota 0 n).map fun j => (BitVec.ofNat 8 (pattern / 256 ^ (j % 4)), false)

/-- Count an access of the grain path (R151; 07 R176). -/
def State.countGrain (s : State) (d : DCmd) (write : Bool) (a : Nat) : State :=
  if decide (d.rowBytes ≤ 32) && decide (a % 32 + d.rowBytes ≤ 32) then
    if write then s.count R.GRN_BYTES_WR_LO [stackOf a / 4] d.rowBytes else s.count R.GRN_BYTES_RD_LO [stackOf a / 4] 32
  else s

/-- Move row i without a codec (R151, R156). -/
def State.moveRow (s : State) (c n : Nat) (q : QCmd) (d : DCmd) (mv : Moved) (i : Nat) : Moved × State :=
  if mv.stop ≠ 0 then (mv, s)
  else
    let list := decide (d.op = 1) || decide (d.op = 2)
    let (ib, s) := if list then s.storeRead c (d.aux + 8 * i) 8 else ([], s)
    if anyPoison ib then ({ mv with stop := 2 }, s)
    else
      let idx := leNat (plain ib)
      let sa := d.srcA + (if d.op = 1 then idx else i) * d.srcS
      let da := d.dstA + (if d.op = 2 then idx else i) * d.dstS
      if (d.op = 1 && !s.extOk c n d.src sa d.rowBytes) || (d.op = 2 && !s.rowDstOk c n d da) then ({ mv with stop := 1 }, s)
      else
        let s := if d.op = 1 && decide (d.src = 1) then s.countGrain d false sa
          else if d.op = 2 && decide (d.dst = 1) then s.countGrain d true da else s
        let (data, s) := if d.op = 4 then (fillRow d.srcA d.rowBytes, s) else s.dmaSrc c n q d sa d.rowBytes
        s.dmaWrite c n d mv d.dst da sa data

/-- All rows in ascending order. -/
def State.moveRows (s : State) (c n : Nat) (q : QCmd) (d : DCmd) : Moved × State :=
  s.eachWith {} (iota 0 d.rows) fun mv s i => s.moveRow c n q d mv i

/-- Read every source row. -/
def State.readSrc (s : State) (c n : Nat) (q : QCmd) (d : DCmd) : List (List (Byte × Bool)) × State :=
  s.eachWith [] (iota 0 d.rows) fun (l : List (List (Byte × Bool))) s i =>
    let (b, s) := s.dmaSrc c n q d (d.srcA + i * d.srcS) d.rowBytes
    (l ++ [b], s)

/-- The destination rows and the scale area of a command without index list: read, and convert by its codec. -/
def State.converted (s : State) (c n : Nat) (q : QCmd) (d : DCmd) :
    (List (List (Byte × Bool)) × List (Byte × Bool)) × State :=
  let (rows, s) := s.readSrc c n q d
  match mxFmt d.mx with
  | none => ((rows, []), s)
  | some (f, w, emax) =>
    if d.codec = 1 then
      let g := if d.wide then fFP32 else fBF16
      let vals := rows.map fun r => (unpackBits (8 * d.wideBytes) d.elems r).map fun x => (g.decode x.1, x.2)
      (quantRows f w emax d.axis d.elems vals, s)
    else if d.codec = 2 then
      let (sc, s) := s.dmaRead c n d.src d.aux d.scaleBytes
      ((dequantRows f d.axis d.elems (rows.map (unpackBits w d.elems)) sc, []), s)
    else ((rows, []), s)

/-- Write converted rows, then the scale area (R159). -/
def State.writeRowsD (s : State) (c n : Nat) (d : DCmd) (rows : List (List (Byte × Bool))) (sc : List (Byte × Bool)) :
    Moved × State :=
  let r := s.eachWith {} rows.zipIdx fun (mv : Moved) s r => s.dmaWrite c n d mv d.dst (d.dstA + r.2 * d.dstS) 0 r.1
  if sc = [] then r else r.2.dmaWrite c n d r.1 d.dst d.aux 0 sc

/-! ### Order (06 R153; 07 R183) -/

/-- The ordered windows a command writes, its scale area among them, as its sequencer posts them (07 R183 rule 1). -/
def State.cmdWindows (s : State) (d : DCmd) : List Nat :=
  let rows := if d.op = 2 then [d.dstA] else (iota 0 d.rows).map fun i => d.dstA + i * d.dstS
  let scales := if d.codec = 1 ∧ 0 < d.scaleBytes then s.windowsOf d.aux d.scaleBytes else []
  if d.dst = 1 ∧ (d.op ≤ 2 ∨ d.op = 5) then
    ((rows.flatMap (fun a => s.windowsOf a (if d.op = 2 then 1 else s.dstLen d a)) ++ scales).eraseDups).filter s.winOrdered
  else []

/-- A command is done with its postings. -/
def State.endWindows (s : State) (c : Nat) (d : DCmd) : State := s.each (s.cmdWindows d) fun s w => s.endPost c true w

/-- Index i of a command's index list as core store holds it; 0 where the list does not lie in core store. -/
def State.peekIndex (s : State) (c : Nat) (d : DCmd) (i : Nat) : Nat :=
  if d.aux + 8 * i + 8 ≤ storeEnd then leNat (plain (s.storeRead c (d.aux + 8 * i) 8).1) else 0

/-- The address of source row i. -/
def State.srcRow (s : State) (c : Nat) (d : DCmd) (i : Nat) : Nat :=
  d.srcA + (if d.op = 1 then s.peekIndex c d i else i) * d.srcS

/-- The address of destination row i. -/
def State.dstRow (s : State) (c : Nat) (d : DCmd) (i : Nat) : Nat :=
  d.dstA + (if d.op = 2 then s.peekIndex c d i else i) * d.dstS

/-- Do remote requests of an earlier stroke come before a read or write of the command in a window (07 R183 rule 4)? -/
def State.remoteWaits (s : State) (c : Nat) (d : DCmd) : Bool :=
  decide (s.aord ≠ []) && ((iota 0 d.rows).any fun i =>
    (decide (d.src = 1) && decide (d.op ≠ 4) && s.remoteHolds (s.srcRow c d i) d.rowBytes)
    || (decide (d.dst = 1) && decide (d.op ≠ 3) && s.remoteHolds (s.dstRow c d i) d.dstBytes))

/-- Is it the turn of core c in every ordered window the command writes, and in those it reads or fills? -/
def State.windowsTurn (s : State) (c : Nat) (d : DCmd) : Bool :=
  !s.remoteWaits c d
    && (s.cmdWindows d).all fun w => !s.lowerPosts c true w && !s.remoteFirst w && !s.localFirst c w

/-- Does a run of core store meet the ring of a RING_APPEND in progress? -/
def State.ringMeets (s : State) (c : Nat) (e : DCmd) (a len : Nat) : Bool :=
  decide (a < s.ringBase c e.ring + s.ringSize c e.ring) && decide (s.ringBase c e.ring < a + len)

/-- The runs of core store that a command reads or writes: its rows, its index list and its scale area. -/
def State.storeRuns (s : State) (c : Nat) (d : DCmd) : List (Nat × Nat) :=
  let src := if d.src = 0 ∧ d.op ≠ 4 then (iota 0 d.rows).map fun i => (s.srcRow c d i, d.rowBytes) else []
  let dst := if d.dst = 0 ∧ d.op ≠ 3 then (iota 0 d.rows).map fun i => (s.dstRow c d i, d.dstBytes) else []
  let list := if d.op = 1 ∨ d.op = 2 then [(d.aux, 8 * d.rows)] else []
  let scales := if (d.codec = 1 ∧ (d.dst = 0 ∨ d.op = 3)) ∨ (d.codec = 2 ∧ d.src = 0) then [(d.aux, d.scaleBytes)] else []
  src ++ dst ++ list ++ scales

/-- Must a command wait for an earlier RING_APPEND in progress whose ring it reads, writes or appends to (R90 rule 1)? -/
def State.ringHazard (s : State) (c : Nat) (before : List QCmd) (d : DCmd) : Bool :=
  before.any fun q =>
    let e := dcmd q.word
    decide (e.op = 3) && ((decide (d.op = 3) && decide (d.ring = e.ring)) || (s.storeRuns c d).any fun r => s.ringMeets c e r.1 r.2)

/-! ### Completion -/

/-- Poison of a command's irreversible actions (11 R266). -/
def State.dmaPoison (s : State) (c n : Nat) (mv : Moved) : State :=
  let f := { (s.fault0 2 1 0x0211).atCore s c with unit := 0xD }
  let s := if mv.host = 0 then s else s.poisonFault n { f with space := 3, addr := mv.first, detail := mv.host }
  if mv.state = 0 then s else s.poisonFault n { f with event := 0x0213, space := 1, addr := mv.first, detail := mv.state }

/-- A command leaves the queue with its END: complete (0), or a format error (2). What was prefetched for it goes (R154). -/
def State.dmaEnd (s : State) (c : Nat) (q : QCmd) (how bytes : Nat) : State :=
  let s := (s.traceEnd c how bytes q).modCore c fun k => { k with
    dmaq := k.dmaq.filter fun x => decide (x.tag ≠ q.tag)
    pre := k.pre.filter fun p => decide (p.entry ≠ q.entry ∨ p.word ≠ q.word) }
  (s.endWindows c (dcmd q.word)).showDma c

/-- A started command stays in the queue with its progress. -/
def State.dmaHold (s : State) (c : Nat) (q : QCmd) (done rows : Nat) (dirty : Bool) : State :=
  (s.modCore c fun k => { k with dmaq := k.dmaq.map fun x =>
    if x.tag = q.tag then { x with started := true, done := done, rows := rows, poison := x.poison || dirty } else x }).showDma c

/-- The pieces for another package go to the link of their route; false with no route. -/
def State.sendRows (s : State) (c n : Nat) (q : QCmd) (mv : Moved) : Bool × State :=
  if mv.rem = [] then (true, s) else s.sendMsg n c 0xD q 0 (dcmd q.word).pkg mv.rem

/-- A command in progress has carried poison (DMA_STATUS). -/
def State.carryPoison (s : State) (c : Nat) (dirty : Bool) : State := if dirty then s.liveBit F.DMA_STATUS_poison [c] true else s

/-- After the rows have moved: send pieces for another package, the rows before a bad index among them (R156), report poison,
stop or complete. -/
def State.dmaFinish (s : State) (c n : Nat) (q : QCmd) (mv : Moved) : State :=
  let r := ((s.dmaPoison c n mv).carryPoison c mv.dirty).sendRows c n q mv
  let s := r.2
  if mv.stop = 2 then
    let s := s.poisonFault n { (s.fault0 2 1 0x0214).atCore s c with unit := 0xD, space := 2, addr := (dcmd q.word).aux, detail := 1 }
    s.dmaEnd c q 1 mv.bytes
  else if mv.stop = 1 ∨ r.1 = false then (s.formatError c q.accept).dmaEnd c q 2 mv.bytes
  else if mv.rem = [] then s.dmaEnd c q 0 mv.bytes
  else s.dmaHold c q mv.bytes 0 mv.dirty

/-- The command in a progress slot that may start or go on: it is there, every earlier one has started, its unit runs,
and order allows it (R153). -/
def State.dmaReady (s : State) (c slot : Nat) : Option (Nat × QCmd × DCmd) :=
  match s.crewOf c, (s.core c).dmaq[slot]? with
  | some n, some q =>
    let before := (s.core c).dmaq.take slot
    let d := dcmd q.word
    if decide (slot < 4) && (before.all fun x => x.started) && s.unitRuns c 0xD q.tag && !s.ringHazard c before d
        && (q.started || s.windowsTurn c d) then some (n, q, d)
    else none
  | _, _ => none

/-- Move all rows of a command, through its codec if it has one (R151, R157). -/
def State.moveAll (s : State) (c n : Nat) (q : QCmd) (d : DCmd) : Moved × State :=
  if d.codec = 0 then s.moveRows c n q d
  else
    let (r, s) := s.converted c n q d
    s.writeRowsD c n d r.1 r.2

/-- Start a command of one op: refuse it as a format error, or move its rows and finish (R151, R160). -/
def State.runDma (s : State) (c slot op : Nat) : State :=
  match s.dmaReady c slot with
  | none => s
  | some (n, q, d) =>
    if d.op ≠ op || q.started then s
    else if s.dmaBad c n d then ((s.formatError c q.accept).dmaEnd c q 2 0).settleCore c
    else if s.toPort n d && decide (0 < d.rows) then s
    else
      let s := s.traceBegin c q
      let r := s.moveAll c n q d
      (r.2.dmaFinish c n q r.1).settleCore c

/-- COPY (R151): a write to the collective port is ALL_REDUCE, REDUCE_SCATTER or ALL_GATHER by its descriptor; one
that names none of them is a format error (08 R215). -/
def execDmaCopy (core slot : Nat) (s : State) : Host.Outcome State Fault Refusal :=
  match s.dmaReady core slot with
  | some (n, q, d) =>
    if !q.started && s.toPort n d && decide (0 < d.rows) && !s.dmaBad core n d then
      let (b, t) := s.dmaSrc core n q d d.srcA 64
      let op := field (plain b) 0 1
      if op = 0 ∨ 3 < op then .next (((t.formatError core q.accept).dmaEnd core q 2 0).settleCore core) else .next s
    else .next (s.runDma core slot 0)
  | none => .next s

/-- GATHER (R151). -/
def execDmaGather (core slot : Nat) (s : State) : Host.Outcome State Fault Refusal := .next (s.runDma core slot 1)

/-- SCATTER (R151). -/
def execDmaScatter (core slot : Nat) (s : State) : Host.Outcome State Fault Refusal := .next (s.runDma core slot 2)

/-- FILL (R151). -/
def execDmaFill (core slot : Nat) (s : State) : Host.Outcome State Fault Refusal := .next (s.runDma core slot 4)

/-- SEND (R151): its flits go to the link of its route, and it completes when they are acknowledged. -/
def execDmaSend (core slot : Nat) (s : State) : Host.Outcome State Fault Refusal := .next (s.runDma core slot 5)

/-! ### RING_APPEND (R152; 04 R106) -/

/-- Append one 64 B line: the ring takes it at fill, and fill advances. -/
def State.ringLine (s : State) (c ring : Nat) (line : List (Byte × Bool)) : State :=
  let off := (s.reg R.ENG_RFILL [c, ring]).toNat % s.ringSize c ring
  (s.storeWrite c (s.ringBase c ring + off) line).setReg R.ENG_RFILL [c, ring] (s.reg R.ENG_RFILL [c, ring] + 64)

/-- Append lines while the ring has room, at most `fuel`; the count of lines appended so far is `done`. -/
def State.appendLines (s : State) (c ring : Nat) (data : List (Byte × Bool)) (done : Nat) : Nat → Nat × State
  | 0 => (done, s)
  | fuel + 1 =>
    if data.length ≤ 64 * done || !s.ringRoom c ring then (done, s)
    else (s.ringLine c ring ((data.drop (64 * done)).take 64)).appendLines c ring data (done + 1) fuel

/-- The scale bytes of the blocks that lines [lo, hi) of an append begin: write units of a codec are blocks with their scale
bytes, in the order of the element bytes (R155, R159). With block_axis 0 block b begins at element 32 b; with block_axis 1 the
`elems` blocks of a group of 32 rows begin with the group's first row. -/
def DCmd.scalesOf (d : DCmd) (lo hi : Nat) : List Nat :=
  (iota 0 d.scaleBytes).filter fun b =>
    let bit := if d.axis = 0 then 32 * b * d.mxBits else (32 * (b / d.elems) * d.elems + b % d.elems) * d.mxBits
    decide (512 * lo ≤ bit) && decide (bit < 512 * hi)

/-- Write the scale bytes of the blocks that lines [lo, hi) begin. -/
def State.appendScales (s : State) (c : Nat) (d : DCmd) (sc : List (Byte × Bool)) (lo hi : Nat) : State :=
  s.each (d.scalesOf lo hi) fun s b => s.storeWrite c (d.aux + b) ((sc.drop b).take 1)

/-- Go on with a RING_APPEND for at most k lines; the scale byte of a block is written with the line in which the block
begins. -/
def State.appendRun (s : State) (c n : Nat) (q : QCmd) (d : DCmd) (k : Nat) : State :=
  let (r, s) := s.converted c n q d
  let data := r.1.flatten
  let (done, s) := s.appendLines c d.ring data q.done k
  let s := (if d.codec = 1 then s.appendScales c d r.2 q.done done else s).carryPoison c (anyPoison (data.take (64 * done)))
  if data.length ≤ 64 * done then s.dmaEnd c q 0 data.length
  else s.dmaHold c q done (64 * done / d.dstBytes) (anyPoison (data.take (64 * done)))

/-- RING_APPEND (R152): the command starts and appends its lines while the ring has room. -/
def execDmaRingAppend (core slot : Nat) (s : State) : Host.Outcome State Fault Refusal :=
  match s.dmaReady core slot with
  | none => .next s
  | some (n, q, d) =>
    if d.op ≠ 3 || q.started then .next s
    else if s.dmaBad core n d then .next (((s.formatError core q.accept).dmaEnd core q 2 0).settleCore core)
    else .next (((s.traceBegin core q).appendRun core n q d (d.rows * d.dstBytes / 64)).settleCore core)

/-- RING_APPEND_LINE (R152): a RING_APPEND in progress appends its next line, if the ring has room. -/
def execRingAppendLine (core slot : Nat) (s : State) : Host.Outcome State Fault Refusal :=
  match s.dmaReady core slot with
  | none => .next s
  | some (n, q, d) =>
    if d.op ≠ 3 || !q.started || !s.ringRoom core d.ring then .next s
    else .next ((s.appendRun core n q d 1).settleCore core)

/-! ### Collectives (08 R215) -/

/-- Write the descriptor of a COPY to the crew's collective port, if it asks for the given operation. -/
def State.startColl (s : State) (c slot op : Nat) : State :=
  match s.dmaReady c slot with
  | none => s
  | some (n, q, d) =>
    if d.op ≠ 0 || q.started || !s.toPort n d || decide (d.rows = 0) || s.dmaBad c n d then s
    else
      let (b, t) := s.dmaSrc c n q d d.srcA 64
      let k := collOf (plain b) q.accept s.raw
      if k.op ≠ op then s
      else if t.collBad n (plain b) k then ((t.formatError c q.accept).dmaEnd c q 2 0).settleCore c
      else ((((t.traceBegin c q).nocOut c 0 64).openColl n k).dmaEnd c q 0 64).settleCore c

/-- ALL_REDUCE (R215). -/
def execAllReduce (core slot : Nat) (s : State) : Host.Outcome State Fault Refusal := .next (s.startColl core slot 1)

/-- REDUCE_SCATTER (R215). -/
def execReduceScatter (core slot : Nat) (s : State) : Host.Outcome State Fault Refusal := .next (s.startColl core slot 2)

/-- ALL_GATHER (R215). -/
def execAllGather (core slot : Nat) (s : State) : Host.Outcome State Fault Refusal := .next (s.startColl core slot 3)

end Sys2Proof.Machine
end

