-- ==== Sys2Proof/Machine/Journal.lean ====
section
/-!
DEFINITION. The journal, completion records and their retirement (03 R74, R79; 12 R286; 14 R355).
-/
namespace Sys2Proof.Machine

/-! ### The journal (14 R355, R356) -/

/-- The 64 bytes of a journal entry (R355). -/
def JnlEntry.bytes (j : JnlEntry) : Bytes :=
  withCrc32 (natLe 8 j.num ++ natLe 1 j.kind ++ natLe 1 j.status ++ natLe 1 j.op ++ natLe 1 j.flags ++ natLe 2 j.queue
    ++ natLe 2 j.ctx ++ natLe 4 j.seq.toNat ++ natLe 4 0 ++ natLe 8 j.accept ++ natLe 8 j.stroke
    ++ natLe 8 j.cookie.toNat ++ natLe 8 j.time ++ natLe 4 0)

/-- Entries of journal staging: 512 KiB of 64 B (R335). -/
def stagingSize : Nat := 8192

/-- Show the oldest and newest entries that the window can serve: staging and the ring of 65,536 in HBM (R356, R357). -/
def State.showJnl (s : State) : State :=
  if s.cox.jnlNum = 0 then s
  else
    let ring := s.cox.mirrored - 65536
    let staged := match s.cox.jnl with | j :: _ => j.num | [] => s.cox.jnlNum
    (s.setPair R.JNL_OLDEST_LO R.JNL_OLDEST_HI [] (if s.cox.mirrored = 0 then staged else Nat.min ring staged)).setPair
      R.JNL_NEWEST_LO R.JNL_NEWEST_HI [] (s.cox.jnlNum - 1)

/-- Enter a journal entry with the next number, at this instant (R355). Staging keeps the newest 8,192. -/
def State.journal (s : State) (j : JnlEntry) : State :=
  let j := { j with num := s.cox.jnlNum, time := s.ns }
  let l := if stagingSize ≤ s.cox.jnl.length then s.cox.jnl.tail else s.cox.jnl
  State.showJnl (s.setCox { s.cox with jnl := l ++ [j], jnlNum := s.cox.jnlNum + 1 })

/-- Entries of staging that are free for new ones: those not waiting to be mirrored (R356). -/
def State.stagingFree (s : State) : Nat := stagingSize - (s.cox.jnlNum - s.cox.mirrored)

/-! ### Completion records (03 R74) -/

/-- A queue stops with an error code (03 R73). -/
def State.stopQueue (s : State) (q error : Nat) : State :=
  let s := s.modQueue q fun k => { k with stopped := true, error := error }
  if s.fld F.SEQ_QSEL_queue [] = q then s.noteNf6 F.SEQ_QSTAT_stopped [] else s

/-- The completion ring of a queue: its base, and whether it lies in HBM. -/
def Queue.cplRing (k : Queue) : Nat × Bool := (k.cplLo.toNat + 2 ^ 32 * k.cplHi.toNat, k.cplInHbm)

/-- Write 32 bytes into a slot of a queue's completion ring; a ring in HBM that reaches an unpopulated address stops the
queue with RING_FAULT and nothing is written (03 R73, R74). -/
def State.putRecord (s : State) (q : Nat) (ring : Nat × Bool) (slot : Nat) (b : Bytes) : State :=
  let a := ring.1 + 32 * slot
  if ring.2 then (if s.populated a 32 then s.hbmPut a (clean b) else s.stopQueue q 2)
  else s.hostWrite a (clean b)

/-- The bytes of a completion record. -/
def cplBytes (accept : Nat) (cookie : DWord) (stroke : Nat) (seq : Word) (status : Nat) : Bytes :=
  natLe 8 accept ++ natLe 8 cookie.toNat ++ natLe 8 stroke ++ natLe 4 seq.toNat ++ natLe 1 status ++ natLe 3 0

/-- Write a completion record and make its journal entry at the same moment (R79, R355). -/
def State.emitCpl (s : State) (c : Cpl) : State :=
  let s := s.putRecord c.queue c.ring c.slot (cplBytes c.accept c.cookie c.stroke c.seq (c.status + (if c.replayed then 128 else 0)))
  s.journal {
    num := 0
    kind := 2
    status := c.status
    op := c.op
    flags := (if c.replayed then 1 else 0) + 4 + 16 * c.crew
    queue := c.queue
    ctx := c.ctx
    seq := c.seq
    accept := c.accept
    stroke := c.stroke
    cookie := c.cookie
    time := 0 }

/-! ### Retirement (12 R286) -/

/-- Could a rollback still undo the step that began at a stroke: does a point at or before it stand, or is it the step whose
point the freeze in progress makes? -/
def Crew.holdsStep (k : Crew) (step : Nat) : Bool :=
  (k.points.any fun p => decide (p.stroke ≤ step)) || (k.freezePoint && decide (k.stepStart = step))

/-- Insert a completion in accept order. -/
def insertCpl (c : Cpl) : List Cpl → List Cpl
  | [] => [c]
  | d :: r => if c.accept < d.accept then c :: d :: r else d :: insertCpl c r

/-- Go through completions in accept order: those that may be written now, and those that stay. A record waits for its
step to retire and for every earlier command of its queue (R286); a ring in host memory waits for PCIe (17 R409), one in HBM for its
stack (01 R29). -/
def splitCpls (ready : Cpl → Bool) : List Nat → List Cpl → List Cpl × List Cpl
  | _, [] => ([], [])
  | held, c :: r =>
    if ready c && !held.elem c.queue then
      let p := splitCpls ready held r
      (c :: p.1, p.2)
    else
      let p := splitCpls ready (c.queue :: held) r
      (p.1, c :: p.2)

/-- May a completion of crew n be written as far as its own step and earlier launches of its queue go? -/
def State.cplReady (s : State) (n : Nat) (c : Cpl) : Bool :=
  let k := s.crew n
  !k.holdsStep c.step && (k.launches.all fun l => l.finished.isSome || decide (l.queue ≠ c.queue) || decide (c.accept ≤ l.accept))
    && (k.talCmds.all fun t => match t.cpl with | some d => decide (d.queue ≠ c.queue) || decide (c.accept < d.accept) | none => true)
    && (if c.ring.2 then s.extentUp (c.ring.1 + 32 * c.slot) 32 else !s.pow.perst)

/-- Write the completion records of crew n that have retired, in accept order, and forget completed launches that no
rollback can bring back. -/
def State.flushCpls (s : State) (n : Nat) : State :=
  let p := splitCpls (s.cplReady n) [] (s.crew n).cpls
  let s := s.each p.1 State.emitCpl
  s.modCrew n fun k => { k with
    cpls := p.2
    launches := k.launches.filter fun l => l.finished.isNone || (p.2.any fun c => decide (c.accept = l.accept))
    talCmds := if k.points = [] ∧ k.freezePoint = false then k.talCmds.filter fun c => c.cpl.isSome else k.talCmds }

/-- A command of crew n completes in its current step. -/
def State.addCpl (s : State) (n : Nat) (c : Cpl) : State :=
  (s.modCrew n fun k => { k with cpls := insertCpl { c with step := k.stepStart } k.cpls }).flushCpls n

/-- Launches accepted and not completed (SEQ_CREWCFG_n.pending). -/
def Crew.pending (k : Crew) : Nat := (k.launches.filter fun l => l.finished.isNone).length

/-- Show the pending launches of a crew. -/
def State.showPending (s : State) (n : Nat) : State := s.setFld F.SEQ_CREWCFG_pending [n] (s.crew n).pending

/-- The status a launch completes with: an abort first, then FORMAT, TIMEOUT, ACCESS, REFUSED_PRIV (R79). -/
def statusOf (l : List Nat) : Nat :=
  match ([9, 8, 4, 6, 7, 3] : List Nat).find? fun x => l.elem x with
  | some x => x
  | none => 0

/-- A launch of crew n completes in this stroke with the status its parts met (R79). -/
def State.finishLaunch (s : State) (n : Nat) (l : Launch) : State :=
  let s := s.each (s.members n) fun s c => s.endChains c l.accept
  let s := s.modLaunch n l.accept fun x => { x with finished := some s.stk.num, running := false }
  (s.addCpl n {
    accept := l.accept
    queue := l.queue
    slot := l.slot
    ring := l.ring
    seq := l.seq
    cookie := l.cookie
    op := 1
    ctx := l.ctx
    crew := n
    stroke := s.stk.num
    status := statusOf l.statuses
    replayed := l.replayed
    step := 0 }).showPending n

/-- Every uncompleted launch of crew n completes with an abort status (12 R292, R301). -/
def State.abortLaunches (s : State) (n status : Nat) : State :=
  s.each ((s.crew n).launches.filter fun l => l.finished.isNone) fun s l =>
    s.finishLaunch n { l with statuses := status :: l.statuses }

end Sys2Proof.Machine
end

