-- ==== Sys2Proof/Machine/Access.lean ====
section
/-!
DEFINITION. A host write of a register by its fields' access codes (00 R6, R7; 16 R386, R387), the registers that carry
parity and their domains (16 R389 to R391), and the doorbell.
-/
namespace Sys2Proof.Machine

/-- The mask of a register's fields of some access codes. -/
def RegDef.maskOf (r : RegDef) (p : Acc → Bool) : Word :=
  r.fields.foldl (fun m f => if p f.acc then putBits m f.hi f.lo (2 ^ (f.hi + 1 - f.lo) - 1) else m) 0

/-- Apply a written word to a register: RW fields take it, W1C bits written 1 clear but under NF6 (R387), RWB fields
take it in test mode only; a write that would change one elsewhere is noted (R386). -/
def State.hostPut (s : State) (r : RegDef) (ix : List Nat) (v : Word) : State :=
  let old := s.reg r ix
  let rw : Word := r.maskOf fun a => match a with | .rw => true | .rwb => s.pow.testMode | _ => false
  let clr : Word := if s.nf6 then 0 else r.maskOf (fun a => match a with | .w1c => true | _ => false) &&& v
  let rwb : Word := r.maskOf fun a => match a with | .rwb => true | _ => false
  let s' := (s.setReg r ix ((old &&& ~~~rw &&& ~~~clr) ||| (v &&& rw))).setConv
    { s.conv with badPar := s.conv.badPar.filter fun o => decide (o ≠ r.addr ix) }
  if !s.pow.testMode && decide ((v ^^^ old) &&& rwb ≠ 0) then s'.raiseBit F.GLB_CFGPAR_rwb_hist [] else s'

/-- A refused write reaches the reserved fields of a register alone (00 R6; R386). -/
def State.putRwb (s : State) (r : RegDef) (ix : List Nat) (v : Word) : State :=
  let m : Word := r.maskOf fun a => match a with | .rwb => true | _ => false
  let w : Word := r.maskOf fun a => match a with | .w1c => true | _ => false
  s.hostPut r ix ((s.reg r ix &&& ~~~m &&& ~~~w) ||| (v &&& m))

/-! ### Registers by offset -/

/-- The indices of an instance, from its distance to the base. -/
def indexOf : Nat → List (Nat × Nat) → Option (List Nat)
  | d, [] => if d = 0 then some [] else none
  | d, (n, st) :: ds => if d / st < n then (indexOf (d % st) ds).map fun l => d / st :: l else none

/-- The register at a BAR0 offset, with its indices. -/
def regAt (off : Nat) : Option (RegDef × List Nat) :=
  allRegs.findSome? fun r => if r.base ≤ off then (indexOf (off - r.base) r.dims).map fun ix => (r, ix) else none

/-! ### Rig-set registers (16 R395) -/

/-- Fields that a BLOCK entry may set: global, stroke, core and HBM registers. -/
def rigFlds1 : List Fld :=
  [F.GLB_PERS_debug, F.GLB_PERS_nf6, F.GLB_DET_fixed, F.GLB_WDOG_A_queue_ms, F.GLB_WDOG_A_tally_ms, F.GLB_WDOG_B_coll_ms,
   F.GLB_WDOG_B_engine_strokes, F.GLB_WDOG_B_slip_limit, F.GLB_FMGR_fm_valid, F.GLB_FMGR_replay_limit, F.GLB_FMGR_fm_package,
   F.GLB_DUMP_BASE_LO_base_lo, F.GLB_DUMP_BASE_LO_on_rollback, F.GLB_DUMP_BASE_HI_base_hi, F.GLB_RCV_joint,
   F.STK_CTL_period_ns, F.STK_CTL_rec_frac, F.STK_PHASE_LO_phase_lo, F.STK_PHASE_HI_phase_hi, F.STK_SHARE_log,
   F.STK_SHARE_trace, F.STK_SHARE_pmc, F.STK_SHARE_cow, F.STK_SHARE_scrub, F.STK_CREW_timed, F.SEQ_CREWCFG_lb_enable,
   F.SEQ_CREW_member, F.SEQ_CREW_crew, F.RIG_CREW_valid, F.RIG_CREW_size_gib, F.RIG_CREW_base_gib, F.ENG_RING_enable,
   F.ENG_RING_log2_size, F.ENG_RING_base, F.ENG_SCHK_auto, F.ENG_SCHK_tol_shift, F.ENG_PRESET_quad_ok, F.ENG_PRESET_wide_ok,
   F.UMP_CFG_enable, F.UMP_CFG_engine, F.UMP_CFG_rate, F.UMP_CFG_seed, F.WCH_COORD_valid, F.WCH_COORD_log2_entries,
   F.WCH_COORD_base, F.HBM_PRIO_lat_share, F.HBM_PRIO_guard, F.HBM_PRIO_wbatch, F.ATM_WIN_LO_valid, F.ATM_WIN_LO_base,
   F.ATM_WIN_HI_op, F.ATM_WIN_HI_crew, F.ATM_WIN_HI_size]

/-- Fields that a BLOCK entry may set: links, fabric time, checkpoint, counters, trace and apertures. -/
def rigFlds2 : List Fld :=
  [F.LNK_CFG_role, F.LNK_CFG_medium, F.LNK_CFG_lane_swap, F.LNK_CFG_tx_pol, F.LNK_CFG_rx_pol, F.LNK_CFG_peer,
   F.LNK_FLIGHT_flight_ns, F.LNK_HEALTH_ucw_limit, F.GATE_TABLE_entry, F.LNK_CREW_job_tag, F.LNK_CREW_ack_timeout_us,
   F.LNK_CREW2_window, F.LNK_GROUP_links, F.LNK_ROUTE_LO_valid, F.LNK_ROUTE_LO_bulk, F.LNK_ROUTE_LO_group,
   F.LNK_ROUTE_LO_match, F.LNK_ROUTE_HI_mask, F.LNK_COLL_port, F.TIM_SRC_primary, F.TIM_SRC_secondary, F.TIM_SRC_interval,
   F.TIM_SRC_holdover_ms, F.TIM_SRC_domain, F.TIM_SERVO_kp_shift, F.TIM_SERVO_ki_shift, F.TIM_SERVO_delay_gate,
   F.TIM_SERVO_lock_ns, F.TIM_SERVO_rate_lim, F.TIM_SERVO_step_en, F.TIM_ASYM_asym, F.CHK_CFG_protect, F.CHK_CFG_one_point,
   F.CHK_CFG_freeze, F.CHK_CFG_timer_kind, F.CHK_CFG_step_kind, F.CHK_TIMER_strokes, F.CHK_STEPS_every, F.CHK_RSV_size,
   F.CHK_CKPT_base, F.CHK_CKSZ_size, F.PMC_CTL_dump_en, F.PMC_CTL_every, F.PMC_RING_LO_base_lo, F.PMC_RING_LO_log2_size,
   F.PMC_RING_HI_base_hi, F.PMC_SEL_CORE_enable, F.PMC_SEL_CORE_thresh, F.PMC_SEL_CORE_sub, F.PMC_SEL_CORE_event,
   F.PMC_SEL_IOD_enable, F.PMC_SEL_IOD_thresh, F.PMC_SEL_IOD_sub, F.PMC_SEL_IOD_event, F.PMC_CREW_permit, F.PMC_CREW_base,
   F.TRC_CTL_enable, F.TRC_CTL_log2_size, F.TRC_CTL_base, F.PCI_APER_LO_base_lo, F.PCI_APER_HI_base_hi, F.PCI_APER_SZ_pages]

/-- The mask of a register's rig-set fields (table Rig-set registers). -/
def rigMask (r : RegDef) : Word :=
  (rigFlds1 ++ rigFlds2).foldl (fun m f => if f.reg.base = r.base then putBits m f.hi f.lo (2 ^ (f.hi + 1 - f.lo) - 1) else m) 0

/-- A register's value with its rig-set fields from another word. -/
def rigPart (r : RegDef) (old new : Word) : Word := (old &&& ~~~rigMask r) ||| (new &&& rigMask r)

/-! ### Parity domains (16 R390, R398) -/

/-- Registers indexed by crew, with a crew's own aperture and range. -/
def crewRegs : List RegDef :=
  [R.GLB_RCV, R.STK_CREW, R.SEQ_CREWCFG, R.RIG_CREW, R.LNK_CREW, R.LNK_CREW2, R.LNK_ROUTE_LO, R.LNK_ROUTE_HI, R.LNK_COLL,
   R.CHK_CFG, R.CHK_TIMER, R.CHK_STEPS, R.CHK_RSV, R.CHK_FREE, R.CHK_STAT, R.CHK_ACK, R.CHK_CKPT, R.CHK_CKSZ, R.CHK_SAVE_LO,
   R.CHK_SAVE_HI, R.PMC_CREW, R.TRC_CTL, R.TRC_HEAD, R.PCI_APER_LO, R.PCI_APER_HI, R.PCI_APER_SZ]

/-- Registers of a link whose parity every crew on the link shares. -/
def linkRegs : List RegDef := [R.LNK_CFG, R.LNK_FLIGHT, R.LNK_HEALTH, R.TIM_ASYM, R.GATE_TABLE]

/-- The one crew in whose parity domain a register lies, the queue registers aside (tables Parity domains and R398). -/
def State.regCrew (s : State) (off : Nat) : Option Nat :=
  match regAt off with
  | some (r, ix) =>
    if 0x01000000 ≤ off ∧ off < 0x02000000 then s.crewOf (ix.headD 0)
    else if crewRegs.any fun x => decide (x.base = r.base) then ix.head?
    else if r.base = R.ATM_WIN_LO.base ∨ r.base = R.ATM_WIN_HI.base then some (s.fld F.ATM_WIN_HI_crew [ix.headD 0])
    else none
  | none => none

/-- Registers that carry parity though a field of theirs is neither software's nor the rig's, for the table Parity domains
names them or a rig load writes them. -/
def parityAlso : List RegDef := [R.LNK_CFG, R.LNK_HEALTH, R.ATM_WIN_LO, R.LNK_SELF, R.RIG_ID]

/-- Registers that the hardware changes too, though their fields are RW. -/
def parityNot : List RegDef := [R.SEQ_QSEQ, R.LOG_CURSOR, R.JNL_CURSOR_LO, R.JNL_CURSOR_HI, R.ENG_ACC_DATA]

/-- Does software write a field? -/
def Acc.soft : Acc → Bool
  | .rw | .rwb => true
  | _ => false

/-- A configuration register: every field but the reserved ones changes only by a software write or a rig load (R389). -/
def isConfig (r : RegDef) : Bool :=
  let mine := r.fields.filter fun f => !(f.name == "reserved")
  let kept := fun (f : FieldDef) => f.acc.soft || f.acc == .wo || decide (bits (rigMask r).toNat f.hi f.hi = 1)
  (parityAlso.any fun x => decide (x.base = r.base)) ||
    (mine.all kept && (mine.any fun f => !(f.acc == .wo)) && !parityNot.any fun x => decide (x.base = r.base))

/-- A parity domain (table Parity domains). -/
inductive ParDom | crew (n : Nat) | core (c : Nat) | link (l : Nat) | all
  deriving DecidableEq, Repr

/-- The domain of a register, with q the queue that the queue registers show. -/
def State.parityDom (s : State) (off q : Nat) : ParDom :=
  match regAt off with
  | some (r, ix) =>
    if 0x404 ≤ off ∧ off ≤ 0x418 then
      let c := s.ctx (s.queue q).context
      if c.bound then .crew c.crew else .all
    else if linkRegs.any fun x => decide (x.base = r.base) then
      .link (if r.base = R.TIM_ASYM.base then ix.headD 0 else 48 * ix.headD 0 + ix.getD 1 0)
    else
      match s.regCrew off with
      | some n => .crew n
      | none => if 0x01000000 ≤ off ∧ off < 0x02000000 then .core (ix.headD 0) else .all
  | none => .all

/-- The crews of a domain. -/
def State.parityCrews (s : State) : ParDom → List Nat
  | .crew n => if s.crewValid n then [n] else []
  | .core _ => []
  | .link l => s.crewList.filter fun n => s.onLink l n
  | .all => s.crewList

/-- Does a crew wait for the reload of a register (R390)? -/
def State.reloading (s : State) (n : Nat) : Bool := s.conv.failed.any fun p => (s.parityCrews (s.parityDom p.1 p.2)).elem n

/-- Is a write to a register held for a reload in its domain (R390)? -/
def State.writeHeld (s : State) (off : Nat) : Bool :=
  let d := s.parityDom off (s.fld F.SEQ_QSEL_queue [])
  (match regAt off with | some (r, _) => isConfig r | none => false) &&
    s.conv.failed.any fun p => decide (s.parityDom p.1 p.2 = d)

/-- A host write of a register arrives: stray (01 R35), held for a reload (R390), or performed. -/
def State.hostReg (s : State) (off : Nat) (v : Word) (act : State → State) : State :=
  let s := s.fromHost 4
  if s.strayAt off then s.stray
  else if s.writeHeld off then s.setConv { s.conv with heldWrites := s.conv.heldWrites ++ [(off, v)] }
  else act s

/-! ### Doorbells (03 R73) -/

/-- Slots of a queue's rings. -/
def Queue.size (k : Queue) : Nat := 2 ^ k.log2

/-- Is a slot among those from head up to the tail in force (03 R73)? -/
def Queue.covers (k : Queue) (slot : Nat) : Bool :=
  decide ((slot + k.size - k.head) % k.size < (k.tail + k.size - k.head) % k.size)

/-- A doorbell write reaches the queue front-end (03 R73; 16 R383): discarded while the queue is not enabled; a tail
beyond the ring stops the queue; entries that a backward tail uncovers are withdrawn. -/
def State.ringBell (s : State) (q tail : Nat) : State :=
  let k := s.queue q
  if !k.enable then s
  else if k.size ≤ tail then (s.modQueue q fun k => { k with bell := tail }).stopQueue q 4
  else
    s.modQueue q fun k =>
      let k := { k with tail := tail, bell := tail }
      { k with fetched := k.fetched.filter fun f => k.covers f.slot }

/-- Deliver the doorbells that were held, the latest of each queue (01 R35). -/
def State.deliverBells (s : State) : State :=
  (s.setPow { s.pow with held := [] }).each s.pow.held fun s p => s.ringBell p.1 p.2.toNat

end Sys2Proof.Machine
end

