-- ==== Sys2Proof/Machine/Power.lean ====
section
/-!
DEFINITION. Clock monitors, power modes, idle blocks, supply trips, Easy and thermal limits (01 R20 to R35; 17 R406,
R410).
-/
namespace Sys2Proof.Machine

/-! ### Clock monitors (R19, R20) -/

/-- The die of a clock domain, numbered 0 to 99 in the order of the table Clock domains. -/
def dieOfDomain (d : Nat) : Nat := if d < 25 then 0 else if d < 56 then 1 else if d < 87 then 2 else 3

/-- The domains whose clock a power mode sets (R21): core rows, HBM controllers and PHYs. -/
def modeDomains : List Nat := iota 0 16 ++ iota 25 8 ++ iota 56 8

/-- Every domain but the two test domains. -/
def monitoredDomains : List Nat := (iota 0 100).filter fun d => decide (d ≠ 22 ∧ d ≠ 85)

/-- Clocks stop or leave their set frequency: their monitors are disarmed. -/
def State.disarm (s : State) (l : List Nat) : State :=
  s.setPow { s.pow with
      armed := s.pow.armed.filter fun d => !l.elem d
      rearm := s.pow.rearm.filter fun p => !l.elem p.1 }

/-- Clocks reach their set frequency at a raw instant: their monitors are armed again 1 µs later. -/
def State.clocksUpAt (s : State) (at0 : Nat) (l : List Nat) : State :=
  let l := l.filter fun d => monitoredDomains.elem d && !s.pow.armed.elem d
  s.setPow { s.pow with
      rearm := (s.pow.rearm.filter fun p => !l.elem p.1) ++ l.map fun d => (d, at0) }

/-- Clocks reach their set frequency now. -/
def State.clocksUp (s : State) (l : List Nat) : State := s.clocksUpAt s.raw l

/-- Does a domain stay disarmed (R20): a test domain, Easy with its entry and wake, a mode change that sets its clock, a reset
in progress on a domain that contains it? -/
def State.monitorHeld (s : State) (dom : Nat) : Bool :=
  !monitoredDomains.elem dom || s.inEasy || (s.stalled && modeDomains.elem dom) ||
    match s.flt.resetting with
    | some .cold => true
    | some .package => decide (dom < 89)
    | some .chip => decide (dom < 87)
    | _ => false

/-- MONITOR_REARM (R20): 1 µs after the clock of a domain reached its set frequency, or when what keeps it disarmed ends. -/
def execMonitorRearm (dom t : Nat) (s : State) : Host.Outcome State Fault Refusal :=
  let s := s.advance t
  match Map.find dom s.pow.rearm with
  | some at0 =>
    if at0 + 1000 ≤ s.raw ∧ s.monitorHeld dom = false then
      .next (s.setPow { s.pow with
        armed := Map.insert dom () (s.pow.armed.map fun d => (d, ())) |>.map fun p => p.1
        rearm := s.pow.rearm.filter fun p => decide (p.1 ≠ dom) })
    else .next s
  | none => .next s

/-- CLOCK_MONITOR_TRIP (R20): the clock of an armed domain left its frequency. -/
def execClockMonitorTrip (dom : Nat) (s : State) : Host.Outcome State Fault Refusal :=
  if s.pow.armed.elem dom then
    .next (s.raiseFault { s.fault0 3 3 0x0313 with die := dieOfDomain dom, detail := dom })
  else .next s

/-- UCIE_MODULE_FAILURE (R10): a module between two dies fails. -/
def execUcieModuleFailure (m : Nat) (s : State) : Host.Outcome State Fault Refusal :=
  let s := s.setFlt { s.flt with ucie := if s.flt.ucie.elem m then s.flt.ucie else s.flt.ucie ++ [m] }
  .next (s.raiseFault { s.fault0 3 3 0x0311 with detail := m })

/-! ### Power modes (R21 to R25) -/

/-- The VDD_ARR code of a mode (17 R405). -/
def vidOf (mode : Nat) : BitVec 7 := if mode = 0 then 60 else if mode = 1 then 80 else 100

/-- MODE_CHANGE_REQUEST (R22, R25): GLB_MODE is written; with go it asks for a mode. -/
def execModeChangeRequest (v : BitVec 32) (s : State) : Host.Outcome State Fault Refusal :=
  let s := (s.fromHost 4).hostPut R.GLB_MODE [] v
  let target := bits v.toNat 25 24
  let named := decide (bits v.toNat 1 1 = 1)
  let start := s.pair R.GLB_MODE_AT_LO R.GLB_MODE_AT_HI []
  if v.toNat % 2 = 0 then .next s
  else if decide (target = 3) || (named && decide (start < s.stk.num + 2)) || s.pow.mode.isSome || s.inEasy then
    .next (s.raiseBit F.GLB_MODE_refused [])
  else if target = s.fld F.GLB_MODE_current [] then .next s
  else
    let m : ModeChange := { target := target, start := if named then some start else none }
    .next ((s.liveBit F.GLB_MODE_busy [] true).setPow { s.pow with mode := some m })

/-- While the pin rate changes, the stacks in service train (R22; 07, HBM_STAT). -/
def State.trainPins (s : State) : State :=
  if s.pinChanging then
    s.each (iota 0 8) fun s k => if s.fld F.HBM_STAT_rate (stk4 k) = 3 then s else s.setFld F.HBM_STAT_rate (stk4 k) 2
  else s

/-- The stall of a mode change begins at a boundary (R22; R20). -/
def State.beginMode (s : State) : State :=
  match s.pow.mode with
  | some m =>
    if m.b0.isNone && (match m.start with | some n => decide (n ≤ s.stk.num) | none => true) then
      let m := { m with b0 := some s.stk.bound, settle := s.stk.bound + 2000000 }
      ((s.setPow { s.pow with mode := some m }).disarm modeDomains).trainPins
    else s
  | none => s

/-- VDD_ARR moves towards the code of the target mode, one code for every 40 µs since B0 (17 R405), as boundaries come. -/
def State.rampVid (s : State) : State :=
  match s.pow.mode with
  | some m =>
    match m.b0 with
    | some b0 =>
      let a := (vidOf (s.fld F.GLB_MODE_current [])).toNat
      let b := (vidOf m.target).toNat
      let k := (s.stk.bound - b0) / 40000
      s.setPins { s.pins with vid := BitVec.ofNat 7 (if a ≤ b then Nat.min (a + k) b else Nat.max (a - k) b) }
    | none => s
  | none => s

/-- MODE_SETTLE_END (R22): 2,000,000 ns after the start boundary supplies and clocks are at the target. -/
def execModeSettleEnd (t : Nat) (s : State) : Host.Outcome State Fault Refusal :=
  let s := s.advance t
  match s.pow.mode with
  | some m =>
    if m.b0.isSome && !m.settled && decide (m.settle ≤ s.ns) then
      .next (s
        |>.setPow { s.pow with mode := some { m with settled := true } }
        |>.setPins { s.pins with vid := vidOf m.target }
        |>.clocksUp modeDomains)
    else .next s
  | none => .next s

/-- Work resumes at the first boundary at or after the end of the settling interval (R22). -/
def State.endMode (s : State) : State :=
  match s.pow.mode with
  | some m =>
    if m.b0.isSome && decide (m.settle ≤ s.stk.bound) then
      let s := (s.setFld F.GLB_MODE_current [] m.target).liveBit F.GLB_MODE_busy [] false
      let s := if m.settled then s
        else (s.setPins { s.pins with vid := vidOf m.target }).clocksUp modeDomains
      let s := s.setPow { s.pow with mode := none }
      s.each (iota 0 8) fun s k => if s.fld F.HBM_STAT_rate (stk4 k) = 3 then s else s.setFld F.HBM_STAT_rate (stk4 k) s.pinRate
    else s
  | none => s

/-! ### Block idle states (R26) -/

/-- Has a block nothing to do, so that it may enter its idle state? A controller holds the write-backs and the atomic requests
of its stack, a bank the write-backs of its words; a router holds nothing from one command to the next. -/
def State.blockFree (s : State) (b : Block) : Bool :=
  match b with
  | .engine c e => decide ((s.eng c e).q = [])
  | .vector c => decide ((s.core c).vecq = [])
  | .dma c => decide ((s.core c).dmaq = [])
  | .sequencer c => (s.core c).seq.ended && (match s.crewOf c with | some n => decide ((s.crew n).pending = 0) | none => true)
  | .controller k => (Map.getD [] s.wbq k).isEmpty && s.aord.all fun r => decide (stackOf r.addr ≠ k)
  | .bank c b => (s.core c).ceWb.all fun i => decide (bankOf (8 * i) ≠ b)
  | .router _ => true

/-- BLOCK_IDLE_ENTER (R26): a block with nothing to do enters its idle state; no result changes. -/
def execBlockIdleEnter (b : Block) (s : State) : Host.Outcome State Fault Refusal :=
  if s.blockFree b && !s.pow.idle.elem b then .next (s.setPow { s.pow with idle := s.pow.idle ++ [b] }) else .next s

/-- BLOCK_IDLE_EXIT (R26). -/
def execBlockIdleExit (b : Block) (s : State) : Host.Outcome State Fault Refusal :=
  .next (s.setPow { s.pow with idle := s.pow.idle.filter fun x => decide (x ≠ b) })

/-! ### Supply trips (R28; 17 R406) -/

/-- The over-current protector acts: a POWER fault, and the compute-chip and I/O-die rails go off until a package
reset. The core rows are the compute chip's, so EN_ARR falls with EN_CMP. DEDUCED (assumption log 24). -/
def State.tripPower (s : State) (watts : Nat) : State :=
  let s := s.raiseFault { s.fault0 0xA 3 0x0A01 with die := 3, detail := watts }
  (s.setPow { s.pow with tripped := true }).setPins { s.pins with enArr := false, enCmp := false, enIod := false }

/-- OVER_CURRENT_TRIP (R28): the summed rail power stays above 1,100 W for longer than 10 µs. -/
def execOverCurrentTrip (watts : BitVec 32) (s : State) : Host.Outcome State Fault Refusal :=
  if decide (1100 < watts.toNat) && !s.pow.tripped && decide (1 ≤ s.pow.step) then .next (s.tripPower watts.toNat) else .next s

/-- Is the enable of a power-good asserted? -/
def State.enabledRail (s : State) : Rail → Bool
  | .arr => s.pins.enArr
  | .cmp => s.pins.enCmp
  | .iod => s.pins.enIod
  | .hbm => s.pins.enHbm

/-- POWER_GOOD_FALL (17 R406): a power-good falls while its enable is asserted and no PWR_WARN_N: as an over-current
trip. -/
def execPowerGoodFall (rail : Rail) (watts : BitVec 32) (s : State) : Host.Outcome State Fault Refusal :=
  if s.enabledRail rail && s.pow.warn.isNone then .next (s.tripPower watts.toNat) else .next s

/-! ### Easy (R29 to R35) -/

/-- The boundary of a stroke, ns of fabric time. -/
def State.boundaryOf (s : State) (num : Nat) : Int := s.phase + Int.ofNat num * Int.ofNat s.period

/-- The stroke named in GLB_WAKE_AT. -/
def State.wakeStroke (s : State) : Nat := s.pair R.GLB_WAKE_AT_LO R.GLB_WAKE_AT_HI []

/-- Is the named boundary less than 60,000 ns away, or past (R33)? -/
def State.wakeTooLate (s : State) : Bool := decide (s.boundaryOf s.wakeStroke < Int.ofNat s.ns + 60000)

/-- The first stroke whose boundary is at least 60,000 ns away (R32). -/
def State.soonestWake (s : State) : Nat :=
  fromSigned 64 ((Int.ofNat s.ns + 60000 - s.phase + Int.ofNat s.period - 1) / Int.ofNat s.period)

/-- A wake is asked for in a package asleep: choose T_first and the start W of the sequence (R32, R33). -/
def State.planWake (s : State) : State :=
  let named := s.isSet F.GLB_EASY_wake_at_valid []
  let s := if named && s.wakeTooLate then s.raiseBit F.GLB_EASY_wake_late [] else s
  let n := if named && !s.wakeTooLate then s.wakeStroke else s.soonestWake
  let first := (s.boundaryOf n).toNat
  s.setPow { s.pow with wakeReq := true, tFirst := first, tFirstStroke := n, wakeW := first - 60000 }

/-- A wake request (R31): at once when asleep, after entry when entering; elsewhere it does nothing. -/
def State.requestWake (s : State) : State :=
  match s.pow.easy with
  | .asleep => if s.pow.wakeReq then s else s.planWake
  | .entering => s.setPow { s.pow with wakeReq := true }
  | _ => s

/-- After a renumbering GLB_WAKE_AT is read in the new numbering (02 R413 rule 6): a wake that waits for its start is planned
anew, and one whose boundary is past, or too near, is late. -/
def State.rewake (s : State) : State :=
  if s.isSet F.GLB_EASY_wake_at_valid [] then
    match s.pow.easy with
    | .asleep => if s.pow.wakeReq || s.wakeTooLate then s.planWake else s
    | .entering => if s.wakeTooLate then s.requestWake else s
    | _ => s
  else s

/-- A write of GLB_EASY (R29 to R33): enter asks for entry at the next boundary, wake for a wake, and wake_at_valid with
a boundary too near counts as a wake request. An enter written while the package is entering, asleep or waking does nothing:
DESIGN CHOICE (assumption log 25). -/
def State.writeEasy (s : State) (v : Word) : State :=
  let s := (s.fromHost 4).hostPut R.GLB_EASY [] v
  let s := if bits v.toNat 0 0 = 1 ∧ s.pow.easy = .awake then (s.setPow { s.pow with easy := .requested }) else s
  let s := if bits v.toNat 1 1 = 1 then s.requestWake else s
  if bits v.toNat 3 3 = 1 ∧ s.wakeTooLate then s.requestWake else s

/-- EASY_ENTER (R30). -/
def execEasyEnter (v : BitVec 32) (s : State) : Host.Outcome State Fault Refusal := .next (s.writeEasy v)

/-- EASY_WAKE (R31). -/
def execEasyWake (v : BitVec 32) (s : State) : Host.Outcome State Fault Refusal := .next (s.writeEasy v)

/-- A write to GLB_WAKE_AT_LO or GLB_WAKE_AT_HI (R33). -/
def State.writeWakeAt (s : State) (r : RegDef) (v : Word) : State :=
  let s := s.hostPut r [] v
  if s.isSet F.GLB_EASY_wake_at_valid [] && s.wakeTooLate then s.requestWake else s

/-- WAKE_AT_WRITE (R33): GLB_WAKE_AT or wake_at_valid is written. -/
def execWakeAtWrite (which : WakeAtReg) (v : BitVec 32) (s : State) : Host.Outcome State Fault Refusal :=
  match which with
  | .easy => .next (s.writeEasy v)
  | .lo => .next (s.hostReg R.GLB_WAKE_AT_LO.base v fun s => s.writeWakeAt R.GLB_WAKE_AT_LO v)
  | .hi => .next (s.hostReg R.GLB_WAKE_AT_HI.base v fun s => s.writeWakeAt R.GLB_WAKE_AT_HI v)

/-- WAKE_AT_REACHED (R31, R32): the instant 60,000 ns before the named boundary comes, in Easy or its entry. -/
def execWakeAtReached (t : Nat) (s : State) : Host.Outcome State Fault Refusal :=
  let s := s.advance t
  let due := s.boundaryOf s.wakeStroke - 60000
  if s.isSet F.GLB_EASY_wake_at_valid [] && decide (due ≤ Int.ofNat s.ns) && decide (Int.ofNat s.pow.entry ≤ due) then
    .next s.requestWake
  else .next s

/-- Is crew n idle for Easy (R30): no table, no accepted command outstanding, no checkpoint, no collective? A command whose
completion record is still to be written is outstanding: DESIGN CHOICE (assumption log 25). -/
def State.crewIdle (s : State) (n : Nat) : Bool :=
  let k := s.crew n
  (k.launches.all fun l => l.finished.isSome) && (k.talCmds.all fun c => !c.todo) && k.cpls.isEmpty && k.ckpt.isNone
    && k.colls.isEmpty

/-- An entry request takes effect at a boundary, or is refused (R30). -/
def State.enterEasy (s : State) : State :=
  if s.pow.easy ≠ .requested then s
  else if (s.crewList.all s.crewIdle) && s.pow.mode.isNone then
    let s := s.setPow { s.pow with easy := .entering, entry := s.stk.bound, wakeReq := false }
    (s.disarm (iota 0 100)).liveBit F.GLB_EASY_waking [] true
  else (s.setPow { s.pow with easy := .awake }).raiseBit F.GLB_EASY_refused []

/-- In Easy every link is held in low-power idle (08 R187). -/
def State.idleLinks (s : State) : State :=
  s.each ((iota 0 96).filter fun l => decide (s.linkState l ≠ 5)) fun s l =>
    let st := s.linkState l
    (s.modLink l fun k => { k with idleFrom := some st }).setFld F.LNK_STAT_state (lnk48 l) 5

/-- The links leave the idle of Easy in the state they entered it. -/
def State.unidleLinks (s : State) : State :=
  s.each (iota 0 96) fun s l =>
    match (s.link l).idleFrom with
    | some st => (s.modLink l fun k => { k with idleFrom := none }).setFld F.LNK_STAT_state (lnk48 l) st
    | none => s

/-- EASY_ENTRY_COMPLETE (R30): the package is asleep; a wake asked for during entry is taken now. -/
def execEasyEntryComplete (t : Nat) (s : State) : Host.Outcome State Fault Refusal :=
  let s := s.advance t
  if s.pow.easy = .entering then
    let s := (s.setPow { s.pow with easy := .asleep }).setPins { s.pins with vid := 50 }
    let s := ((s.liveBit F.GLB_EASY_waking [] false).liveBit F.GLB_EASY_asleep [] true).idleLinks
    .next (if s.pow.wakeReq then s.planWake else s)
  else .next s

/-- Change the flywheel of a stroke receiver (02 R47). -/
def State.modRx (s : State) (n : Nat) (f : Flywheel → Flywheel) : State :=
  s.setStk { s.stk with rx := Map.setD {} s.stk.rx n (f (Map.getD {} s.stk.rx n)) }

/-- The clock domains that run once the package wakes: all but a management core that is held cold (R19). -/
def State.wokenDomains (s : State) : List Nat :=
  monitoredDomains.filter fun d =>
    decide (d ≠ 87 ∧ d ≠ 88) || (decide (d = 87 + s.cox.core) && decide (s.fld F.COX_STAT_state [] ≠ 3))

/-- WAKE_SEQUENCE (R32, table Wake from Easy): at W the sequence starts: supply, clocks 20 µs later, HBM, links with their
CREDIT_SYNC, receivers loaded with the number of T_first. -/
def execWakeSequence (t : Nat) (s : State) : Host.Outcome State Fault Refusal :=
  let s := s.advance t
  if s.pow.easy = .asleep ∧ s.pow.wakeReq = true ∧ s.pow.wakeW ≤ s.ns then
    let s := (s.setPow { s.pow with easy := .waking }).setPins { s.pins with vid := vidOf (s.fld F.GLB_MODE_current []) }
    let s := s.each (iota 0 3) fun s n => s.modRx n fun k => { k with
      count := s.pow.tFirstStroke, pred := s.pow.tFirst, run := 0, missRun := 0, emitted := false, next := none, adopt := false }
    let s := ((s.liveBit F.GLB_EASY_asleep [] false).liveBit F.GLB_EASY_waking [] true).unidleLinks
    .next ((s.clocksUpAt (s.raw + 20000) s.wokenDomains).each ((iota 0 96).filter s.linkUp) fun s l => s.sendSync l)
  else .next s

/-- A part is not ready at T_first (R34). -/
def State.notReady (s : State) : Part → State
  | .link l => s.linkDown l
  | .stack k => s.raiseFault { s.fault0 3 3 0x0312 with space := 1, die := dieOfStack k, loc := 64 * k, detail := 64 * k }

/-- The package is awake (R32, R34, R35): held doorbells are delivered, parts not ready take their own faults. -/
def State.wakeUp (s : State) (notReady : List Part) : State :=
  let s := s.setPow { s.pow with easy := .awake, wakeReq := false }
  let s := (s.liveBit F.GLB_EASY_waking [] false).deliverBells
  let s := s.each ((iota 0 96).filter s.linkUp) fun s l =>
    s.modLink l fun k => { k with lastLinkRx := s.raw, lastLinkTx := s.raw }
  s.each notReady State.notReady

/-- STRAY_ACCESS (R35): a host access to a stopped domain: a read gives ones, a write is discarded. -/
def execStrayAccess (write bar4 : Bool) (off : Nat) (s : State) : Host.Outcome State Fault Refusal :=
  if (if bar4 then s.inEasy || s.inReset else s.strayAt off) then
    .next (if write then s.stray else s.stray.giveWord 0xFFFFFFFF)
  else .next s

/-! ### Thermal limits (17 R410) -/

/-- Warn, throttle, throttle-exit and critical levels of a sensor: HBM stacks are sensors 19 to 26. -/
def thermal (sensor : Nat) : Nat × Nat × Nat × Nat := if sensor < 19 then (95, 105, 100, 115) else (90, 95, 90, 105)

/-- The die of a sensor. -/
def dieOfSensor (n : Nat) : Nat :=
  if n < 16 then 0 else if n = 16 then 1 else if n = 17 then 2 else if n = 18 then 3 else dieOfStack (n - 19)

/-- A sensor reads a temperature. -/
def State.reading (s : State) (n temp : Nat) : State :=
  (s.setFld F.COX_TEMP_temp [n] temp).setFld F.COX_TEMP_peak [n] (Nat.max temp (s.fld F.COX_TEMP_peak [n]))

/-- A THERMAL record. -/
def State.thermalFault (s : State) (n sev event temp : Nat) : State :=
  s.raiseFault { s.fault0 0xB sev event with die := dieOfSensor n, detail := temp }

/-- THERMAL_WARN (17 R410). -/
def execThermalWarn (sensor temp : Nat) (s : State) : Host.Outcome State Fault Refusal :=
  let s := s.reading sensor temp
  if (thermal sensor).1 ≤ temp ∧ s.isSet F.COX_TEMP_warn [sensor] = false then
    .next ((s.liveBit F.COX_TEMP_warn [sensor] true).thermalFault sensor 0 0x0B01 temp)
  else .next s

/-- THERMAL_WARN_CLEAR (17 R410). -/
def execThermalWarnClear (sensor temp : Nat) (s : State) : Host.Outcome State Fault Refusal :=
  let s := s.reading sensor temp
  .next (if temp < (thermal sensor).1 then s.liveBit F.COX_TEMP_warn [sensor] false else s)

/-- THROTTLE_ENTER (17 R410): the block slows itself; no result bit changes. -/
def execThrottleEnter (sensor temp : Nat) (s : State) : Host.Outcome State Fault Refusal :=
  let s := s.reading sensor temp
  if (thermal sensor).2.1 ≤ temp ∧ s.isSet F.COX_TEMP_throttle [sensor] = false then
    .next (((s.liveBit F.COX_TEMP_throttle [sensor] true).raiseBit F.COX_TEMP_throttle_hist [sensor]).thermalFault sensor 0 0x0B02 temp)
  else .next s

/-- THROTTLE_EXIT (17 R410). -/
def execThrottleExit (sensor temp : Nat) (s : State) : Host.Outcome State Fault Refusal :=
  let s := s.reading sensor temp
  .next (if temp < (thermal sensor).2.2.1 then s.liveBit F.COX_TEMP_throttle [sensor] false else s)

/-- CRITICAL_TRIP (17 R410; 14 R347, R353): every switched rail goes off, the logbook is flushed, THERM_TRIP_N is
asserted. -/
def execCriticalTrip (sensor temp : Nat) (s : State) : Host.Outcome State Fault Refusal :=
  let s := s.reading sensor temp
  if (thermal sensor).2.2.2 ≤ temp ∧ s.pow.critical = false then
    let s := s.thermalFault sensor 3 0x0B03 temp
    .next (s
      |>.setPow { s.pow with critical := true, tripped := true }
      |>.setCox { s.cox with flush := true }
      |>.setPins { s.pins with enArr := false, enCmp := false, enIod := false, enHbm := false, thermTripN := false })
  else .next s

end Sys2Proof.Machine
end

