-- ==== Sys2Proof/Machine/Queues.lean ====
section
/-!
DEFINITION. Queues: doorbells, ring fetches, acceptance of host commands at a boundary, directories and argument blocks
(03 R72 to R80, R88; 12 R289).
-/
namespace Sys2Proof.Machine

/-! ### Doorbells, rings and queue configuration (R72, R73) -/

/-- DOORBELL (R73; 01 R31, R35): a write of the tail index. In Easy and during a wake the port die holds the latest
value of each queue, and with wake_on_doorbell set it asks for a wake. -/
def execDoorbell (q : Nat) (tail : BitVec 32) (s : State) : Host.Outcome State Fault Refusal :=
  let s := s.fromHost 4
  if s.inEasy then
    let s := s.setPow { s.pow with held := Map.insert q tail s.pow.held }
    .next (if s.isSet F.GLB_EASY_wake_on_doorbell [] then s.requestWake else s)
  else if s.inReset then .next s
  else .next (s.ringBell q tail.toNat)

/-- Does the queue front-end run: package up, awake, not in a reset, not drained (11 R283)? -/
def State.frontEnd (s : State) : Bool :=
  !s.inEasy && !s.inReset && !s.pow.tripped && !s.isSet F.GLB_HEALTH_drained []

/-- May a queue's ring be reached: in HBM, or in host memory while PCIe runs (17 R409)? -/
def State.ringUp (s : State) (k : Queue) : Bool := k.ringInHbm || !s.pow.perst

/-- The read of a queue's next entry failed (R73): RING_FAULT stops the queue once the entries fetched before it have been
taken. -/
def State.ringFault (s : State) (q slot : Nat) : State :=
  if (s.queue q).fetched = [] then s.stopQueue q 2
  else s.modQueue q fun k => { k with fetched := k.fetched ++ [{ slot := slot, data := [], since := s.raw, bad := true }] }

/-- RING_ENTRY_FETCH (R75, R73; 07 R163): the front-end fetches the next entry below the tail. A read that returns
poison or a PCIe error (`bad`), or a ring at an unpopulated address, stops the queue with RING_FAULT. -/
def execRingEntryFetch (q : Nat) (bad : Bool) (s : State) : Host.Outcome State Fault Refusal :=
  let k := s.queue q
  let slot := (k.head + k.fetched.length) % k.size
  let a := k.ringLo.toNat + 2 ^ 32 * k.ringHi.toNat + 64 * slot
  if !s.frontEnd || !k.enable || k.stopped || !k.covers slot || decide (k.size ≤ k.fetched.length + 1) || !s.ringUp k
      || (k.fetched.any fun f => f.bad) then .next s
  else if k.ringInHbm && !s.populated a 64 then .next (s.ringFault q slot)
  else
    let (b, s) := if k.ringInHbm then s.hbmBytes a 64 else s.hostFetch a 64
    if bad || anyPoison b then .next (s.ringFault q slot)
    else
      let e : Fetched := { slot := slot, data := plain b, since := s.raw }
      .next (s.modQueue q fun k => { k with fetched := k.fetched ++ [e] })

/-- A write to SEQ_QCFG (R72, R73): configure the selected queue. While it is enabled only enable changes; an enable whose
context the rig does not bind is ignored and reads as error CONTEXT; enabling releases a stopped queue. -/
def State.writeQcfg (s : State) (v : Word) : State :=
  let q := s.fld F.SEQ_QSEL_queue []
  let w := v.toNat
  let s := if bits w 24 12 = (s.queue q).rsv ∨ s.pow.testMode = true then s else s.raiseBit F.GLB_CFGPAR_rwb_hist []
  let on := decide (bits w 31 31 = 1)
  if (s.queue q).enable then
    if on then s else s.modQueue q fun k => { k with enable := false, fetched := [] }
  else
    let log2 := bits w 28 25
    let s := s.modQueue q fun k =>
      let k := { k with
        ringInHbm := decide (bits w 30 30 = 1)
        cplInHbm := decide (bits w 29 29 = 1)
        log2 := if 4 ≤ log2 then log2 else 4
        context := bits w 11 0
        rsv := if s.pow.testMode then bits w 24 12 else k.rsv }
      { k with head := k.head % k.size, tail := k.tail % k.size }
    if !on then s
    else if (s.ctx (bits w 11 0)).bound then s.modQueue q fun k => { k with enable := true, stopped := false, error := 0 }
    else s.modQueue q fun k => { k with error := 3 }

/-- SEQ_QCFG_WRITE (R72, R73). -/
def execSeqQcfgWrite (v : BitVec 32) (s : State) : Host.Outcome State Fault Refusal :=
  .next (s.hostReg R.SEQ_QCFG.base v fun s => s.writeQcfg v)

/-- TAL_ADD_WRITE (R88): a host ADD waits for the next boundary. -/
def execTalAddWrite (n : Nat) (v : BitVec 32) (s : State) : Host.Outcome State Fault Refusal :=
  let s := s.fromHost 4
  if s.strayAt (R.TAL_ADD.addr [n]) then .next s.stray
  else .next (s.setHostTal (s.hostTal ++ [{ isSet := false, tally := n, value := v }]))

/-- TAL_SET_WRITE (R88): a host SET waits for the next boundary. -/
def execTalSetWrite (n : Nat) (v : BitVec 32) (s : State) : Host.Outcome State Fault Refusal :=
  let s := s.fromHost 4
  if s.strayAt (R.TAL_SET.addr [n]) then .next s.stray
  else .next (s.setHostTal (s.hostTal ++ [{ isSet := true, tally := n, value := v }]))

/-- Host ADDs and SETs act at a boundary, in arrival order, on any tally (R88). -/
def State.doHostTal (s : State) : State :=
  (s.setHostTal []).each s.hostTal fun s w =>
    s.putTally w.tally (if w.isSet then w.value else (s.tally w.tally).value + w.value)

/-! ### Host commands (R74) -/

/-- A host command, read from its 64 bytes. -/
structure HostCmd where
  op : Nat
  named : Bool
  seq : Word
  start : Nat
  directory : Nat
  args : Nat
  argsLen : Nat
  tally : Nat
  value : Word
  cookie : DWord
  bad : Bool
  deriving DecidableEq, Repr

/-- The fields of a host command. It is malformed when a reserved part is not 0, args_len exceeds 4,096 or op names
nothing (R74). -/
def hostCmd (b : Bytes) : HostCmd :=
  { op := field b 0 1
    named := decide (field b 1 1 % 2 = 1)
    seq := BitVec.ofNat 32 (field b 4 4)
    start := field b 8 8
    directory := field b 16 8
    args := field b 24 8
    argsLen := field b 32 4
    tally := field b 36 2
    value := BitVec.ofNat 32 (field b 40 4)
    cookie := BitVec.ofNat 64 (field b 48 8)
    bad := decide (1 < field b 1 1) || decide (field b 2 2 ≠ 0) || decide (field b 38 2 ≠ 0) || decide (field b 44 4 ≠ 0)
      || decide (field b 56 8 ≠ 0) || decide (16384 ≤ field b 36 2) || decide (4096 < field b 32 4)
      || decide (field b 0 1 = 0) || decide (5 < field b 0 1) }

/-- The command at the head of a queue, if its entry has been fetched. -/
def Queue.headCmd (k : Queue) : Option Bytes :=
  match k.fetched with
  | f :: _ => if f.slot = k.head ∧ k.covers f.slot ∧ f.bad = false then some f.data else none
  | [] => none

/-- Is the head command of a queue eligible at the boundary in progress: doorbell and fetch 64 ns or more before (R75)?
Entries are fetched only below the tail, so the fetch is the later of the two. -/
def State.eligible (s : State) (q : Nat) : Bool :=
  let k := s.queue q
  k.enable && !k.stopped && s.ringUp k && k.headCmd.isSome &&
    match k.fetched with | f :: _ => decide (f.since + 64 ≤ s.raw) | [] => false

/-- The crew of a queue's context. -/
def State.queueCrew (s : State) (q : Nat) : Nat := (s.ctx (s.queue q).context).crew

/-- Is a queue passed over (R76): a LAUNCH for a crew with 16 pending launches, or in a reset (12 R301), or a
QUEUE_WAIT whose tally, one of its crew, does not satisfy it? -/
def State.blocked (s : State) (q : Nat) (h : HostCmd) : Bool :=
  let n := s.queueCrew q
  if h.op = 1 then decide (16 ≤ (s.crew n).pending) || decide (s.rcvState n = 5)
  else if h.op = 4 then
    !h.bad && s.tallyOf n h.tally && decide (serial32 (s.tally h.tally).value h.value < 0)
  else false

/-- The completion of a command of queue q accepted at this boundary. -/
def State.hostCpl (s : State) (q slot accept : Nat) (h : HostCmd) (status : Nat) : Cpl :=
  { accept := accept
    queue := q
    slot := slot
    ring := (s.queue q).cplRing
    seq := h.seq
    cookie := h.cookie
    op := h.op
    ctx := (s.queue q).context
    crew := s.queueCrew q
    stroke := s.stk.num
    status := status
    replayed := false
    step := (s.crew (s.queueCrew q)).stepStart }

/-- Must what crew n accepts now act later: is it stopped, restoring, held or in a reset (12 R287, R289, R291)? -/
def State.deferred (s : State) (n : Nat) : Bool := s.halted n

/-- The shift that replays give to a command accepted at this boundary (12 R289): each its Δ before its B_stop + Δ. -/
def State.shift (s : State) (n : Nat) : Nat :=
  (s.crew n).retime.foldl (fun d w => if s.stk.num < w.1 then d + w.2 else d) 0

/-- Perform a tally command on its tally. -/
def State.doTal (s : State) (c : TalCmd) : State :=
  s.putTally c.tally (if c.isSet then c.value else (s.tally c.tally).value + c.value)

/-- A LAUNCH is dispatched (R77): refused, or entered among its crew's launches. -/
def State.dispatchLaunch (s : State) (q slot accept : Nat) (h : HostCmd) : State :=
  let n := s.queueCrew q
  if h.named && decide (h.start < s.stk.num + 2) then s.emitCpl (s.hostCpl q slot accept h 1)
  else if h.named && !s.locked then s.emitCpl (s.hostCpl q slot accept h 2)
  else
    let l : Launch := {
      accept := accept
      queue := q
      slot := slot
      ring := (s.queue q).cplRing
      seq := h.seq
      cookie := h.cookie
      ctx := (s.queue q).context
      named := h.named
      start := (if h.named then h.start else s.stk.num + 1) + s.shift n
      planned := (if h.named then h.start else s.stk.num + 1) + s.shift n
      directory := h.directory
      args := h.args
      argsLen := h.argsLen
      argsInHbm := (s.queue q).ringInHbm
      since := s.raw }
    (s.modCrew n fun k => { k with launches := k.launches ++ [l], everLaunch := true }).showPending n

/-- A TALLY_ADD or TALLY_SET is dispatched (R78, R84, R85): refused, or it acts now, or later where its crew is stopped
or replaying (12 R289). -/
def State.dispatchTally (s : State) (q slot accept : Nat) (h : HostCmd) : State :=
  let n := s.queueCrew q
  if h.op = 3 ∧ (s.ctx (s.queue q).context).privileged = false then s.emitCpl (s.hostCpl q slot accept h 3)
  else if !s.tallyOf n h.tally then s.emitCpl (s.hostCpl q slot accept h 7)
  else
    let wait := s.deferred n || decide (0 < s.shift n)
    let c : TalCmd := {
      accept := accept
      stroke := s.stk.num + s.shift n
      isSet := decide (h.op = 3)
      tally := h.tally
      value := h.value
      todo := wait
      cpl := if wait then some (s.hostCpl q slot accept h 0) else none }
    let s := s.modCrew n fun k => { k with talCmds := k.talCmds ++ [c] }
    if wait then s else (s.doTal c).addCpl n (s.hostCpl q slot accept h 0)

/-- An accepted command is refused or dispatched (R74 to R78; 11 R281, R282). -/
def State.dispatch (s : State) (q slot accept : Nat) (h : HostCmd) : State :=
  if h.bad then s.emitCpl (s.hostCpl q slot accept h 4)
  else if (match s.flt.drain with | some d => d.suspect || decide (h.op = 1) | none => false) then
    s.emitCpl (s.hostCpl q slot accept h 8)
  else if h.op = 1 then s.dispatchLaunch q slot accept h
  else if h.op = 2 ∨ h.op = 3 then s.dispatchTally q slot accept h
  else if h.op = 4 then s.emitCpl (s.hostCpl q slot accept h (if s.tallyOf (s.queueCrew q) h.tally then 0 else 7))
  else s.addCpl (s.queueCrew q) (s.hostCpl q slot accept h 0)

/-- The head of a queue has been taken; where the read of the next entry failed, the queue now stops (R73). -/
def State.popHead (s : State) (q : Nat) : State :=
  let s := s.modQueue q fun k => { k with head := (k.head + 1) % k.size, fetched := k.fetched.tail }
  match (s.queue q).fetched with
  | f :: _ => if f.bad then (s.modQueue q fun k => { k with fetched := [] }).stopQueue q 2 else s
  | [] => s

/-- The journal entry of an acceptance (14 R355). -/
def State.acceptEntry (s : State) (q accept : Nat) (h : HostCmd) : JnlEntry :=
  { num := 0
    kind := 1
    status := 0xFF
    op := h.op
    flags := (if h.named then 2 else 0) + 4 + 16 * s.queueCrew q
    queue := q
    ctx := (s.queue q).context
    seq := h.seq
    accept := accept
    stroke := s.stk.num
    cookie := h.cookie
    time := 0 }

/-- May the front-end take a command of queue q at the boundary in progress (R75; 14 R356)? -/
def State.canTake (s : State) (q : Nat) : Bool :=
  s.frontEnd && decide (s.taken < 64) && s.eligible q &&
    match (s.queue q).headCmd with | some b => !s.blocked q (hostCmd b) | none => false

/-- One pass of R75 over queue q: its head command is stale, leaves a gap, or is accepted and dispatched. -/
def State.acceptOne (s : State) (q : Nat) : State :=
  match (s.queue q).headCmd with
  | none => s
  | some b =>
    if !s.canTake q then s
    else
      let h := hostCmd b
      let slot := (s.queue q).head
      let d := serial32 h.seq (s.queue q).expected
      if d < 0 then (s.putRecord q (s.queue q).cplRing slot (cplBytes (2 ^ 64 - 1) h.cookie s.stk.num h.seq 5)).popHead q
      else if 0 < d then s.stopQueue q 1
      else
        let n := s.nextAccept
        let s := ((s.setNextAccept (n + 1)).setTaken (s.taken + 1)).setLastServed q
        let s := s.popHead q
        let s := s.modQueue q fun k => { k with expected := k.expected + 1, lastAccept := n, lastCmd := b }
        (s.journal (s.acceptEntry q n h)).dispatch q slot n h

/-- The queues in the order in which they are served from now on (R75). -/
def State.serving (s : State) : List Nat :=
  let ks := s.queues.map fun p => p.1
  (ks.filter fun q => decide (s.lastServed < q)) ++ ks.filter fun q => decide (q ≤ s.lastServed)

/-- Passes over the queues until 64 commands are taken or none can be; `fuel` bounds the passes. -/
def State.acceptPasses (s : State) (order : List Nat) : Nat → State
  | 0 => s
  | fuel + 1 => if order.any s.canTake then (s.each order State.acceptOne).acceptPasses order fuel else s

/-- COMMAND_ACCEPTANCE (R75): with fewer than 128 free entries of journal staging nothing is accepted (14 R356). -/
def State.acceptAll (s : State) : State :=
  let s := s.setTaken 0
  if !s.frontEnd then s
  else if s.stagingFree < 128 then (s.bump F.JNL_STAT_stalls [] 1).raiseBit F.JNL_STAT_stall_hist []
  else s.acceptPasses s.serving (s.queues.foldl (fun n p => n + p.2.fetched.length) 0)

/-- Is it still the instant of the boundary, so that acceptance can go on? -/
def State.atBoundary (s : State) : Bool := s.stk.drive && decide (s.ns = s.stk.bound) && decide (128 ≤ s.stagingFree)

/-- A command of one kind at the head of a queue is taken, at the instant of a boundary. -/
def State.takeOp (s : State) (q op : Nat) : State :=
  match (s.queue q).headCmd with
  | some b => if (hostCmd b).op = op ∧ s.atBoundary = true then s.acceptOne q else s
  | none => s

/-- LAUNCH (R77). -/
def execHostLaunch (q : Nat) (s : State) : Host.Outcome State Fault Refusal := .next (s.takeOp q 1)

/-- TALLY_ADD (R78). -/
def execHostTallyAdd (q : Nat) (s : State) : Host.Outcome State Fault Refusal := .next (s.takeOp q 2)

/-- TALLY_SET (R78). -/
def execHostTallySet (q : Nat) (s : State) : Host.Outcome State Fault Refusal := .next (s.takeOp q 3)

/-- QUEUE_WAIT (R76): accepted at the first boundary at which its tally satisfies it, and complete at once. -/
def execQueueWait (q : Nat) (s : State) : Host.Outcome State Fault Refusal := .next (s.takeOp q 4)

/-- HOST_NOP (R74). -/
def execHostNop (q : Nat) (s : State) : Host.Outcome State Fault Refusal := .next (s.takeOp q 5)

/-- The tally commands of crew n whose boundary a replay has brought (12 R289), in accept order. -/
def State.replayTal (s : State) (n : Nat) : State :=
  if s.halted n then s
  else
    let now := fun (c : TalCmd) => c.todo && decide (c.stroke ≤ s.stk.num)
    let due := (s.crew n).talCmds.filter now
    let act := fun (c : TalCmd) => if now c then { c with todo := false, cpl := none } else c
    let s := s.modCrew n fun k => { k with talCmds := k.talCmds.map act }
    s.each due fun s c =>
      let s := s.doTal c
      match c.cpl with | some r => s.addCpl n { r with stroke := s.stk.num } | none => s

/-! ### Directories and argument blocks (R74, R77) -/

/-- The launch of an accept number, with its crew. -/
def State.launchOf (s : State) (accept : Nat) : Option (Nat × Launch) :=
  (s.crewList.filterMap fun n => ((s.crew n).launches.find? fun l => decide (l.accept = accept)).map fun l => (n, l)).head?

/-- A table reference of a directory or pool item: its address field and length (R74, R92). The low five bits of an address or
offset that is not aligned to a word are dropped: DESIGN CHOICE (assumption log 28). -/
def tableRef (addr len : Nat) : TableRef :=
  if bits addr 63 63 = 1 then { inStore := true, addr := dataEnd + bits addr 17 0 / 32 * 32, len := len }
  else { inStore := false, addr := bits addr 38 0 / 32 * 32, len := len }

/-- Entry c of a directory. -/
def dirEntry (d : List (Byte × Bool)) (c : Nat) : Bytes := plain ((d.drop (16 * c)).take 16)

/-- Is a directory malformed for crew n (R74)? -/
def State.dirBad (s : State) (n : Nat) (d : List (Byte × Bool)) : Bool :=
  (iota 0 144).any fun c =>
    let e := dirEntry d c
    decide (field e 13 3 ≠ 0) || (decide (field e 8 2 ≠ 0) && decide (s.crewOf c ≠ some n))

/-- The poison fault of a launch that a poisoned control word gives (11 R267, R268). -/
def State.poisonLaunch (s : State) (n : Nat) (l : Launch) (f : Fault0) : State :=
  let s := s.modLaunch n l.accept fun x => { x with poisoned := true }
  (s.raiseFault { f.charge n (some l) with cls := 2, sev := 1 }).stopCrew n { bStop := s.nextStroke }

/-- Read and check the directory of a launch (R74; 11 R267): malformed, it will complete with FORMAT and no entry of it
issues. The low six bits of an argument address that is not aligned to 64 B, which R74 does not list as malformed, are dropped:
DESIGN CHOICE (assumption log 28). -/
def State.checkDirectory (s : State) (n : Nat) (l : Launch) : State :=
  if l.checked then s
  else
    let bad := fun (s : State) => s.modLaunch n l.accept fun x => { x with checked := true, statuses := 4 :: x.statuses }
    if l.directory % 64 ≠ 0 ∨ s.inRange n l.directory 2304 = false then bad s
    else
      let (d, s) := s.hbmBytes l.directory 2304
      if anyPoison d then
        let s := s.modLaunch n l.accept fun x => { x with checked := true }
        s.poisonLaunch n l { s.fault0 2 1 0x0214 with
          space := 1, die := dieOfStack (stackOf l.directory), addr := l.directory, detail := (d.filter fun p => p.2).length / 8 }
      else if s.dirBad n d then bad s
      else
        s.modLaunch n l.accept fun x => { x with
          checked := true
          members := ((s.members n).filter fun c => decide (field (dirEntry d c) 8 2 ≠ 0)).map fun c =>
            (c, tableRef (field (dirEntry d c) 0 8) (field (dirEntry d c) 8 2), field (dirEntry d c) 10 3 / 64 * 64) }

/-- DIRECTORY_CHECK (R74): the front-end reads and checks the directory of an accepted launch. -/
def execDirectoryCheck (accept : Nat) (s : State) : Host.Outcome State Fault Refusal :=
  match s.launchOf accept with
  | some (n, l) => if s.inReset || s.inEasy then .next s else .next (s.checkDirectory n l)
  | none => .next s

/-- The running launch of a core's crew. -/
def State.runningOf (s : State) (c : Nat) : Option (Nat × Launch) :=
  match s.crewOf c with
  | some n => (s.crew n).runningLaunch.map fun l => (n, l)
  | none => none

/-- ARGUMENT_BLOCK_LANDED (R77): in the drive a member core's DMA engine has copied the argument block into its core
store. A block that would reach past the end of core store is a format error (06 R137). -/
def execArgumentBlockLanded (core : Nat) (s : State) : Host.Outcome State Fault Refusal :=
  match s.runningOf core with
  | none => .next s
  | some (n, l) =>
    if (s.core core).seq.argLanded || !s.coreWorks core || s.dumpFrozen core 0xD || (!l.argsInHbm && s.pow.perst)
        || decide ((s.core core).seq.accept ≠ some l.accept) || (s.core core).seq.stopped then .next s
    else
      let dst := ((l.members.find? fun m => decide (m.1 = core)).map fun m => m.2.2).getD 0
      if storeEnd < dst + l.argsLen then .next ((s.formatError core l.accept).showSeq core) else
      let (b, s) :=
        if l.argsInHbm then
          if s.populated l.args l.argsLen then (s.nocHbm core l.args l.argsLen false).hbmBytes l.args l.argsLen
          else (clean (List.replicate l.argsLen 0xFF), s)
        else
          let (b, s) := (s.nocIn core 0 l.argsLen).hostFetch l.args l.argsLen
          let bad := (b.filter fun p => p.2).length
          (b, if bad = 0 then s
            else s.raiseFault { ((s.fault0 2 0 0x0203).charge n (some l)).atCore s core with
              unit := 0xD, space := 3, addr := l.args, detail := bad })
      let s := s.storeWrite core dst b
      let s := s.modLaunch n l.accept fun x => { x with worked := some s.stk.num }
      .next ((s.modSeq core fun q => { q with argLanded := true }).showSeq core)

end Sys2Proof.Machine
end

