-- ==== Sys2Proof/Machine/Transcend.lean ====
section
/-!
DEFINITION. Reference values of the transcendental functions, by integer series to far more bits than any format holds,
and the bound in ulp that a returned value meets (05 R135; 06 R147). Assumption log 10.
-/
namespace Sys2Proof.Machine

/-- Fraction bits of the fixed-point series. -/
def refBits : Nat := 256

/-- One in fixed point. -/
def refOne : Int := 2 ^ refBits

/-- m × 2^e in fixed point with p fraction bits, rounded down. -/
def toFixed (p m : Nat) (e : Int) : Int :=
  if 0 ≤ e + p then Int.ofNat (m * 2 ^ (e + p).toNat) else Int.ofNat (m / 2 ^ (-(e + p)).toNat)

/-- A fixed-point number scaled by a power of two, as an exact value. -/
def ofFixed (x k : Int) : FVal := .fin (decide (x < 0)) x.natAbs (k - refBits)

/-! ### Constants -/

/-- arctan(1/n) from its term of index k on; `p`: n^-(2k+1) in fixed point. -/
def atanInv (n : Nat) : Nat → Nat → Nat → Int
  | 0, _, _ => 0
  | fuel + 1, k, p => Int.ofNat (p / (2 * k + 1)) - atanInv n fuel (k + 1) (p / (n * n))

/-- π with q fraction bits (Machin). -/
def piFixed (q : Nat) : Int :=
  let one := 2 ^ (q + 64)
  4 * (4 * atanInv 5 q 0 (one / 5) - atanInv 239 q 0 (one / 239)) / 2 ^ 64

/-- Σ z^(2j+1) / (2j+1) from j = k on; `p`: z^(2k+1), `z2`: z². -/
def atanhSum (z2 : Int) : Nat → Int → Int → Int
  | 0, _, _ => 0
  | fuel + 1, k, p => p / (2 * k + 1) + atanhSum z2 fuel (k + 1) (p * z2 / refOne)

/-- ln t for t in [1, 2]. -/
def lnFixed (t : Int) : Int :=
  let z := (t - refOne) * refOne / (t + refOne)
  2 * atanhSum (z * z / refOne) 90 0 z

/-- ln 2. -/
def ln2Fixed : Int := lnFixed (2 * refOne)

/-! ### Series -/

/-- Σ r^j / j! from the term t of index k on. -/
def expSum (r : Int) : Nat → Int → Int → Int
  | 0, _, _ => 0
  | fuel + 1, k, t => t + expSum r fuel (k + 1) (t * r / refOne / (k + 1))

/-- The alternating series whose term t of index k is followed by t × r2 / (k+1)(k+2). -/
def trigSum (r2 : Int) : Nat → Int → Int → Int
  | 0, _, _ => 0
  | fuel + 1, k, t => t - trigSum r2 fuel (k + 2) (t * r2 / refOne / ((k + 1) * (k + 2)))

/-- Σ (-1)^j x^(2j+1) / (j! (2j+1)) from j = k on; `t`: x^(2k+1) / k!. -/
def erfSum (x2 : Int) : Nat → Int → Int → Int
  | 0, _, _ => 0
  | fuel + 1, k, t => t / (2 * k + 1) - erfSum x2 fuel (k + 1) (t * x2 / refOne / (k + 1))

/-- 2^n × (fixed-point number in [1, 2)) for 2^x, or for e^x. -/
def expParts (two : Bool) (x : Int) : Int × Int :=
  let unit := if two then refOne else ln2Fixed
  let n := x / unit
  let r := x - n * unit
  (n, expSum (if two then r * ln2Fixed / refOne else r) 90 0 refOne)

/-- e^-x for x ≥ 0, in fixed point. -/
def expNeg (x : Int) : Int := let p := expParts false (-x); p.2 / 2 ^ (-p.1).toNat

/-- sin and cos of ±m × 2^e, reduced exactly against 2π. -/
def sinCos (neg : Bool) (m : Nat) (e : Int) : Int × Int :=
  let q := refBits + 64 + (flog2 m e).toNat
  let r := toFixed q m e % (2 * piFixed q) / 2 ^ (q - refBits)
  let r2 := r * r / refOne
  let sn := trigSum r2 80 1 r
  (if neg then -sn else sn, trigSum r2 80 0 refOne)

/-! ### Reference values and the bound -/

/-- A value too great, or too small, for any format. -/
def extreme (big : Bool) : FVal := .fin false 1 (if big then 12000 else -12000)

/-- The exact result of a function of R135, by VEC op code, to more than 80 significant bits, for an operand that has no
special value. -/
def refValue (op : Nat) (v : FVal) : FVal :=
  match v with
  | .fin neg m e =>
    let l := flog2 m e
    let small := decide (m = 0) || decide (l < -40)
    let x := toFixed refBits m e
    let sx := if neg then -x else x
    if op = 9 then
      let d := if e % 2 = 0 then (m, e) else (2 * m, e - 1)
      let k := 200 + Nat.log2 d.1
      let n := 2 ^ (2 * k) / d.1
      .fin false (isqrt n (Nat.log2 n / 2 + 1) 0) (-(Int.ofNat k) - d.2 / 2)
    else if op = 0xA ∨ op = 0xB then
      if 13 ≤ l ∧ m ≠ 0 then extreme (!neg) else let p := expParts (decide (op = 0xA)) sx; ofFixed p.2 p.1
    else if op = 0xC ∨ op = 0xD then
      let t := lnFixed (toFixed refBits m (e - l))
      if op = 0xC then ofFixed (l * refOne + t * refOne / ln2Fixed) 0 else ofFixed (l * ln2Fixed + t) 0
    else if op = 0xE then if small then v else ofFixed (sinCos neg m e).1 0
    else if op = 0xF then if small then .fin false 1 0 else ofFixed (sinCos neg m e).2 0
    else if op = 0x10 then
      if small then v
      else if 8 ≤ l then .fin neg 1 0
      else let q := expNeg (2 * x); let y := (refOne - q) * refOne / (refOne + q); ofFixed (if neg then -y else y) 0
    else if op = 0x11 then
      if 13 ≤ l ∧ m ≠ 0 then (if neg then extreme false else .fin false 1 0)
      else if !neg then ofFixed (refOne * refOne / (refOne + expNeg x)) 0
      else let p := expParts false sx; ofFixed (p.2 * refOne / (refOne + p.2 / 2 ^ (-p.1).toNat)) p.1
    else
      let c := 2 * refOne * refOne / Int.ofNat (isqrt (piFixed (2 * refBits)).toNat (refBits + 2) 0)
      if small then .fin neg (m * c.toNat) (e - refBits)
      else if 3 ≤ l then .fin neg 1 0
      else let y := erfSum (x * x / refOne) 340 0 x * c / refOne; ofFixed (if neg then -y else y) 0
  | v => v

/-- The bound of a function in halves of an ulp (R135). -/
def boundHalves (op : Nat) : Nat := if op = 9 ∨ op = 0xA ∨ op = 0xC then 2 else if op = 0xB ∨ op = 0xD then 3 else 4

/-- Does v lie within h halves of an ulp of y in a format (R135)? -/
def withinUlp (f : Fmt) (h : Nat) (v y : FVal) : Bool :=
  match y with
  | .fin _ m e =>
    let l := flog2 m e
    let u := (if m = 0 ∨ l < f.emin then f.emin else l) - Int.ofNat f.mb
    !v.isNan && !v.isInf && !(FVal.fin false h (u - 1)).lt (v.add y.neg).abs
  | _ => false

/-- A value that meets the bound around y: the raw one if it does, else y rounded to the format. -/
def boundedValue (f : Fmt) (h raw : Nat) (y : FVal) : FVal :=
  let v := f.decode (raw % 2 ^ f.width)
  if !(f.round y).isInf && withinUlp f h v y then v else f.round y

end Sys2Proof.Machine
end

