-- ==== Sys2Proof/Machine/Vector.lean ====
section
/-!
DEFINITION. The vector engine (06 R143 to R149; 05 R131 to R136).
-/
namespace Sys2Proof.Machine

/-! ### Elementwise results -/

/-- The operation codes that go through Config.vecFn: RSQRT and the functions of R135. -/
def isFunction (op : Nat) : Bool := decide (9 ≤ op) && decide (op ≤ 0x12)

/-- The special values of the functions (R135); none where the bound of R135 governs. -/
def specialValue (op : Nat) (v : FVal) : Option FVal :=
  let one : FVal := .fin false 1 0
  match v with
  | .nan => some .nan
  | .inf neg =>
    if op = 9 then some (if neg then .nan else .fin false 0 0)
    else if op = 0xA ∨ op = 0xB then some (if neg then .fin false 0 0 else .inf false)
    else if op = 0xC ∨ op = 0xD then some (if neg then .nan else .inf false)
    else if op = 0xE ∨ op = 0xF then some .nan
    else if op = 0x11 then some (if neg then .fin false 0 0 else one)
    else some (.fin neg 1 0)
  | .fin neg m _ =>
    if m = 0 then
      if op = 9 then some (.inf neg)
      else if op = 0xC ∨ op = 0xD then some (.inf true)
      else if op = 0xF then some one
      else if op = 0xE ∨ op = 0x10 ∨ op = 0x12 then some (.fin neg 0 0)
      else none
    else if neg ∧ (op = 9 ∨ op = 0xC ∨ op = 0xD) then some .nan
    else if (op = 0xC ∨ op = 0xD) ∧ v.eqv one then some (.fin false 0 0)
    else none

/-- A function of R135 in a format: its special value, else a fixed function of the operand's bits (R136) that meets the
bound of R135 (assumption log 10). -/
def functionValue (op : Nat) (f : Fmt) (v : FVal) : FVal :=
  match specialValue op v with
  | some x => x
  | none => boundedValue f (boundHalves op) (Config.vecFn op f.width (f.rne v)) (refValue op v)

/-- The format an operation that rounds to fmt computes in: BF16 goes through FP32 (R135). -/
def workFmt (f : Fmt) : Fmt := if f = fBF16 then fFP32 else f

/-- Round to the working format, then to fmt (R145, R135). -/
def narrow (f : Fmt) (v : FVal) : FVal := f.round ((workFmt f).round v)

/-- 1 or 0. -/
def truth (b : Bool) : FVal := .fin false (if b then 1 else 0) 0

/-- The result of an elementwise operation before its rounding to out_fmt (R144, R145). -/
def vecElem (op : Nat) (src : Option Fmt) (a b c : FVal) : FVal :=
  let g := match src with | some f => f | none => fFP32
  if op = 0 then a.add b
  else if op = 1 then a.add b.neg
  else if op = 2 then a.mul b
  else if op = 3 then (a.mul b).add c
  else if op = 4 then narrow g (a.div b)
  else if op = 5 then a.min b
  else if op = 6 then a.max b
  else if op = 7 then narrow g a.sqrt
  else if op = 8 then narrow g (FVal.div (.fin false 1 0) a)
  else if isFunction op then narrow g (functionValue op (workFmt g) a)
  else if op = 0x13 then a
  else if op = 0x14 then truth (!a.isNan && !b.isNan && a.lt b)
  else if op = 0x15 then truth (!a.isNan && !b.isNan && !b.lt a)
  else if op = 0x16 then truth (a.eqv b)
  else if c.isZero then b else a

/-! ### Row reductions (R146) -/

/-- The format a reduction works in: FP32 for FP32 and BF16 sources, FP64, or INT32. -/
def laneFmt (src : Option Fmt) : Option Fmt :=
  match src with
  | some f => some (if f = fFP64 then fFP64 else fFP32)
  | none => none

/-- Round a lane value. -/
def laneRound (g : Option Fmt) (v : FVal) : FVal :=
  match g with
  | some f => f.round v
  | none => decodeV none (wrapV v)

/-- The lane step of an operation. -/
def laneOp (op : Nat) (g : Option Fmt) (lane x : FVal) : FVal :=
  if op = 0x20 then laneRound g (lane.add x)
  else if op = 0x21 then laneRound g (lane.max x)
  else if op = 0x22 then laneRound g (lane.min x)
  else laneRound g ((x.mul x).add lane)

/-- The tree step of an operation. -/
def treeOp (op : Nat) (g : Option Fmt) (x y : FVal) : FVal :=
  if op = 0x21 then laneRound g (x.max y)
  else if op = 0x22 then laneRound g (x.min y)
  else laneRound g (x.add y)

/-- Give element j to its lane, in ascending j. -/
def laneFill {α : Type} (step : α → FVal → α) : Nat → List α → List FVal → List α
  | _, lanes, [] => lanes
  | j, lanes, x :: r => laneFill step (j + 1) (modifyAt (fun l => step l x) (j % 64) lanes) r

/-- The fixed halving tree: w, w/2, …, 1; `k` halvings of a list of 2^k lanes. -/
def halve {α : Type} (join : α → α → α) : Nat → List α → List α
  | 0, l => l
  | k + 1, l => halve join k (List.zipWith join (l.take (2 ^ k)) (l.drop (2 ^ k)))

/-- accumulate of 05 R121 in a format: s and e. -/
def accumulateV (f : Fmt) (se : FVal × FVal) (x : FVal) : FVal × FVal :=
  let zero : FVal := .fin false 0 0
  if se.1.isNan || x.isNan then (.nan, zero)
  else if se.1.isInf || x.isInf then (f.round (se.1.add x), zero)
  else
    let s1 := f.round (se.1.add x)
    if s1.isInf then (s1, zero)
    else (s1, f.round (se.2.add (f.round ((se.1.add x).add s1.neg))))

/-- Join two compensated lanes. -/
def joinC (f : Fmt) (x y : FVal × FVal) : FVal × FVal :=
  let z := accumulateV f x y.1
  (z.1, f.round (z.2.add y.2))

/-- One row's result before its rounding to out_fmt. -/
def rowReduce (op : Nat) (src : Option Fmt) (xs : List FVal) : FVal :=
  let g := laneFmt src
  let zero : FVal := .fin false 0 0
  if op = 0x24 then
    let f := match g with | some f => f | none => fFP32
    let l := halve (joinC f) 6 (laneFill (accumulateV f) 0 (List.replicate 64 (zero, zero)) xs)
    let r := l.headD (zero, zero)
    r.1.add r.2
  else
    let id := if op = 0x21 ∨ op = 0x22 then xs.headD zero else zero
    (halve (treeOp op g) 6 (laneFill (laneOp op g) 0 (List.replicate 64 id) xs)).headD zero

/-! ### Operands -/

/-- Elements of a run of bytes, with poison. -/
def vecElems (f : VFmt) : Nat → List (Byte × Bool) → List (FVal × Bool)
  | 0, _ => []
  | n + 1, l => (decodeV f.1 (leNat (plain (l.take f.2))), anyPoison (l.take f.2)) :: vecElems f n (l.drop f.2)

/-- Read rows of a stream. -/
def State.readRows (s : State) (c : Nat) (f : VFmt) (n a step : Nat) : Nat → List (List (FVal × Bool)) × State
  | 0 => ([], s)
  | r + 1 =>
    let (b, s) := s.storeRead c a (n * f.2)
    let (l, s) := s.readRows c f n (a + step) step r
    (vecElems f n b :: l, s)

/-- Read an operand: for each row its elements, or the one element that the row has (R144). -/
def State.readOpd (s : State) (c : Nat) (v : VCmd) (f : VFmt) (mode a : Nat) : List (List (FVal × Bool)) × State :=
  if mode = 0 then s.readRows c f v.n a (v.step f.2) v.rows
  else if mode = 2 then s.readRows c f 1 a f.2 v.rows
  else if mode = 1 then (List.replicate v.rows [(scalarV f.1 v.imm, false)], s)
  else ([], s)

/-- Element j of a row; a row of one element serves every j. -/
def elemAt (row : List (FVal × Bool)) (j : Nat) : FVal × Bool :=
  match row with
  | [] => (.nan, false)
  | [x] => x
  | _ => row.getD j (.nan, false)

/-- The position of row r (R147), with its poison. -/
def VCmd.position (v : VCmd) (cs : List (List (FVal × Bool))) (r : Nat) : Nat × Bool :=
  if v.cMode = 0 ∨ v.cMode = 2 then
    let x := elemAt ((cs.getD r []).take 1) 0
    (wrapV x.1 % 2 ^ 23, x.2)
  else if v.cMode = 1 then (v.pos, false)
  else (v.pos + r, false)

/-- cos and sin of position × frequency, each within 2 ulp of FP32 (R147, R135; assumption log 10). -/
def ropeAngle (p : Nat) (w : FVal) : FVal × FVal :=
  let phi := (FVal.fin false p 0).mul w
  let fn := fun (op : Nat) => boundedValue fFP32 (boundHalves op) (Config.ropeFn op 32 p (fFP32.rne w)) (refValue op phi)
  match phi with
  | .nan => (.nan, .nan)
  | .inf _ => (.nan, .nan)
  | .fin neg m _ => if m = 0 then (.fin false 1 0, .fin neg 0 0) else (fn 0xF, fn 0xE)

/-- One output row of ROPE (R147, R148). -/
def ropeRow (v : VCmd) (ws : List (FVal × Bool)) (p : Nat × Bool) (row : List (FVal × Bool)) : List (FVal × Bool) :=
  (iota 0 v.n).map fun j =>
    let i := if v.half then j % (v.n / 2) else j / 2
    let first := if v.half then decide (j < v.n / 2) else decide (j % 2 = 0)
    let x0 := elemAt row (if v.half then i else 2 * i)
    let x1 := elemAt row (if v.half then i + v.n / 2 else 2 * i + 1)
    let w := elemAt ws i
    let (c, sn) := ropeAngle p.1 w.1
    let y := if first then (x0.1.mul c).add (x1.1.mul sn).neg else (x0.1.mul sn).add (x1.1.mul c)
    (y, x0.2 || x1.2 || p.2 || w.2)

/-- One output row of MASK (R147, R148). -/
def maskRow (v : VCmd) (p : Nat × Bool) (row : List (FVal × Bool)) : List (FVal × Bool) :=
  (iota 0 v.n).map fun j =>
    let x := elemAt row j
    let k := v.key + j
    let w := v.imm % 2 ^ 23
    (if k ≤ p.1 ∧ (w = 0 ∨ p.1 - k < w) then x.1 else .inf true, x.2 || p.2)

/-- One row of results. -/
def vecRow (v : VCmd) (src : Option Fmt) (as bs cs : List (List (FVal × Bool))) (r : Nat) : List (FVal × Bool) :=
  let row := as.getD r []
  if vReduces v.op then [(rowReduce v.op src (row.map fun x => x.1), row.any fun x => x.2)]
  else if v.op = 0x28 then ropeRow v (bs.headD []) (v.position cs r) row
  else if v.op = 0x29 then maskRow v (v.position cs r) row
  else
    (iota 0 v.n).map fun j =>
      let a := elemAt row j
      let b := if vNeedsB v.op then elemAt (bs.getD r []) j else (.nan, false)
      let c := if vNeedsC v.op then elemAt (cs.getD r []) j else (.nan, false)
      (vecElem v.op src a.1 b.1 c.1, a.2 || b.2 || c.2)

/-! ### The engine -/

/-- Show the engine in VEC_STATUS. A command is one whole step (assumption log 8), so between commands `row` stands at 0 and
no current command has read poison. -/
def State.showVec (s : State) (c : Nat) : State :=
  let q := (s.core c).vecq
  let st := if s.dumpFrozen c 0xC then 3 else if q = [] then 0 else if s.pausedUnit c then 2 else 1
  let op := match q with | x :: _ => (vcmd x.word).op | [] => 0
  (((s.setFld F.VEC_STATUS_state [c] st).setFld F.VEC_STATUS_queued [c] q.length).setFld F.VEC_STATUS_op [c] op).liveBit
    F.VEC_STATUS_poison [c] false

/-- Write the result rows. -/
def State.writeVec (s : State) (c : Nat) (v : VCmd) (src : Option Fmt) (out : VFmt) (a step : Nat) :
    List (List (FVal × Bool)) → State
  | [] => s
  | row :: rows =>
    let bytes := row.flatMap fun x => (natLe out.2 (encodeV src out.1 v.rz x.1)).map fun b => (b, x.2)
    (s.storeWrite c a bytes).writeVec c v src out (a + step) step rows

/-- Perform a vector command: read every source, then write every result (R144 to R148; assumption log 14). -/
def State.doVec (s : State) (c : Nat) (v : VCmd) : State :=
  match vSrc v.fmt, vOut v.out with
  | some src, some out =>
    let pos := decide (v.op = 0x28) || decide (v.op = 0x29)
    let (as, s) := s.readOpd c v src 0 v.a
    let (bs, s) :=
      if v.op = 0x28 then
        let (b, s) := s.storeRead c v.b (v.n / 2 * 4)
        ([vecElems (some fFP32, 4) (v.n / 2) b], s)
      else if vNeedsB v.op then s.readOpd c v src v.bMode v.b else ([], s)
    let (cs, s) :=
      if vNeedsC v.op then s.readOpd c v (if v.op = 0x17 then (none, 4) else src) v.cMode v.c
      else if pos && decide (v.cMode = 0) then s.readRows c (none, 4) 1 v.c (v.step 4) v.rows
      else if pos && decide (v.cMode = 2) then s.readRows c (none, 4) 1 v.c 4 v.rows
      else ([], s)
    let s := if (as ++ bs ++ cs).any fun r => r.any fun x => x.2 then s.liveBit F.VEC_STATUS_poison [c] true else s
    s.writeVec c v src.1 out v.d (if vReduces v.op then out.2 else v.step out.2)
      ((iota 0 v.rows).map fun r => vecRow v src.1 as bs cs r)
  | _, _ => s

/-- Run the head of the vector engine's queue if its op is the given one (R149, R160). -/
def State.runVec (s : State) (c op : Nat) : State :=
  match (s.core c).vecq with
  | [] => s
  | q :: rest =>
    let v := vcmd q.word
    if v.op ≠ op || !s.unitRuns c 0xC q.tag then s
    else
      let s := s.modCore c fun k => { k with vecq := rest }
      if v.bad then ((s.traceEnd c 2 0 q).formatError c q.accept).showVec c
      else (((s.traceBegin c q).doVec c v).traceEnd c 0 v.rows q).showVec c

/-- VEC_ADD (R145). -/
def execVecAdd (core : Nat) (s : State) : Host.Outcome State Fault Refusal := .next ((s.runVec core 0x00).settleCore core)

/-- VEC_SUB (R145). -/
def execVecSub (core : Nat) (s : State) : Host.Outcome State Fault Refusal := .next ((s.runVec core 0x01).settleCore core)

/-- VEC_MUL (R145). -/
def execVecMul (core : Nat) (s : State) : Host.Outcome State Fault Refusal := .next ((s.runVec core 0x02).settleCore core)

/-- VEC_FMA (R145). -/
def execVecFma (core : Nat) (s : State) : Host.Outcome State Fault Refusal := .next ((s.runVec core 0x03).settleCore core)

/-- VEC_DIV (R145). -/
def execVecDiv (core : Nat) (s : State) : Host.Outcome State Fault Refusal := .next ((s.runVec core 0x04).settleCore core)

/-- VEC_MIN (R132). -/
def execVecMin (core : Nat) (s : State) : Host.Outcome State Fault Refusal := .next ((s.runVec core 0x05).settleCore core)

/-- VEC_MAX (R132). -/
def execVecMax (core : Nat) (s : State) : Host.Outcome State Fault Refusal := .next ((s.runVec core 0x06).settleCore core)

/-- VEC_SQRT (R131). -/
def execVecSqrt (core : Nat) (s : State) : Host.Outcome State Fault Refusal := .next ((s.runVec core 0x07).settleCore core)

/-- VEC_RECIP (R135). -/
def execVecRecip (core : Nat) (s : State) : Host.Outcome State Fault Refusal := .next ((s.runVec core 0x08).settleCore core)

/-- VEC_RSQRT (R135). -/
def execVecRsqrt (core : Nat) (s : State) : Host.Outcome State Fault Refusal := .next ((s.runVec core 0x09).settleCore core)

/-- VEC_EXP2 (R135). -/
def execVecExp2 (core : Nat) (s : State) : Host.Outcome State Fault Refusal := .next ((s.runVec core 0x0A).settleCore core)

/-- VEC_EXP (R135). -/
def execVecExp (core : Nat) (s : State) : Host.Outcome State Fault Refusal := .next ((s.runVec core 0x0B).settleCore core)

/-- VEC_LOG2 (R135). -/
def execVecLog2 (core : Nat) (s : State) : Host.Outcome State Fault Refusal := .next ((s.runVec core 0x0C).settleCore core)

/-- VEC_LN (R135). -/
def execVecLn (core : Nat) (s : State) : Host.Outcome State Fault Refusal := .next ((s.runVec core 0x0D).settleCore core)

/-- VEC_SIN (R135). -/
def execVecSin (core : Nat) (s : State) : Host.Outcome State Fault Refusal := .next ((s.runVec core 0x0E).settleCore core)

/-- VEC_COS (R135). -/
def execVecCos (core : Nat) (s : State) : Host.Outcome State Fault Refusal := .next ((s.runVec core 0x0F).settleCore core)

/-- VEC_TANH (R135). -/
def execVecTanh (core : Nat) (s : State) : Host.Outcome State Fault Refusal := .next ((s.runVec core 0x10).settleCore core)

/-- VEC_SIGMOID (R135). -/
def execVecSigmoid (core : Nat) (s : State) : Host.Outcome State Fault Refusal := .next ((s.runVec core 0x11).settleCore core)

/-- VEC_ERF (R135). -/
def execVecErf (core : Nat) (s : State) : Host.Outcome State Fault Refusal := .next ((s.runVec core 0x12).settleCore core)

/-- VEC_CVT (R145). -/
def execVecCvt (core : Nat) (s : State) : Host.Outcome State Fault Refusal := .next ((s.runVec core 0x13).settleCore core)

/-- VEC_CMPLT (R132). -/
def execVecCmplt (core : Nat) (s : State) : Host.Outcome State Fault Refusal := .next ((s.runVec core 0x14).settleCore core)

/-- VEC_CMPLE (R132). -/
def execVecCmple (core : Nat) (s : State) : Host.Outcome State Fault Refusal := .next ((s.runVec core 0x15).settleCore core)

/-- VEC_CMPEQ (R132). -/
def execVecCmpeq (core : Nat) (s : State) : Host.Outcome State Fault Refusal := .next ((s.runVec core 0x16).settleCore core)

/-- VEC_SELECT (R145). -/
def execVecSelect (core : Nat) (s : State) : Host.Outcome State Fault Refusal := .next ((s.runVec core 0x17).settleCore core)

/-- VEC_RSUM (R146). -/
def execVecRsum (core : Nat) (s : State) : Host.Outcome State Fault Refusal := .next ((s.runVec core 0x20).settleCore core)

/-- VEC_RMAX (R146). -/
def execVecRmax (core : Nat) (s : State) : Host.Outcome State Fault Refusal := .next ((s.runVec core 0x21).settleCore core)

/-- VEC_RMIN (R146). -/
def execVecRmin (core : Nat) (s : State) : Host.Outcome State Fault Refusal := .next ((s.runVec core 0x22).settleCore core)

/-- VEC_RSUMSQ (R146). -/
def execVecRsumsq (core : Nat) (s : State) : Host.Outcome State Fault Refusal := .next ((s.runVec core 0x23).settleCore core)

/-- VEC_RSUMC (R146). -/
def execVecRsumc (core : Nat) (s : State) : Host.Outcome State Fault Refusal := .next ((s.runVec core 0x24).settleCore core)

/-- VEC_ROPE (R147). -/
def execVecRope (core : Nat) (s : State) : Host.Outcome State Fault Refusal := .next ((s.runVec core 0x28).settleCore core)

/-- VEC_MASK (R147). -/
def execVecMask (core : Nat) (s : State) : Host.Outcome State Fault Refusal := .next ((s.runVec core 0x29).settleCore core)

end Sys2Proof.Machine
end

