-- ==== Sys2Proof/Machine/Sequencer.lean ====
section
/-!
DEFINITION. The sequencers: tables, entries, command words, tally and control commands, run-ahead, work pools, launch
start and completion (03 R63 to R71, R77 to R83, R89 to R93).
-/
namespace Sys2Proof.Machine

/-! ### Table words (R63, R65) -/

/-- Stroke offset of a header. -/
def hdrOffset (h : CmdWord) : Nat := wbits h 239 224

/-- Command words of the entry. -/
def hdrWords (h : CmdWord) : Nat := wbits h 223 218

/-- The condition flag. -/
def hdrCond (h : CmdWord) : Bool := decide (wbits h 217 217 = 1)

/-- Number of header waits. -/
def hdrWaits (h : CmdWord) : Nat := wbits h 215 214

/-- skip_on_timeout. -/
def hdrSkip (h : CmdWord) : Bool := decide (wbits h 213 213 = 1)

/-- A header that is malformed in itself (R71), or whose entry does not fit the table's length. -/
def hdrBad (h : CmdWord) (pos len : Nat) : Bool :=
  decide (wbits h 255 252 ≠ 0xF) || decide (hdrWords h = 0) || decide (32 < hdrWords h) || decide (hdrWaits h = 3)
    || decide (3 < wbits h 69 67) || decide (len < pos + 1 + hdrWords h)

/-- Tally, timeout and threshold of header wait i. -/
def hdrWait (h : CmdWord) (i : Nat) : Nat × Nat × Word :=
  if i = 0 then (wbits h 191 178, wbits h 177 170, BitVec.ofNat 32 (wbits h 169 138))
  else (wbits h 137 124, wbits h 123 116, BitVec.ofNat 32 (wbits h 115 84))

/-- Read word i of a table for core c of crew n: none where the table does not reach, or the word lies beyond core store
or the crew's range. -/
def State.tableWord (s : State) (c n : Nat) (t : TableRef) (i : Nat) : Option (CmdWord × Bool) × State :=
  let a := t.addr + 32 * i
  if t.len ≤ i then (none, s)
  else if t.inStore then
    if a + 32 ≤ storeEnd then
      let (b, s) := s.storeRead c a 32
      (some (BitVec.ofNat 256 (leNat (plain b)), anyPoison b), s)
    else (none, s)
  else if s.inRange n a 32 then
    let (b, s) := (s.nocIn c (stackOf a / 4) 32).hbmBytes a 32
    (some (BitVec.ofNat 256 (leNat (plain b)), anyPoison b), s)
  else (none, s)

/-- A table word as run-ahead or a posting scan sees it: nothing is counted or recorded (R81). -/
def State.peekWord (s : State) (c n : Nat) (t : TableRef) (i : Nat) : Option CmdWord :=
  ((s.tableWord c n t i).1).map fun p => p.1

/-- Read words i, i+1, … : the words in order with their poison, or none if one cannot be read. -/
def State.tableWords (s : State) (c n : Nat) (t : TableRef) (i : Nat) : Nat → Option (List (CmdWord × Bool)) × State
  | 0 => (some [], s)
  | k + 1 =>
    let r := s.tableWord c n t i
    match r.1 with
    | none => (none, r.2)
    | some w =>
      let rest := r.2.tableWords c n t (i + 1) k
      (rest.1.map fun l => w :: l, rest.2)

/-! ### Postings under FIXED (R89 rule 2; 07 R183) -/

/-- The entries of a table from word i on: index, header, command words. -/
def State.entriesFrom (s : State) (c n : Nat) (t : TableRef) (i : Nat) : Nat → List (Nat × CmdWord × List CmdWord)
  | 0 => []
  | fuel + 1 =>
    match s.peekWord c n t i with
    | none => []
    | some h =>
      if hdrBad h i t.len then []
      else
        let k := hdrWords h
        (i, h, (iota 1 k).filterMap fun j => s.peekWord c n t (i + j)) :: s.entriesFrom c n t (i + 1 + k) fuel

/-- The loops over the entry with ordinal k: count and stride of each LOOP whose repeated entries hold it (R70). -/
def loopsOver (es : List (Nat × CmdWord × List CmdWord)) (k : Nat) : List (Nat × Nat) :=
  es.zipIdx.flatMap fun e => e.1.2.2.filterMap fun w =>
    if wbits w 255 252 = 5 ∧ wbits w 235 232 = 2 ∧ k < e.2 ∧ e.2 ≤ k + wbits w 215 203 then
      some (wbits w 231 216, wbits w 202 187)
    else none

/-- In how many ways do passes of the loops add up to d strokes? -/
def passesTo : List (Nat × Nat) → Nat → Nat
  | [], d => if d = 0 then 1 else 0
  | (n, st) :: r, d =>
    if st = 0 then (n + 1) * passesTo r d
    else ((iota 0 (Nat.min n (d / st) + 1)).map fun p => passesTo r (d - p * st)).foldl (· + ·) 0

/-- What a command word posts: the tally of a local ADD, the ordered windows of a DMA command. -/
def State.postsOf (s : State) (w : CmdWord) : List (Bool × Nat) :=
  if wbits w 255 252 = 4 ∧ talOp w = 0 ∧ wbits w 231 231 = 0 then [(false, talNum w)]
  else if wbits w 255 252 = 3 then (s.cmdWindows (dcmd w)).map fun x => (true, x)
  else []

/-- Add m postings of one kind. -/
def addPost (p : Bool × Nat) (m : Nat) : List (Bool × Nat × Nat) → List (Bool × Nat × Nat)
  | [] => if m = 0 then [] else [(p.1, p.2, m)]
  | q :: r => if q.1 = p.1 ∧ q.2.1 = p.2 then (q.1, q.2.1, q.2.2 + m) :: r else q :: addPost p m r

/-- The postings of a table started in a given stroke, for the stroke that has begun. -/
def State.tablePosts (s : State) (c n : Nat) (t : TableRef) (start : Nat) (l : List (Bool × Nat × Nat)) : List (Bool × Nat × Nat) :=
  let es := s.entriesFrom c n t 0 t.len
  es.zipIdx.foldl (fun l e =>
    let d := start + hdrOffset e.1.2.1
    let m := if d ≤ s.stk.num then passesTo (loopsOver es e.2) (s.stk.num - d) else 0
    if m = 0 then l else (e.1.2.2.flatMap s.postsOf).foldl (fun l p => addPost p m l) l) l

/-- Post for a core at a boundary (R89 rule 2). -/
def State.postCore (s : State) (n c : Nat) : State :=
  let q := (s.core c).seq
  let l := if q.accept.isNone || q.ended || q.stopped then []
    else
      let l := s.tablePosts c n q.table q.start []
      match q.caller with
      | some f => s.tablePosts c n f.table f.start l
      | none => l
  s.modCore c fun k => { k with posts := l }

/-- The postings of words that will not be issued end (R89 rule 2). -/
def State.endPosts (s : State) (c : Nat) (ws : List CmdWord) : State :=
  s.each (ws.flatMap s.postsOf) fun s p => s.endPost c p.1 p.2

/-! ### Stopping and ending -/

/-- Does a postings list name this kind and number, and how often? -/
def postCount (p : Bool × Nat) (l : List (Bool × Nat × Nat)) : Nat :=
  match l.find? fun q => decide (q.1 = p.1 ∧ q.2.1 = p.2) with
  | some q => q.2.2
  | none => 0

/-- The postings that stay when a core's part ends: those of commands it has issued and not yet performed (R89 rule 2; 07
R183). -/
def State.keptPosts (s : State) (c : Nat) : List (Bool × Nat × Nat) :=
  let k := s.core c
  let mine := ((k.tq ++ k.dmaq).flatMap fun q => s.postsOf q.word).foldl (fun l p => addPost p 1 l) []
  (mine.map fun q => (q.1, q.2.1, Nat.min q.2.2 (postCount (q.1, q.2.1) k.posts))).filter fun q => decide (0 < q.2.2)

/-- A core's part of its launch has ended (R70). Its commands go on, with what was prefetched for them. -/
def State.endPart (s : State) (c : Nat) : State :=
  let posts := s.keptPosts c
  let s := s.modCore c fun k => { k with
    posts := posts
    pre := k.pre.filter fun p => k.dmaq.any fun q => decide (q.entry = p.entry ∧ q.word = p.word)
    seq := { k.seq with ended := true, held := [], waits := none, loops := [], caller := none, ahead := 0, specs := [] } }
  match s.crewOf c, (s.core c).seq.accept with
  | some n, some a => (s.modLaunch n a fun l => { l with ended := if l.ended.elem c then l.ended else c :: l.ended }).showSeq c
  | _, _ => s.showSeq c

/-- A timed-out wait ends the launch (R65, R69): like a format error, with status TIMEOUT. -/
def State.timeoutLaunch (s : State) (c accept : Nat) : State :=
  let s := s.modCore c fun k => { k with seq := { k.seq with stopped := true }, posts := [] }
  match s.crewOf c with
  | some n => (s.launchStatus n accept 6).modLaunch n accept fun l => { l with stopNext := true }
  | none => s

/-- A format error of the launch a sequencer runs (R71). -/
def State.seqError (s : State) (c : Nat) : State :=
  match (s.core c).seq.accept with
  | some a => (s.formatError c a).showSeq c
  | none => s

/-! ### Going on through the table (R70, R92) -/

/-- The sequencer has issued the words it held: the next entry is the next of a LOOP's pass, the rest of the entry that
held the LOOP, or what follows; a sub-table that is over returns to its caller. `fuel` bounds the returns. -/
def Seq.onward (q : Seq) : Nat → Seq
  | 0 => q
  | fuel + 1 =>
    if q.held ≠ [] then q
    else
      match q.loops with
      | f :: outer =>
        match f.left with
        | x :: r => { q with pos := x, loops := { f with left := r } :: outer }
        | [] =>
          if f.pass < f.count then
            match f.entries with
            | x :: r => { q with pos := x, loops := { f with left := r, pass := f.pass + 1 } :: outer }
            | [] => { q with loops := outer }
          else ({ q with held := f.rest, pos := f.resume, loops := outer }).onward fuel
      | [] =>
        if q.pos < q.table.len then q
        else
          match q.caller with
          | some f =>
            ({ q with table := f.table, pos := f.pos, start := f.start, last := f.last, starts := f.starts, loops := f.loops
                      held := f.rest, caller := none, aheadPos := f.pos, specs := [] }).onward fuel
          | none => { q with ended := true }

/-- Fuel that suffices: one return per loop of the table and of its caller. -/
def Seq.depth (q : Seq) : Nat := q.loops.length + (match q.caller with | some f => f.loops.length + 1 | none => 0) + 2

/-- The stroke offset that LOOP passes add (R70). -/
def Seq.shift (q : Seq) : Nat := match q.loops with | f :: _ => f.base + f.pass * f.stride | [] => 0

/-- The strokes an ELASTIC crew has slipped (02 R54). -/
def State.slipOf (s : State) (n : Nat) : Nat := if s.timed n then 0 else (s.crew n).slip

/-- The waits of an entry that is due are evaluated from its header on (R66, R84). -/
def State.openWaits (t : State) (c n a : Nat) (h : CmdWord) (off : Nat) : State :=
  let ws := (iota 0 (hdrWaits h)).map fun i =>
    let w := hdrWait h i
    let own := t.tallyOf n w.1
    let x : Wait := { tally := w.1, value := w.2.2, timeout := w.2.1, w := t.stk.num, since := t.raw, sat := !own }
    if own && t.holds x then { x with sat := true } else x
  let slip := t.slipOf n
  let t := t.modSeq c fun q => { q with waits := some ws, due := q.start + off + slip }
  let t := if ws.any fun w => !t.tallyOf n w.tally then t.launchStatus n a 7 else t
  (if ws.any fun w => !w.sat then t.pmcCore c 0x0A none else t).showSeq c

/-- Is a header malformed, or its offset below that of the entry before? -/
def Seq.malformed (q : Seq) (h : CmdWord) : Bool := hdrBad h q.pos q.table.len || decide (hdrOffset h + q.shift < q.last)

/-- An entry's header was read: a poisoned one stops the sequencer, a malformed one is an error, else its waits begin. -/
def State.openHeader (t : State) (c n a : Nat) (h : CmdWord) (bad : Bool) : State :=
  let q := (t.core c).seq
  if bad then
    let t := t.poisonFault n { (t.fault0 2 1 0x0214).atCore t c with
      unit := 0xE, space := if q.table.inStore then 2 else 1, addr := q.table.addr + 32 * q.pos, detail := 4 }
    (t.modSeq c fun q => { q with stopped := true }).showSeq c
  else if q.malformed h then t.seqError c
  else t.openWaits c n a h (hdrOffset h + q.shift)

/-- Conditions 1 to 3 of R66 may hold for the next entry: its waits begin, whether or not the argument block has landed (R67).
A header that is malformed, or whose offset falls below that of the entry before, is a format error; a poisoned one is consumed
poison (11 R267). -/
def State.openEntry (s : State) (c : Nat) : State :=
  let q := (s.core c).seq
  match s.crewOf c, q.accept with
  | some n, some a =>
    if q.ended || q.stopped || decide (q.held ≠ []) || q.waits.isSome || !s.coreWorks c || s.dumpFrozen c 0xE then s
    else
      let r := s.tableWord c n q.table q.pos
      match r.1 with
      | none => r.2.seqError c
      | some w =>
        if !w.2 && !q.malformed w.1 && decide (s.stk.num < q.start + hdrOffset w.1 + q.shift + s.slipOf n) then s
        else r.2.openHeader c n a w.1 w.2
  | _, _ => s

/-- The words held have all been taken: go on, end the part where the table is over, open the next entry. -/
def State.entryDone (s : State) (c : Nat) : State :=
  let q := (s.core c).seq
  if q.held ≠ [] then s.showSeq c
  else
    let q := q.onward q.depth
    let s := s.modSeq c fun _ => q
    if q.ended then s.endPart c else (s.openEntry c).showSeq c

/-! ### ENTRY_ISSUE (R66) -/

/-- Does the condition of an entry select its commands, and is the tally one of the crew's (R65, R84)? -/
def State.condHolds (s : State) (c n : Nat) (h : CmdWord) : Bool :=
  let t := wbits h 83 70
  let v := s.observed c t
  let x := BitVec.ofNat 32 (wbits h 66 35)
  let op := wbits h 69 67
  let holds := s.tallyOf n t &&
    (if op = 0 then decide (0 ≤ serial32 v x) else if op = 1 then decide (serial32 v x < 0)
     else if op = 2 then decide (v = x) else decide (v ≠ x))
  holds != decide (wbits h 216 216 = 1)

/-- What was prefetched for an entry that is skipped is discarded, a performance event for each 64 B line (R82; 15 R373). -/
def State.dropPre (s : State) (c entry : Nat) : State :=
  let lines := ((s.core c).pre.filter fun p => decide (p.entry = entry)).map fun p => ceilDiv p.data.length 64
  let s := s.modCore c fun k => { k with pre := k.pre.filter fun p => decide (p.entry ≠ entry) }
  s.each (iota 0 (lines.foldl (· + ·) 0)) fun s _ => s.pmcCore c 0x07 none

/-- The sequencer moves past the entry at pos, of k words, which issues with the given words or is skipped. -/
def State.goOn (s : State) (c off k : Nat) (run : Bool) (ws : List CmdWord) : State :=
  let t := s.modSeq c fun q => { q with
    held := ws
    entry := q.pos
    last := off
    pos := q.pos + 1 + k
    starts := if q.starts.elem q.pos then q.starts else q.starts ++ [q.pos]
    waits := none
    aheadPos := if q.aheadPos ≤ q.pos then q.pos + 1 + k else q.aheadPos
    specs := q.specs.filter fun p => decide (p ≠ q.pos) }
  if run then t else t.dropPre c (s.core c).seq.pos

/-- The entry at pos issues with its words, or is skipped. -/
def State.takeEntry (s : State) (c n : Nat) (h : CmdWord) (run : Bool) : State :=
  let q := (s.core c).seq
  let off := hdrOffset h + q.shift
  let k := hdrWords h
  if run then
    let r := s.tableWords c n q.table (q.pos + 1) k
    let s := r.2
    match r.1 with
    | none => s.seqError c
    | some l =>
      let bad := (l.filter fun p => p.2).length
      let s := if bad = 0 then s
        else s.poisonFault n { (s.fault0 2 1 0x0214).atCore s c with
          unit := 0xE, space := if q.table.inStore then 2 else 1, addr := q.table.addr + 32 * (q.pos + 1), detail := 4 * bad }
      let s := s.modSeq c fun q => { q with due := q.start + off + s.slipOf n }
      let s := s.modLaunch n (q.accept.getD 0) fun x => { x with worked := some s.stk.num }
      ((s.pmcCore c 0x0B none).goOn c off k run ((l.filter fun p => !p.2).map fun p => p.1)).entryDone c
  else
    let ws := (iota 1 k).filterMap fun j => s.peekWord c n q.table (q.pos + j)
    ((s.goOn c off k run []).endPosts c ws).entryDone c

/-- ENTRY_ISSUE (R66, R77): once the argument block has landed, the next entry issues or is skipped as its waits and condition
allow. A condition is evaluated when the core's tally operations reached before it have been performed. -/
def execEntryIssue (core : Nat) (s : State) : Host.Outcome State Fault Refusal :=
  let s := s.openEntry core
  let q := (s.core core).seq
  match s.crewOf core, q.accept, q.waits with
  | some n, some a, some ws =>
    if q.stopped || q.ended || !q.argLanded || !s.coreWorks core || s.dumpFrozen core 0xE
        || !(ws.all fun w => w.sat || w.expired) then .next s
    else
      match s.peekWord core n q.table q.pos with
      | none => .next s
      | some h =>
        if (ws.any fun w => w.expired) && hdrSkip h && !s.fixed then .next (s.takeEntry core n h false)
        else if !hdrCond h then .next (s.takeEntry core n h true)
        else if decide ((s.core core).tq ≠ []) || (s.fixed && s.mustWait core (wbits h 83 70)) then .next s
        else
          let s := if s.tallyOf n (wbits h 83 70) then s else s.launchStatus n a 7
          .next (s.takeEntry core n h (s.condHolds core n h))
  | _, _, _ => .next s

/-! ### COMMAND_WORD_DISPATCH (R66, R68, R71) -/

/-- May the sequencer of a core take its next word: it works, has words, and no WAIT_GE holds the sequencer (R85)? -/
def State.wordReady (s : State) (c : Nat) : Bool :=
  let k := s.core c
  s.coreWorks c && k.seq.accept.isSome && !k.seq.stopped && !k.seq.ended && !s.dumpFrozen c 0xE
    && !(k.waits.any fun w => namesUnit w.unit 0xE)

/-- A held command from the next word: the launch's context goes into it (R68). -/
def Core.qcmd (k : Core) (w : CmdWord) : QCmd :=
  { word := BitVec.ofNat 256 (wbits w 255 252 * 2 ^ 252 + k.seq.ctx % 2 ^ 12 * 2 ^ 240 + wbits w 239 0)
    accept := k.seq.accept.getD 0
    stroke := k.seq.due
    entry := k.seq.entry
    tag := k.nextTag }

/-- The next word has been taken. -/
def State.popWord (s : State) (c : Nat) : State :=
  s.modCore c fun k => { k with nextTag := k.nextTag + 1, seq := { k.seq with held := k.seq.held.tail } }

/-- A format error of a command word that shows before any unit takes it (R71; 10 R239). -/
def State.wordBad (s : State) (c : Nat) (w : CmdWord) : Bool :=
  let u := unitOf w
  let cls := wbits w 255 252
  if cls = 1 then
    decide (12 ≤ u) || decide ((mcmd w).shape = 3)
      || (s.isSet F.UMP_CFG_enable [c] && decide (s.fld F.UMP_CFG_engine [c] = u))
  else if cls = 2 then decide (u ≠ 0xC) || !vOpKnown (vcmd w).op
  else if cls = 3 then decide (u ≠ 0xD) || decide (5 < (dcmd w).op)
  else if cls = 4 then
    decide (3 < talOp w) || (decide (wbits w 231 231 = 1) && decide (talOp w ≠ 0))
      || (decide (talOp w = 3) && (decide (wbits w 158 137 % 4 ≠ 0) || !inData (wbits w 158 137) 4))
  else if cls = 5 then decide (7 < wbits w 235 232)
  else true

/-- COMMAND_WORD_DISPATCH (R66): the next word goes to its unit if that has room, or is a format error. WAIT_GE and
control words stay for the commands of their own names. A tally operation is reached when the one before it has been performed;
words for the units go on past one that waits for its release (R90 rule 2): DEDUCED (assumption log 35). -/
def execCommandWordDispatch (core : Nat) (s : State) : Host.Outcome State Fault Refusal :=
  match (s.core core).seq.held with
  | [] => .next s
  | w :: _ =>
    if !s.wordReady core then .next s
    else if s.wordBad core w then .next (s.seqError core)
    else
      let k := s.core core
      let q := k.qcmd w
      let u := unitOf w
      let cls := wbits w 255 252
      if cls = 1 then
        if 4 ≤ (s.eng core u).q.length then .next s
        else
          let first := !(mcmd w).keep
          let s := (s.popWord core).modEng core u fun e => { e with q := e.q ++ [{ q with idx := k.seq.ctr, ord := k.seq.chains }] }
          let s := s.modSeq core fun q => { q with
            chains := if first then q.chains + 1 else q.chains
            ctr := if first && (mcmd w).sample then q.ctr + 1 else q.ctr }
          .next (((s.showEng core u).settleCore core).entryDone core)
      else if cls = 2 then
        if 4 ≤ k.vecq.length then .next s
        else .next (((((s.popWord core).modCore core fun k => { k with vecq := k.vecq ++ [q] }).showVec core).settleCore core).entryDone core)
      else if cls = 3 then
        if 8 ≤ k.dmaq.length then .next s
        else .next (((((s.popWord core).modCore core fun k => { k with dmaq := k.dmaq ++ [q] }).showDma core).settleCore core).entryDone core)
      else if cls = 4 ∧ talOp w ≠ 1 ∧ k.tq = [] then
        .next ((((s.popWord core).traceBegin core q).modCore core fun k => { k with tq := [q] }).entryDone core)
      else .next s

/-! ### Tally commands (R85, R90) -/

/-- ADD (R85, R87, R90 rules 2, 5 and 7): the oldest tally operation of a core, once every write issued before it to the
units it names has been performed. A remote one goes out as a TALLY_ADD flit; a package with no route is a format error. -/
def execTallyAddCmd (core : Nat) (s : State) : Host.Outcome State Fault Refusal :=
  match (s.core core).tq, s.crewOf core with
  | q :: _, some n =>
    if talOp q.word ≠ 0 || !s.coreWorks core || q.started || !(s.core core).released (unitOf q.word) q.tag then .next s
    else if wbits q.word 231 231 = 0 then .next ((s.localAdd core n q).nextTally core q)
    else
      let d := wbits q.word 230 213
      let own := s.isSet F.LNK_SELF_valid [] && decide (s.fld F.LNK_SELF_package [] = d)
      let r := if own then (false, s) else s.sendMsg n core (unitOf q.word) q 1 d
        [(talNum q.word, clean (natLe 4 (talValue q.word).toNat))]
      if r.1 then .next (r.2.modCore core fun k => { k with tq := { q with started := true } :: k.tq.tail })
      else
        let s := (r.2.modCore core fun k => { k with tq := k.tq.tail }).traceEnd core 2 0 q
        .next ((s.formatError core q.accept).showSeq core)
  | _, _ => .next s

/-- WAIT_GE (R67, R85): the next word is held by the units it names until it is satisfied; a unit holds one at most. On a
tally that is not the crew's it counts as complete at once (R84). -/
def execWaitGe (core : Nat) (s : State) : Host.Outcome State Fault Refusal :=
  match (s.core core).seq.held, s.crewOf core with
  | w :: _, some n =>
    if wbits w 255 252 ≠ 4 || talOp w ≠ 1 || !s.wordReady core || s.wordBad core w then .next s
    else
      let k := s.core core
      let u := unitOf w
      if (iota 0 15).any fun v => namesUnit u v && k.waits.any fun x => namesUnit x.unit v then .next s
      else
        let q := k.qcmd w
        let s := (s.popWord core).traceBegin core q
        if !s.tallyOf n (talNum w) then .next (((s.launchStatus n q.accept 7).traceEnd core 0 0 q).entryDone core)
        else
          let x : UWait := {
            unit := u
            cmd := q
            wait := { tally := talNum w, value := talValue w, timeout := wbits w 198 191, w := s.stk.num, since := s.raw, begun := false } }
          .next (((s.modCore core fun k => { k with waits := k.waits ++ [x] }).settleCore core).entryDone core)
  | _, _ => .next s

/-! ### Control commands (R70) -/

/-- The next word of a core, if it is a control word of an op and may be taken: the tally operations reached before it have been
performed (R66). -/
def State.ctlWord (s : State) (c op : Nat) : Option CmdWord :=
  match (s.core c).seq.held with
  | w :: _ =>
    if wbits w 255 252 = 5 ∧ wbits w 235 232 = op ∧ s.wordReady c = true ∧ (s.core c).tq = [] then some w else none
  | [] => none

/-- A control word is taken, with its BEGIN and END. -/
def State.ctlDone (s : State) (c : Nat) (w : CmdWord) : State :=
  let q := (s.core c).qcmd w
  ((s.popWord c).traceBegin c q).traceEnd c 0 0 q

/-- NOP (R70). -/
def execCtlNop (core : Nat) (s : State) : Host.Outcome State Fault Refusal :=
  match s.ctlWord core 0 with
  | some w => .next ((s.ctlDone core w).entryDone core)
  | none => .next s

/-- FENCE (R90 rule 4): the core's units stall until everything issued before it has been performed. -/
def execFenceCmd (core : Nat) (s : State) : Host.Outcome State Fault Refusal :=
  match s.ctlWord core 1 with
  | some w =>
    let q := (s.core core).qcmd w
    let s := ((s.popWord core).traceBegin core q).modCore core fun k => { k with fences := k.fences ++ [q] }
    .next ((s.settleCore core).entryDone core)
  | none => .next s

/-- LOOP (R70): the `back` entries before the holding one run `count` more times in place of the word. A count of 0, which lies
outside the field's range and is not among the format errors of R71, runs none: DESIGN CHOICE (assumption log 28). -/
def execLoopCmd (core : Nat) (s : State) : Host.Outcome State Fault Refusal :=
  match s.ctlWord core 2 with
  | none => .next s
  | some w =>
    let q := (s.core core).seq
    let back := wbits w 215 203
    let before := q.starts.filter fun x => decide (x < q.entry)
    if back = 0 ∨ before.length < back then .next (s.seqError core)
    else
      let s := s.ctlDone core w
      if wbits w 231 216 = 0 then .next (s.entryDone core)
      else
        let es := before.drop (before.length - back)
        let f : LoopFrame := {
          entries := es, left := es, pass := 1, count := wbits w 231 216, stride := wbits w 202 187, base := q.shift
          rest := q.held.tail, resume := q.pos }
        .next ((s.modSeq core fun q => { q with held := [], loops := f :: q.loops }).entryDone core)

/-- END (R70): the core's part of the launch, or the sub-table it runs, is over. -/
def execEndTable (core : Nat) (s : State) : Host.Outcome State Fault Refusal :=
  match s.ctlWord core 3 with
  | some w =>
    let s := s.ctlDone core w
    .next ((s.modSeq core fun q => { q with held := [], loops := [], pos := q.table.len }).entryDone core)
  | none => .next s

/-- STEP (R70): the boundary that begins the next stroke is a step boundary. -/
def execStepCmd (core : Nat) (s : State) : Host.Outcome State Fault Refusal :=
  match s.ctlWord core 4, s.crewOf core with
  | some w, some n => .next (((s.ctlDone core w).modCrew n fun k => { k with stepNext := true }).entryDone core)
  | _, _ => .next s

/-- MARK (R70; 15 R377): a MARK record with the marker. -/
def execMarkCmd (core : Nat) (s : State) : Host.Outcome State Fault Refusal :=
  match s.ctlWord core 7 with
  | some w =>
    let q := (s.core core).qcmd w
    .next ((((s.popWord core).traceBegin core q).trace core 3 0 q.word q.entry q.accept (wbits w 159 128)).traceEnd core 0 0 q |>.entryDone core)
  | none => .next s

/-! ### Work pools (R92, R93) -/

/-- Is balancing in force for a crew? -/
def State.balancing (s : State) (n : Nat) : Bool := s.isSet F.SEQ_CREWCFG_lb_active [n]

/-- A pool of a crew. -/
def Crew.pool (k : Crew) (p : Nat) : Pool := k.pools.getD p {}

/-- Change a pool. -/
def State.modPool (s : State) (n p : Nat) (f : Pool → Pool) : State :=
  s.modCrew n fun k => { k with pools := modifyAt f p (k.pools ++ List.replicate (4 - k.pools.length) {}) }

/-- Has a pool no room: is the ring place of the next item taken by an item not yet taken? -/
def Pool.full (p : Pool) : Bool :=
  decide (p.cap = 0) || match p.items with | x :: _ => decide (x.ord + p.cap ≤ p.nput) | [] => false

/-- The item a take by core c receives (R93): the oldest, or with balancing off the lowest-numbered of those assigned to it. -/
def State.nextItem (s : State) (n c : Nat) (p : Pool) : Option PoolItem :=
  if s.balancing n then p.items.head?
  else
    let ms := s.members n
    let mine := p.items.filterMap fun x => match x.num with
      | some i => if ms[i % ms.length]? = some c then some (i, x) else none
      | none => none
    match (mine.map fun y => y.1).min? with
    | some i => Map.find i mine
    | none => none

/-- Insert an item in order of core, then put. -/
def insertItem (x : PoolItem) : List PoolItem → List PoolItem
  | [] => [x]
  | y :: r => if x.core < y.core ∨ (x.core = y.core ∧ x.ord < y.ord) then x :: y :: r else y :: insertItem x r

/-- At a boundary the items of the stroke that ended are numbered: by core, then put order (R93). -/
def Pool.number (p : Pool) : Pool :=
  let sorted := (p.items.filter fun x => x.num.isNone).foldl (fun l x => insertItem x l) []
  let numbered := sorted.zipIdx.map fun y => (y.1.ord, p.next + y.2)
  { p with
    next := p.next + sorted.length
    items := p.items.map fun x => if x.num.isNone then { x with num := Map.find x.ord numbered } else x }

/-- POOL_TAKE (R92): an item is copied to item_addr and its sub-table runs as a nested table, its offsets counted from the stroke
of the take; on an empty pool the item is zero and nothing runs; with drain the take repeats. A sub-table that holds one is a
format error; a poisoned item is not executed (11 R267). A pool number above 3 or an item_addr outside the data area, which R71
does not list, is taken as a format error: DESIGN CHOICE (assumption log 28). -/
def execPoolTake (core : Nat) (s : State) : Host.Outcome State Fault Refusal :=
  match s.ctlWord core 5, s.crewOf core with
  | some w, some n =>
    let q := (s.core core).seq
    let dst := wbits w 181 160
    let p := wbits w 186 183
    if q.caller.isSome || !inData dst 32 || decide (3 < p) then .next (s.seqError core)
    else if (s.core core).fences ≠ [] then .next s
    else
      let pool := (s.crew n).pool p
      match s.nextItem n core pool with
      | none => .next (((s.ctlDone core w).storeWrite core dst (clean (List.replicate 32 0))).entryDone core)
      | some x =>
        let a := pool.base + 32 * (x.ord % pool.cap)
        let (b, s) := (s.nocIn core (stackOf a / 4) 32).hbmBytes a 32
        let s := s.modPool n p fun pl => { pl with items := pl.items.filter fun y => decide (y.ord ≠ x.ord) }
        if anyPoison b then
          let s := s.poisonFault n { (s.fault0 2 1 0x0214).atCore s core with unit := 0xE, space := 1, addr := a, detail := 4 }
          .next ((s.ctlDone core w).entryDone core)
        else
          let s := (s.ctlDone core w).storeWrite core dst b
          let rest := q.held.tail
          let f : CallFrame := {
            table := q.table, pos := q.pos, start := q.start, last := q.last, starts := q.starts, loops := q.loops
            rest := if wbits w 182 182 = 1 then w :: rest else rest }
          .next ((s.modSeq core fun q => { q with
            table := tableRef (field (plain b) 0 8) (field (plain b) 8 2)
            start := s.stk.num - s.slipOf n, pos := 0, last := 0, starts := [], loops := [], held := [], caller := some f
            aheadPos := 0, ahead := 0, specs := [] }).entryDone core)
  | _, _ => .next s

/-- POOL_PUT (R92): the 32 B item at item_addr is appended; on a full pool it is not, and the launch completes with
FORMAT. Pool numbers and item addresses out of range: DESIGN CHOICE, as for POOL_TAKE (assumption log 28). -/
def execPoolPut (core : Nat) (s : State) : Host.Outcome State Fault Refusal :=
  match s.ctlWord core 6, s.crewOf core with
  | some w, some n =>
    let src := wbits w 181 160
    let p := wbits w 186 183
    if !inData src 32 || decide (3 < p) then .next (s.seqError core)
    else if (s.core core).fences ≠ [] then .next s
    else
      let pool := (s.crew n).pool p
      if pool.full then .next (((s.ctlDone core w).launchStatus n ((s.core core).qcmd w).accept 4).entryDone core)
      else
        let a := pool.base + 32 * (pool.nput % pool.cap)
        let (b, s) := s.storeRead core src 32
        let s := ((s.nocOut core (stackOf a / 4) 32).hbmPut a b).stateWritePoison n (some core) 0xE a b
        let x : PoolItem := { ord := pool.nput, stroke := s.stk.num, core := core }
        let s := s.modPool n p fun pl => { pl with nput := pl.nput + 1, items := pl.items ++ [x] }
        .next ((s.ctlDone core w).entryDone core)
  | _, _ => .next s

/-! ### Run-ahead (R81 to R83) -/

/-- Bytes the prefetch buffer holds. -/
def Core.preBytes (k : Core) : Nat := k.pre.foldl (fun n p => n + p.data.length) 0

/-- Is a command word prefetchable: a COPY, GATHER or RING_APPEND with its mark, from HBM (06 R154)? -/
def prefetchable (w : CmdWord) : Bool :=
  let d := dcmd w
  decide (wbits w 255 252 = 3) && d.prefetch && decide (d.src = 1) && (decide (d.op ≤ 1) || decide (d.op = 3))

/-- The address of source row i of a prefetchable command; none for an index list that cannot be read. -/
def State.preAddr (s : State) (c : Nat) (d : DCmd) (i : Nat) : Option Nat :=
  if d.op = 1 then
    if d.aux + 8 * i + 8 ≤ storeEnd then
      let ib := (s.storeRead c (d.aux + 8 * i) 8).1
      if anyPoison ib then none else some (d.srcA + leNat (plain ib) * d.srcS)
    else none
  else some (d.srcA + i * d.srcS)

/-- Read source row i of a command of an entry into the prefetch buffer, as much of it as the buffer of 64 KiB has room for
(R81; 06 R154). A row that waits for remote requests of an ordered window is left for the issue (07 R183 rule 4). -/
def State.prefetchRow (s : State) (c n entry : Nat) (w : CmdWord) (i : Nat) : State :=
  let d := dcmd w
  let k := Nat.min d.rowBytes (65536 - (s.core c).preBytes)
  match s.preAddr c d i with
  | none => s
  | some a =>
    if k = 0 || !s.inRange n a k || !s.extentUp a k || s.remoteHolds a k then s
    else
      let (b, s) := s.dmaRead c n 1 a k
      s.modCore c fun x => { x with pre := x.pre ++ [{ entry := entry, word := w, addr := a, data := b }] }

/-- Read the rows of a command of an entry into the prefetch buffer, in order. -/
def State.prefetchCmd (s : State) (c n entry : Nat) (w : CmdWord) : State :=
  s.each (iota 0 (dcmd w).rows) fun s i => s.prefetchRow c n entry w i

/-- Read the prefetchable rows of an entry, in command order. A command is known by its word as it will issue, with the
launch's context (R68). -/
def State.prefetchEntry (s : State) (c n : Nat) (t : TableRef) (pos k : Nat) : State :=
  let ws := ((iota 1 k).filterMap fun j => s.peekWord c n t (pos + j)).filter prefetchable
  s.each ws fun s w => s.prefetchCmd c n pos ((s.core c).qcmd w).word

/-- RUN_AHEAD_FETCH (R81 to R83; 06 R154): the sequencer looks at its next entry not yet looked at, at most four strokes ahead of
the stroke in progress, and reads the rows of its prefetchable commands into its prefetch buffer of 64 KiB, along the path that
its condition predicts. Under FIXED it stops at a condition on a remote-writable tally. Nothing is written and no tally operation
performed. -/
def execRunAheadFetch (core : Nat) (s : State) : Host.Outcome State Fault Refusal :=
  let q := (s.core core).seq
  match s.crewOf core, q.accept with
  | some n, some _ =>
    let pos := if q.aheadPos < q.pos then q.pos else q.aheadPos
    if q.ended || q.stopped || q.loops ≠ [] || s.inEasy || s.inReset || s.dumpFrozen core 0xE then .next s
    else
      match s.peekWord core n q.table pos with
      | none => .next s
      | some h =>
        let at0 := q.start + hdrOffset h + s.slipOf n
        let remote := hdrCond h && s.fixed && (s.tally (wbits h 83 70)).remote
        if hdrBad h pos q.table.len || decide (s.stk.num + 4 < at0) || remote then .next s
        else
          let take := !hdrCond h || s.condHolds core n h
          let s := if take then s.prefetchEntry core n q.table pos (hdrWords h) else s
          .next ((s.modSeq core fun q => { q with
            aheadPos := pos + 1 + hdrWords h
            ahead := at0
            specs := if hdrCond h then q.specs ++ [pos] else q.specs }).showSeq core)
  | _, _ => .next s

/-! ### Launch start and completion (R77, R79) -/

/-- A member core begins its part of a launch (R77; 04 R106; 10 R249). -/
def State.startPart (s : State) (l : Launch) (c : Nat) : State :=
  let q : Seq := match l.members.find? fun m => decide (m.1 = c) with
    | some (_, t, _) =>
      { accept := some l.accept, ctx := l.ctx, table := t, start := s.stk.num, argLanded := decide (l.argsLen = 0)
        ended := decide (t.len = 0) }
    | none => { accept := some l.accept, ctx := l.ctx, start := s.stk.num }
  let s := s.modCore c fun k => { k with seq := q, cursors := [], pre := [] }
  let s := s.each (iota 0 8) fun s r => (s.setReg R.ENG_RFILL [c, r] 0).setReg R.ENG_RUSE [c, r] 0
  s.showSeq c

/-- Does the start stroke of a crew's next launch come while another runs? Its accept number. -/
def State.startClash (s : State) (n : Nat) : Option Nat :=
  match (s.crew n).runningLaunch with
  | none => none
  | some r => ((s.crew n).launches.find? fun l => !l.running && l.finished.isNone && decide (l.accept ≠ r.accept) && decide (l.start ≤ s.stk.num)).map
      fun l => l.accept

/-- May crew n begin work at the boundary in progress? -/
def State.mayStart (s : State) (n : Nat) : Bool :=
  s.crewValid n && !s.halted n && !s.frozen n && !s.stalled && !s.inEasy && !s.inReset && !s.emptyStroke && !s.rigDue

/-- Start the next launch of a crew whose stroke has come, if none runs (R77). -/
def State.startLaunch (s : State) (n : Nat) : State :=
  let clash := if s.mayStart n then s.startClash n else none
  let s := s.modCrew n fun k => { k with clash := clash }
  if !s.mayStart n || (s.crew n).runningLaunch.isSome then s
  else
    match (s.crew n).launches.find? fun l => l.finished.isNone with
    | none => s
    | some l =>
      if s.stk.num < l.start then s
      else
        let s := s.checkDirectory n l
        let s := s.modLaunch n l.accept fun l => { l with running := true, start := s.stk.num }
        match (s.crew n).runningLaunch with
        | none => s
        | some l =>
          let s := (s.modCrew n fun k => { k with slip := 0 }).setFld F.STK_CREW_slip_run [n] 0
          s.each (s.members n) fun s c => s.startPart l c

/-- Has everything of a launch on a member core been performed: units empty, no WAIT_GE held, no commit withheld by a frozen engine, no
comparison due or failed (R79; 10 R238, R243)? -/
def State.corePerformed (s : State) (c accept : Nat) : Bool :=
  let k := s.core c
  (k.seq.ended || k.seq.stopped) && decide (k.tq = []) && decide (k.vecq = []) && decide (k.dmaq = []) && decide (k.fences = []) && decide (k.waits = [])
    && (k.eng.all fun e => decide (e.2.q = []) && decide (e.2.out = []) && !e.2.frozen)
    && (k.ump.pend.all fun p => decide (p.accept ≠ accept)) && !k.ump.failed.elem accept

/-- Are all writes and remote ADDs of a launch of crew n delivered: none queued, none unacknowledged? -/
def State.flitsDone (s : State) (n accept : Nat) : Bool :=
  s.links.all fun p =>
    (p.2.unacked.all fun u => decide (u.crew ≠ n ∨ u.accept ≠ accept)) &&
      ((p.2.timedQ ++ p.2.bulkQ).all fun f => decide (f.crew ≠ some n ∨ f.accept ≠ accept ∨ 1 < f.cls))

/-- LAUNCH_COMPLETE (R79): every member has ended its part, every write is performed and every remote ADD delivered. A launch
that consumed poison completes as its crew stops (11 R268). -/
def execLaunchComplete (crew : Nat) (s : State) : Host.Outcome State Fault Refusal :=
  match (s.crew crew).runningLaunch with
  | none => .next s
  | some l =>
    if s.crewValid crew && !s.halted crew && !s.inReset && !l.poisoned && ((s.members crew).all fun c => s.corePerformed c l.accept)
        && s.flitsDone crew l.accept && (s.aord.all fun r => decide (r.crew ≠ crew)) then
      .next (s.finishLaunch crew l)
    else .next s

/-! ### Timeouts (R67) -/

/-- Header waits and WAIT_GEs of a core whose last stroke W + timeout − 1 has come to its drive end expire: they count as
complete; unless the header skips on a timeout, the launch ends with TIMEOUT (R65, R69; R89 rule 4). -/
def State.expireWaits (s : State) (c : Nat) : State :=
  let k := s.core c
  let late := fun (w : Wait) => w.begun && !w.sat && !w.expired && decide (0 < w.timeout) && decide (w.w + w.timeout ≤ s.stk.num + 1)
  match s.crewOf c, k.seq.accept with
  | some n, some a =>
    let s := match k.seq.waits with
      | some ws =>
        if ws.any late then
          let s := s.modSeq c fun q => { q with waits := some (ws.map fun w => if late w then { w with expired := true } else w) }
          let skip := match s.peekWord c n k.seq.table k.seq.pos with | some h => hdrSkip h && !s.fixed | none => false
          if skip then s else s.timeoutLaunch c a
        else s
      | none => s
    let gone := k.waits.filter fun w => late w.wait
    if gone = [] then s.showSeq c
    else
      let s := s.modCore c fun k => { k with waits := k.waits.filter fun w => !late w.wait }
      let s := s.each gone fun s w => s.traceEnd c 1 0 w.cmd
      (s.timeoutLaunch c a).showSeq c
  | _, _ => s

/-- Has the drive of the stroke in progress ended by now? -/
def State.driveOver (s : State) : Bool := !s.stk.drive || decide (s.driveEndNs ≤ s.ns)

/-- WAIT_TIMEOUT (R67): the drive end of stroke W + timeout − 1 comes for the waits of a core. -/
def execWaitTimeout (core : Nat) (s : State) : Host.Outcome State Fault Refusal :=
  .next (if s.driveOver && (match s.crewOf core with | some n => !s.halted n | none => false) then s.expireWaits core else s)

end Sys2Proof.Machine
end

