-- ==== Sys2Proof/Machine/Verify.lean ====
section
/-!
DEFINITION. The umpire's comparison, mismatches and their verdicts, and watch slots (10 R241 to R254).
-/
namespace Sys2Proof.Machine

/-! ### Comparison (R241 to R243) -/

/-- The oldest comparison due of a worker core is made. Differing digests are an umpire mismatch, which in the shadowed span
of a diagnostic replay is left to the verdict (R245); the launch of an emit that did not pass cannot complete (R243). -/
def State.compareNext (s : State) (core : Nat) : State :=
  match (s.core core).ump.pend with
  | [] => s
  | p :: rest =>
    let h := hostOf core
    let s := s.modCore core fun k => { k with ump := { k.ump with pend := rest } }
    if p.poison then s
    else
      let s := s.pmcCore h 0x0E none
      let bad := decide (p.worker ≠ p.umpire) || p.umpFail
      let s := if bad then s.modCore core fun k => { k with ump := { k.ump with failed := p.accept :: k.ump.failed } } else s
      if p.worker = p.umpire then s
      else
        let s := (s.bump F.UMP_STAT_mismatches [h] 1).raiseBit F.UMP_STAT_mis_hist [h]
        if p.shadow then s else s.mismatch core p.eng true p.accept p.index

/-- UMPIRE_COMPARE (R241, R242, R62): in a recovery the oldest comparison due of a worker core is made. -/
def execUmpireCompare (core : Nat) (s : State) : Host.Outcome State Fault Refusal :=
  .next (if s.background then s.compareNext core else s)

/-- The comparisons that a recovery still owes when it ends (R62). -/
def State.compareAll (s : State) : State :=
  if s.background then
    s.each (s.cores.flatMap fun p => p.2.ump.pend.map fun _ => p.1) State.compareNext
  else s

/-! ### Mismatches and verdicts (R244 to R248) -/

/-- MISMATCH (R244): an engine of a core, frozen by a mismatch, is reported while its crew has no stop in progress. -/
def execMismatchFault (core : Nat) (s : State) : Host.Outcome State Fault Refusal :=
  match (s.core core).eng.find? (fun p => p.2.frozen), s.crewOf core with
  | some (e, en), some n =>
    if (s.crew n).stop.isSome || s.halted n then .next s
    else
      let ch := en.chain.getD { accept := (s.core core).seq.accept.getD 0, ctx := 0, shape := 0, group := 0 }
      .next (s.mismatch core e false ch.accept ch.index)
  | _, _ => .next s

/-- The verdict on what a diagnostic replay saw (R246, R247): the order of the row that matches. -/
def verdictOf (d : Diag) : Nat :=
  let any := fun (p : Obs → Bool) => d.obs.any p
  if !d.shadows then
    if any (fun o => o.eFail) || (d.byUmpire && any (fun o => o.eDiff || o.uFail)) then 1 else 7
  else if any fun o => o.sDiff then 1
  else if any fun o => !o.eDiff && !o.sDiff && o.eFail && o.s0Fail && o.s1Fail then 2
  else if any fun o => o.s0Fail != o.s1Fail then 3
  else if any (fun o => o.eDiff) && any (fun o => o.uDiff) then 4
  else if any (fun o => o.eDiff) || any (fun o => o.eFail && !o.s0Fail && !o.s1Fail) then 5
  else if any (fun o => o.uDiff) || any (fun o => o.uFail && !o.s0Fail && !o.s1Fail) then 6
  else 7

/-- A Transient verdict is counted in its core's window of 2^24 strokes; the third is a hard fault (R248). -/
def State.transient (s : State) (c : Nat) : State :=
  let k := s.core c
  let fresh := match k.transOpen with | some w => decide (w + 2 ^ 24 ≤ s.stk.num) | none => true
  let count := if fresh then 1 else k.trans + 1
  let s := s.modCore c fun k => { k with transOpen := if fresh then some s.stk.num else k.transOpen, trans := count }
  if 3 ≤ count then s.hardFault c 4 else s.setFld F.UMP_STAT_transients [hostOf c] count

/-- A crew whose verdict ends its replay stops at the next boundary (R246). -/
def State.verdictStop (s : State) (n : Nat) : State := s.stopCrew n { bStop := s.nextStroke }

/-- What a verdict does (R246, R248): its logbook trigger, for Tolerance its record (R259), then its action. -/
def State.verdict (s : State) (n : Nat) (d : Diag) : State :=
  let v := verdictOf d
  let s := s.modCrew n fun k => { k with diag := none }
  let s := if v ≠ 2 then s
    else s.raiseFault { ((s.fault0 4 0 0x0403).charge n (s.crew n).runningLaunch).atCore s d.core with
      unit := d.eng, loc := d.eng, detail := v }
  let s := s.trigger { cls := 4, body := verifyBody v d.core d.eng d.index d.accept }
  if v = 1 ∨ v = 4 then s.suspect.verdictStop n
  else if v = 3 then
    let s := if s.isSet F.GLB_REMAP_HI_spare_avail [d.core / 9] then s.lower F.GLB_HEALTH_spares_left [] 1 else s
    (s.suspect.setFld F.GLB_REMAP_HI_spare_avail [d.core / 9] 0).verdictStop n
  else if v = 5 then s.hardFault d.core 4
  else if v = 6 then s.hardFault (hostOf d.core) 4
  else if v = 7 then s.transient d.core
  else s

/-- The verdict on a crew's diagnostic replay, if its time has come: the recovery of the stroke whose offset in the step is that
of the detection (R245). -/
def State.verdictDue (s : State) (n : Nat) : State :=
  let k := s.crew n
  match k.diag with
  | some d => if d.running && s.background && decide (k.stepStart + k.delta + d.offset ≤ s.stk.num) then s.verdict n d else s
  | none => s

/-- MISMATCH_VERDICT (R245, R246): in the recovery of the stroke whose offset in the step is that of the detection. -/
def execMismatchVerdict (crew : Nat) (s : State) : Host.Outcome State Fault Refusal := .next (s.verdictDue crew)

/-- The verdicts that a recovery still owes when it ends (R245). -/
def State.verdictsDue (s : State) : State := s.each s.crewList State.verdictDue

/-- TRANSIENT_WINDOW_CLOSE (R248): 2^24 strokes after a core's window opened its count returns to 0. -/
def execTransientWindowClose (core : Nat) (s : State) : Host.Outcome State Fault Refusal :=
  match (s.core core).transOpen with
  | some w =>
    if w + 2 ^ 24 ≤ s.stk.num then
      .next ((s.modCore core fun k => { k with transOpen := none, trans := 0 }).setFld F.UMP_STAT_transients [hostOf core] 0)
    else .next s
  | none => .next s

/-! ### Watch slots (R253, R254) -/

/-- Merge a core's partial into a result (R251, R253): exact, whatever the order. -/
def Watch.merge (a b : Watch) : Watch :=
  let x := satSum (a.sum + b.sum)
  let q := satSq (a.sumsq + b.sumsq)
  { digest := a.digest ^^^ b.digest
    elements := a.elements + b.elements
    tiles := a.tiles + b.tiles
    zeros := a.zeros + b.zeros
    nans := a.nans + b.nans
    infs := a.infs + b.infs
    mn := minWord a.mn b.mn
    mx := maxWord a.mx b.mx
    sum := x.1
    sumsq := q.1
    poisoned := a.poisoned + b.poisoned
    overflow := a.overflow || b.overflow || x.2 || q.2 }

/-- A slot of a crew. -/
def Crew.slot (k : Crew) (w : Nat) : Slot := Map.getD {} k.slots w

/-- Change a slot. -/
def State.modSlot (s : State) (n w : Nat) (f : Slot → Slot) : State :=
  s.modCrew n fun k => { k with slots := Map.setD {} k.slots w (f (k.slot w)) }

/-- A slot closes (R253): every core's partial is merged into its result and starts anew; the merge is due. -/
def State.closeSlot (s : State) (n w : Nat) : State :=
  let r := (s.members n).foldl (fun r c => r.merge (Map.getD {} (s.core c).watch w)) ({} : Watch)
  let s := s.each (s.members n) fun s c => s.modCore c fun k => { k with watch := Map.setD {} k.watch w {} }
  let unseen := !((s.crew n).slot w).requested && decide (s.fld F.WCH_SEL_crew [] = n) && decide (s.fld F.WCH_SEL_slot [] = w)
  let s := if unseen then s.noteNf6 F.WCH_CTL_close_pending [] else s
  s.modSlot n w fun x => { x with
    result := r, merging := some s.stk.num, closeStroke := s.stk.num, closeSeq := x.closeSeq + 1, requested := false }

/-- The slots of a crew that close at its step boundary, or (`step` false) at one at which it is idle. -/
def Crew.closing (k : Crew) (step : Bool) : List Nat :=
  (k.slots.filter fun p => p.2.active && (p.2.requested || (step && p.2.stepClose))).map fun p => p.1

/-- Close the slots of a crew that a boundary closes. -/
def State.closeSlots (s : State) (n : Nat) (step : Bool) : State := s.each ((s.crew n).closing step) fun s w => s.closeSlot n w

/-- WATCH_CLOSE_REQUEST (R253): WCH_CTL is written; close asks for a close of the selected slot. -/
def execWatchCloseRequest (v : BitVec 32) (s : State) : Host.Outcome State Fault Refusal :=
  let s := s.fromHost 4
  if s.strayAt R.WCH_CTL.base then .next s.stray
  else
    let s := s.hostPut R.WCH_CTL [] v
    let n := s.fld F.WCH_SEL_crew []
    let w := s.fld F.WCH_SEL_slot []
    if bits v.toNat 28 28 = 1 ∧ ((s.crew n).slot w).active = true then
      .next ((s.modSlot n w fun x => { x with requested := true }).noteNf6 F.WCH_CTL_close_pending [])
    else .next s

/-- WATCH_CLOSE (R253): at the instant of a boundary that is a step boundary of the crew, or at which it is idle, a
requested close takes effect. -/
def execWatchClose (crew slot : Nat) (s : State) : Host.Outcome State Fault Refusal :=
  let k := s.crew crew
  if s.stk.drive && decide (s.ns = s.stk.bound) && (decide (k.stepStart = s.stk.num) || s.crewIdle crew)
      && (k.slot slot).active && (k.slot slot).requested then
    .next (s.closeSlot crew slot)
  else .next s

/-- WATCH_MERGE_COMPLETE (R253): the record of the close can be read. -/
def execWatchMergeComplete (crew slot : Nat) (s : State) : Host.Outcome State Fault Refusal :=
  if ((s.crew crew).slot slot).merging.isSome then
    .next (s.modSlot crew slot fun x => { x with merging := none, valid := true })
  else .next s

end Sys2Proof.Machine
end

