-- ==== Sys2Proof/Machine/Checkpoint.lean ====
section
/-!
DEFINITION. Steps and their points, snapshots and freezes, checkpoints and restores, and the copy-on-write engine (12
R285, R286; 13).
-/
namespace Sys2Proof.Machine

/-! ### Sizes and places (13 R311, R320, R325) -/

/-- Length of a crew's CKPT region. -/
def State.ckptSize (s : State) (n : Nat) : Nat := s.fld F.CHK_CKSZ_size [n] * 2 ^ 21

/-- Bytes of exactly a given length: cut, or padded with zeros. -/
def fit (n : Nat) (b : Bytes) : Bytes := b.take n ++ List.replicate (n - b.length) 0

/-- The snapshot that image bytes stand for: one this package wrote, else another's (assumption log 17). -/
def State.imageSnap (s : State) (b : Bytes) : Option Snap :=
  match s.images.find? fun p => decide (p.1 = b) with
  | some p => some p.2
  | none => Config.imageOf b

/-! ### The on-chip snapshot (R320) -/

/-- Read a core store for a snapshot: words in error are reported and rewritten as R140 says, so that afterwards the
store holds what was delivered. -/
def State.readStore (s : State) (c : Nat) : State :=
  s.each (((s.core c).words.filter fun p => decide (p.2.flips ≠ [])).map fun p => p.1) fun s i =>
    let (r, s) := s.readWord c i
    if r.cls = 1 then s.putWord c i r.data false else s

/-- The unit record and core-store image of a member core. -/
def State.coreSnap (s : State) (c : Nat) : CoreSnap :=
  let k := s.core c
  { core := c
    store := k.store
    words := k.words
    eng := k.eng.map fun p => (p.1, { cells := p.2.cells, chk := p.2.chk, chain := p.2.chain })
    seq := k.seq
    rings := (iota 0 8).map fun r => (r, s.reg R.ENG_RFILL [c, r], s.reg R.ENG_RUSE [c, r]) }

/-- The slot that the next snapshot goes to: not the one that holds the point about to be the older one (R318). -/
def Crew.nextSlot (k : Crew) : Nat := match k.points with | p :: _ => 1 - p.snap.slot | [] => 0

/-- Landed WRITE and TALLY_ADD flits that wait for a drive of a crew, with their links (02 R44). -/
def State.heldFlits (s : State) (n : Nat) : List (Nat × Flit) :=
  s.links.flatMap fun p => (p.2.rxHeld.filter fun f => decide (f.crew = some n)).map fun f => (p.1, f)

/-- Landed COLL flits that wait for a drive of a crew, with their links. -/
def State.heldColls (s : State) (n : Nat) : List (Nat × CollHeld) :=
  s.links.flatMap fun p => (p.2.rxColl.filter fun f => decide (f.crew = n)).map fun f => (p.1, f)

/-- Take the snapshot of a crew at the boundary in progress (R320); the held flits of an ELASTIC crew belong to it (02 R44, R45). -/
def State.takeSnap (s : State) (n : Nat) : Snap × State :=
  let s := s.each (s.members n) State.readStore
  let k := s.crew n
  ({ slot := k.nextSlot
     cores := (s.members n).map s.coreSnap
     tallies := (s.tallies.filter fun p => p.2.allocated && decide (p.2.crew = n)).map fun p => (p.1, p.2.value)
     pools := k.pools
     launches := k.launches.filter fun l => l.finished.isNone
     remAdds := k.remHeld
     aord := s.aord.filter fun r => decide (r.crew = n)
     watch := (s.members n).map fun c => (c, (s.core c).watch)
     slip := k.slip
     held := if s.timed n then [] else s.heldFlits n
     heldColl := if s.timed n then [] else s.heldColls n }, s)

/-- The umpire of a worker core takes up the copy of its sampled chain again (10 R241, R253). -/
def State.resumeUmpire (s : State) (c : Nat) : State :=
  match (s.core c).eng.find? fun p => match p.2.chain with | some ch => ch.sampled | none => false with
  | some (e, en) =>
    let index := match en.chain with | some ch => ch.index | none => 0
    let s := s.modCore c fun k => { k with ump := { chain := some (e, index) } }
    (s.liveBit F.UMP_STAT_busy [hostOf c] true).mirrorUmpire c e
  | none => s.liveBit F.UMP_STAT_busy [hostOf c] false

/-- The flits that a snapshot holds are held again; the slots they landed in are long free. -/
def State.putHeld (s : State) (x : Snap) : State :=
  let s := s.each x.held fun s p => s.modLink p.1 fun k => { k with
    rxHeld := k.rxHeld ++ [{ p.2 with slot := false }]
    badMsgs := k.badMsgs.filter fun m => decide (m ≠ (p.2.crew.getD 0, msgKey p.2.bytes)) }
  s.each x.heldColl fun s p => s.modLink p.1 fun k => { k with rxColl := k.rxColl ++ [{ p.2 with slot := false }] }

/-- Put a member core back as a snapshot holds it, its launch re-timed by `delta` strokes (R288 step 3, R289). -/
def State.putCore (s : State) (delta : Nat) (x : CoreSnap) : State :=
  let s := s.modCore x.core fun k => { k with
    store := x.store, words := x.words, ceWb := [], eng := x.eng, vecq := [], dmaq := [], tq := [], pre := [], posts := []
    waits := [], fences := [], added := [], ump := {}, cursors := k.cursors
    seq := { x.seq with start := x.seq.start + delta, due := x.seq.due + delta, waits := none, aheadPos := 0, ahead := 0, specs := [] } }
  let s := s.each x.rings fun s r => (s.setReg R.ENG_RFILL [x.core, r.1] r.2.1).setReg R.ENG_RUSE [x.core, r.1] r.2.2
  let s := s.each (iota 0 12) fun s e => s.showEng x.core e
  ((s.showVec x.core).showDma x.core).showSeq x.core

/-- Put the on-chip state of a crew back from a snapshot, launches aside (R288 step 3; 10 R253). -/
def State.putSnap (s : State) (n delta : Nat) (x : Snap) : State :=
  let s := s.each x.cores fun s c => s.putCore delta c
  let s := (s.each x.cores fun s c => s.resumeUmpire c.core).putHeld x
  let s := s.each x.tallies fun s t => s.modTally t.1 fun v => { v with value := t.2 }
  let s := s.each x.watch fun s w => s.modCore w.1 fun k => { k with watch := w.2 }
  let s := s.modCrew n fun k => { k with pools := x.pools, remHeld := x.remAdds, slip := x.slip }
  s.setAord ((s.aord.filter fun r => decide (r.crew ≠ n)) ++ x.aord)

/-! ### Freezes and points (12 R285; 13 R316 to R319) -/

/-- Move the start strokes of a crew's running and accepted launches later, and what hangs on them (R318). -/
def State.moveStarts (s : State) (n d : Nat) : State :=
  let s := s.modCrew n fun k => { k with
    launches := k.launches.map fun l => if l.finished.isNone then { l with start := l.start + d, planned := l.planned + d } else l }
  s.each (s.members n) fun s c => s.modSeq c fun q => { q with
    start := q.start + d
    due := q.due + d
    waits := q.waits.map fun l => l.map fun w => { w with w := w.w + d } }

/-- A crew freezes at the boundary in progress (R318): the snapshot of this boundary is taken, and the crew waits. -/
def State.startFreeze (s : State) (n : Nat) : State :=
  if s.frozen n then s
  else
    let d := s.fld F.CHK_CFG_freeze [n]
    let s := s.moveStarts n d
    let (x, s) := s.takeSnap n
    s.modCrew n fun k => { k with freezeEnd := some (s.stk.num + d), freezeSnap := some x }

/-- A new epoch of every STATE page (R314). -/
def State.newEpoch (s : State) (n : Nat) : State := s.modCrew n fun k => { k with eid := k.eid + 1 }

/-- Show a crew's points. -/
def State.showPoints (s : State) (n : Nat) : State := s.setFld F.GLB_RCV_points [n] (s.crew n).points.length

/-- A point is made at this step boundary: the crew freezes, and the exchange waits for the end of the freeze (R318). -/
def State.makePoint (s : State) (n : Nat) : State :=
  let s := (s.newEpoch n).modCrew n fun k => { k with unprot := false, freezePoint := true, stepSnapEid := k.eid }
  (s.liveBit F.CHK_FREE_unprot [n] false).startFreeze n

/-- Base of a snapshot slot: SNAP holds the page-map area, then two slots of 2S (R320). -/
def State.slotBase (s : State) (n slot : Nat) : Nat :=
  let first := match (s.crew n).regions.find? fun r => decide (r.cls = 3) with | some r => r.first | none => 0
  first * 2 ^ 21 + 2 ^ 21 + slot * (2 * s.snapSize n)

/-- A new snapshot overwrites a slot: what stood there in error is gone. -/
def State.clearSlot (s : State) (n slot : Nat) : State :=
  let b := s.slotBase n slot
  s.setGran (s.gran.filter fun p => !(decide (b ≤ 32 * p.1) && decide (32 * p.1 < b + 2 * s.snapSize n)))

/-- The exchange of points at the end of a freeze (12 R285; 13 R317): B becomes the newer point. -/
def State.exchangePoints (s : State) (n : Nat) : State :=
  match (s.crew n).freezeSnap with
  | none => s
  | some x =>
    let keep := if s.isSet F.CHK_CFG_one_point [n] then 0 else 1
    let s := s.modCrew n fun k =>
      let p : Point := { stroke := k.stepStart, current := k.stepStart, eid := k.stepSnapEid, snap := x }
      let ps := p :: k.points.take keep
      let old := (ps.getLast?.map fun p => p.current).getD 0
      { k with
        points := ps
        freezePoint := false
        talCmds := k.talCmds.filter fun c => c.todo || decide (old ≤ c.stroke) }
    (((s.clearSlot n x.slot).showPoints n).releaseCopies n).flushCpls n

/-- A freeze ends without its point or checkpoint (R318, R326). -/
def State.dropFreeze (s : State) (n : Nat) : State :=
  let s := s.modCrew n fun k => { k with freezeEnd := none, freezePoint := false, freezeSnap := none }
  let s := match (s.crew n).ckpt with | some c => if c.freezing then s.endCkpt n 2 else s | none => s
  (s.releaseCopies n).flushCpls n

/-- The on-chip image of a full checkpoint is written, and its copy phase begins (R325). -/
def State.writeImage (s : State) (n : Nat) (x : Snap) : State :=
  match (s.crew n).ckpt with
  | none => s
  | some c =>
    let b := fit (s.snapSize n) (Config.imageBytes x)
    let s := s.setImages ((b, x) :: s.images)
    let s := (s.hbmPut (s.ckptBase n + 4096) (clean b)).modCrew n fun k => { k with ckpt := some { c with freezing := false } }
    s.setFld F.CHK_STAT_state [n] 2

/-- What a crew does at the boundary at which it may work again: commands re-timed to it, its next launch, its
postings, its entries due (03 R77, R89; 12 R289). -/
def State.beginCrew (s : State) (n : Nat) : State :=
  let s := (s.replayTal n).startLaunch n
  let s := if s.fixed then s.each (s.members n) fun s c => s.postCore n c else s
  s.each (s.members n) State.openEntry

/-- FREEZE_END (R318, R321, R326): the strokes of a freeze have passed; `left`: bytes of the snapshot still to write. -/
def execFreezeEnd (crew left : Nat) (s : State) : Host.Outcome State Fault Refusal :=
  let k := s.crew crew
  match k.freezeEnd, k.freezeSnap with
  | some b, some x =>
    if decide (s.stk.num < b) || s.inReset || s.inEasy then .next s
    else if k.stop.isSome then .next ((s.dropFreeze crew).stopCrew crew { bStop := s.stk.num })
    else if left ≠ 0 then
      let s := (s.bump F.STK_CREW_crab_count [crew] 1).raiseBit F.STK_CREW_crab_hist [crew]
      let s := (s.crewFault crew 5 0x0506 left).stopCrew crew { bStop := s.stk.num }
      .next (s.dropFreeze crew)
    else
      let s := if k.freezePoint then s.exchangePoints crew else s
      let s := match k.ckpt with | some c => if c.freezing then s.writeImage crew x else s | none => s
      .next ((s.modCrew crew fun k => { k with freezeEnd := none, freezeSnap := none }).beginCrew crew)
  | _, _ => .next s

/-! ### Checkpoint triggers (R324, R326, R329) -/

/-- Note the status of a trigger, checkpoint or restore. -/
def State.noteChk (s : State) (n : Nat) (tensor : Bool) (status : Nat) : State :=
  (s.setFld F.CHK_STAT_status [n] status).setFld F.CHK_STAT_kind [n] (if tensor then 1 else 0)

/-- Does a save entry break R329? -/
def State.saveBad (s : State) (n : Nat) (e : Bytes) : Bool :=
  let axes := field e 6 1
  let src := field e 200 8
  decide (field e 4 2 ≠ 1) || decide (axes = 0) || decide (6 < axes) || decide (7 < field e 7 1) || decide (field e 197 1 ≠ 0)
    || decide (field e 198 2 ≠ 0) || decide (field e 208 40 ≠ 0) || decide (src % 256 ≠ 0) || decide (field e 176 8 ≠ shardBytes e)
    || ((iota axes (6 - axes)).any fun i => decide (field e (32 + 8 * i) 8 ≠ 0) || decide (field e (80 + 8 * i) 8 ≠ 1))
    || ((iota (src / 2 ^ 21) (ceilDiv (src % 2 ^ 21 + shardBytes e) (2 ^ 21))).any fun p => (Map.find p (s.crew n).pages).isNone)

/-- The save list of a crew, each entry with its poison. -/
def State.saveList (s : State) (n : Nat) : List (Bytes × Bool) × State :=
  let a := s.fld F.CHK_SAVE_LO_addr_lo [n] * 256 + 2 ^ 32 * s.fld F.CHK_SAVE_HI_addr_hi [n]
  let m := s.fld F.CHK_SAVE_HI_count [n]
  let (b, s) := s.hbmBytes a (256 * m)
  ((iota 0 m).map fun i => let e := (b.drop (256 * i)).take 256; (plain e, anyPoison e), s)

/-- Source pages of save entries, ascending. -/
def sourcePages (es : List Bytes) : List Nat :=
  (es.foldl (fun m e => (iota (field e 200 8 / 2 ^ 21) (ceilDiv (field e 200 8 % 2 ^ 21 + shardBytes e) (2 ^ 21))).foldl
    (fun m p => Map.insert p () m) m) []).map fun p => p.1

/-- The sync of the image header is cleared (R325, R327). -/
def State.clearSync (s : State) (n : Nat) : State := s.hbmPut (s.ckptBase n) (clean (natLe 4 0))

/-- A checkpoint begins at the boundary in progress (R325, R330). -/
def State.beginCkpt (s : State) (n : Nat) (tensor : Bool) (es : List Bytes) : State :=
  let s := (s.clearSync n).newEpoch n
  let k := s.crew n
  let c : Ckpt := {
    tensor := tensor
    stroke := s.stk.num
    eid := k.eid
    freezing := !tensor
    left := if tensor then sourcePages es else k.statePages
    shards := es
    steps := k.steps
    suspectAt := s.isSet F.GLB_HEALTH_suspect [] }
  let s := s.modCrew n fun k => { k with ckpt := some c }
  if tensor then s.setFld F.CHK_STAT_state [n] 2 else (s.setFld F.CHK_STAT_state [n] 1).startFreeze n

/-- A trigger is skipped with a status (R324). -/
def State.skipCkpt (s : State) (n : Nat) (tensor : Bool) (status : Nat) : State :=
  (s.noteChk n tensor status).bump F.CHK_STAT_skipped [n] 1

/-- A trigger's boundary has come (R324, R326): not taken, skipped, or begun. -/
def State.takeCkpt (s : State) (n : Nat) (tensor : Bool) : State :=
  if tensor && decide (s.fld F.CHK_SAVE_HI_count [n] = 0) then s
  else if s.halted n then s.noteChk n tensor 2
  else if s.isSet F.STK_CREW_carrying [n] then s.noteChk n tensor 3
  else if (s.crew n).ckpt.isSome then s.skipCkpt n tensor 6
  else if s.fld F.CHK_STAT_seq [n] ≠ s.fld F.CHK_ACK_seq [n] then s.skipCkpt n tensor 5
  else if tensor then
    let (es, s) := s.saveList n
    let bad := es.any fun e => e.2 || s.saveBad n e.1
    let room := (es.map fun e => shardRoom e.1).foldl (fun a b => a + b) 4096
    if bad || decide (s.ckptSize n < room) then s.skipCkpt n tensor 7 else s.beginCkpt n tensor (es.map fun e => e.1)
  else if s.ckptSize n < 4096 + s.snapSize n + (s.crew n).statePages.length * 2 ^ 21 then s.skipCkpt n tensor 7
  else s.beginCkpt n tensor []

/-- CHK_CMD is busy while its request has not begun. -/
def State.showChkBusy (s : State) : State :=
  s.liveBit F.CHK_CMD_busy [] ((iota 0 16).any fun n => (s.crew n).ckReq.any fun r => r.cmd)

/-- The waiting triggers of a crew whose boundary has come: full ones at once, tensor ones at a step boundary (R324). -/
def State.dueCkpts (s : State) (n : Nat) (step : Bool) : State :=
  let due := fun (r : CkReq) => decide (r.stroke ≤ s.stk.num) && (!r.tensor || step)
  let l := (s.crew n).ckReq.filter due
  if l = [] then s
  else
    let s := s.modCrew n fun k => { k with ckReq := k.ckReq.filter fun r => !due r }
    (s.each l fun s r => s.takeCkpt n r.tensor).showChkBusy

/-- The timer trigger of a boundary (R324). -/
def State.timerCkpt (s : State) (n : Nat) : State :=
  let p := s.fld F.CHK_TIMER_strokes [n]
  let kind := s.fld F.CHK_CFG_timer_kind [n]
  if p = 0 ∨ kind = 0 ∨ s.stk.num = 0 ∨ s.stk.num % p ≠ 0 ∨ (s.crew n).lastTimer = some s.stk.num then s
  else
    s.modCrew n fun k => { k with
      lastTimer := some s.stk.num
      ckReq := k.ckReq ++ [{ tensor := decide (kind = 2), stroke := s.stk.num, cmd := false }] }

/-- The step-count trigger of a step boundary (R324). -/
def State.stepCkpt (s : State) (n : Nat) : State :=
  let every := s.fld F.CHK_STEPS_every [n]
  let kind := s.fld F.CHK_CFG_step_kind [n]
  if every = 0 ∨ kind = 0 ∨ (s.crew n).steps % every ≠ 0 then s else s.takeCkpt n (decide (kind = 2))

/-! ### Step boundaries (12 R285; 13 R318, R319, R415) -/

/-- The step that ends commits (R285, R290). -/
def State.commitStep (s : State) (n : Nat) : State :=
  let s := s.modCrew n fun k => { k with steps := k.steps + 1, consecTarget := none, delta := 0 }
  (s.wrap F.CHK_STEPS_committed [n] 1).setFld F.GLB_RCV_consecutive [n] 0

/-- Is the boundary in progress a step boundary of the crew: its first, or one that a STEP asked for (03 R70; R415)? -/
def State.stepHere (s : State) (n : Nat) : Bool :=
  ((s.crew n).firstStep || (s.crew n).stepNext) && !s.halted n && !s.frozen n

/-- A step boundary of a crew (12 R285; 10 R253; 13 R318, R319, R324, R415); in an orderly drain the crew then stops (11
R282). -/
def State.stepBoundary (s : State) (n : Nat) : State :=
  let s := if (s.crew n).firstStep then s else s.commitStep n
  let s := s.closeSlots n true
  let s := s.modCrew n fun k => { k with stepStart := k.firstFrom.getD s.stk.num, stepNext := false, firstStep := false, firstFrom := none }
  let s :=
    if !s.isSet F.CHK_CFG_protect [n] then
      let s := s.modCrew n fun k => { k with unprot := true, points := [], freezePoint := false }
      ((s.liveBit F.CHK_FREE_unprot [n] true).showPoints n).releaseCopies n
    else if s.isSet F.STK_CREW_carrying [n] then s.unprotect n
    else s.makePoint n
  let s := ((s.stepCkpt n).dueCkpts n true).flushCpls n
  if (match s.flt.drain with | some d => !d.suspect | none => false) then
    (s.modCrew n fun k => { k with drainStop := true }).setFld F.GLB_RCV_state [n] 1
  else s

/-- What a boundary brings a crew in steps, checkpoints and slot closes. -/
def State.crewBoundary (s : State) (n : Nat) : State :=
  let s := s.timerCkpt n
  let step := s.stepHere n
  let s := if step then s.stepBoundary n else s
  let s := s.dueCkpts n false
  if s.crewIdle n then s.closeSlots n false else s

/-- Freeze strokes do not count in a mode-change stall (R318). -/
def State.holdFreeze (s : State) (n : Nat) : State :=
  if s.stalled then s.modCrew n fun k => { k with freezeEnd := k.freezeEnd.map fun b => b + 1 } else s

/-- CHECKPOINT_TIMER (R324): the boundary in progress is one that the crew's timer names. -/
def execCheckpointTimer (crew : Nat) (s : State) : Host.Outcome State Fault Refusal :=
  if s.stk.drive && decide (s.ns = s.stk.bound) && s.crewValid crew then .next ((s.timerCkpt crew).dueCkpts crew false)
  else .next s

/-! ### The copy-on-write engine (R314) -/

/-- A frame with one more line filled. -/
def Frame.fillLine (f : Frame) (line : Nat) : Frame :=
  match f.fill with
  | some l => if (line :: l).length = 8192 then { f with fill := none } else { f with fill := some (line :: l) }
  | none => f

/-- COW_LINE_COPY (R314 step 4; 02 R59): in a recovery, on the copy-on-write client's turn, one unfilled line of a page is
copied. -/
def execCowLineCopy (crew page : Nat) (s : State) : Host.Outcome State Fault Refusal :=
  match Map.find page (s.crew crew).pages with
  | none => .next s
  | some p =>
    match unfilled 0 (p.live :: p.copies) with
    | none => .next s
    | some (i, line, src, dst) =>
      let from_ := src * 2 ^ 21 + 256 * line
      if !s.turn (stackOf from_) .cow then .next s
      else
        let s := (s.charge (stackOf from_) .cow).copyLine from_ (dst * 2 ^ 21 + 256 * line) (page * 2 ^ 21 + 256 * line)
        match modifyAt (fun f => f.fillLine line) i (p.live :: p.copies) with
        | live :: copies =>
          .next ((s.modCrew crew fun k => { k with pages := Map.insert page { live := live, copies := copies } k.pages }).releaseCopies crew)
        | [] => .next s

/-! ### The copy phase and completion of a checkpoint (R325, R327, R330) -/

/-- Read bytes of a page's value at an epoch, granule by granule. -/
def State.epochRead (s : State) (fs : List Frame) (a n : Nat) : Nat → List (Byte × Bool) × State
  | 0 => ([], s)
  | fuel + 1 =>
    if n = 0 then ([], s)
    else
      let k := if 32 - a % 32 ≤ n then 32 - a % 32 else n
      let (r, s) := s.readGran (epochPa fs a) a
      let (rest, s) := s.epochRead fs (a + k) (n - k) fuel
      ((((r.data.drop (a % 32)).take k).map fun b => (b, r.poison)) ++ rest, s)

/-- What of a line of a page the pieces of an image take: source, length, destination. -/
def linePieces (page line : Nat) (l : List (Nat × Nat × Nat)) : List (Nat × Nat × Nat) :=
  l.filterMap fun x =>
    let lo := Nat.max x.1 (page * 2 ^ 21 + 256 * line)
    let hi := Nat.min (x.1 + x.2.1) (page * 2 ^ 21 + 256 * line + 256)
    if lo < hi then some (lo, hi - lo, x.2.2 + (lo - x.1)) else none

/-- The first page of a copy phase is copied: its boundary is no epoch of it any more (R325 step 3). -/
def State.pageCopied (s : State) (n : Nat) (c : Ckpt) : State :=
  (s.modCrew n fun k => { k with ckpt := some { c with left := c.left.tail, line := 0 } }).releaseCopies n

/-- CHECKPOINT_PAGE_COPY (R325 step 3, R330; 02 R59, R60): in a recovery, on the copy-on-write client's turn, the next line of
the next page's value at B_c is copied into the image; with its last line B_c is no epoch of the page any more. -/
def execCheckpointPageCopy (crew : Nat) (s : State) : Host.Outcome State Fault Refusal :=
  match (s.crew crew).ckpt, s.nextCopy crew with
  | some c, some (page, line, fs) =>
    let pieces := s.pieces crew c page
    let k := stackOf (epochPa fs (page * 2 ^ 21 + 256 * line))
    if !s.turn k .cow then .next s
    else
      let s := (s.charge k .cow).each (linePieces page line pieces) fun s x =>
        let (b, s) := s.epochRead fs x.1 x.2.1 (x.2.1 / 32 + 2)
        s.hbmPut x.2.2 b
      .next (match coveredFrom (line + 1) pieces with
        | some next => s.modCrew crew fun k => { k with ckpt := some { c with line := next } }
        | none => s.pageCopied crew c)
  | some c, none => .next (if c.freezing || decide (c.left = []) || !s.copyServed then s else s.pageCopied crew c)
  | none, _ => .next s

/-- Tallies of a crew. -/
def State.crewTallies (s : State) (n : Nat) : Nat := (s.tallies.filter fun p => p.2.allocated && decide (p.2.crew = n)).length

/-- Bit i: logical core i is a member (R327). -/
def State.coreMap (s : State) (n : Nat) : Nat := (s.members n).foldl (fun m c => m + 2 ^ c) 0

/-- The image header (R327). -/
def State.imageHeader (s : State) (n : Nat) (c : Ckpt) (status partA partB digest : Nat) : Bytes :=
  fit 4096 (natLe 4 0x4E464350 ++ natLe 2 1 ++ natLe 1 (if c.tensor then 2 else 1) ++ natLe 1 status ++ natLe 8 c.stroke
    ++ natLe 8 c.steps ++ natLe 4 (s.reg R.RIG_ID []).toNat ++ natLe 4 (s.reg R.GLB_ID []).toNat
    ++ natLe 4 (s.fld F.LNK_SELF_package []) ++ natLe 1 n ++ natLe 1 (s.members n).length ++ natLe 2 0 ++ natLe 8 partA
    ++ natLe 8 partB ++ natLe 8 digest ++ natLe 18 (s.coreMap n) ++ natLe 4 (s.crewTallies n))

/-- The header of a shard, from its save entry and its data (R331). -/
def State.shardHeader (s : State) (n : Nat) (c : Ckpt) (e data : Bytes) : Bytes :=
  let b := natLe 4 0x4E465348 ++ (e.drop 4).take 12 ++ natLe 8 c.steps ++ natLe 8 c.stroke ++ (e.drop 32).take 152
    ++ natLe 8 (crc64 data).toNat ++ natLe 4 (s.fld F.LNK_SELF_package []) ++ natLe 1 n ++ natLe 51 0
  b ++ natLe 8 (crc64 b).toNat

/-- CHECKPOINT_COMPLETE (R325 step 4, R330): every page is copied; the shard headers, then the image header are written. -/
def execCheckpointComplete (crew : Nat) (s : State) : Host.Outcome State Fault Refusal :=
  match (s.crew crew).ckpt with
  | none => .next s
  | some c =>
    if c.freezing || decide (c.left ≠ []) || !s.copyServed then .next s
    else
      let base := s.ckptBase crew
      let s := s.each (if c.tensor then shardPlaces (base + 4096) c.shards else []) fun s p =>
        s.hbmPut p.1 (clean (s.shardHeader crew c p.2 (Map.bytes unlisted s.mem (p.1 + 256) (shardBytes p.2))))
      let body := if c.tensor then (c.shards.map shardRoom).foldl (fun a b => a + b) 0
        else s.snapSize crew + (s.crew crew).statePages.length * 2 ^ 21
      let status := if s.isSet F.GLB_HEALTH_suspect [] && !c.suspectAt then 0xA else 1
      let a := if c.tensor then c.shards.length else s.snapSize crew
      let b := if c.tensor then body else (s.crew crew).statePages.length * 2 ^ 21
      let h := s.imageHeader crew c status a b (crc64 (Map.bytes unlisted s.mem (base + 4096) body)).toNat
      .next (((s.hbmPut base (clean h)).endCkpt crew status).wrap F.CHK_STAT_seq [crew] 1)

/-! ### Commands of CHK_CMD (R324, R326, R328, R332) -/

/-- The crew that a CHK_CMD names. -/
def chkCrew (v : Word) : Nat := bits v.toNat 23 20

/-- The argument of CHK_CMD: a stroke or a crew address. -/
def State.chkArg (s : State) : Nat := s.pair R.CHK_ARG_LO R.CHK_ARG_HI []

/-- A refused request of CHK_CMD. -/
def State.chkRefuse (s : State) : State := s.raiseBit F.CHK_CMD_refused []

/-- CHK_CMD is written: with go and nothing busy, `act` makes the request. -/
def State.chkCmd (s : State) (v : Word) (act : State → State) : State :=
  let s := s.fromHost 4
  if s.strayAt R.CHK_CMD.base then s.stray
  else
    let busy := s.isSet F.CHK_CMD_busy []
    let s := s.hostPut R.CHK_CMD [] v
    if v.toNat % 2 = 0 then s else if busy then s.chkRefuse else act s

/-- TAKE_FULL or TAKE_TENSOR asks for a checkpoint at the next boundary, or at the stroke in CHK_ARG (R324). -/
def State.askCkpt (s : State) (n : Nat) (tensor named : Bool) : State :=
  if (named && decide (s.chkArg < s.stk.num + 2)) || (!tensor && decide (s.ckptSize n = 0)) || !s.crewValid n then s.chkRefuse
  else
    let r : CkReq := { tensor := tensor, stroke := if named then s.chkArg else s.stk.num + 1, cmd := true }
    (s.modCrew n fun k => { k with ckReq := k.ckReq ++ [r] }).showChkBusy

/-- TAKE_FULL (R325). -/
def execTakeFull (v : BitVec 32) (s : State) : Host.Outcome State Fault Refusal :=
  .next (s.chkCmd v fun s => s.askCkpt (chkCrew v) false (decide (bits v.toNat 1 1 = 1)))

/-- TAKE_TENSOR (R330). -/
def execTakeTensor (v : BitVec 32) (s : State) : Host.Outcome State Fault Refusal :=
  .next (s.chkCmd v fun s => s.askCkpt (chkCrew v) true (decide (bits v.toNat 1 1 = 1)))

/-- ABANDON (R326). -/
def execChkAbandon (v : BitVec 32) (s : State) : Host.Outcome State Fault Refusal :=
  .next (s.chkCmd v fun s =>
    if (s.crew (chkCrew v)).ckpt.isNone then s.chkRefuse
    else
      let n := chkCrew v
      let freezing := match (s.crew n).ckpt with | some c => c.freezing && !(s.crew n).freezePoint | none => false
      let s := s.endCkpt n 0xD
      if freezing then s.modCrew n fun k => { k with freezeEnd := k.freezeEnd.map fun _ => s.nextStroke } else s)

/-- Is a restore of the whole crew admitted (R328 step 1)? -/
def State.restoreOpen (s : State) (n : Nat) : Bool :=
  s.crewValid n && (s.crew n).restore.isNone &&
    ((decide (s.rcvState n = 4) && s.isSet F.GLB_RCV_no_point [n]) || !(s.crew n).everLaunch)

/-- Does an image header fit the target crew (R328 step 2)? -/
def State.shapeOk (s : State) (n : Nat) (h : Bytes) : Bool :=
  decide (field h 0 4 = 0x4E464350) && decide (field h 6 1 = 1)
    && decide (field h 28 4 / 2 ^ 8 = (s.reg R.GLB_ID []).toNat / 2 ^ 8) && decide (field h 64 18 = s.coreMap n)
    && decide (field h 48 8 = (s.crew n).statePages.length * 2 ^ 21) && decide (field h 82 4 = s.crewTallies n)

/-- RESTORE_FULL (R328): admitted, and of the crew's shape, the restore begins; the crew issues nothing meanwhile. -/
def execRestoreFull (v : BitVec 32) (s : State) : Host.Outcome State Fault Refusal :=
  .next (s.chkCmd v fun s =>
    let n := chkCrew v
    if !s.restoreOpen n then s.chkRefuse
    else
      let a := s.chkArg
      let (h, s) := s.hbmBytes a 4096
      if !s.shapeOk n (plain h) then s.noteChk n false 8
      else
        let r : Restore := { tensor := false, addr := a, count := 0 }
        let s := s.modCrew n fun k => { k with restore := some r }
        (s.setFld F.CHK_STAT_state [n] 3).setFld F.GLB_RCV_state [n] 2)

/-- RESTORE_TENSOR (R332): admitted under R328 step 1, or while the crew is idle. -/
def execRestoreTensor (v : BitVec 32) (s : State) : Host.Outcome State Fault Refusal :=
  .next (s.chkCmd v fun s =>
    let n := chkCrew v
    if !(s.restoreOpen n || (s.crewValid n && s.crewIdle n)) then s.chkRefuse
    else
      let r : Restore := { tensor := true, addr := s.chkArg, count := (s.reg R.CHK_ARG2 []).toNat }
      (s.modCrew n fun k => { k with restore := some r }).setFld F.CHK_STAT_state [n] 3)

/-! ### RESTORE_COMPLETE (R328, R332) -/

/-- A full restore writes the on-chip image and the STATE pages; it answers the status (R328 steps 3, 4). -/
def State.restoreFull (s : State) (n a : Nat) : Nat × State :=
  let (h, s) := s.hbmBytes a 4096
  let size := s.snapSize n
  let (b, s) := s.hbmBytes (a + 4096) size
  let s := match s.imageSnap (plain b) with
    | some x =>
      let s := s.putSnap n 0 x
      s.modCrew n fun k => { k with launches := x.launches, points := [], talCmds := [] }
    | none => s
  let (body, s) := s.eachWith [] (s.crew n).statePages.zipIdx fun (x : List (Byte × Bool)) s p =>
    let (d, t) := s.hbmBytes (a + 4096 + size + p.2 * 2 ^ 21) (2 ^ 21)
    (x ++ d, t.hbmPut (p.1 * 2 ^ 21) d)
  let status := if (crc64 (plain b ++ plain body)).toNat ≠ field (plain h) 56 8 then 9
    else if anyPoison (b ++ body) then 0xB else 1
  (status, s)

/-- Coordinates of a box, in row-major order. -/
def Box.points : List Nat → List Nat → List (List Nat)
  | o :: os, e :: es => (iota o e).flatMap fun x => (Box.points os es).map fun r => x :: r
  | _, _ => [[]]

/-- Is a coordinate in a box? -/
def Box.holds (x : Box) (p : List Nat) : Bool :=
  (List.zip p (List.zip x.off x.ext)).all fun q => decide (q.2.1 ≤ q.1) && decide (q.1 < q.2.1 + q.2.2)

/-- Row-major index of a coordinate in a box. -/
def Box.index (x : Box) (p : List Nat) : Nat :=
  (List.zip p (List.zip x.off x.ext)).foldl (fun i q => i * q.2.2 + (q.1 - q.2.1)) 0

/-- Progress of a tensor restore: the machine, whether a check failed, whether poison was written, whether elements of
the box in hand are uncovered. -/
structure TRes where
  st : State
  bad : Bool := false
  poison : Bool := false
  uncovered : Bool := false

/-- One shard of a descriptor: checked, then the intersection copied (R332). Answers its box too. -/
def TRes.shard (t : TRes) (d : Bytes) (a : Nat) : TRes × Box :=
  let (hb, s) := t.st.hbmBytes a 256
  let h := plain hb
  let axes := field d 28 1
  let box := boxAt h 32 axes
  let (data, s) := s.hbmBytes (a + 256) (field h 176 8)
  let ok := decide (field h 0 4 = 0x4E465348) && decide (field h 248 8 = (crc64 (h.take 248)).toNat)
    && decide (field h 8 8 = field d 8 8) && decide (field h 7 1 = field d 29 1) && decide (field h 6 1 = axes)
    && decide (field h 184 8 = (crc64 (plain data)).toNat)
  if !ok then ({ t with st := s, bad := true }, box)
  else
    let target := boxAt d 32 axes
    let size := shardSize (field d 29 1)
    let both := (Box.points target.off target.ext).filter box.holds
    let s := s.each both fun s p => s.hbmPut (field d 0 8 + size * target.index p) ((data.drop (size * box.index p)).take size)
    let bad := both.any fun p => anyPoison ((data.drop (size * box.index p)).take size)
    ({ t with st := s, poison := t.poison || bad }, box)

/-- One descriptor: its shards in list order; a failed check ends the restore (R332). -/
def TRes.descriptor (t : TRes) (a : Nat) : TRes :=
  if t.bad then t
  else
    let (db, s) := t.st.hbmBytes a 128
    let d := plain db
    let (lb, s) := s.hbmBytes (field d 16 8) (8 * field d 24 4)
    let (t, boxes) := (iota 0 (field d 24 4)).foldl (fun (x : TRes × List Box) i =>
      if x.1.bad then x
      else
        let (t, b) := x.1.shard d (field (plain lb) (8 * i) 8)
        (t, x.2 ++ [b])) ({ t with st := s }, [])
    let target := boxAt d 32 (field d 28 1)
    { t with uncovered := t.uncovered || (Box.points target.off target.ext).any fun p => !(boxes.any fun b => b.holds p) }

/-- A tensor restore; it answers the status. -/
def State.restoreTensor (s : State) (a count : Nat) : Nat × State :=
  let t := (iota 0 count).foldl (fun (t : TRes) i => t.descriptor (a + 128 * i)) { st := s }
  (if t.bad then 9 else if t.poison then 0xB else if t.uncovered then 0xC else 1, t.st)

/-- RESTORE_COMPLETE (R328 step 4, R332): in a drive the writes are made and the status set. After a full restore the
crew is held with no point; no_point is set when the digest failed. -/
def execRestoreComplete (crew : Nat) (s : State) : Host.Outcome State Fault Refusal :=
  match (s.crew crew).restore with
  | none => .next s
  | some r =>
    if !s.stk.drive || s.stalled || s.inReset || s.inEasy || s.emptyStroke then .next s
    else
      let (status, s) := if r.tensor then s.restoreTensor r.addr r.count else s.restoreFull crew r.addr
      let s := ((s.modCrew crew fun k => { k with restore := none }).setFld F.CHK_STAT_state [crew] 0).noteChk crew r.tensor status
      if r.tensor then .next s
      else
        let (h, s) := s.hbmBytes r.addr 32
        let s := s.modCrew crew fun k => { k with restoredDelta := some (field (plain h) 8 8), unprot := true, everLaunch := true }
        let s := ((s.setFld F.GLB_RCV_state [crew] 4).liveBit F.GLB_RCV_no_point [crew] (decide (status = 9))).showPoints crew
        .next ((s.liveBit F.CHK_FREE_unprot [crew] true).showPending crew)

end Sys2Proof.Machine
end

