-- ==== Sys2Proof/Machine/Recovery.lean ====
section
/-!
DEFINITION. Stops, rollbacks, replays and the requests and watchdogs that lead to them (12 R287 to R296, R302, R306 to
R309; 13 R322).
-/
namespace Sys2Proof.Machine

/-! ### Requests in progress -/

/-- The request of GLB_RCV_CMD for a domain has begun (R302). -/
def State.begun (s : State) (d : Dom) : State :=
  if s.flt.request = some d then
    (s.setFlt { s.flt with request := none }).liveBit F.GLB_RCV_CMD_busy [] false
  else s

/-- Ask for a dump of a domain (R299). -/
def State.askDump (s : State) (d : Dom) (cause : Nat) : State :=
  s.setFlt { s.flt with dumps := s.flt.dumps ++ [{ dom := d, cause := cause }] }

/-- Does a dump of a domain wait or run? -/
def State.dumpWaits (s : State) (d : Dom) : Bool := s.flt.dumps.any fun x => decide (x.dom = d)

/-! ### Core resets (R288 step 2, R301) -/

/-- Flits of a crew that a link has not launched or whose acknowledgement it awaits go; those of one core, where named. -/
def State.dropFlits (s : State) (n : Nat) (core : Option Nat) : State :=
  let mine := fun (c k : Nat) => decide (c = n) && (match core with | some x => decide (k = x) | none => true)
  let stays := fun (f : Flit) => !(match f.crew with | some c => mine c f.core | none => false)
  let flight := fun (u : Unacked) => !mine u.crew u.core
  s.each (s.links.map fun p => p.1) fun s l => s.modLink l fun k => { k with
    timedQ := k.timedQ.filter stays
    bulkQ := k.bulkQ.filter stays
    unacked := k.unacked.filter flight }

/-- The copy that engine e of a core holds as the umpire of its worker goes (10 R239). -/
def State.dropHosted (s : State) (c e : Nat) : State :=
  match (s.core (workerOf c)).ump.chain with
  | some (w, _) => if s.isSet F.UMP_CFG_enable [c] && decide (s.fld F.UMP_CFG_engine [c] = e) then s.dropUmpire (workerOf c) w else s
  | none => s

/-- A core reset (R301): every unit of the core, its sequencer, prefetch buffer and ring counters; core store stays. -/
def State.resetCore (s : State) (c : Nat) : State :=
  let s := s.dropHosted c (s.fld F.UMP_CFG_engine [c])
  let s := s.each ((s.core c).eng.map fun p => p.1) fun s e => s.dropEngine c e
  let s := s.modCore c fun k => { k with
    seq := {}, eng := [], vecq := [], vecSig := [], vecIdle := 0, dmaq := [], dmaSig := [], dmaIdle := 0, tq := [], pre := []
    posts := [], waits := [], fences := [], added := [], ump := {}, cursors := [] }
  let s := match s.crewOf c with | some n => s.dropFlits n (some c) | none => s
  let s := s.each (iota 0 8) fun s r => (s.setReg R.ENG_RFILL [c, r] 0).setReg R.ENG_RUSE [c, r] 0
  let s := s.each (iota 0 12) fun s e => (s.setReg R.ENG_PROGRESS [c, e] 0).showEng c e
  ((s.showVec c).showDma c).showSeq c

/-- An engine reset (R301): units 0 to 11 are matrix engines, 12 the vector engine, 13 the DMA engine. -/
def State.resetEngine (s : State) (c u : Nat) : State :=
  if u < 12 then
    ((((s.dropHosted c u).dropUmpire c u).modEng c u fun _ => {}).setReg R.ENG_PROGRESS [c, u] 0).showEng c u
  else if u = 12 then (s.modCore c fun k => { k with vecq := [], vecSig := [], vecIdle := 0 }).showVec c
  else (s.modCore c fun k => { k with dmaq := [], dmaSig := [], dmaIdle := 0 }).showDma c

/-- Link deliveries that a crew's stop holds back are discarded, and their slots are free (R288 step 2). -/
def State.dropHeld (s : State) (n : Nat) : State :=
  s.each (s.links.map fun p => p.1) fun s l =>
    let k := s.link l
    let mine := k.rxHeld.filter fun f => decide (f.crew = some n)
    let coll := k.rxColl.filter fun p => decide (p.crew = n)
    let s := s.modLink l fun k => { k with
      rxHeld := k.rxHeld.filter fun f => decide (f.crew ≠ some n)
      rxColl := k.rxColl.filter fun p => decide (p.crew ≠ n)
      hdrs := k.hdrs.filter fun p => decide (p.2.1 ≠ n) }
    let s := s.each mine fun s f =>
      (s.leaveSlot l n f.vc f.slot).loseFlit l n f.cls f.vc f.last f.bytes
    let s := s.each (k.hdrs.filter fun p => decide (p.1 = 2 ∧ p.2.1 = n)) fun s _ => s.freeSlot l .bulk
    s.each coll fun s p => s.leaveSlot l n .bulk p.slot

/-! ### CREW_STOP (R287) -/

/-- The commands of a member core in progress are abandoned (02 R54): its engines drop their chains, commands and output buffers,
and the umpire its copy (04 R112; 10 R242). -/
def State.abandon (s : State) (c : Nat) : State :=
  let k := s.core c
  let l := (k.eng.flatMap fun p => p.2.q) ++ k.vecq ++ k.dmaq ++ k.tq
  let s := s.each (l.filter fun q => q.started) fun s q => s.traceEnd c 1 q.done q
  let s := s.each (k.eng.map fun p => p.1) fun s e => s.dropEngine c e
  let s := s.modCore c fun k => { k with vecq := [], dmaq := [], tq := [], waits := [], fences := [] }
  ((s.showVec c).showDma c).showSeq c

/-- A crew stops at its boundary (R287, R299; 11 R268): commands are abandoned, collectives aborted, launches that
consumed poison complete, and the dump that the cause requires is asked for. -/
def State.stopNow (s : State) (n : Nat) (st : Stop) : State :=
  let s := if s.frozen n then s.dropFreeze n else s
  let s := s.modCrew n fun k => { k with
    bRestore := none, releaseAt := none, replayEnd := none, restart := false, lastStop := st.bStop
    diag := k.diag.map fun (d : Diag) => { d with running := false, obs := [] } }
  let s := s.each (s.members n) State.abandon
  let s := (s.abortColls n fun _ => true).setFld F.GLB_RCV_state [n] 1
  let s := s.each ((s.crew n).launches.filter fun l => l.poisoned && l.finished.isNone) fun s l =>
    s.finishLaunch n { l with statuses := 8 :: l.statuses }
  let s := if st.cause < 2 ∨ s.isSet F.GLB_DUMP_BASE_LO_on_rollback [] = true then s.askDump (.crew n) st.cause else s
  s.begun (.crew n)

/-- Has the freeze of a crew passed, or has it none (13 R326)? -/
def State.freezePast (s : State) (n : Nat) : Bool :=
  match (s.crew n).freezeEnd with | some b => decide (b ≤ s.stk.num) | none => true

/-- CREW_STOP (R287): the boundary of a stop has come for a crew that runs, replays or is held. -/
def execCrewStop (crew : Nat) (s : State) : Host.Outcome State Fault Refusal :=
  match (s.crew crew).stop with
  | some st =>
    let state := s.rcvState crew
    if s.crewValid crew && decide (st.bStop ≤ s.stk.num) && (decide (state = 0) || decide (state = 3) || decide (state = 4))
        && s.freezePast crew && !s.inReset then
      .next (s.stopNow crew st)
    else .next s
  | none => .next s

/-! ### ROLLBACK (R288, R290, R292) -/

/-- The target is not held (R292): every launch completes with ABORTED_FAULT and the crew is held with no point. -/
def State.noPoint (s : State) (n : Nat) : State :=
  let s := s.abortLaunches n 8
  let s := s.modCrew n fun k => { k with stop := none, points := [], bRestore := none, restart := false, diag := none }
  (((s.raiseBit F.GLB_RCV_no_point [n]).setFld F.GLB_RCV_state [n] 4).showPoints n).releaseCopies n

/-- A rollback to a held point begins (R288 steps 2 and 3, R290): the members are reset, later points go. -/
def State.beginRollback (s : State) (n : Nat) (p : Point) (st : Stop) : State :=
  let again := decide ((s.crew n).consecTarget = some p.stroke)
  let count := if again then satAdd (s.fld F.GLB_RCV_consecutive [n]) 1 15 else 1
  let s := (s.setFld F.GLB_RCV_consecutive [n] count).raiseBit F.GLB_RCV_rb_hist [n]
  let s := (s.bump F.GLB_RCV_rollbacks [n] 1).setFld F.GLB_RCV_state [n] 2
  let s := s.each (s.members n) State.resetCore
  let s := ((s.dropFlits n none).dropHeld n).modCrew n fun k => { k with
    points := k.points.dropWhile fun q => decide (q.stroke ≠ p.stroke)
    stop := some { st with target := some p.stroke }
    remHeld := []
    restart := false }
  let s := s.setAord (s.aord.filter fun r => decide (r.crew ≠ n))
  ((s.showPoints n).releaseCopies n).flushCpls n

/-- ROLLBACK (R288): a stopped crew whose dump has been made goes back to the newest held point, or to the newest at or
before the stroke that a request named (R302). -/
def execRollbackRun (crew : Nat) (s : State) : Host.Outcome State Fault Refusal :=
  let k := s.crew crew
  match k.stop with
  | some st =>
    if !s.crewValid crew || decide (s.rcvState crew ≠ 1) || s.dumpWaits (.crew crew) || s.inReset then .next s
    else
      let target := match st.target with
        | some x => k.points.find? fun p => decide (p.stroke ≤ x)
        | none => k.points.head?
      match target with
      | some p => .next (s.beginRollback crew p st)
      | none => .next (s.noPoint crew)
  | none => .next s

/-! ### RESTORATION_COMPLETE (R288 step 3, R289; 13 R322) -/

/-- Index within its copy of the granule at an address of a snapshot slot, and whether it is copy A (13 R320). -/
def snapPlace (base a : Nat) : Bool × Nat :=
  let half := decide (pcOf a < 256)
  let lines := (iota 0 ((a - base) / 256)).filter fun i => decide (pcOf (base + 256 * i) < 256) = half
  (half, 8 * lines.length + a % 256 / 32)

/-- Places of a slot whose granules read as UE or poison. -/
def State.snapBad (s : State) (n slot : Nat) : List (Bool × Nat) :=
  let b := s.slotBase n slot
  (s.gran.filter fun p => decide (b ≤ 32 * p.1) && decide (32 * p.1 < b + 2 * s.snapSize n)
    && decide (2 ≤ (decodeGran (s.granData (32 * p.1)) p.2).cls)).map fun p => snapPlace b (32 * p.1)

/-- Are both copies of some granule of a snapshot unreadable, so that its point is unusable (13 R322)? -/
def State.unusable (s : State) (n slot : Nat) : Bool :=
  let l := s.snapBad n slot
  l.any fun p => p.1 && l.elem (false, p.2)

/-- Every STATE page written since a point returns to its value there; the writes are first writes (13 R314). -/
def State.restorePages (s : State) (n : Nat) (p : Point) : State :=
  s.each (((s.crew n).pages.filter fun x => decide (p.eid ≤ x.2.live.eid)).map fun x => x.1) fun s page =>
    match Map.find page (s.crew n).pages with
    | some x =>
      let (b, s) := s.epochRead (framesAt p.eid (x.live :: x.copies)) (page * 2 ^ 21) (2 ^ 21) 65538
      s.hbmPut (page * 2 ^ 21) b
    | none => s

/-- A launch goes back to a point (R289, R309): as the snapshot holds it, or anew if it was accepted since. One that a
fault ended, or that had completed before, stays. -/
def Launch.back (p : Point) (l : Launch) : Launch :=
  let redo := l.replayed || (match l.worked with | some w => decide (p.current ≤ w) | none => false)
  match p.snap.launches.find? fun x => decide (x.accept = l.accept) with
  | some x => if l.poisoned then l else { x with replayed := redo, worked := none, poisoned := false }
  | none =>
    if l.poisoned || (match l.finished with | some f => decide (f < p.current) | none => false) then l
    else { l with
      start := l.planned, checked := false, running := false, members := [], ended := [], statuses := [], worked := none
      replayed := redo, finished := none, stopNext := false }

/-- Completions held since a point: those of launches that run again go, those of tally commands that act again wait
with their command (R286, R289, R309). -/
def State.takeBackCpls (s : State) (n : Nat) (p : Point) : State :=
  s.modCrew n fun k =>
    let again := fun (c : Cpl) => decide (c.op = 1) && k.launches.any fun l => decide (l.accept = c.accept) && l.finished.isNone
    let tal := fun (c : Cpl) => k.talCmds.any fun t => decide (t.accept = c.accept) && decide (p.current ≤ t.stroke)
    let back := fun (t : TalCmd) =>
      if t.todo || decide (t.stroke < p.current) then t
      else { t with todo := true, cpl := (k.cpls.find? fun c => decide (c.accept = t.accept)).map fun c => { c with replayed := true } }
    { k with talCmds := k.talCmds.map back, cpls := k.cpls.filter fun c => !again c && !tal c }

/-- A sequencer whose launch does not run again, since poison ended it (11 R260, R268), stays idle, and its chains end. -/
def State.idleDead (s : State) (n c : Nat) : State :=
  match (s.core c).seq.accept with
  | some a =>
    if (s.crew n).launches.any fun l => decide (l.accept = a) && l.running then s
    else ((s.modCore c fun k => { k with seq := {} }).endChains c a).showSeq c
  | none => s

/-- The stores a crew can see return to a point (R288 step 3, R309). -/
def State.restore (s : State) (n : Nat) (p : Point) : State :=
  let s := (s.restorePages n p).putSnap n 0 p.snap
  let s := s.modCrew n fun k => { k with launches := k.launches.map (Launch.back p), stepNext := false, firstStep := false, stepStart := p.stroke }
  let s := s.each (s.members n) fun s c => s.idleDead n c
  ((s.takeBackCpls n p).showPending n).modCrew n fun k => { k with bRestore := some (s.stk.num + 1) }

/-- RESTORATION_COMPLETE (R288, R293; 13 R322): in a drive, once no spare switch-in of a member waits, restoration is
complete and B_r is the next boundary. An unusable point sends the rollback to an earlier one. -/
def execRestorationComplete (crew : Nat) (s : State) : Host.Outcome State Fault Refusal :=
  let k := s.crew crew
  let switching := s.flt.switches.any fun p => decide (s.crewOf p.1 = some crew)
  if decide (s.rcvState crew ≠ 2) || k.bRestore.isSome || k.restart || k.restore.isSome || switching || !s.stk.drive || s.stalled
      || s.inReset || s.inEasy || s.emptyStroke || s.reloading crew then .next s
  else
    match k.points with
    | [] => .next s
    | p :: rest =>
      if s.unusable crew p.snap.slot then
        let s := (s.modCrew crew fun k => { k with points := rest }).chkTrigger crew
        .next (if rest = [] then s.noPoint crew else s.showPoints crew)
      else .next (s.restore crew p)

/-! ### B_r, replay and release (R288 step 4, R289 to R291, R293) -/

/-- Has the row of a core a spare site left (10 R247)? -/
def State.spareFree (s : State) (c : Nat) : Bool := s.isSet F.GLB_REMAP_HI_spare_avail [c / 9]

/-- Does another crew's diagnostic replay hold the spare site that this crew's needs (10 R247)? -/
def State.spareBusy (s : State) (n : Nat) : Bool :=
  match (s.crew n).diag with
  | some d => s.spareFree d.core && s.crewList.any fun m => decide (m ≠ n) &&
      (match (s.crew m).diag with | some e => e.running && e.shadows && decide (e.core / 9 = d.core / 9) | none => false)
  | none => false

/-- Give restored launches of another run new accept numbers, in order (13 R328 step 5). -/
def State.renumberLaunches (s : State) (n : Nat) : State :=
  let olds := ((s.crew n).launches.filter fun l => l.finished.isNone).map fun l => l.accept
  let fresh := fun (a : Nat) => match olds.zipIdx.find? fun p => decide (p.1 = a) with | some p => s.nextAccept + p.2 | none => a
  let again := fun (l : Launch) => if olds.elem l.accept then { l with accept := fresh l.accept, since := s.raw } else l
  let s := (s.setNextAccept (s.nextAccept + olds.length)).modCrew n fun k => { k with launches := k.launches.map again }
  s.each (s.members n) fun s c => s.modSeq c fun q => { q with accept := q.accept.map fresh }

/-- A crew restored from a checkpoint image goes on at this boundary (13 R328 step 5). -/
def State.releaseImage (s : State) (n bc : Nat) : State :=
  let s := (s.renumberLaunches n).moveStarts n (s.stk.num - bc)
  let s := s.modCrew n fun k => { k with
    restoredDelta := none, releaseAt := none, stop := none, stepStart := s.stk.num, unprot := true, delta := 0, aborted := [] }
  s.setFld F.GLB_RCV_state [n] 0

/-- The replay of a crew begins at this boundary, B_r (R289): launches and tally commands are re-timed by the shift,
which is counted from the boundary at which the point's work last ran; a diagnostic replay begins with it. -/
def State.startReplay (s : State) (n : Nat) (p : Point) : State :=
  let own := s.stk.num - p.current
  let total := s.stk.num - p.stroke
  let shift := fun (l : Launch) =>
    if l.finished.isSome then l
    else
      let d := if p.snap.launches.any fun x => decide (x.accept = l.accept) then total else own
      { l with start := l.start + d, planned := l.planned + d }
  let late := fun (t : TalCmd) => if p.current ≤ t.stroke then { t with stroke := t.stroke + own } else t
  let point := fun (q : Point) => { q with current := q.current + own }
  let s := s.modCrew n fun k => { k with
    launches := k.launches.map shift
    talCmds := k.talCmds.map late
    points := k.points.map point
    retime := (k.retime.filter fun w => decide (s.stk.num < w.1)) ++ [(k.lastStop + own, own)]
    replayEnd := some (k.lastStop + own)
    delta := total
    consecTarget := some p.stroke
    stop := none
    bRestore := none
    releaseAt := none
    unprot := false
    aborted := []
    diag := k.diag.map fun (d : Diag) => { d with running := true, obs := [], shadows := s.spareFree d.core } }
  let s := s.each (s.members n) fun s c => s.modSeq c fun q => { q with start := q.start + total, due := q.due + total }
  s.setFld F.GLB_RCV_state [n] 3

/-- A held crew is released at this boundary. -/
def State.release (s : State) (n : Nat) : State :=
  let k := s.crew n
  match k.restoredDelta, k.points with
  | some bc, _ => s.releaseImage n bc
  | none, p :: _ => if s.spareBusy n then s else s.startReplay n p
  | none, [] => s

/-- Is a crew to be held at B_r (R291), where the consecutive count has reached its limit (R290) too? -/
def State.holdAt (s : State) (n : Nat) (st : Stop) : Bool :=
  st.hold || !st.replay || st.releaseAt.isSome || s.isSet F.GLB_RCV_joint [n] || s.flt.drain.isSome
    || decide (s.fld F.GLB_FMGR_replay_limit [] ≤ s.fld F.GLB_RCV_consecutive [n])

/-- B_r of a crew (R288 step 4): it replays, or is held (R290, R291); in a drain its launches complete (11 R281). -/
def State.reachBr (s : State) (n : Nat) : State :=
  let st := ((s.crew n).stop).getD { bStop := s.stk.num }
  if s.holdAt n st then
    let limit := decide (s.fld F.GLB_FMGR_replay_limit [] ≤ s.fld F.GLB_RCV_consecutive [n])
    let s := (s.modCrew n fun k => { k with stop := none, bRestore := none, releaseAt := st.releaseAt, aborted := [] }).setFld F.GLB_RCV_state [n] 4
    let s := if limit then
        let f := { (s.fault0 6 2 0x0607).charge n (s.crew n).runningLaunch with detail := s.fld F.GLB_RCV_consecutive [n] }
        let s := s.setFlt { s.flt with queue := s.flt.queue ++ [f] }
        let s := s.askDump (.crew n) 1
        match (s.crew n).runningLaunch with
        | some l => s.finishLaunch n { l with statuses := 8 :: l.statuses }
        | none => s
      else s
    if s.flt.drain.isSome then s.abortLaunches n 8 else s
  else s.release n

/-- What a boundary brings a crew in its recovery (R288 to R293). -/
def State.recoverBoundary (s : State) (n : Nat) : State :=
  let k := s.crew n
  let state := s.rcvState n
  if state = 2 ∧ k.restart = true then
    let target := match k.stop with | some st => st.target | none => none
    (s.modCrew n fun k => { k with restart := false, bRestore := none, consecTarget := target }).setFld F.GLB_RCV_state [n] 1
  else if state = 2 then
    match k.bRestore with
    | some b => if b ≤ s.stk.num ∧ s.stalled = false then s.reachBr n else s
    | none => s
  else if state = 4 then
    match k.releaseAt with
    | some b => if b ≤ s.stk.num ∧ k.stop.isNone = true ∧ s.stalled = false then (s.release n).begun (.crew n) else s
    | none => s
  else if state = 3 then
    match k.replayEnd with
    | some b => if b ≤ s.stk.num then (s.modCrew n fun k => { k with replayEnd := none }).setFld F.GLB_RCV_state [n] 0 else s
    | none => s
  else s

/-! ### HALT, RELEASE and ROLLBACK of GLB_RCV_CMD (R302) -/

/-- A refused request. -/
def State.rcvRefuse (s : State) : State := s.raiseBit F.GLB_RCV_CMD_refused []

/-- GLB_RCV_CMD is written: with go and nothing busy, `act` makes the request. -/
def State.rcvCmd (s : State) (v : Word) (act : State → State) : State :=
  let s := s.fromHost 4
  let busy := s.isSet F.GLB_RCV_CMD_busy []
  let s := s.hostPut R.GLB_RCV_CMD [] v
  if v.toNat % 2 = 0 then s else if busy then s.rcvRefuse else act s

/-- The crew a GLB_RCV_CMD names. -/
def rcvCrew (v : Word) : Nat := bits v.toNat 23 20

/-- The request of GLB_RCV_CMD for a domain waits to begin. -/
def State.waitFor (s : State) (d : Dom) : State :=
  (s.setFlt { s.flt with request := some d }).liveBit F.GLB_RCV_CMD_busy [] true

/-- The replay stroke in GLB_RCV_ARG2. -/
def State.rcvArg2 (s : State) : Nat := s.pair R.GLB_RCV_ARG2_LO R.GLB_RCV_ARG2_HI []

/-- HALT (R302, R293): the crew stops at the next boundary, is dumped, rolled back and held; one being restored is held
at B_r. -/
def execHaltCmd (v : BitVec 32) (s : State) : Host.Outcome State Fault Refusal :=
  .next (s.rcvCmd v fun s =>
    let n := rcvCrew v
    let state := s.rcvState n
    if !s.crewValid n || decide (state = 5) then s.rcvRefuse
    else if state = 1 ∨ state = 2 then
      let hold := fun (st : Stop) => { st with hold := true }
      s.modCrew n fun k => { k with stop := k.stop.map hold }
    else if state = 4 then s
    else (s.stopCrew n { bStop := s.nextStroke, hold := true, cause := 0 }).waitFor (.crew n))

/-- RELEASE (R302, R291): a held crew's replay begins at the next boundary, or at the stroke in GLB_RCV_ARG2. -/
def execReleaseCmd (v : BitVec 32) (s : State) : Host.Outcome State Fault Refusal :=
  .next (s.rcvCmd v fun s =>
    let n := rcvCrew v
    let named := decide (bits v.toNat 1 1 = 1)
    if !s.crewValid n || decide (s.rcvState n ≠ 4) || s.isSet F.GLB_RCV_no_point [n] || (named && decide (s.rcvArg2 < s.stk.num + 2)) then
      s.rcvRefuse
    else (s.modCrew n fun k => { k with releaseAt := some (if named then s.rcvArg2 else s.stk.num + 1) }).waitFor (.crew n))

/-- ROLLBACK_REQUEST (R302): the crew stops and rolls back to the newest held point at or before the target; a held crew
rolls back again. -/
def execRollbackRequest (v : BitVec 32) (s : State) : Host.Outcome State Fault Refusal :=
  .next (s.rcvCmd v fun s =>
    let n := rcvCrew v
    let named := decide (bits v.toNat 1 1 = 1)
    if !s.crewValid n || decide (s.rcvState n = 5) || (named && decide (s.rcvArg2 < s.stk.num + 2)) then s.rcvRefuse
    else
      (s.stopCrew n {
        bStop := s.nextStroke
        target := some (s.pair R.GLB_RCV_ARG_LO R.GLB_RCV_ARG_HI [])
        releaseAt := if named then some s.rcvArg2 else none }).waitFor (.crew n))

/-! ### Watchdogs (R294, R295, R307) -/

/-- May a watchdog of a crew fire: it is in no stop or hold already? -/
def State.watched (s : State) (n : Nat) : Bool := s.crewValid n && !s.halted n && (s.crew n).stop.isNone

/-- Has a time limit in ms passed since a raw instant, in fabric time? -/
def State.elapsed (s : State) (since ms : Nat) : Bool :=
  decide (ms ≠ 0) && decide (s.fabricAt since + ms * 1000000 * 2 ^ 32 ≤ s.fabric)

/-- QUEUE_WATCHDOG (R294): the oldest accepted launch of an enabled queue has not completed within queue_ms. -/
def execQueueWatchdog (q t : Nat) (s : State) : Host.Outcome State Fault Refusal :=
  let s := s.advance t
  let n := s.queueCrew q
  match ((s.crew n).launches.filter fun l => l.finished.isNone && decide (l.queue = q)).head? with
  | some l =>
    if (s.queue q).enable && s.watched n && s.elapsed l.since (s.fld F.GLB_WDOG_A_queue_ms []) then .next (s.crewFault n 6 0x0601 q)
    else .next s
  | none => .next s

/-- TALLY_WAIT_WATCHDOG (R294): a wait with timeout 0 of a core has been unsatisfied for tally_ms. -/
def execTallyWaitWatchdog (core t : Nat) (s : State) : Host.Outcome State Fault Refusal :=
  let s := s.advance t
  let k := s.core core
  let ws := (k.seq.waits.getD []) ++ k.waits.map fun w => w.wait
  match s.crewOf core, ws.find? fun w => w.begun && !w.sat && decide (w.timeout = 0) && s.elapsed w.since (s.fld F.GLB_WDOG_A_tally_ms []) with
  | some n, some w =>
    if s.watched n then
      .next (s.raiseFault { ((s.fault0 6 2 0x0602).charge n (s.crew n).runningLaunch).atCore s core with detail := w.tally })
    else .next s
  | _, _ => .next s

/-- Drives in which a unit that holds a command has stood still. -/
def State.idleDrives (s : State) (c u : Nat) : Nat :=
  if u < 12 then (s.eng c u).noProgress else if u = 12 then (s.core c).vecIdle else (s.core c).dmaIdle

/-- ENGINE_PROGRESS_WATCHDOG (R294, R295): a unit has made no progress for engine_strokes drives; a second such fault of
the core within 2^24 strokes is a hard fault. -/
def execEngineProgressWatchdog (core unit : Nat) (s : State) : Host.Outcome State Fault Refusal :=
  let limit := s.fld F.GLB_WDOG_B_engine_strokes []
  match s.crewOf core with
  | some n =>
    if s.watched n && decide (limit ≠ 0) && decide (limit ≤ s.idleDrives core unit) && decide (unit < 14) then
      let s := s.raiseFault { ((s.fault0 6 2 0x0603).charge n (s.crew n).runningLaunch).atCore s core with unit := unit, detail := unit }
      match (s.core core).progFault with
      | some w =>
        if s.stk.num < w + 2 ^ 24 then .next (s.hardFault core 6)
        else .next (s.modCore core fun k => { k with progFault := some s.stk.num })
      | none => .next (s.modCore core fun k => { k with progFault := some s.stk.num })
    else .next s
  | none => .next s

/-- COLLECTIVE_WATCHDOG (R307): a collective has been open for coll_ms: it is aborted, and the crew takes a HANG fault and
is held. -/
def execCollectiveWatchdog (crew : Nat) (collId : BitVec 32) (t : Nat) (s : State) : Host.Outcome State Fault Refusal :=
  let s := s.advance t
  match (s.crew crew).coll collId with
  | some k =>
    if s.watched crew && s.elapsed k.since (s.fld F.GLB_WDOG_B_coll_ms []) then
      let s := (s.abortColls crew fun id => decide (id = collId)).crewFault crew 6 0x0604 collId.toNat
      .next (s.stopCrew crew { bStop := s.nextStroke, hold := true, cause := 1 })
    else .next s
  | none => .next s

/-- SLIP_WATCHDOG (R294): the current entry of an ELASTIC crew has slipped slip_limit strokes. -/
def execSlipWatchdog (crew : Nat) (s : State) : Host.Outcome State Fault Refusal :=
  let limit := s.fld F.GLB_WDOG_B_slip_limit []
  if s.watched crew && !s.timed crew && decide (limit ≠ 0) && decide (limit ≤ s.fld F.STK_CREW_slip_run [crew]) then
    .next (s.crewFault crew 6 0x0606 (s.fld F.STK_CREW_slip_run [crew]))
  else .next s

end Sys2Proof.Machine
end

