-- ==== Sys2Proof/Machine/View.lean ====
section
/-!
DEFINITION. What a read of a BAR0 offset gives (16 R382; 00 R6): the stored registers, and those that State keeps
elsewhere. Used for logbook snapshots, latched reads and the personality.
-/
namespace Sys2Proof.Machine

/-- A watch result record (10 R254). -/
def Slot.record (x : Slot) : Bytes :=
  if !x.valid then List.replicate 256 0
  else
    let r := x.result
    let sum := ofInt r.sum (-149) false
    let hi := fFP64.round sum
    let sq := ofInt (Int.ofNat r.sumsq) (-298) false
    let qhi := fFP64.round sq
    natLe 8 r.digest ++ natLe 8 r.elements ++ natLe 8 r.tiles ++ natLe 8 r.zeros ++ natLe 8 r.nans ++ natLe 8 r.infs
      ++ natLe 4 r.mn.toNat ++ natLe 4 r.mx.toNat ++ natLe 8 (fFP64.rne sum) ++ natLe 8 (fFP64.rne (sum.add hi.neg))
      ++ natLe 8 (fFP64.rne sq) ++ natLe 8 (fFP64.rne (sq.add qhi.neg)) ++ natLe 40 (fromSigned 320 r.sum) ++ natLe 80 r.sumsq
      ++ natLe 8 r.poisoned ++ natLe 8 x.closeStroke ++ natLe 4 x.closeSeq
      ++ [BitVec.ofNat 8 ((if r.overflow then 1 else 0) + 2)] ++ List.replicate 27 0

/-- The slot that WCH_SEL selects. -/
def State.selSlot (s : State) : Slot := (s.crew (s.fld F.WCH_SEL_crew [])).slot (s.fld F.WCH_SEL_slot [])

/-- One half of a 64-bit value. -/
def half (hi : Bool) (x : Nat) : Word := BitVec.ofNat 32 (if hi then x / 2 ^ 32 else x)

/-- The queue registers of the queue that SEQ_QSEL selects (03 R72, R73), by offset from SEQ_QCFG. -/
def Queue.readReg (k : Queue) (off : Nat) : Word :=
  let flag := fun (b : Bool) (p : Nat) => if b then 2 ^ p else 0
  if off = 0x404 then
    BitVec.ofNat 32 (flag k.enable 31 + flag k.ringInHbm 30 + flag k.cplInHbm 29 + k.log2 * 2 ^ 25 + k.rsv * 2 ^ 12 + k.context)
  else if off = 0x408 then k.ringLo
  else if off = 0x40C then k.ringHi
  else if off = 0x410 then k.cplLo
  else if off = 0x414 then k.cplHi
  else if off = 0x418 then k.expected
  else BitVec.ofNat 32 (flag k.stopped 31 + k.error * 2 ^ 28 + k.head)

/-- Low halves of the counters that State.pmc holds by the address of their low register (15 R370, R372). -/
def counterLows : List Nat :=
  [R.PMC_CNT_LO_CORE.base, R.PMC_CNT_LO_IOD.base, R.CST_BYTES_RD_LO.base, R.CST_BYTES_WR_LO.base, R.DMA_NOC_TX_LO.base,
   R.DMA_NOC_RX_LO.base, R.GLB_UCIE_TX_LO.base, R.GLB_UCIE_RX_LO.base, R.HBM_BYTES_RD_LO.base, R.HBM_BYTES_WR_LO.base,
   R.HBM_BYTES_PKG_LO.base, R.GRN_BYTES_RD_LO.base, R.GRN_BYTES_WR_LO.base, R.ATM_BYTES_LO.base, R.LNK_BYTES_TX_LO.base,
   R.LNK_BYTES_RX_LO.base, R.PCI_BYTES_TX_LO.base, R.PCI_BYTES_RX_LO.base]

/-- The units that a held WAIT_GE blocks now: of those it names, the ones that have started all their earlier commands (03 R67,
R85). -/
def Core.blockedBy (k : Core) (w : UWait) : List Nat :=
  (iota 0 15).filter fun u => namesUnit w.unit u && ((k.unstarted u).all fun t => decide (w.cmd.tag < t))

/-- Units and header waits blocked on a tally (03 R88). -/
def State.waiters (s : State) (t : Nat) : Nat :=
  s.cores.foldl (fun n p =>
    let open_ := fun (w : Wait) => decide (w.tally = t) && w.begun && !w.sat && !w.expired
    let units := (p.2.waits.filter fun w => decide (w.wait.tally = t)).flatMap p.2.blockedBy
    n + ((p.2.seq.waits.getD []).filter open_).length + units.length) 0

/-- What a link's registers show (08 R208, R211, R212): LNK_CFG.peer in the direct role alone; in LNK_STAT, where a degraded or
downed link that no rig has taken back was retrained with success, x2: DEDUCED (assumption log 31); in LNK_HEALTH the counts of
the window in progress. -/
def State.linkView (s : State) (r : RegDef) (ix : List Nat) : Option Word :=
  let l := 48 * ix.headD 0 + ix.getD 1 0
  let k := s.link l
  let v := s.reg r ix
  if r.base = R.LNK_CFG.base ∧ s.fld F.LNK_CFG_role ix ≠ 3 then some (putBits v 17 0 0)
  else if r.base = R.LNK_STAT.base ∧ (s.linkState l = 0 ∨ s.linkState l = 3) ∧ k.retrained = some true ∧ k.rejoin = false then
    some (putBits v 31 29 2)
  else if r.base = R.LNK_HEALTH.base ∧ k.ucwStart + 53687091 ≤ s.raw then some (putBits v 23 8 0)
  else none

/-- Is a register a status register: has it an RL or W1C field (R387)? -/
def isStatus (r : RegDef) : Bool := r.fields.any fun f => f.acc.isStatus

/-- The value of a register that State keeps elsewhere than in State.regs. -/
def State.special (s : State) (r : RegDef) (ix : List Nat) : Option Word :=
  let b := r.base
  if 0x300 ≤ b ∧ b ≤ 0x30C ∧ s.nf6 = false then some 0
  else if b = R.GLB_NF6_SEQ.base then
    let off := 4 * s.fld F.GLB_NF6_SEL_word []
    match regAt off with
    | some (x, _) => if isStatus x then some (BitVec.ofNat 32 ((Map.getD 0 s.conv.nf6Seq off).toNat * 2 ^ 24 + 1)) else some 0
    | none => some 0
  else if counterLows.elem b then some (half false (Map.getD 0 s.pmc.counts (r.addr ix)))
  else if 4 ≤ b ∧ counterLows.elem (b - 4) = true then some (half true (Map.getD 0 s.pmc.counts (r.addr ix - 4)))
  else if b = R.STK_NUM_LO.base then some (half false s.stk.num)
  else if b = R.STK_NUM_HI.base then some (half true s.stk.num)
  else if b = R.TIM_NOW_FRAC.base then some (half false s.fabric)
  else if b = R.TIM_NOW_LO.base then some (half false s.ns)
  else if b = R.TIM_NOW_HI.base then some (half true s.ns)
  else if b = R.TIM_RAW_LO.base then some (half false s.raw)
  else if b = R.TIM_RAW_HI.base then some (half true s.raw)
  else if b = R.SEQ_ACCNUM_LO.base then some (half false s.nextAccept)
  else if b = R.SEQ_ACCNUM_HI.base then some (half true s.nextAccept)
  else if 0x404 ≤ b ∧ b ≤ 0x41C then some ((s.queue (s.fld F.SEQ_QSEL_queue [])).readReg b)
  else if b = R.TAL_VAL.base then some (s.tally (ix.headD 0)).value
  else if b = R.TAL_INFO.base then
    let t := s.tally (ix.headD 0)
    some (BitVec.ofNat 32 ((if t.allocated then 2 ^ 31 else 0) + (if t.remote then 2 ^ 30 else 0) + t.crew * 2 ^ 26
      + Nat.min (s.waiters (ix.headD 0)) 0xFFFF))
  else if b = R.LNK_CFG.base ∨ b = R.LNK_STAT.base ∨ b = R.LNK_HEALTH.base then s.linkView r ix
  else if b = R.ENG_ACC_DATA.base then some (s.accData (ix.headD 0) (ix.getD 1 0))
  else if b = R.WCH_CTL.base then
    let x := s.selSlot
    some (BitVec.ofNat 32 ((if x.active then 2 ^ 31 else 0) + (if x.stepClose then 2 ^ 30 else 0)
      + (if x.requested || x.merging.isSome then 2 ^ 29 else 0) + bits (s.reg r ix).toNat 27 0))
  else none

/-- A status register's value under the NF6 personality: its RL and W1C fields as latched (16 R387). -/
def State.nf6View (s : State) (r : RegDef) (ix : List Nat) (v : Word) : Word :=
  let m := r.maskOf fun a => a.isStatus
  if s.nf6 then (v &&& ~~~m) ||| (Map.getD 0 s.conv.nf6Latch (r.addr ix) &&& m) else v

/-- Bytes of a window register read as words. -/
def wordOf (b : Bytes) (i : Nat) : Word := BitVec.ofNat 32 (field b (4 * i) 4)

/-- What a read of an aligned BAR0 word gives: write-only fields read 0, a register whose parity has failed reads ones
(16 R389), an offset that no register occupies reads 0. -/
def State.readReg (s : State) (off : Nat) : Word :=
  if s.strayAt off then 0xFFFFFFFF
  else if s.conv.badPar.elem off || (s.conv.failed.any fun p => decide (p.1 = off)) then 0xFFFFFFFF
  else if 0xD00 ≤ off ∧ off < 0xE00 then wordOf s.selSlot.record ((off - 0xD00) / 4)
  else if 0x03800100 ≤ off ∧ off < 0x038001A0 then wordOf s.cox.logWin ((off - 0x03800100) / 4)
  else if 0x03801100 ≤ off ∧ off < 0x03801140 then wordOf s.cox.jnlWin ((off - 0x03801100) / 4)
  else
    match regAt off with
    | none => 0
    | some (r, ix) =>
      let v := (s.special r ix).getD (s.reg r ix)
      s.nf6View r ix (v &&& ~~~ r.maskOf fun a => match a with | .wo | .wseq => true | _ => false)

end Sys2Proof.Machine
end

