-- ==== Sys2Proof/Machine/Log.lean ====
section
/-!
DEFINITION. The logbook and its snapshots, the flushes into the NV store, and the windows of logbook and journal (14 R350
to R361).
-/
namespace Sys2Proof.Machine

/-! ### Records (R350 to R352) -/

/-- Records of the logbook buffer: 1,024 KiB of 160 B (R335). -/
def logSize : Nat := 6553

/-- The 160 bytes of a logbook record (R351). -/
def LogRec.bytes (r : LogRec) : Bytes :=
  let flags := (if r.flushed then 1 else 0) + (if r.full then 2 else 0) + (if r.lost then 4 else 0)
  let head := natLe 4 0x4E464C47 ++ natLe 4 r.seq ++ natLe 1 r.cls ++ natLe 1 flags ++ natLe 2 r.rep
  let tail := natLe 8 r.first ++ natLe 8 r.last ++ fit 64 r.body ++ fit 64 (r.snapshot.flatMap fun w => natLe 4 w.toNat)
  head ++ natLe 4 (crc32 (head ++ tail)).toNat ++ tail

/-- The default snapshot list of a class (table Trigger classes), for a body and a link; 0 is an unused entry. -/
def defaultSnap (cls : Nat) (body : Bytes) (loc : Nat) : List Nat :=
  let b := fun (i : Nat) => (body.getD i 0).toNat
  match cls with
  | 1 =>
    [R.GLB_HEALTH.base, R.STK_NUM_LO.base, R.STK_NUM_HI.base, R.TIM_STAT.base] ++
      (if 128 ≤ b 7 then [R.GLB_RCV.addr [b 7 % 16], R.CHK_FREE.addr [b 7 % 16]] else [])
  | 2 => [R.LNK_STAT.addr (lnk48 loc), R.LNK_HEALTH.addr (lnk48 loc), R.LNK_CREDIT.addr (lnk48 loc)]
  | 3 => [R.TIM_STAT.base, R.TIM_THETA.base, R.TIM_DELAY.base, R.TIM_RATE.base]
  | 4 => [R.UMP_STAT.addr [b 1], R.ENG_SCHK.addr [b 1], R.GLB_REMAP_HI.addr [b 1 / 9]]
  | 5 => [R.CHK_STAT.addr [b 0], R.CHK_FREE.addr [b 0]]
  | 6 => [R.COX_STAT.base, R.COX_CLAIM.base] ++ (iota 0 6).map fun g => R.COX_HOLD.addr [g]
  | 7 => [R.COX_STAT.base, R.NVS_STAT.base]
  | 8 => [R.NVS_STAT.base, R.NVS_WEAR.base]
  | 9 => [R.COX_STAT.base]
  | 10 => [R.COX_STAT.base, R.NVS_STAT.base]
  | _ => []

/-- The snapshot of a class: its list of the system area, else the default; 16 values (R350). -/
def State.snapshotOf (s : State) (cls : Nat) (body : Bytes) (loc : Nat) : List Word :=
  let l := (Map.find cls s.nv.snapLists).getD (defaultSnap cls body loc)
  ((l ++ List.replicate 16 0).take 16).map fun o => if o = 0 then 0 else s.readReg o

/-- The bytes in which two bodies must agree to be a repeat: a fault record but for time, stroke, accept, context, queue,
logbook_seq and crc (R352). -/
def repeatKey (cls : Nat) (body : Bytes) : Bytes :=
  let b := fit 64 body
  if cls = 1 ∨ cls = 6 ∨ cls = 7 then b.take 8 ++ (b.drop 40).take 20 else b

/-- Does a trigger repeat the most recent record (R352)? -/
def State.isRepeat (s : State) (cls : Nat) (body : Bytes) : Bool :=
  let sev := (body.getD 2 0).toNat % 4
  match s.cox.log.getLast? with
  | some r => (decide (cls ≠ 1) || decide (sev = 0)) && decide (r.cls = cls) && decide (repeatKey cls r.body = repeatKey cls body)
      && !r.full
  | none => false

/-- Every logbook record in the NV store, in write order. -/
def State.nvLog (s : State) : List LogRec := (s.nv.sectors.filter fun x => !x.journal && !x.torn).flatMap fun x => x.recs

/-- The record of a number: in the buffer, else the newest in NV (R354). -/
def State.findLog (s : State) (seq : Nat) : Option LogRec :=
  match s.cox.log.find? fun r => decide (r.seq = seq) with
  | some r => some r
  | none => s.nvLog.reverse.find? fun r => decide (r.seq = seq)

/-- Show the logbook in LOG_CTL, LOG_OLDEST and LOG_NEWEST. -/
def State.showLog (s : State) : State :=
  let n := (s.cox.log.filter fun r => !r.flushed).length
  let s := s.setFld F.LOG_CTL_unflushed [] (Nat.min n 0xFFFF)
  let s := match s.cox.log.head?, s.cox.log.getLast? with
    | some a, some b =>
      let old := s.nvLog.foldl (fun m (r : LogRec) => Nat.min m r.seq) a.seq
      (s.setReg R.LOG_OLDEST [] (BitVec.ofNat 32 old)).setReg R.LOG_NEWEST [] (BitVec.ofNat 32 b.seq)
    | _, _ => s
  s.liveBit F.LOG_CTL_gone [] (s.findLog (s.reg R.LOG_CURSOR []).toNat).isNone

/-- Leave out the oldest record that is not being programmed (R353). -/
def State.dropOldest (s : State) : State :=
  let busy := s.cox.programs.flatMap fun p => p.sector.recs.map fun r => r.seq
  let idle := fun (r : LogRec) => !busy.elem r.seq
  match s.cox.log.find? idle with
  | some r =>
    let s := s.setCox { s.cox with
      log := s.cox.log.filter fun x => decide (x.seq ≠ r.seq)
      lostNext := s.cox.lostNext || !r.flushed }
    if r.flushed then s else s.raiseBit F.LOG_CTL_lost_hist []
  | none => s

/-- Enter a trigger in the logbook (R350, R352): answers whether it was merged, the number of the record that holds it, and
the machine. `body` makes the body from the number. -/
def State.logEntry (s : State) (cls loc : Nat) (body : Nat → Bytes) : Bool × Nat × State :=
  let b0 := body s.cox.logSeq
  if s.isRepeat cls b0 then
    let bumped := fun (r : LogRec) => { r with rep := r.rep + 1, full := decide (r.rep + 1 = 65535), last := s.ns }
    let n := s.cox.log.length - 1
    let seq := ((s.cox.log.getLast?).map fun r => r.seq).getD 0
    (true, seq, (s.setCox { s.cox with log := modifyAt bumped n s.cox.log }).showLog)
  else
    let seq := s.cox.logSeq
    let s := if logSize ≤ s.cox.log.length then s.dropOldest else s
    let r : LogRec := {
      seq := seq
      cls := cls
      lost := s.cox.lostNext
      first := s.ns
      last := s.ns
      body := fit 64 b0
      snapshot := s.snapshotOf cls b0 loc }
    (false, seq, (s.setCox { s.cox with log := s.cox.log ++ [r], logSeq := seq + 1, lostNext := false }).showLog)

/-- LOGBOOK_RECORD (R350): the oldest trigger that waits takes its record. -/
def execLogbookRecord (s : State) : Host.Outcome State Fault Refusal :=
  match s.cox.triggers with
  | t :: rest => .next ((s.setCox { s.cox with triggers := rest }).logEntry t.cls t.loc fun _ => t.body).2.2
  | [] => .next s

/-! ### Flushes (R353, R359 to R362) -/

/-- Cut a list into runs of n, the last one shorter; `fuel` bounds the runs. -/
def chunks {α : Type} (n : Nat) : Nat → List α → List (List α)
  | 0, _ => []
  | fuel + 1, l => if l.isEmpty then [] else l.take n :: chunks n fuel (l.drop n)

/-- Records that no flush has taken yet. -/
def State.unflushed (s : State) : List LogRec :=
  let busy := s.cox.programs.flatMap fun p => p.sector.recs.map fun r => r.seq
  s.cox.log.filter fun r => !r.flushed && !busy.elem r.seq

/-- The last n entries of the journal. -/
def State.lastJournal (s : State) (n : Nat) : List JnlEntry := s.cox.jnl.drop (s.cox.jnl.length - n)

/-- Give sectors to the programming of the NV store; read-only areas take none (R361). -/
def State.program (s : State) (powerFail : Bool) (recs : List (List LogRec)) (jnl : List (List JnlEntry)) : State :=
  if s.nv.ro then s
  else
    let mk := fun (i : Nat) (j : Bool) (l : List LogRec) (e : List JnlEntry) =>
      ({ sector := { journal := j, order := s.nv.order + i, recs := l, entries := e }, powerFail := powerFail } : Program)
    let a := recs.zipIdx.map fun p => mk p.2 false p.1 []
    let b := jnl.zipIdx.map fun p => mk (recs.length + p.2) true [] p.1
    let s := s
      |>.setNv { s.nv with order := s.nv.order + recs.length + jnl.length }
      |>.setCox { s.cox with programs := s.cox.programs ++ a ++ b }
    s.liveBit F.COX_STAT_flushing [] (!s.cox.programs.isEmpty)

/-- LOGBOOK_FLUSH (R353; 14 R345): a fault of Domain or Package severity, or the flush control, writes every unflushed
record, the last sector padded, and the last 1,008 journal entries; the background threshold writes whole sectors, or one
padded sector where there is no whole one. -/
def execLogbookFlush (s : State) : Host.Outcome State Fault Refusal :=
  let l := s.unflushed
  if s.cox.flush then
    let s := s.setCox { s.cox with flush := false }
    let j := s.lastJournal 1008
    .next (s.program false (chunks 25 l.length l) (chunks 63 j.length j))
  else if s.cox.threshold ≤ l.length ∧ l ≠ [] then
    let whole := l.length / 25 * 25
    let l := if whole = 0 then l else l.take whole
    .next (s.program false (chunks 25 l.length l) [])
  else .next s

/-- Show the NV store in NVS_STAT and NVS_WEAR. -/
def State.showNv (s : State) : State :=
  let s := s.liveBit F.NVS_STAT_ro [] s.nv.ro
  let s := (s.setFld F.NVS_STAT_spares_left [] s.nv.spares).setFld F.NVS_STAT_retries [] (Nat.min s.nv.retries 0xFFFF)
  let most := ceilDiv s.nv.programs 11264
  (s.setFld F.NVS_WEAR_wear_pct [] (Nat.min (most * 100 / 100000) 255)).setFld F.NVS_WEAR_retired [] s.nv.retired

/-- Put a programmed sector into its area: 10,240 sectors of logbook, 1,024 of journal, the oldest reused first (R358,
R360). -/
def addSector (x : Sector) (l : List Sector) : List Sector :=
  let same := l.filter fun y => decide (y.journal = x.journal)
  let room := if x.journal then 1024 else 10240
  if same.length < room then l ++ [x]
  else
    match same with
    | o :: _ => (l.filter fun y => decide (y.journal ≠ o.journal) || decide (y.order ≠ o.order)) ++ [x]
    | [] => l ++ [x]

/-- A logbook trigger of class NVS: sector (by its write sequence) and attempts (R350). -/
def State.nvsTrigger (s : State) (x : Sector) (attempts : Nat) : State :=
  s.trigger { cls := 8, body := natLe 8 x.order ++ natLe 4 attempts }

/-- Flushing ends when no sector waits. -/
def State.flushShown (s : State) : State := s.liveBit F.COX_STAT_flushing [] (!s.cox.programs.isEmpty)

/-- SECTOR_PROGRAM (R361): the oldest sector being programmed finishes its verify: it holds, it is retried once in the same
sector, or the sector is retired and its data goes to a spare; with no spare left the areas become read-only. -/
def execSectorProgram (verifies : Bool) (s : State) : Host.Outcome State Fault Refusal :=
  match s.cox.programs with
  | [] => .next s
  | p :: rest =>
    if s.nv.ro then .next (s.setCox { s.cox with programs := [] }).flushShown
    else
      let s := s.setNv { s.nv with programs := s.nv.programs + 1 }
      if verifies then
        let held := p.sector.recs.map fun r => r.seq
        let mark := fun (r : LogRec) => if held.elem r.seq then { r with flushed := true } else r
        let sec : Sector := { p.sector with recs := p.sector.recs.map fun r => { r with flushed := true } }
        let s := s
          |>.setNv { s.nv with sectors := addSector sec s.nv.sectors }
          |>.setCox { s.cox with programs := rest, log := s.cox.log.map mark }
        .next (s.flushShown.showLog.showNv)
      else if p.attempts = 0 then
        let again : Program := { p with attempts := 1 }
        .next ((s.setNv { s.nv with retries := s.nv.retries + 1 }).setCox { s.cox with programs := again :: rest }).showNv
      else
        let s := s.setNv { s.nv with retired := s.nv.retired + 1 }
        let s := s.nvsTrigger p.sector 2
        if s.nv.spares = 0 then
          let s := (s.setNv { s.nv with ro := true }).setCox { s.cox with programs := [] }
          .next (((s.nvsTrigger p.sector 2).send .pldmReadOnly).flushShown.showNv)
        else
          let spare : Program := { p with attempts := 0 }
          .next ((s.setNv { s.nv with spares := s.nv.spares - 1 }).setCox { s.cox with programs := spare :: rest }).showNv

/-! ### Windows (R354, R357) -/

/-- LOG_WIN_READ (R354): the first word latches the record that the cursor names; the last one advances the cursor. -/
def execLogWinRead (word : Nat) (s : State) : Host.Outcome State Fault Refusal :=
  if 40 ≤ word then .next s
  else
    let cursor := (s.reg R.LOG_CURSOR []).toNat
    let s := if word = 0 then
        s.setCox { s.cox with logWin := match s.findLog cursor with | some r => r.bytes | none => List.replicate 160 0 }
      else s
    let w := wordOf s.cox.logWin word
    let s := if word = 39 ∧ s.isSet F.LOG_CTL_auto_inc [] = true then s.setReg R.LOG_CURSOR [] (BitVec.ofNat 32 (cursor + 1)) else s
    .next (s.showLog.giveWord w)

/-- The entry of a number in the NV journal area, the newest. -/
def State.nvJnl (s : State) (num : Nat) : Option JnlEntry :=
  ((s.nv.sectors.filter fun x => x.journal && !x.torn).flatMap fun x => x.entries).reverse.find? fun j => decide (j.num = num)

/-- Is a number in the ring in HBM, and is HBM up? -/
def State.inRing (s : State) (num : Nat) : Bool :=
  decide (num < s.cox.mirrored) && decide (s.cox.mirrored ≤ num + 65536) && s.extentUp (s.jnlRing + num % 65536 * 64) 64

/-- Is a journal entry held in staging, in the ring or in NV (R357)? -/
def State.heldJnl (s : State) (num : Nat) : Bool :=
  (s.cox.jnl.any fun j => decide (j.num = num)) || s.inRing num || (s.nvJnl num).isSome

/-- The bytes of a journal entry: from staging, the ring or NV (R357). -/
def State.findJnl (s : State) (num : Nat) : Option Bytes × State :=
  match s.cox.jnl.find? fun j => decide (j.num = num) with
  | some j => (some j.bytes, s)
  | none =>
    if s.inRing num then
      let (b, s) := s.hbmBytes (s.jnlRing + num % 65536 * 64) 64
      (some (plain b), s)
    else ((s.nvJnl num).map fun j => j.bytes, s)

/-- Show whether the journal cursor names a held entry. -/
def State.showJnlGone (s : State) : State :=
  s.liveBit F.JNL_STAT_gone [] (!s.heldJnl (s.pair R.JNL_CURSOR_LO R.JNL_CURSOR_HI []))

/-- JNL_WIN_READ (R357). -/
def execJnlWinRead (word : Nat) (s : State) : Host.Outcome State Fault Refusal :=
  if 16 ≤ word then .next s
  else
    let cursor := s.pair R.JNL_CURSOR_LO R.JNL_CURSOR_HI []
    let s := if word = 0 then
        let (b, s) := s.findJnl cursor
        s.setCox { s.cox with jnlWin := b.getD (List.replicate 64 0) }
      else s
    let w := wordOf s.cox.jnlWin word
    let s := if word = 15 ∧ s.isSet F.JNL_STAT_auto_inc [] = true then s.setPair R.JNL_CURSOR_LO R.JNL_CURSOR_HI [] (cursor + 1) else s
    .next (s.showJnlGone.giveWord w)

/-- JOURNAL_MIRROR (R356; 02 R59): in a recovery, on the logbook and journal client's turn, the oldest entry not yet in the ring
is written there. -/
def execJournalMirror (s : State) : Host.Outcome State Fault Refusal :=
  match s.jnlNext with
  | some j =>
    let a := s.jnlRing + j.num % 65536 * 64
    if s.turn (stackOf a) .log then
      let s := (s.charge (stackOf a) .log).hbmPut a (clean j.bytes)
      .next (s.setCox { s.cox with mirrored := j.num + 1 }).showJnl
    else .next s
  | none => .next s

end Sys2Proof.Machine
end

