-- ==== Sys2Proof/Machine/Faults.lean ====
section
/-!
DEFINITION. Fault records and their delivery, consumed poison, spare switch-ins and drains (11 R268, R272 to R284, R414; 12
R303, R305).
-/
namespace Sys2Proof.Machine

/-! ### The fault record and its CPER form (R272, R276, R277) -/

/-- The 64 bytes of a fault record (R272). -/
def Fault0.bytes (f : Fault0) (seq : Nat) (lost : Bool) : Bytes :=
  let flag := fun (b : Bool) (p : Nat) => if b then 2 ^ p else 0
  let flags := f.sev + 4 * f.space + flag f.unlocked 5 + flag lost 6 + flag f.degrade 7
  withCrc32 (natLe 1 1 ++ natLe 1 f.cls ++ natLe 1 flags ++ natLe 1 f.die ++ natLe 1 f.core ++ natLe 1 f.site ++ natLe 1 f.unit
    ++ natLe 1 (match f.crew with | some n => 128 + n | none => 0) ++ natLe 8 f.time ++ natLe 8 f.stroke
    ++ natLe 8 (f.accept.getD (2 ^ 64 - 1)) ++ natLe 2 (match f.ctx with | some c => 32768 + c | none => 0) ++ natLe 2 f.queue
    ++ natLe 4 seq ++ natLe 8 f.addr ++ natLe 4 f.syndrome ++ natLe 2 f.loc ++ natLe 2 f.event ++ natLe 4 f.detail)

/-- The vendor section's GUID, as stored. -/
def vendorGuid : Bytes :=
  [0xD1, 0x47, 0x2E, 0x9B, 0x58, 0x3C, 0x06, 0x4A, 0xB7, 0xF9, 0x0D, 0x41, 0xE6, 0xA2, 0xC3, 0x85]

/-- GUID of the Platform Memory Error Section. PRESUMED (UEFI 2.10, assumption log 18). -/
def memoryGuid : Bytes :=
  [0x14, 0x11, 0xBC, 0xA5, 0x64, 0x6F, 0xDE, 0x4E, 0xB8, 0x63, 0x3E, 0x83, 0xED, 0x7C, 0x83, 0xB1]

/-- GUID of the CMC notification type. PRESUMED (UEFI 2.10, assumption log 18). -/
def cmcGuid : Bytes :=
  [0xB1, 0x8B, 0xCE, 0x2D, 0xD7, 0xBD, 0x0E, 0x45, 0xB9, 0xAD, 0x9C, 0xF4, 0xEB, 0xD4, 0xF8, 0x90]

/-- GUID of the MCE notification type. PRESUMED (UEFI 2.10, assumption log 18). -/
def mceGuid : Bytes :=
  [0xFE, 0x6F, 0xF5, 0xE8, 0x9C, 0x91, 0xC5, 0x4C, 0xBA, 0x88, 0x65, 0xAB, 0xE1, 0x49, 0x13, 0xBB]

/-- NIMFOLD NF8 in a field of 20 bytes. -/
def fruText : Bytes :=
  fit 20 [0x4E, 0x49, 0x4D, 0x46, 0x4F, 0x4C, 0x44, 0x20, 0x4E, 0x46, 0x38]

/-- CPER severity (table CPER header values). -/
def Fault0.cperSev (f : Fault0) : Nat := if f.sev = 0 then (if f.cls = 1 then 2 else 3) else if f.sev = 3 then 1 else 0

/-- Has the record a Platform Memory Error Section (R276)? -/
def Fault0.isMemory (f : Fault0) : Bool := decide (f.event = 0x0102) || decide (f.event = 0x0202)

/-- A section descriptor: offset, length, type (R276; validation marks the FRU text). -/
def sectionDesc (off len sev : Nat) (guid : Bytes) : Bytes :=
  natLe 4 off ++ natLe 4 len ++ natLe 2 Config.cperSecRev ++ natLe 1 2 ++ natLe 1 0 ++ natLe 4 0 ++ guid ++ natLe 16 0
    ++ natLe 4 sev ++ fruText

/-- The Platform Memory Error Section, 80 B (R276). -/
def Fault0.memorySection (f : Fault0) (package : Nat) : Bytes :=
  let a := f.phys
  natLe 8 0xC37F ++ natLe 8 0 ++ natLe 8 a ++ natLe 8 0x7FFFFFFFE0 ++ natLe 2 package ++ natLe 2 (stackOf a)
    ++ natLe 2 (pcOf a % 64) ++ natLe 2 (bgOf a * 4 + bankInGroup a) ++ natLe 2 0 ++ natLe 2 (rowOf a)
    ++ natLe 2 (colOf a * 8 + a / 32 % 8) ++ natLe 2 0 ++ natLe 24 0 ++ natLe 1 (if f.cls = 1 then 4 else 5) ++ natLe 1 0
    ++ natLe 2 (sidOf a) ++ natLe 4 0

/-- The vendor section, 128 B (R277), around the bytes of a record. -/
def State.vendorSection (s : State) (f : Fault0) (rec : Bytes) : Bytes :=
  let row := f.site / 16
  let named := decide (f.site ≠ 0xFF)
  rec ++ natLe 2 1 ++ natLe 2 (s.fld F.GLB_ID_part []) ++ natLe 1 (s.fld F.GLB_ID_step []) ++ natLe 1 (s.fld F.GLB_ID_mem_code [])
    ++ natLe 2 0 ++ natLe 4 (s.fld F.LNK_SELF_package []) ++ natLe 4 (s.reg R.RIG_ID []).toNat
    ++ natLe 4 (if named then (s.reg R.GLB_REMAP_LO [row]).toNat else 0)
    ++ natLe 4 (if named then (s.reg R.GLB_REMAP_HI [row]).toNat else 0)
    ++ natLe 8 f.raw ++ natLe 4 f.timStat.toNat ++ natLe 4 (s.reg R.GLB_HEALTH []).toNat ++ natLe 24 0

/-- The CPER record of a fault record: 480 or 328 B (R276). -/
def State.cperRecord (s : State) (f : Fault0) (seq : Nat) (rec : Bytes) : Bytes :=
  let package := s.fld F.LNK_SELF_package []
  let mem := f.isMemory
  let header := natLe 4 0x52455043 ++ natLe 2 Config.cperRev ++ natLe 4 0xFFFFFFFF ++ natLe 2 (if mem then 2 else 1)
    ++ natLe 4 f.cperSev ++ natLe 4 0 ++ natLe 4 (if mem then 480 else 328) ++ natLe 8 0 ++ natLe 16 0 ++ natLe 16 0 ++ vendorGuid
    ++ (if f.sev = 0 then cmcGuid else mceGuid) ++ natLe 8 (package * 2 ^ 46 + seq) ++ natLe 4 0 ++ natLe 8 0 ++ natLe 12 0
  if mem then
    header ++ sectionDesc 272 80 f.cperSev memoryGuid ++ sectionDesc 352 128 f.cperSev vendorGuid ++ f.memorySection package
      ++ s.vendorSection f rec
  else header ++ sectionDesc 200 128 f.cperSev vendorGuid ++ s.vendorSection f rec

/-! ### Delivery (R275; 12 R305) -/

/-- Slots of the host fault ring. -/
def State.ringSlots (s : State) : Nat := 2 ^ s.fld F.GLB_FLT_CTL_log2_entries []

/-- Would the ring take a record now, after those that wait for PCIe? -/
def State.ringTakes (s : State) : Bool :=
  s.isSet F.GLB_FLT_CTL_enable [] &&
    decide ((s.fld F.GLB_FLT_TAIL_tail [] + s.flt.ringWait.length + 2 ^ 16 - s.fld F.GLB_FLT_HEAD_head []) % 2 ^ 16 < s.ringSlots)

/-- The bytes of a slot of the ring: a fault record, or a CPER record padded. -/
def State.slotSize (s : State) : Nat := if s.isSet F.GLB_FLT_CTL_cper [] then 512 else 64

/-- The address of the slot at the tail. -/
def State.ringSlot (s : State) : Nat :=
  (s.reg R.GLB_FLT_BASE_LO []).toNat / 512 * 512 + 2 ^ 32 * (s.reg R.GLB_FLT_BASE_HI []).toNat
    + s.fld F.GLB_FLT_TAIL_tail [] % s.ringSlots * s.slotSize

/-- May the slot be written: in HBM while its stack serves accesses (01 R29), in host memory while PCIe runs (17 R409)? -/
def State.ringOpen (s : State) : Bool :=
  if s.isSet F.GLB_FLT_CTL_in_hbm [] then s.extentUp s.ringSlot s.slotSize else !s.pow.perst

/-- Write a slot of the host fault ring and send its MSI-X vector (R275). -/
def State.ringPut (s : State) (b : Bytes) : State :=
  let a := s.ringSlot
  let tail := s.fld F.GLB_FLT_TAIL_tail []
  let s := if s.isSet F.GLB_FLT_CTL_in_hbm [] then (if s.populated a b.length then s.hbmPut a (clean b) else s) else s.hostWrite a (clean b)
  (s.setFld F.GLB_FLT_TAIL_tail [] (tail + 1)).send (.msix (s.fld F.GLB_FLT_CTL_vector []))

/-- Write a record into the ring, or let it wait behind those that do (17 R409). -/
def State.ringDeliver (s : State) (b : Bytes) : State :=
  if s.ringOpen && s.flt.ringWait.isEmpty then s.ringPut b else s.setFlt { s.flt with ringWait := s.flt.ringWait ++ [b] }

/-- Deliver the records that waited for PCIe or for their stack (17 R409; 01 R29). -/
def State.ringFlush (s : State) : State :=
  if s.isSet F.GLB_FLT_CTL_enable [] then (s.setFlt { s.flt with ringWait := [] }).each s.flt.ringWait State.ringDeliver else s

/-- Put a record into the host ring, or count it as lost (R275). -/
def State.ringRecord (s : State) (rec cper : Bytes) : State :=
  if !s.isSet F.GLB_FLT_CTL_enable [] then s
  else if s.ringTakes then
    let b := if s.isSet F.GLB_FLT_CTL_cper [] then fit 512 cper else rec
    (s.setFlt { s.flt with lostNext := false }).ringFlush.ringDeliver b
  else
    let lost := satAdd (s.reg R.GLB_FLT_LOST []).toNat 1 0xFFFFFFFF
    (s.setReg R.GLB_FLT_LOST [] (BitVec.ofNat 32 lost)).setFlt { s.flt with lostNext := true }

/-- Is a management core active (14 R336)? -/
def State.coxActive (s : State) : Bool := decide (s.fld F.COX_STAT_state [] = 1)

/-- Send a CPER record over management Ethernet; without an active core it waits in the queue of 512 (14 R335, R342). -/
def State.sendCper (s : State) (b : Bytes) : State :=
  if s.coxActive then s.send (.cper b)
  else if s.cox.cper.length < 512 then s.setCox { s.cox with cper := s.cox.cper ++ [fit 512 b] }
  else s

/-- Is a record reported in band: Domain or Package on a crew with a job tag, LINK-DOWN, or headless (12 R305; 14 R341)? -/
def State.inBand (s : State) (f : Fault0) : Bool :=
  let tagged := match f.crew with | some n => decide (s.fld F.LNK_CREW_job_tag [n] ≠ 0) | none => false
  s.isSet F.GLB_FMGR_fm_valid [] && ((decide (2 ≤ f.sev) && tagged) || decide (f.cls = 8) || decide (f.event = 0x0C04))

/-! ### Automatic resets (12 R303) -/

/-- Ask for a reset of the package or the chip: its dump first, but not with the rails off (12 R299, R301). -/
def State.askReset (s : State) (d : Dom) : State :=
  let s := if s.pow.tripped ∧ d = .package then s else s.askDump d (if d = .package then 7 else 6)
  s.setFlt { s.flt with resets := s.flt.resets ++ [d] }

/-- The reset a Package fault brings (table Automatic resets); a second automatic chip reset within 2^24 strokes becomes a
package reset. A power-up that has ended (01 R10) is not reset. -/
def State.autoReset (s : State) (f : Fault0) : State :=
  if f.sev ≠ 3 ∨ f.event % 256 = 0xFF ∨ f.cls = 0xA ∨ f.cls = 0xB ∨ s.pow.stuck = true then s
  else if f.event = 0x0311 ∨ f.event = 0x0313 ∨ f.event = 0x0314 then s.askReset .package
  else
    let again := match s.flt.lastChip with | some w => decide (s.stk.num < w + 2 ^ 24) | none => false
    if again then s.askReset .package
    else (s.setFlt { s.flt with lastChip := some s.stk.num }).askReset .chip

/-- The oldest fault raised is numbered, entered in the logbook and delivered; a merged Info fault is not delivered again
(R275; 14 R350, R352, R353). -/
def State.recordFault (s : State) : State :=
  match s.flt.queue with
  | [] => s
  | f :: rest =>
    let s := s.setFlt { s.flt with queue := rest }
    let lost := s.flt.lostNext && s.ringTakes
    let (merged, seq, s) := s.logEntry (if f.cls = 0xC then 6 else if f.cls = 0xA then 7 else 1) 0 fun n => f.bytes n lost
    let s := if 2 ≤ f.sev then (s.setCox { s.cox with flush := true }) else s
    if merged && decide (f.sev = 0) then s
    else
      let rec0 := f.bytes seq lost
      let cper := s.cperRecord f seq rec0
      let s := s.ringRecord rec0 cper
      let s := if 1 ≤ f.sev ∨ s.flt.infoSub = true then s.sendCper cper else s
      let s := if s.inBand f then s.send (.inband (s.fld F.GLB_FMGR_fm_package []) rec0) else s
      s.autoReset f

/-! ### Errors of the silicon (R259, R261, R273, R278) -/

/-- A UE-F fault of a core's logic (R259, R271): Domain, the crew that owns the core. The second within 2^24 strokes of the first
is a hard fault of the core (R278). -/
def State.coreLogicFault (s : State) (c : Nat) (f : Fault0) : State :=
  let f := f.atCore s c
  let s := s.raiseFault (match s.crewOf c with | some n => f.charge n (s.crew n).runningLaunch | none => f)
  match (s.core c).uefWin with
  | some w =>
    if s.stk.num < w + 2 ^ 24 then s.hardFault c 3 else s.modCore c fun k => { k with uefWin := some s.stk.num }
  | none => s.modCore c fun k => { k with uefWin := some s.stk.num }

/-- A UE-F fault of Domain severity outside the cores, with the crew that owns what failed. -/
def State.ownerFault (s : State) (owner : Option Nat) (f : Fault0) : State :=
  s.raiseFault (match owner with | some n => f.charge n (s.crew n).runningLaunch | none => f)

/-- Held data of an atomic unit fails its code (R261): corrected, a CE of the controller; not, its granule is marked poisoned and
the UE is recorded. DEDUCED (assumption log 33). -/
def State.heldError (s : State) (a : Nat) (corrected : Bool) : State :=
  let pa := s.writePa a
  let ix := stk4 (stackOf pa)
  let at_ := fun (f : Fault0) =>
    { f with space := 1, die := dieOfStack (stackOf pa), addr := a / 32 * 32, loc := pcOf pa, phys := pa / 32 * 32 }
  if s.atomHeld pa = false then s
  else if corrected then
    let s := ((s.bump F.HBM_ECC_ce_count ix 1).raiseBit F.HBM_ECC_ce_hist ix).hbmErrAddr pa 1
    s.ceRecord (s.fld F.HBM_ECC_ce_count ix) 0x0102 at_
  else
    let s := ((s.bump F.HBM_ECC_ue_count ix 1).raiseBit F.HBM_ECC_ue_hist ix).hbmErrAddr pa 2
    (s.storeGran pa (natLe 32 (s.granData pa)) true).raiseFault (at_ (s.fault0 2 0 0x0202))

/-- An error of the silicon is found: counted and recorded where it is corrected, else a fault of the class and severity of table
Fault sources (R259, R261, R273, R274). -/
def State.hwError (s : State) : HwError → State
  | .accumulator c e row col => s.coreLogicFault c { s.fault0 3 2 0x0301 with unit := e, loc := e, detail := row * 256 + col }
  | .operand c e row col => s.coreLogicFault c { s.fault0 3 2 0x0302 with unit := e, loc := e, detail := row * 256 + col }
  | .vectorLane c lane => s.coreLogicFault c { s.fault0 3 2 0x0303 with unit := 0xC, detail := lane % 2 ^ 32 }
  | .dmaAddress c adder => s.coreLogicFault c { s.fault0 3 2 0x0304 with unit := 0xD, detail := adder % 2 ^ 32 }
  | .adder n adder =>
    s.ownerFault (if s.crewValid n then some n else none) { s.fault0 3 2 0x0305 with die := 1, detail := adder % 2 ^ 32 }
  | .sequencer c corrected =>
    let q := match s.crewOf c with
      | some n => (((s.crew n).runningLaunch).map fun l => l.queue).getD 0xFFFF
      | none => 0xFFFF
    if corrected then
      let s := s.setFlt { s.flt with ceQueue := s.flt.ceQueue + 1 }
      s.ceRecord s.flt.ceQueue 0x0103 fun f => { f.atCore s c with unit := 0xE }
    else s.coreLogicFault c { s.fault0 3 2 0x0306 with unit := 0xE, detail := q }
  | .queueState q corrected =>
    if corrected then
      let s := s.setFlt { s.flt with ceQueue := s.flt.ceQueue + 1 }
      s.ceRecord s.flt.ceQueue 0x0103 fun f => { f with queue := q }
    else
      let c := s.ctx (s.queue q).context
      s.ownerFault (if c.bound then some c.crew else none) { s.fault0 3 2 0x0306 with queue := q, detail := q }
  | .tallyValue t corrected =>
    if corrected then
      let s := s.setFlt { s.flt with ceTally := s.flt.ceTally + 1 }
      s.ceRecord s.flt.ceTally 0x0103 id
    else
      let x := s.tally t
      s.ownerFault (if x.allocated then some x.crew else none) { s.fault0 3 2 0x0307 with detail := t }
  | .heldGranule a corrected => s.heldError a corrected
  | .sram corrected =>
    if corrected then
      let s := s.setFlt { s.flt with ceSram := s.flt.ceSram + 1 }
      s.ceRecord s.flt.ceSram 0x0104 fun f => { f with die := 3 }
    else s.raiseFault { s.fault0 3 3 0x0314 with die := 3 }
  | .prefetchLine c => s.modCore c fun k => { k with pre := [] }
  | .noc die index => s.raiseFault { s.fault0 3 3 0x0310 with die := die, detail := index % 2 ^ 32 }

/-- FAULT_RECORD (R275): the oldest fault that waits takes its record. -/
def execFaultRecord (s : State) : Host.Outcome State Fault Refusal := .next s.recordFault

/-- Every fault that waits takes its record; `fuel` bounds them. -/
def State.recordAll (s : State) : Nat → State
  | 0 => s
  | fuel + 1 => s.recordFault.recordAll fuel

/-- A write to GLB_FLT_CTL (R275): while enable is 1 the other fields stay; 0 to 1 zeroes tail, head and lost. -/
def State.writeFltCtl (s : State) (v : Word) : State :=
  let old := s.reg R.GLB_FLT_CTL []
  let on := decide (bits v.toNat 31 31 = 1)
  if s.isSet F.GLB_FLT_CTL_enable [] then
    let rwb : Word := R.GLB_FLT_CTL.maskOf fun a => match a with | .rwb => true | _ => false
    s.hostPut R.GLB_FLT_CTL [] ((putBits old 31 31 (if on then 1 else 0) &&& ~~~rwb) ||| (v &&& rwb))
  else
    let n := bits v.toNat 28 25
    let c := bits v.toNat 24 20
    let s := s.hostPut R.GLB_FLT_CTL [] v
    let s := if n < 4 then s.setFld F.GLB_FLT_CTL_log2_entries [] 8 else s
    let s := if 20 < c then s.setFld F.GLB_FLT_CTL_ce_stride [] 10 else s
    if on then
      let s := ((s.setFld F.GLB_FLT_TAIL_tail [] 0).setFld F.GLB_FLT_HEAD_head [] 0).setReg R.GLB_FLT_LOST [] 0
      s.setFlt { s.flt with lostNext := false, ringWait := [] }
    else s

/-- GLB_FLT_CTL_WRITE (R275). -/
def execGlbFltCtlWrite (v : BitVec 32) (s : State) : Host.Outcome State Fault Refusal :=
  .next (s.hostReg R.GLB_FLT_CTL.base v fun s => s.writeFltCtl v)

/-! ### Consumed poison (R266 to R269) -/

/-- Event code of a consumption (tables Irreversible actions and Event codes). -/
def poisonEvent : PoisonKind → Nat
  | .emitCommit => 0x0210
  | .hostWrite => 0x0211
  | .collective => 0x0212
  | .stateWrite => 0x0213
  | .controlWord => 0x0214

/-- Address space of a consumption. -/
def poisonSpace : PoisonKind → Nat
  | .emitCommit => 2
  | .hostWrite => 3
  | .collective => 1
  | .stateWrite => 1
  | .controlWord => 1

/-- POISON_CONSUMED (R268, R269): the running launch of the crew charged faults Contained, and the crew stops at the next
boundary; with none running the record is of Info severity. An error of the silicon that is reported so takes its own course
(R259). -/
def execPoisonConsumed (r : FaultReport) (s : State) : Host.Outcome State Fault Refusal :=
  match r with
  | .poison p =>
    if s.crewValid p.crew then
      let f := { s.fault0 2 1 (poisonEvent p.kind) with
        space := poisonSpace p.kind, addr := p.addr, detail := p.words, degrade := p.degrade, unit := p.unit, crew := some p.crew }
      .next (s.poisonFault p.crew (match p.core with | some c => f.atCore s c | none => f))
    else .next s
  | .error e => .next (s.hwError e)

/-! ### Hard faults, spares and drains (R278 to R283, R414) -/

/-- Is it the instant of the boundary that began this stroke? -/
def State.boundaryNow (s : State) : Bool := s.stk.drive && decide (s.ns = s.stk.bound)

/-- A hard fault leaves the list of those that wait. -/
def State.switchDone (s : State) (core : Nat) : State :=
  s.setFlt { s.flt with switches := s.flt.switches.filter fun p => decide (p.1 ≠ core) }

/-- SPARE_SWITCH_IN (R279, R280): at a boundary the core's logical column moves to the row's spare site; its contents come
from the snapshot. With no spare its crew is not replayed, and a NO_SPARE drain is due. -/
def execSpareSwitchIn (core : Nat) (s : State) : Host.Outcome State Fault Refusal :=
  match Map.find core s.flt.switches with
  | none => .next s
  | some cls =>
    let row := core / 9
    if !s.boundaryNow then .next s
    else
      let s := (s.switchDone core).bump F.GLB_HEALTH_hard_faults [] 1
      if s.isSet F.GLB_REMAP_HI_spare_avail [row] then
        let old := s.physCol row (core % 9)
        let new := s.fld F.GLB_REMAP_HI_spare_col [row]
        let rec0 := { (s.fault0 cls 2 (cls * 256 + 0xFE)).atCore s core with detail := new }
        let rec0 := match s.crewOf core with | some n => rec0.charge n (s.crew n).runningLaunch | none => rec0
        let lo := s.reg R.GLB_REMAP_LO [row]
        let s := if core % 9 = 8 then s.setFld F.GLB_REMAP_HI_col8 [row] new
          else s.setReg R.GLB_REMAP_LO [row] (putBits lo (4 * (core % 9) + 3) (4 * (core % 9)) new)
        let s := (s.setFld F.GLB_REMAP_HI_retired_col [row] old).setFld F.GLB_REMAP_HI_spare_col [row] 0xF
        let s := (s.dropBit F.GLB_REMAP_HI_spare_avail [row]).bump F.GLB_REMAP_HI_switch_count [row] 1
        let s := s.lower F.GLB_HEALTH_spares_left [] 1
        let s := s.modCore core fun _ => {}
        .next ((s.setNv { s.nv with spareMap := s.nv.spareMap ++ [(row, old)] }).setFlt
          { s.flt with queue := s.flt.queue ++ [rec0] })
      else
        let s := match s.flt.pendingDrain with
          | some (true, _) => s
          | _ => s.setFlt { s.flt with pendingDrain := some (false, cls) }
        match s.crewOf core with
        | some n =>
          let s := match (s.crew n).runningLaunch with
            | some l => s.finishLaunch n { l with statuses := 8 :: l.statuses }
            | none => s
          let late := fun (st : Stop) => { st with replay := false }
          if s.rcvState n = 1 ∨ s.rcvState n = 2 then .next (s.modCrew n fun k => { k with stop := k.stop.map late })
          else .next (s.stopCrew n { bStop := s.nextStroke, replay := false })
        | none => .next s

/-- Set the replacement flag of the NV store with its reason (R283). -/
def State.setReplace (s : State) (reason : Nat) : State :=
  let s := s.setNv { s.nv with replace := true, reason := reason }
  (s.setFld F.GLB_HEALTH_replace [] 1).setFld F.GLB_HEALTH_reason [] reason

/-- A drain begins (R281 to R283): the replacement flag and its reason, GLB_HEALTH, and a notice to each crew. -/
def State.startDrain (s : State) (suspect : Bool) (reason cls : Nat) : State :=
  let s := s
    |>.setFlt { s.flt with drain := some { suspect := suspect, since := s.stk.num } }
    |>.setNv { s.nv with replace := true, reason := reason }
  let s := (s.setFld F.GLB_HEALTH_replace [] 1).setFld F.GLB_HEALTH_reason [] reason
  let s := (s.liveBit F.GLB_HEALTH_draining [] (!s.isSet F.GLB_HEALTH_drained [])).liveBit F.GLB_HEALTH_suspect [] suspect
  s.each s.crewList fun s n =>
    s.raiseFault ((s.fault0 cls 3 (cls * 256 + 0xFF)).charge n (s.crew n).runningLaunch)

/-- SUSPECT_DRAIN (R281, R414): every crew that has not stopped at a step boundary stops at the next boundary, is rolled
back and held. It supersedes an orderly drain. -/
def execSuspectDrain (s : State) : Host.Outcome State Fault Refusal :=
  match s.flt.pendingDrain with
  | some (true, _) =>
    let s := s.setFlt { s.flt with pendingDrain := none }
    if (match s.flt.drain with | some d => d.suspect | none => false) then .next s
    else
      let s := s.startDrain true 1 4
      .next (s.each (s.crewList.filter fun n => !(s.crew n).drainStop) fun s n =>
        s.stopCrew n { bStop := s.nextStroke, replay := false })
  | _ => .next s

/-- ORDERLY_DRAIN (R280, R282, R414): a NO_SPARE cause starts a drain, unless one is in force. -/
def execOrderlyDrain (cause : BitVec 8) (s : State) : Host.Outcome State Fault Refusal :=
  if s.flt.pendingDrain = some (false, cause.toNat) then
    let s := s.setFlt { s.flt with pendingDrain := none }
    .next (if s.flt.drain.isSome then s else s.startDrain false 2 cause.toNat)
  else .next s

/-- DRAIN_STEP_LIMIT (R282): a crew that reached no step boundary within 2^20 strokes is stopped and rolled back. -/
def execDrainStepLimit (crew : Nat) (s : State) : Host.Outcome State Fault Refusal :=
  match s.flt.drain with
  | some d =>
    if !d.suspect && decide (d.since + 2 ^ 20 ≤ s.stk.num) && s.crewValid crew && !(s.crew crew).drainStop
        && (decide (s.rcvState crew = 0) || decide (s.rcvState crew = 3)) && (s.crew crew).stop.isNone then
      .next (s.stopCrew crew { bStop := s.nextStroke, replay := false })
    else .next s
  | none => .next s

/-- DRAIN_COMPLETE (R283): every crew has stopped. -/
def execDrainComplete (s : State) : Host.Outcome State Fault Refusal :=
  if s.flt.drain.isSome && !s.isSet F.GLB_HEALTH_drained []
      && s.crewList.all fun n => (s.crew n).drainStop || decide (s.rcvState n = 4) then
    .next ((s.liveBit F.GLB_HEALTH_draining [] false).liveBit F.GLB_HEALTH_drained [] true)
  else .next s

/-- HARD_FAULT_WINDOW_CLOSE (R278; 12 R295): windows of a core that opened 2^24 strokes ago close. -/
def execHardFaultWindowClose (core : Nat) (s : State) : Host.Outcome State Fault Refusal :=
  let past := fun (w : Nat) => decide (w + 2 ^ 24 ≤ s.stk.num)
  .next (s.modCore core fun k => { k with
    ueWin := match k.ueWin with | some (w, n) => if past w then none else some (w, n) | none => none
    uefWin := match k.uefWin with | some w => if past w then none else some w | none => none
    progFault := match k.progFault with | some w => if past w then none else some w | none => none })

end Sys2Proof.Machine
end

