-- ==== Sys2Proof/Machine/Reset.lean ====
section
/-!
DEFINITION. Dumps and resets (12 R299 to R304; 17 R402).
-/
namespace Sys2Proof.Machine

/-! ### What a dump holds (12 R298 to R300) -/

/-- The crew of an engine's or core's domain, or of a crew's. -/
def State.domCrew (s : State) : Dom → Option Nat
  | .engine c _ => s.crewOf c
  | .core c => s.crewOf c
  | .crew n => some n
  | _ => none

/-- The cores that a dump of a domain covers (R299). -/
def State.domCores (s : State) : Dom → List Nat
  | .engine c _ => [c]
  | .core c => [c]
  | .crew n => s.members n
  | _ => iota 0 144

/-- The enabled queues that a dump covers. -/
def State.domQueues (s : State) (d : Dom) : List Nat :=
  let on := (s.queues.filter fun p => p.2.enable).map fun p => p.1
  match d with
  | .engine _ _ => []
  | .core _ => []
  | .crew n => on.filter fun q => decide (s.queueCrew q = n)
  | _ => on

/-- The tallies that a dump covers. -/
def State.domTallies (s : State) (d : Dom) : List Nat :=
  match d with
  | .engine _ _ => []
  | .core _ => []
  | .crew n => (s.tallies.filter fun p => p.2.allocated && decide (p.2.crew = n)).map fun p => p.1
  | _ => iota 0 16384

/-- A queue's entry (table Dump layout). -/
def State.dumpQueue (s : State) (q : Nat) : Bytes :=
  let k := s.queue q
  natLe 2 q ++ natLe 2 k.head ++ natLe 2 k.bell ++ natLe 2 ((k.readReg 0x41C).toNat / 2 ^ 16) ++ natLe 4 k.expected.toNat
    ++ natLe 2 k.context ++ natLe 2 0 ++ natLe 8 k.lastAccept ++ natLe 8 0 ++ fit 64 k.lastCmd

/-- Cores that wait on a tally, ascending. -/
def State.waitingCores (s : State) (t : Nat) : List Nat :=
  let open_ := fun (w : Wait) => decide (w.tally = t) && w.begun && !w.sat && !w.expired
  (s.cores.filter fun p => ((p.2.seq.waits.getD []).any open_) || (p.2.waits.any fun w => open_ w.wait)).map fun p => p.1

/-- A tally's entry. -/
def State.dumpTally (s : State) (t : Nat) : Bytes :=
  natLe 4 (s.tally t).value.toNat ++ natLe 4 (s.readReg (R.TAL_INFO.addr [t])).toNat
    ++ (((s.waitingCores t) ++ List.replicate 8 0xFF).take 8).map (BitVec.ofNat 8)

/-- A unit's entry: units 0 to 11 are engines, 12 the vector engine, 13 the DMA engine. -/
def State.dumpUnit (s : State) (c u : Nat) : Bytes :=
  let k := s.core c
  let e := u < 12
  let status := if u < 12 then s.reg R.ENG_STATUS [c, u] else if u = 12 then s.reg R.VEC_STATUS [c] else s.reg R.DMA_STATUS [c]
  let cmd := (if u < 12 then (s.eng c u).q else if u = 12 then k.vecq else k.dmaq).head?
  natLe 4 status.toNat ++ natLe 4 (if e then (s.reg R.ENG_PROGRESS [c, u]).toNat else 0)
    ++ natLe 8 (if e then s.pair R.ENG_CHAINK_LO R.ENG_CHAINK_HI [c, u] else 0) ++ natLe 4 0
    ++ (match cmd with
      | some q => natLe 4 (ctxOf q.word) ++ natLe 8 q.accept ++ natLe 32 q.word.toNat
      | none => natLe 44 0)

/-- Headers of the entries that run-ahead has passed beyond a condition. -/
def State.passedHeaders (s : State) (c n : Nat) : List CmdWord :=
  let q := (s.core c).seq
  let es := (s.entriesFrom c n q.table q.pos q.table.len).filter fun e => decide (e.1 < q.aheadPos)
  ((es.dropWhile fun e => !hdrCond e.2.1).drop 1).map fun e => e.2.1

/-- A sequencer's entry. -/
def State.dumpSeq (s : State) (c : Nat) : Bytes :=
  let q := (s.core c).seq
  let n := (s.crewOf c).getD 0
  natLe 4 (s.reg R.SEQ_STATUS [c]).toNat ++ natLe 4 0 ++ natLe 8 (q.accept.getD (2 ^ 64 - 1)) ++ natLe 8 q.start
    ++ natLe 4 (q.aheadBy s.stk.num)
    ++ natLe 4 (s.core c).preBytes
    ++ natLe 32 (if q.accept.isSome && !q.ended then ((s.peekWord c n q.table q.pos).map fun w => w.toNat).getD 0 else 0)
    ++ fit 64 ((s.passedHeaders c n).flatMap fun h => natLe 32 h.toNat)

/-- Pad a section to its 64 B boundary. -/
def pad64 (b : Bytes) : Bytes := b ++ List.replicate ((64 - b.length % 64) % 64) 0

/-- The bytes of a dump (R300). -/
def State.dumpBytes (s : State) (d : DumpReq) (seq : Nat) : Bytes :=
  let cores := s.domCores d.dom
  let a := pad64 ((s.domQueues d.dom).flatMap s.dumpQueue)
  let b := pad64 ((s.domTallies d.dom).flatMap s.dumpTally)
  let c := cores.flatMap fun c => (iota 0 14).flatMap (s.dumpUnit c)
  let e := cores.flatMap s.dumpSeq
  let crew := match s.domCrew d.dom with | some n => n | none => 0xFF
  let head := natLe 4 0x4E464450 ++ natLe 4 seq ++ natLe 8 d.stroke ++ natLe 8 d.time ++ natLe 4 d.cause ++ natLe 1 crew ++ natLe 3 0
    ++ natLe 4 (s.domQueues d.dom).length ++ natLe 4 (s.domTallies d.dom).length ++ natLe 4 (14 * cores.length)
    ++ natLe 4 cores.length ++ natLe 4 4096 ++ natLe 4 (4096 + a.length) ++ natLe 4 (4096 + a.length + b.length)
    ++ natLe 4 (4096 + a.length + b.length + c.length)
  fit 4096 head ++ a ++ b ++ c ++ e

/-- The dump area: the rig's, or without a rig the top 16 MiB of the populated space (R298). -/
def State.dumpBase (s : State) : Nat :=
  if s.rig.inForce.isSome then
    s.fld F.GLB_DUMP_BASE_LO_base_lo [] * 2 ^ 24 + s.fld F.GLB_DUMP_BASE_HI_base_hi [] * 2 ^ 32
  else s.hbmTop - 2 ^ 24

/-- Can the dump area not be written (R299)? Its lines lie on every stack and both I/O dies. -/
def State.dumpBlocked (s : State) : Bool :=
  s.inEasy || decide (s.pow.step < 6) || ((iota 0 8).any fun k => s.isSet F.HBM_LOOP_busy (stk4 k))
    || s.flt.ucie.any fun m => decide (m < 80)

/-- Show the status of every unit of a domain, which a dump freezes or lets go. -/
def State.showDom (s : State) (d : Dom) : State :=
  s.each ((s.domCores d).filter fun c => (Map.find c s.cores).isSome) fun s c =>
    (((s.each (iota 0 12) fun s e => s.showEng c e).showVec c).showDma c).showSeq c

/-! ### Resets (12 R301, R302) -/

/-- What a crew reset leaves of a crew: its rig, its page map, the completions that wait. -/
def Crew.afterReset (k : Crew) : Crew :=
  { regions := k.regions
    key := k.key
    pools := k.pools.map fun (p : Pool) => ({ base := p.base, cap := p.cap } : Pool)
    slots := k.slots
    pages := k.pages
    eid := k.eid
    launches := k.launches
    cpls := k.cpls
    aborted := k.aborted }

/-- Accepted tally commands that have not acted complete with ABORTED_RESET. -/
def State.abortTal (s : State) (n : Nat) : State :=
  let late := (s.crew n).talCmds.filterMap fun c => c.cpl
  let s := s.modCrew n fun k => { k with talCmds := [] }
  s.each late fun s c => s.addCpl n { c with status := 9, stroke := s.stk.num }

/-- A crew reset begins (R301): members are reset and their core stores zeroed, tallies zeroed, pools emptied, points
released, accepted launches complete with ABORTED_RESET. -/
def State.beginCrewReset (s : State) (n : Nat) : State :=
  let s := s.each (s.members n) fun s c =>
    (s.resetCore c).modCore c fun k => { k with store := [], words := [], ceWb := [], watch := [] }
  let s := ((s.dropFlits n none).dropHeld n).abortColls n fun _ => true
  let mine := (s.tallies.filter fun p => p.2.allocated && decide (p.2.crew = n)).map fun p => p.1
  let s := s.each mine fun s t => s.modTally t fun x => { x with value := 0 }
  let s := if (s.crew n).ckpt.isSome then s.endCkpt n 0xD else s
  let s := s.setAord (s.aord.filter fun r => decide (r.crew ≠ n))
  let s := (s.modCrew n fun k => { k with points := [], freezePoint := false }).abortTal n
  let s := (s.abortLaunches n 9).modCrew n Crew.afterReset
  let s := ((s.releaseCopies n).showPoints n).showPending n
  let s := (s.dropBit F.GLB_RCV_no_point [n]).setFld F.GLB_RCV_consecutive [n] 0
  (s.setFld F.GLB_RCV_state [n] 5).flushCpls n

/-- Registers of the compute chip and the I/O dies, which a chip reset returns to their reset values: the domains that Easy
stops, the PCI_ registers, the row remap but for its count of switch-ins, and the receivers. -/
def chipReg (off : Nat) : Bool :=
  stoppedReg off || (decide (0x02320000 ≤ off) && decide (off < 0x02330000)) || (decide (0x100040 ≤ off) && decide (off < 0x10004C))

/-- The row remap as before power-up step 8, with the switch-ins counted so far (01 R15). -/
def State.clearRemap (s : State) : State :=
  s.each (iota 0 16) fun s r =>
    let n := s.fld F.GLB_REMAP_HI_switch_count [r]
    ((s.setReg R.GLB_REMAP_LO [r] R.GLB_REMAP_LO.reset).setReg R.GLB_REMAP_HI [r] R.GLB_REMAP_HI.reset).setFld
      F.GLB_REMAP_HI_switch_count [r] n

/-- An abandoned rig load: RIG_STAT as before the load, with a status (16 R397). -/
def State.endLoad (s : State) (status : Nat) : State :=
  let s := s.setRig { s.rig with load := none, staged := none, effect := none }
  let s := (s.setFld F.RIG_STAT_status [] status).setFld F.RIG_STAT_state [] (if s.rig.inForce.isSome then 3 else 0)
  s.liveBit F.RIG_CTL_busy [] false

/-- A load that has not taken effect is abandoned (16 R397). -/
def State.abandonLoad (s : State) : State := if s.rig.load.isSome then s.endLoad 0xC else s

/-- A chip reset begins (R301): power-up goes on at step 5. -/
def State.beginChip (s : State) : State :=
  let zero := fun (p : Nat × Tally) => (p.1, ({ p.2 with value := 0 } : Tally))
  let s := s.abandonLoad.clearRemap
    |>.setCores []
    |>.setLinks []
    |>.setQueues []
    |>.setHostTal []
    |>.setTabSets []
    |>.setAord []
    |>.setAtm []
    |>.setWbq []
    |>.setTallies (s.tallies.map zero)
  let s := s
    |>.setRegs (s.regs.filter fun p => !chipReg p.1)
    |>.setStk { s.stk with rx := [] }
    |>.setPmc { s.pmc with counts := [], clearNext := false, set := none, selNext := [] }
    |>.setConv { s.conv with
      nf6Latch := s.conv.nf6Latch.filter fun p => !chipReg p.1
      latch := s.conv.latch.filter fun p => !chipReg p.1
      badPar := s.conv.badPar.filter fun o => !chipReg o
      failed := s.conv.failed.filter fun p => !chipReg p.1
      heldWrites := s.conv.heldWrites.filter fun p => !chipReg p.1 }
    |>.setFlt { s.flt with ringWait := [], ueSeen := [], ucie := [] }
    |>.setPow { s.pow with step := 4, mode := none, easy := .awake, wakeReq := false, held := [], idle := [] }
  let s := s.each (iota 0 144) fun s c => s.modCore c fun k => { k with trcReset := true }
  let s := (s.setFld F.GLB_MODE_current [] 0).liveBit F.GLB_MODE_busy [] false
  let s := (s.liveBit F.GLB_EASY_asleep [] false).liveBit F.GLB_EASY_waking [] false
  let s := s.liveBit F.GLB_CFGPAR_reloading [] (!s.conv.failed.isEmpty)
  (s.disarm (iota 0 87)).showFuses.setPins { s.pins with enArr := false, enHbm := s.pins.enHbm }

/-- Registers that a package reset keeps: those of fabric time (09 R220). -/
def keptReg (off : Nat) : Bool :=
  decide (off = R.TIM_RATE.base) || decide (off = R.TIM_STAT.base) || decide (off = R.TIM_THETA.base) || decide (off = R.TIM_DELAY.base)

/-- Carry the counts kept since the cold reset, and what the NV store and the straps show, into fresh registers. -/
def State.carryRegs (s t : State) : State :=
  let t := t.each (iota 0 16) fun t r =>
    t.setFld F.GLB_REMAP_HI_switch_count [r] (s.fld F.GLB_REMAP_HI_switch_count [r])
  let t := t.setFld F.GLB_HEALTH_hard_faults [] (s.fld F.GLB_HEALTH_hard_faults [])
  let t := (t.setFld F.GLB_HEALTH_replace [] (if s.nv.replace then 1 else 0)).setFld F.GLB_HEALTH_reason [] s.nv.reason
  let t := (t.setFld F.COX_STAT_takeovers [] (s.fld F.COX_STAT_takeovers [])).setFld F.COX_STAT_slot [] s.pins.slot.toNat
  let t := t.setFld F.COX_STAT_pwr_warn [] (if s.pow.warn.isSome then 1 else 0)
  let t := t.setFld F.TIM_STAT_accepted [] 0
  let t := t.each (iota 0 6) fun t g =>
    (t.setFld F.COX_GATE_bounded [g] (if s.nv.bounded.getD g false then 1 else 0)).setFld F.COX_GATE_bound [g] (s.nv.bounds.getD g 0)
  t.showFuses.showNv.showLog.showJnl.flushShown

/-- A package reset begins (R301; 09 R220; 03 R80; 14 R348): everything but the cox always-on domain, HBM, the NV store and
what lies outside the package; power-up goes on at step 2. -/
def State.beginPackage (s : State) (kind : Nat) : State :=
  let t : State := {
    pending := s.pending
    regs := s.regs.filter fun p => keptReg p.1
    raw := s.raw
    mem := s.mem
    gran := s.gran
    hostMem := s.hostMem
    hostPoison := s.hostPoison
    tim := { s.tim with ts := [], capNum := [], capNext := [], capDue := [], txq := [], mgmtDone := [], rxFrames := [] }
    stk := { num := s.stk.num, bound := s.stk.bound, renum := some (s.stk.bound + s.period, s.recovery) }
    pow := {
      step := 1
      testMode := s.pow.testMode
      testEnSeen := s.pow.testEnSeen
      perst := s.pow.perst
      warn := s.pow.warn
      armed := s.pow.armed.filter fun d => decide (89 ≤ d)
      rearm := s.pow.rearm.filter fun p => decide (89 ≤ p.1)
      bootKind := kind }
    pins := { slot := s.pins.slot, thermTripN := s.pins.thermTripN }
    fuseMem := s.fuseMem
    fuseSites := s.fuseSites
    nextAccept := s.nextAccept
    flt := { queue := s.flt.queue, infoSub := s.flt.infoSub, resetting := some .package, lastChip := s.flt.lastChip }
    cox := {
      saved := s.cox.saved
      savedSeq := s.cox.savedSeq
      logSeq := s.cox.logSeq
      log := s.cox.log
      triggers := s.cox.triggers
      lostNext := s.cox.lostNext
      programs := s.cox.programs
      jnlNum := s.cox.jnlNum
      jnl := s.cox.jnl
      mirrored := s.cox.mirrored
      cper := s.cox.cper }
    nv := s.nv
    out := s.out
    free := s.free
    images := s.images }
  let t := t.each (iota 0 144) fun t c => t.modCore c fun k => { k with trcReset := true }
  let t := (s.carryRegs t).setFld F.RIG_STAT_status [] (if s.rig.load.isSome then 0xC else 0)
  t.setFld F.STK_CTL_time_locked [] (if s.isSet F.TIM_STAT_locked [] then 1 else 0)

/-- A cold reset (R301): power is lost; the NV store stays, with the sectors being programmed torn (14 R359), and records
that were not in it are lost (14 R362). -/
def State.powerOff (s : State) : State :=
  let torn := s.cox.programs.map fun (p : Program) => { p.sector with torn := true }
  { pending := s.pending
    hostMem := s.hostMem
    hostPoison := s.hostPoison
    fuseMem := s.fuseMem
    fuseSites := s.fuseSites
    nv := { s.nv with sectors := s.nv.sectors ++ torn }
    cox := { lostNext := s.cox.log.any fun r => !r.flushed }
    out := s.out
    free := s.free
    images := s.images }

/-- Do conditions outside a reset hold it back: a package reset waits for a flush in progress (17 R402), and after a
critical trip for every sensor to read below 95 °C (17 R410)? -/
def State.resetHeld (s : State) (d : Dom) : Bool :=
  match d with
  | .package => !s.cox.programs.isEmpty || (s.pow.critical && (iota 0 27).any fun n => decide (95 ≤ s.fld F.COX_TEMP_temp [n]))
  | _ => false

/-- A reset begins. -/
def State.beginReset (s : State) (d : Dom) : State :=
  let s := s.begun d
  match d with
  | .engine c u => s.resetEngine c u
  | .core c => s.resetCore c
  | .crew n => (s.beginCrewReset n).setFlt { s.flt with resetting := some d }
  | .chip => let s := s.beginChip; (s.setFlt { s.flt with resetting := some d })
  | .package => s.beginPackage (if s.pow.bootKind = 1 then 1 else 2)
  | .cold => s

/-- Begin the resets that wait, first to last, while none is in progress and no dump of theirs is due; `fuel` bounds them. -/
def State.pumpFrom (s : State) : Nat → State
  | 0 => s
  | fuel + 1 =>
    match s.flt.resets with
    | [] => s
    | d :: rest =>
      let free := match s.flt.resetting, d with
        | none, _ => true
        | some .package, _ => false
        | some _, .package => true
        | some _, _ => false
      if free && !s.dumpWaits d && !s.resetHeld d then
        ((s.setFlt { s.flt with resets := rest }).beginReset d).pumpFrom fuel
      else s

/-- Begin what resets can begin. -/
def State.pump (s : State) : State := s.pumpFrom s.flt.resets.length

/-! ### DUMP and DUMP_COMPLETE (12 R299) -/

/-- Does a domain stand still, so that its dump need not wait for a boundary? -/
def State.domStill (s : State) (d : Dom) : Bool :=
  match s.domCrew d with
  | some n => s.halted n
  | none => match d with | .engine _ _ => true | .core _ => true | _ => !s.isSet F.STK_CTL_running []

/-- DUMP (R299): at a boundary, or where the domain stands still, the domain of the oldest dump due is frozen; a dump that
cannot be written is skipped, and what waited for it goes on. -/
def execDumpStart (s : State) : Host.Outcome State Fault Refusal :=
  match s.flt.dumps with
  | [] => .next s
  | d :: rest =>
    if d.writing || !(s.boundaryNow || s.domStill d.dom) then .next s
    else if s.dumpBlocked then
      .next ((s.setFlt { s.flt with dumps := rest }).raiseBit F.GLB_DUMP_skipped []).pump
    else
      let x : DumpReq := { d with writing := true, stroke := s.stk.num, time := s.ns }
      .next (((s.setFlt { s.flt with dumps := x :: rest }).liveBit F.GLB_DUMP_busy [] true).showDom d.dom)

/-- DUMP_COMPLETE (R299, R300): the dump is in the slot that the previous one did not use; the reset or rollback goes on. -/
def execDumpComplete (s : State) : Host.Outcome State Fault Refusal :=
  match s.flt.dumps with
  | [] => .next s
  | d :: rest =>
    if !d.writing || s.dumpBlocked then .next s
    else
      let slot := match s.flt.lastSlot with | some k => 1 - k | none => 0
      let seq := (s.fld F.GLB_DUMP_seq [] + 1) % 2 ^ 16
      let s := s.hbmPut (s.dumpBase + slot * 2 ^ 23) (clean (s.dumpBytes d seq))
      let s := s.setFlt { s.flt with dumps := rest, lastSlot := some slot }
      let s := ((s.setFld F.GLB_DUMP_slot [] slot).setFld F.GLB_DUMP_cause [] d.cause).setFld F.GLB_DUMP_seq [] seq
      let s := match s.domCrew d.dom with | some n => s.setFld F.GLB_DUMP_crew [] n | none => s
      .next ((s.liveBit F.GLB_DUMP_busy [] false).showDom d.dom).pump

/-! ### Requests for resets (12 R302) -/

/-- A reset is asked for: it waits for its dump; with the rails off a package reset takes none (R299). -/
def State.resetAsk (s : State) (d : Dom) (cause : Nat) : State :=
  let s := if s.pow.tripped ∧ d = .package then s else s.askDump d cause
  ((s.setFlt { s.flt with resets := s.flt.resets ++ [d] }).waitFor d).pump

/-- May RESET_ENGINE or RESET_CORE name a core (R302): parked, its crew held, or frozen by a dump? -/
def State.resetOpen (s : State) (c : Nat) : Bool :=
  decide (c < 144) && (match s.crewOf c with | none => true | some n => decide (s.rcvState n = 4) || s.dumpFrozen c 0xE)

/-- The core that a GLB_RCV_CMD names. -/
def rcvCore (v : Word) : Nat := bits v.toNat 19 12

/-- The unit that a GLB_RCV_CMD names. -/
def rcvUnit (v : Word) : Nat := bits v.toNat 11 8

/-- RESET_ENGINE (R301, R302). -/
def execResetEngine (v : BitVec 32) (s : State) : Host.Outcome State Fault Refusal :=
  .next (s.rcvCmd v fun s =>
    if s.resetOpen (rcvCore v) && decide (rcvUnit v ≤ 0xD) then s.resetAsk (.engine (rcvCore v) (rcvUnit v)) 3 else s.rcvRefuse)

/-- RESET_CORE (R301, R302). -/
def execResetCore (v : BitVec 32) (s : State) : Host.Outcome State Fault Refusal :=
  .next (s.rcvCmd v fun s => if s.resetOpen (rcvCore v) then s.resetAsk (.core (rcvCore v)) 4 else s.rcvRefuse)

/-- RESET_CREW (R301, R302). -/
def execResetCrew (v : BitVec 32) (s : State) : Host.Outcome State Fault Refusal :=
  .next (s.rcvCmd v fun s => if s.crewValid (rcvCrew v) then s.resetAsk (.crew (rcvCrew v)) 5 else s.rcvRefuse)

/-- RESET_CHIP (R301, R302). -/
def execResetChip (v : BitVec 32) (s : State) : Host.Outcome State Fault Refusal := .next (s.rcvCmd v fun s => s.resetAsk .chip 6)

/-- Reset kinds that a BOOT record names: 0 cold, 1 PKG_RST_N, 2 RESET_PACKAGE or automatic. DESIGN CHOICE (assumption log
19). -/
def State.bootAs (s : State) (kind : Nat) : State := s.setPow { s.pow with bootKind := kind }

/-- RESET_PACKAGE (R301, R302). -/
def execResetPackage (v : BitVec 32) (s : State) : Host.Outcome State Fault Refusal :=
  .next (s.rcvCmd v fun s => (s.bootAs 2).resetAsk .package 7)

/-- PKG_RST_N (R299, R301; 17 R408): held low for 1 µs or more it asks for a package reset, without a dump. -/
def execPkgRstN (ns : Nat) (s : State) : Host.Outcome State Fault Refusal :=
  if 1000 ≤ ns ∧ 1 ≤ s.pow.step then
    let s := s.bootAs 1
    .next (s.setFlt { s.flt with
      resets := [Dom.package]
      dumps := s.flt.dumps.filter fun d => decide (d.dom ≠ Dom.package) }).pump
  else .next s

/-- Rig-set registers outside the compute chip and the I/O dies, but for the period, the phase and the time configuration,
which stay in force (02 R413). -/
def rigGlobal (off : Nat) : Bool :=
  let within := fun (a b : Nat) => decide (a ≤ off) && decide (off < b)
  within 0x60 0x64 || within 0x70 0x74 || within 0x200 0x218 || within 0x240 0x280 || within 0x840 0x880 || within 0xE00 0x1000
    || within 0x100080 0x1000C4

/-- The rig of the NV shadow is to be reloaded after a chip reset (R304; 16 R400): without a complete shadow no rig is
loaded. -/
def State.reloadRig (s : State) : State :=
  match s.rig.inForce with
  | none => s
  | some img =>
    if s.nv.shadowDone && decide (s.nv.shadow = some img.bytes) then
      (s.setRig { s.rig with staged := some img, effect := some (s.stk.num + 1) }).setFlt { s.flt with chipReload := true }
    else
      let s := s.setRig {}
        |>.setCrews []
        |>.setCtxs []
        |>.setTallies []
        |>.setRegs (s.regs.filter fun p => !rigGlobal p.1)
      ((s.setReg R.RIG_ID [] 0).setFld F.RIG_STAT_state [] 0).setFld F.RIG_STAT_status [] 0xE

/-- The reset of a crew is complete: its first step may begin (R415). -/
def State.crewUp (s : State) (n : Nat) : State :=
  (s.setFld F.GLB_RCV_state [n] 0).modCrew n fun k => { k with firstStep := true }

/-- RESET_COMPLETE (R301): a crew's reset is done, and its first step begins; a chip, package or cold reset is done once
power-up has passed step 10, and the package awaits a rig (17 R401). -/
def execResetComplete (s : State) : Host.Outcome State Fault Refusal :=
  match s.flt.resetting with
  | none => .next (match s.crewList.find? fun n => decide (s.rcvState n = 5) with | some n => s.crewUp n | none => s)
  | some (.crew n) => .next ((s.setFlt { s.flt with resetting := none }).crewUp n).pump
  | some d =>
    if s.pow.step = 10 then
      let s := (s.setFlt { s.flt with resetting := none }).setPow { s.pow with step := 11 }
      .next (if d = .chip then s.reloadRig else s).pump
    else .next s

/-- PWROK_AON_FALL (R301; 17 R408): a power cycle. -/
def execPwrokAonFall (s : State) : Host.Outcome State Fault Refusal := .next s.powerOff

end Sys2Proof.Machine
end

