-- ==== Sys2Proof/Machine/Time.lean ====
section
/-!
DEFINITION. Fabric time as software and the cox agent meet it: PTP measurements, settings, timestamp reads, timed launches and
capture commands (09 R225 to R232; 14 R368).
-/
namespace Sys2Proof.Machine

/-- TIM_PTPM_WRITE (R225, R226): the active core submits θ, i64 in units of 2^-16 ns, of a PTP source; `interval` is the
Sync interval in ns. -/
def execTimPtpmWrite (secondary : Bool) (interval : Nat) (v : BitVec 64) (s : State) : Host.Outcome State Fault Refusal :=
  let c := s.sourceCode secondary
  if s.coxActive && decide (0x60 ≤ c) && decide (c ≤ 0x61) && decide (0 < interval) then
    let s := s.setTim { s.tim with
      sync1 := if secondary then s.tim.sync1 else interval
      sync2 := if secondary then interval else s.tim.sync2 }
    .next (s.accept secondary (toSigned 64 v.toNat * 2 ^ 16) (Int.ofNat interval) none)
  else .next s

/-- TIM_SET (R228): a write of TIM_SET_HI sets a root's fabric time, or is refused. -/
def execTimSet (v : BitVec 32) (s : State) : Host.Outcome State Fault Refusal :=
  let s := s.fromHost 4
  let time := ((s.reg R.TIM_SET_LO []).toNat + 2 ^ 32 * v.toNat) * 2 ^ 32
  if s.servo = 0 ∧ s.rig.inForce.isNone = true ∧ s.fabric < time then .next (s.stepForward (Int.ofNat time - Int.ofNat s.fabric))
  else .next (s.raiseBit F.TIM_STAT_set_refused [])

/-! ### Timestamps, timed launches and captures (R230 to R232; 14 R368) -/

/-- TIM_TS_STAT_READ (R230). -/
def execTimTsStatRead (x : Nat) (s : State) : Host.Outcome State Fault Refusal :=
  if 6 ≤ x then .next s
  else
    let flag := fun (b : Bool) => if b then 1 else 0
    let s := match Map.getD [] s.tim.ts x with
      | [] => (s.setFld F.TIM_TS_STAT_valid [x] 0).setFld F.TIM_TS_STAT_depth [x] 0
      | e :: rest =>
        let s := s.setTim { s.tim with ts := Map.setD [] s.tim.ts x rest }
        let s := (s.setFld F.TIM_TS_STAT_valid [x] 1).setFld F.TIM_TS_STAT_late [x] (flag e.late)
        let s := (s.setFld F.TIM_TS_STAT_refused [x] (flag e.refused)).setFld F.TIM_TS_STAT_unlocked [x] (flag e.unlocked)
        let s := (s.setFld F.TIM_TS_STAT_depth [x] rest.length).setFld F.TIM_TS_STAT_id [x] e.id
        let s := s.setReg R.TIM_TS_FRAC [x] (BitVec.ofNat 32 e.time)
        s.setPair R.TIM_TS_LO R.TIM_TS_HI [x] (e.time / 2 ^ 32)
    .next (s.giveWord (s.readReg (R.TIM_TS_STAT.addr [x])))

/-- Is a descriptor well formed (14 R368)? -/
def txDescOk (d : TxDesc) : Bool :=
  (decide (d.port < 2) && decide (60 ≤ d.length) && decide (d.length ≤ 1518)) ||
  (decide (d.port = 2) && decide (1 ≤ d.length) && decide (d.length ≤ 110) && decide (d.link < 96))

/-- The end of an MGMT flit with a launch time: late, refused, or neither (R231). It has no timestamp queue. -/
def State.noteMgmt (s : State) (e : TsEntry) : State := s.setTim { s.tim with mgmtDone := (e :: s.tim.mgmtDone).take 16 }

/-- TRANSMIT_DESCRIPTOR (14 R368; R231): the active core posts a descriptor; a launch time more than 2^32 ns ahead is
refused, and the frame is discarded. -/
def execTransmitDescriptor (d : TxDesc) (s : State) : Host.Outcome State Fault Refusal :=
  if !s.coxActive || !txDescOk d then .next s
  else if d.hold && decide (s.ns + 2 ^ 32 < d.launchTime) then
    let e : TsEntry := { id := d.tsId.toNat, late := false, refused := true, unlocked := !s.locked, time := s.fabric }
    .next (if 2 ≤ d.port then s.noteMgmt e else if d.stamp then s.enterTs d.port e else s)
  else
    .next (s.setTim { s.tim with txq := Map.setD [] s.tim.txq d.port (Map.getD [] s.tim.txq d.port ++ [(d, s.fabric)]) })

/-- The queue behind a frame that leaves: the next one is at its head from now on. -/
def nextHead (now : Nat) : List (TxDesc × Nat) → List (TxDesc × Nat)
  | (d, _) :: r => (d, now) :: r
  | [] => []

/-- The slack of a launch instant, in units of 2^-32 ns (R231): 6.4 ns on a port, 5.12 ns on a link at x2, 10.24 ns at x1. -/
def State.launchSlack (s : State) (d : TxDesc) : Nat :=
  if d.port < 2 then 64 * 2 ^ 32 / 10 else if s.atX2 d.link then 512 * 2 ^ 32 / 100 else 1024 * 2 ^ 32 / 100

/-- TIMED_LAUNCH (R231; 14 R368): the frame at the head of a transmit queue leaves, at its launch time, or late where that had
passed when it reached the head or where it could not leave then. What an MGMT flit carries is in the core's frame memory, a
free value (assumption log 20). -/
def execTimedLaunch (port t : Nat) (s : State) : Host.Outcome State Fault Refusal :=
  let s := s.advance t
  match Map.getD [] s.tim.txq port with
  | [] => .next s
  | (d, since) :: rest =>
    let due := d.launchTime * 2 ^ 32
    let late := d.hold && (decide (due < since) || decide (due + s.launchSlack d < s.fabric))
    if (d.hold && decide (s.fabric < d.launchTime * 2 ^ 32)) || (decide (port = 2) && !s.linkReady d.link .management) then .next s
    else
      let s := s.setTim { s.tim with txq := Map.setD [] s.tim.txq port (nextHead s.fabric rest) }
      let e : TsEntry := { id := d.tsId.toNat, late := late, refused := false, unlocked := !s.locked, time := s.fabric }
      if port < 2 then
        let s := s.send (.frame port d.buffer)
        .next (if d.stamp then s.enterTs port e else s)
      else
        let (v, s) := s.fresh
        let f : Flit := { body := .data (natLe 2 d.length ++ fit 110 (natLe d.length v)), vc := .management, cls := 6 }
        .next ((if d.hold then s.noteMgmt e else s).launch d.link f)

/-- FRAME_RECEIVE (14 R368): a frame reaches the active core with the fabric time at the ball; one that carries a subscription of
the fabric manager puts it in force (11 R275). What its bytes say of that is open (assumption log 33). -/
def execFrameReceive (port t : Nat) (frame : List (BitVec 8)) (s : State) : Host.Outcome State Fault Refusal :=
  let s := s.advance t
  if s.coxActive && decide (port < 2) then
    let s := s.setTim { s.tim with rxFrames := s.tim.rxFrames ++ [(port, s.fabric, frame)] }
    .next (s.setFlt { s.flt with infoSub := (Config.infoSubscription frame).getD s.flt.infoSub })
  else .next s

/-- CAPTURE_EDGE (R232): an event that TIM_CAP_c selects enters the channel's queue: an edge of a pin, sampled each ns and held
for 4 ns, with the time of its first sample; or the oldest boundary or arrival seen on its die. -/
def execCaptureEdge (ch src link cls t : Nat) (s : State) : Host.Outcome State Fault Refusal :=
  let s := s.advance t
  if 4 ≤ ch ∨ src = 0 ∨ 8 < src ∨ s.captures ch src link cls = false then .next s
  else if src ≤ 4 then .next (s.enterCapture ch s.fabric (!s.locked))
  else
    match s.tim.capDue.find? fun p => decide (p.1 = ch) with
    | some p => .next ((s.setTim { s.tim with capDue := s.tim.capDue.erase p }).enterCapture ch p.2.1 p.2.2)
    | none => .next s

/-- A write to TIM_CAP_n waits for the next boundary (R232). -/
def State.writeCap (s : State) (ch : Nat) (v : Word) : State :=
  if ch < 4 then (s.setTim { s.tim with capNext := Map.insert ch v s.tim.capNext }) else s

/-- TIM_CAP_WRITE (R232): it takes effect at the next boundary. -/
def execTimCapWrite (ch : Nat) (v : BitVec 32) (s : State) : Host.Outcome State Fault Refusal :=
  .next (s.hostReg (R.TIM_CAP.addr [ch]) v fun s => s.writeCap ch v)

/-- The capture selections written since the last boundary take effect (R232). -/
def State.capBoundary (s : State) : State :=
  (s.setTim { s.tim with capNext := [] }).each s.tim.capNext fun s p => s.hostPut R.TIM_CAP [p.1] p.2

end Sys2Proof.Machine
end

