-- ==== Sys2Proof/Machine/Rig.lean ====
section
/-!
DEFINITION. The rig: its image, the checks of a load, and what happens when it takes effect (16 R392 to R400; 02 R413).
-/
namespace Sys2Proof.Machine

/-! ### The image (16 R392, R393) -/

/-- A section, empty where it is absent. -/
def RigImg.sec (g : RigImg) (type : Nat) : Bytes := (Map.find type g.sections).getD []

/-- The record of a crew. -/
def RigImg.crewRec (g : RigImg) (n : Nat) : Bytes := ((g.sec 1).drop (32 * n)).take 32

/-- Does the rig define a crew? -/
def RigImg.defines (g : RigImg) (n : Nat) : Bool := decide (field (g.crewRec n) 0 1 % 2 = 1)

/-- The crews that claim a core. -/
def RigImg.claims (g : RigImg) (c : Nat) : List Nat :=
  (iota 0 16).filter fun n => g.defines n && decide (field (g.crewRec n) 8 18 / 2 ^ c % 2 = 1)

/-- Cut a byte string into records of n bytes. -/
def records (n : Nat) (b : Bytes) : List Bytes := chunks n (b.length / n + 1) b

/-- The region entries of a crew. -/
def RigImg.regionRecs (g : RigImg) (n : Nat) : List Bytes := (records 16 (g.sec 2)).filter fun r => decide (field r 0 1 = n)

/-- The regions of a crew, in the order of the section. -/
def RigImg.regions (g : RigImg) (n : Nat) : List Region :=
  (g.regionRecs n).map fun r => { cls := field r 1 1, first := field r 4 4, pages := field r 8 4 }

/-- The words of a BLOCK section: offset and value in order (R395); none where it is malformed. `fuel` bounds the
entries. -/
def blockWords (b : Bytes) : Nat → Option (List (Nat × Word))
  | 0 => if b.isEmpty then some [] else none
  | fuel + 1 =>
    let n := field b 4 4
    if b.isEmpty then some []
    else if b.length < 8 + 4 * n ∨ b.length < 8 ∨ n = 0 ∨ field b 0 4 % 4 ≠ 0 then none
    else (blockWords (b.drop (8 + 4 * n)) fuel).map fun rest =>
      ((iota 0 n).map fun i => (field b 0 4 + 4 * i, BitVec.ofNat 32 (field b (8 + 4 * i) 4))) ++ rest

/-- The BLOCK words of a rig. -/
def RigImg.words (g : RigImg) : List (Nat × Word) := (blockWords (g.sec 9) (g.sec 9).length).getD []

/-- The tally or context bytes of a section that belong to a crew, by number. -/
def RigImg.owned (g : RigImg) (type n : Nat) : List (Nat × Nat) :=
  ((g.sec type).zipIdx.map fun p => (p.2, p.1.toNat)).filter fun p => decide (128 ≤ p.2) && decide (p.2 % 16 = n)

/-- Put the rig's registers in force: every rig-set field from the rig, or at its reset value (R399 step 1), crews and
members from CREWS. -/
def State.rigRegs (s : State) (g : RigImg) : State :=
  let back := fun (p : Nat × Word) =>
    match regAt p.1 with
    | some (r, _) => let v := rigPart r p.2 r.reset; if v = r.reset then none else some (p.1, v)
    | none => some p
  let s := s.setRegs (s.regs.filterMap back)
  let s := s.setReg R.TIM_SRC [] s.nv.timeSrc
  let s := s.setReg R.TIM_SERVO [] s.nv.timeServo
  let s := s.each g.words fun s w =>
    match regAt w.1 with
    | some (r, ix) => s.setReg r ix (rigPart r (s.reg r ix) w.2)
    | none => s
  let s := s.each (iota 0 16) fun s n =>
    let r := g.crewRec n
    s.setReg R.RIG_CREW [n] (if g.defines n then BitVec.ofNat 32 (2 ^ 31 + field r 6 2 * 2 ^ 10 + field r 4 2) else 0)
  s.each (iota 0 144) fun s c =>
    s.setReg R.SEQ_CREW [c] (match g.claims c with | n :: _ => BitVec.ofNat 32 (2 ^ 31 + n) | [] => 0)

/-- The registers a rig would give a package, from which its checks are made. -/
def State.rigView (s : State) (g : RigImg) : State := ({ nv := s.nv } : State).rigRegs g

/-- The crew-scoped content of a rig (R398): bytes, and register words. -/
def State.crewScope (s : State) (g : RigImg) (n : Nat) : List Bytes × List (Nat × Nat) × List (Nat × Word) :=
  let v := s.rigView g
  let part := fun (type at_ len : Nat) => fit len (((g.sec type).drop at_).take len)
  ([g.crewRec n, (g.regionRecs n).flatten, part 5 (16 * n) 16, part 7 (64 * n) 64, part 8 (256 * n) 256],
   g.owned 3 n ++ (2 ^ 16, 0) :: g.owned 4 n,
   g.words.filter fun w => decide (v.regCrew w.1 = some n))

/-- The crews of the rig in force that a new rig carries (R398). -/
def State.carriedBy (s : State) (g : RigImg) : List Nat :=
  match s.rig.inForce with
  | some old => (iota 0 16).filter fun n => old.defines n && g.defines n && decide (s.crewScope old n = s.crewScope g n)
  | none => []

/-! ### The checks of a load (16 R392 to R395, table Rig-load status) -/

/-- The result of a failed check: status, directory index of the section (0xFF none), crew, shortfall. -/
structure RigFail where
  status : Nat
  section_ : Nat := 0xFF
  crew : Nat := 0
  short : Nat := 0
  deriving DecidableEq, Repr

/-- The least of the members that meet a condition. -/
def firstOf (l : List Nat) (p : Nat → Bool) : Option Nat := l.find? p

/-- A directory entry: type, offset, length, CRC. -/
def dirOf (b : Bytes) (i : Nat) : Nat × Nat × Nat × Nat :=
  let e := 64 + 16 * i
  (field b e 1, field b (e + 4) 4, field b (e + 8) 4, field b (e + 12) 4)

/-- The size a section type must have, where it is fixed. -/
def fixedSize (type : Nat) : Option Nat :=
  if type = 1 then some 512 else if type = 3 then some 4096 else if type = 4 then some 16384 else if type = 5 then some 256
  else if type = 6 then some 3072 else if type = 7 then some 1024 else if type = 8 then some 4096 else none

/-- Are the reserved parts of a section 0? -/
def reservedOk (type : Nat) (b : Bytes) : Bool :=
  if type = 1 then (records 32 b).all fun r =>
    decide (field r 0 1 < 2) && decide (field r 1 3 = 0) && decide (field r 26 6 = 0)
  else if type = 2 then (records 16 b).all fun r => decide (field r 2 2 = 0) && decide (field r 12 4 = 0)
  else if type = 3 ∨ type = 4 then b.all fun x => decide (x.toNat / 16 % 4 = 0)
  else if type = 7 then (records 16 b).all fun r => decide (field r 12 4 = 0)
  else true

/-- Do two members of a list of offsets repeat? -/
def repeats : List Nat → Bool
  | [] => false
  | x :: r => r.elem x || repeats r

/-- Is a BLOCK word in order (R395): a rig-set register, nothing outside its rig-set fields, in agreement with CREWS? -/
def State.wordOk (s : State) (g : RigImg) (w : Nat × Word) : Bool :=
  match regAt w.1 with
  | some (r, ix) =>
    let m := rigMask r
    let gate := decide (r.base ≠ R.GATE_TABLE.base) || decide (w.2.toNat % 16 = 0)
    let named := decide (r.base = R.SEQ_CREW.base) || decide (r.base = R.RIG_CREW.base)
    decide (m ≠ 0) && decide (w.2 &&& ~~~m = 0) && gate && (!named || decide ((s.rigView g).reg r ix = w.2))
  | none => false

/-- The FORMAT check of a section, of directory index i. -/
def State.sectionBad (s : State) (g : RigImg) (b : Bytes) (n i : Nat) : Bool :=
  let (type, off, len, crc) := dirOf b i
  let body := (b.drop off).take len
  let others := (iota 0 n).filter fun j => decide (j ≠ i)
  decide (type = 0) || decide (9 < type) || decide (field b (64 + 16 * i + 1) 3 ≠ 0) || decide (off % 64 ≠ 0)
    || decide (off < 64 + 16 * n) || decide (b.length < off + len + 96)
    || (others.any fun j =>
        let (t2, o2, l2, _) := dirOf b j
        decide (t2 = type) || (decide (off < o2 + l2) && decide (o2 < off + len)))
    || (match fixedSize type with | some k => decide (len ≠ k) | none => false) || (decide (type = 2) && decide (len % 16 ≠ 0))
    || decide ((crc32 body).toNat ≠ crc) || !reservedOk type body
    || (decide (type = 9) && (match blockWords body body.length with
        | some ws => repeats (ws.map fun w => w.1) || ws.any fun w => !s.wordOk g w
        | none => true))

/-- The image as a rig: its sections by type. -/
def rigOf (b : Bytes) : RigImg :=
  let n := field b 6 1
  let d := (iota 0 n).map fun i => dirOf b i
  let x := field (Config.sha384 b) 0 4
  { id := if x = 0 then 1 else BitVec.ofNat 32 x
    package := field b 16 4 % 2 ^ 18
    sections := d.map fun e => (e.1, (b.drop e.2.1).take e.2.2.1)
    bytes := b }

/-- FORMAT (status 0x03). -/
def State.rigFormat (s : State) (g : RigImg) : Option RigFail :=
  let b := g.bytes
  let n := field b 6 1
  if field b 0 4 ≠ 0x4E465247 ∨ field b 4 2 ≠ 1 ∨ n = 0 ∨ 9 < n ∨ field b 7 1 ≠ 0 ∨ field b 8 4 ≠ b.length ∨ b.length < 160 + 16 * n
      ∨ 6193152 < b.length ∨ 2 ^ 18 ≤ field b 16 4 ∨ field b 24 40 ≠ 0 then some { status := 3 }
  else (firstOf (iota 0 n) (s.sectionBad g b n)).map fun i => { status := 3, section_ := i }

/-- PART (0x04). -/
def State.rigPartBad (s : State) (g : RigImg) : Bool :=
  let b := g.bytes
  let mem := field b 15 1
  decide (field b 12 2 ≠ s.fld F.GLB_ID_part []) || decide (field b 14 1 ≠ s.fld F.GLB_ID_step [])
    || (decide (mem ≠ 0) && decide (mem ≠ s.fld F.GLB_ID_mem_code []))

/-- Put a region in its place by first page. -/
def putRegion (r : Region) : List Region → List Region
  | [] => [r]
  | x :: l => if r.first < x.first then r :: x :: l else x :: putRegion r l

/-- Do regions follow each other without gap or overlap from a page on? Answers where they end. -/
def regionsFrom (page : Nat) : List Region → Option Nat
  | [] => some page
  | r :: l => if r.first = page ∧ 0 < r.pages then regionsFrom (page + r.pages) l else none

/-- Pages of the regions of a class. -/
def classPages (l : List Region) (cls : Nat) : Nat := (l.filter fun r => decide (r.cls = cls)).foldl (fun n r => n + r.pages) 0

/-- Do the regions of a class hold an extent? -/
def inClass (l : List Region) (cls a len : Nat) : Bool :=
  l.any fun r => decide (r.cls = cls) && decide (r.first * 2 ^ 21 ≤ a) && decide (a + len ≤ (r.first + r.pages) * 2 ^ 21)

/-- 4S + 2 MiB of a crew with m members, in bytes (13 R320). -/
def snapBytes (m : Nat) : Nat := 4 * (m * 0x340000 + 0x200000) + 0x200000

/-- Do a crew's regions, pools, collective port and counter window break R394? `v` holds the rig's registers. -/
def regionsBad (v : State) (g : RigImg) (n : Nat) : Bool :=
  let l := g.regions n
  let sorted := l.foldl (fun acc r => putRegion r acc) []
  let end_ := regionsFrom (v.rangeBase n / 2 ^ 21) sorted
  let count := fun (c : Nat) => (l.filter fun r => decide (r.cls = c)).length
  let ckpt := l.find? fun r => decide (r.cls = 4)
  let poolBad := fun (p : Nat) =>
    let b := ((g.sec 7).drop (64 * n + 16 * p)).take 16
    decide (field b 8 4 ≠ 0) && (decide (field b 0 8 % 32 ≠ 0) || !inClass l 0 (field b 0 8) (32 * field b 8 4))
  (match end_ with | some e => decide (e < (v.rangeBase n + v.rangeSize n) / 2 ^ 21) | none => true)
    || (l.any fun r => decide (4 < r.cls)) || decide (count 3 ≠ 1) || decide (1 < count 2) || decide (1 < count 4)
    || decide (classPages l 3 ≠ ceilDiv (snapBytes (v.members n).length) (2 ^ 21))
    || decide (classPages l 2 ≠ v.fld F.CHK_RSV_size [n]) || decide (classPages l 4 ≠ v.fld F.CHK_CKSZ_size [n])
    || decide ((match ckpt with | some r => r.first | none => 0) ≠ v.fld F.CHK_CKPT_base [n])
    || (iota 0 4).any poolBad
    || (decide (v.fld F.LNK_COLL_port [n] ≠ 0) && !inClass l 1 (v.fld F.LNK_COLL_port [n] * 2 ^ 12) (2 ^ 12))
    || (v.isSet F.PMC_CREW_permit [n] && !inClass l 1 (v.fld F.PMC_CREW_base [n] * 2 ^ 15) (2 ^ 15))

/-- Do two crews share a range, or is a range empty or beyond the map (01 R17)? -/
def rangeBad (v : State) (n : Nat) : Bool :=
  decide (v.rangeSize n = 0) || decide (2 ^ 39 < v.rangeBase n + v.rangeSize n)
    || v.crewList.any fun m => decide (m < n) && decide (v.rangeBase m < v.rangeBase n + v.rangeSize n)
        && decide (v.rangeBase n < v.rangeBase m + v.rangeSize m)

/-- Shares of a link by crew. -/
def RigImg.shares (g : RigImg) (l : Nat) : List Nat := (iota 0 16).map fun n => field (g.sec 6) (32 * l + 2 * n) 2

/-- Is the geometry of a core's rings wrong (04 R106)? -/
def ringsBad (v : State) (c : Nat) : Bool :=
  (iota 0 8).any fun k =>
    let sz := v.fld F.ENG_RING_log2_size [c, k]
    let base := v.fld F.ENG_RING_base [c, k] * 4096
    v.isSet F.ENG_RING_enable [c, k] && (decide (sz < 12) || decide (20 < sz) || decide (base % 2 ^ sz ≠ 0) || decide (0x2C0000 < base + 2 ^ sz))

/-- Does a core's umpire break R239: its own crew and its worker's differ, or it names no engine? -/
def umpireBad (v : State) (c : Nat) : Bool :=
  let worker := c / 9 * 9 + (c % 9 + 8) % 9
  v.isSet F.UMP_CFG_enable [c] && (decide (11 < v.fld F.UMP_CFG_engine [c]) || decide (16 < v.fld F.UMP_CFG_rate [c])
    || decide (v.crewOf c ≠ v.crewOf worker))

/-- RULE (0x06): the crew concerned. -/
def State.rigRule (s : State) (g : RigImg) (v : State) : Option Nat :=
  let tag := fun (n : Nat) => v.fld F.LNK_CREW_job_tag [n]
  let crew := fun (n : Nat) => rangeBad v n || regionsBad v g n
    || (decide (tag n ≠ 0) && v.crewList.any fun m => decide (m < n) && decide (tag m = tag n))
    || (!v.timed n && (v.fixed || (iota 0 16).any fun i =>
        v.isSet F.LNK_ROUTE_LO_valid [n, i] && decide (v.fld F.LNK_ROUTE_LO_bulk [n, i] = 0)))
  let owner := fun (c : Nat) => (v.crewOf c).getD 0
  let shares := [v.fld F.STK_SHARE_log [], v.fld F.STK_SHARE_trace [], v.fld F.STK_SHARE_pmc [], v.fld F.STK_SHARE_cow [],
    v.fld F.STK_SHARE_scrub []]
  let carried := s.carriedBy g
  match firstOf (iota 0 144) (fun c => decide (1 < (g.claims c).length)), firstOf v.crewList crew,
      firstOf (iota 0 144) (fun c => ringsBad v c || umpireBad v c) with
  | some c, _, _ => some ((g.claims c).headD 0)
  | _, some n, _ => some n
  | _, _, some c => some (owner c)
  | none, none, none =>
    if ((iota 0 96).any fun l => decide (512 < (g.shares l).foldl (fun a b => a + b) 0)) || shares.elem 0
        || decide (32 < shares.foldl (fun a b => a + b) 0) || decide (10 < v.fld F.TIM_SERVO_rate_lim [])
        || (v.isSet F.GLB_PERS_debug [] && !s.nv.debugPermit) || (!carried.isEmpty && s.fixed != v.fixed) then some (carried.headD 0)
    else none

/-- Do two extents overlap? -/
def overlap (a b : Nat × Nat) : Bool := decide (a.1 < b.1 + b.2) && decide (b.1 < a.1 + a.2)

/-- The dump ring and the trace rings of a rig: base and size (15 R374, R378). -/
def rigRings (v : State) : List (Nat × Nat) :=
  (if v.isSet F.PMC_CTL_dump_en [] then
    [(v.fld F.PMC_RING_LO_base_lo [] * 2 ^ 20 + v.fld F.PMC_RING_HI_base_hi [] * 2 ^ 32, 2 ^ v.fld F.PMC_RING_LO_log2_size [])] else [])
  ++ ((iota 0 16).filter fun n => v.isSet F.TRC_CTL_enable [n]).map fun n =>
    (v.fld F.TRC_CTL_base [n] * 2 ^ 20, 2 ^ v.fld F.TRC_CTL_log2_size [n])

/-- Does some member of a list overlap a later one? -/
def someOverlap : List (Nat × Nat) → Bool
  | [] => false
  | x :: r => (r.any fun y => overlap x y) || someOverlap r

/-- OVERLAP (0x07): the crew concerned. -/
def State.rigOverlap (s : State) (g : RigImg) (v : State) (l : RigLoad) : Option Nat :=
  let dump := (v.fld F.GLB_DUMP_BASE_LO_base_lo [] * 2 ^ 24 + v.fld F.GLB_DUMP_BASE_HI_base_hi [] * 2 ^ 32, 2 ^ 24)
  let journal := (s.jnlRing, 2 ^ 22)
  let void := (s.hbmTop, 2 ^ 40)
  let rings := rigRings v
  let range := fun (n : Nat) => (v.rangeBase n, v.rangeSize n)
  let bad := fun (n : Nat) => (void :: journal :: dump :: rings).any fun x => overlap (range n) x
  let image := (l.addr, g.bytes.length)
  match firstOf v.crewList bad with
  | some n => some n
  | none =>
    if someOverlap (void :: journal :: dump :: rings) then some 0
    else if l.inHbm then firstOf s.crewList fun n => overlap image (s.rangeBase n, s.rangeSize n)
    else none

/-- The least freeze of a crew in strokes (13 R321): ⌈B_w × 144 × d ÷ (12,058.6 GB/s × m × P × (d − 1))⌉, with f = 1/d. -/
def freezeMin (v : State) (n : Nat) : Nat :=
  let m := (v.members n).length
  let one := m * 0x340000 + 0x200000
  let bw := if v.fld F.CHK_CKSZ_size [n] = 0 then 2 * one else 3 * one
  let d := recDiv (v.fld F.STK_CTL_rec_frac [])
  ceilDiv (bw * 144 * d * 10) (120586 * m * v.period * (d - 1))

/-- Does a gate word of a table break R201? `slot`: length of a slot in 1/100 ns. -/
def gateBad (v : State) (link slot : Nat) (w : Word) : Bool :=
  let guard := if v.fld F.LNK_CFG_role (lnk48 link) = 1 then 800 else 2400
  let first := bits w.toNat 31 16 * slot
  let last := (bits w.toNat 31 16 + bits w.toNat 15 8) * slot
  decide (bits w.toNat 15 8 ≠ 0) && (decide (first < guard)
    || decide (100 * (v.period - v.recovery) < last + 100 * v.fld F.LNK_FLIGHT_flight_ns (lnk48 link) + guard))

/-- TIMING (0x08): the crew concerned. -/
def rigTiming (v : State) (g : RigImg) : Option Nat :=
  let p := v.period
  let freezeBad := fun (n : Nat) =>
    let f := v.fld F.CHK_CFG_freeze [n]
    (v.isSet F.CHK_CFG_protect [n] || decide (v.fld F.CHK_CKSZ_size [n] ≠ 0))
      && (decide (f < freezeMin v n) || decide (2000000 < f * p))
  let gate := g.words.find? fun w =>
    match regAt w.1 with
    | some (r, ix) => decide (r.base = R.GATE_TABLE.base)
        && gateBad v (48 * ix.headD 0 + ix.getD 1 0) (if ix.getD 2 0 = 0 then 512 else 1024) w.2
    | none => false
  if p < 512 ∨ 65536 < p ∨ p % 256 ≠ 0 ∨ v.fld F.STK_CTL_rec_frac [] = 3 ∨ v.recovery < 64 then some 0
  else match gate with
    | some w => some (bits w.2.toNat 7 4)
    | none => firstOf v.crewList freezeBad

/-- The footprint of a crew beyond its range (13 R333). -/
def shortfall (v : State) (g : RigImg) (n : Nat) : Nat :=
  let l := g.regions n
  let rest := classPages l 0 + classPages l 1 + classPages l 2 + classPages l 4
  rest * 2 ^ 21 + snapBytes (v.members n).length - v.rangeSize n

/-- The owner's signature over an image (R392). -/
def State.rigSigned (s : State) (b : Bytes) : Bool :=
  decide (96 ≤ b.length) && Config.ecdsaVerify s.nv.ownerKey (Config.sha384 (b.take (b.length - 96))) (b.drop (b.length - 96))

/-- The number in a rig's numbering of an instant of fabric time (02 R37). -/
def rigNumber (v : State) (ns : Nat) : Nat := strokeNumber v.phase v.period ns

/-- LATE (0x0B): the stroke named lies less than two strokes after the go, or has passed (R397; 02 R413 rule 5). -/
def State.rigLate (s : State) (v : State) (l : RigLoad) : Bool :=
  match l.at_ with
  | some b =>
    if s.rig.inForce.isSome then decide (b < l.goStroke + 2) || decide (b ≤ s.stk.num)
    else decide (b < rigNumber v l.goNs + 2) || decide (b ≤ rigNumber v s.ns)
  | none => false

/-- The checks made in staging, in the table's order: the first that fails. -/
def State.rigCheck (s : State) (l : RigLoad) (g : RigImg) : Option RigFail :=
  if !s.rigSigned g.bytes then some { status := 2 }
  else match s.rigFormat g with
    | some f => some f
    | none =>
      let v := s.rigView g
      let crews := (iota 0 16).filter g.defines
      if s.rigPartBad g then some { status := 4 }
      else if s.nv.replace && !crews.isEmpty then some { status := 5, crew := crews.headD 0 }
      else match s.rigRule g v, s.rigOverlap g v l, rigTiming v g, firstOf crews fun n => decide (0 < shortfall v g n) with
        | some n, _, _, _ => some { status := 6, crew := n }
        | none, some n, _, _ => some { status := 7, crew := n }
        | none, none, some n, _ => some { status := 8, crew := n }
        | none, none, none, some n => some { status := 9, crew := n, short := shortfall v g n }
        | none, none, none, none => if s.rigLate v l then some { status := 0xB } else none

/-! ### Loading (16 R397) -/

/-- Can no rig be loaded now (status 0x0D): headless, in a takeover, in Easy, its entry or wake, or not yet awaiting a rig
(17 R401)? -/
def State.rigUnavailable (s : State) : Bool := !s.coxActive || s.inEasy || s.inReset || decide (s.pow.step < 11)

/-- End a load with the result of a failed check. -/
def State.failLoad (s : State) (f : RigFail) : State :=
  let s := (s.setFld F.RIG_STAT_section [] f.section_).setFld F.RIG_STAT_crew [] f.crew
  (s.setPair R.RIG_SHORT_LO R.RIG_SHORT_HI [] f.short).endLoad f.status

/-- A go: the load starts (R397 step 1); one written while busy is ignored, and in test mode it has no effect (17 R411). -/
def State.goRig (s : State) (v : Word) : State :=
  if s.isSet F.RIG_CTL_busy [] || s.pow.testMode then s
  else if s.rigUnavailable then s.failLoad { status := 0xD }
  else
    let l : RigLoad := {
      addr := s.fld F.RIG_ADDR_LO_addr_lo [] * 64 + 2 ^ 32 * (s.reg R.RIG_ADDR_HI []).toNat
      inHbm := decide (bits v.toNat 2 2 = 1)
      at_ := if bits v.toNat 1 1 = 1 then some (s.pair R.RIG_AT_LO R.RIG_AT_HI []) else none
      goStroke := s.stk.num
      goNs := s.ns }
    ((s.setRig { s.rig with load := some l }).setFld F.RIG_STAT_state [] 1).liveBit F.RIG_CTL_busy [] true

/-- RIG_CTL is written: abort ends a load before B_L, go starts one. -/
def State.writeRigCtl (s : State) (v : Word) : State :=
  let s := (s.fromHost 4).hostPut R.RIG_CTL [] v
  let busy := s.isSet F.RIG_CTL_busy []
  let s := if bits v.toNat 4 4 = 1 then s.abandonLoad else s
  if bits v.toNat 0 0 = 1 ∧ busy = false then s.goRig v else s

/-- RIG_LOAD (R397): RIG_CTL is written with go. -/
def execRigLoad (v : BitVec 32) (s : State) : Host.Outcome State Fault Refusal := .next (s.writeRigCtl v)

/-- RIG_ABORT (R397): RIG_CTL is written with abort. -/
def execRigAbort (v : BitVec 32) (s : State) : Host.Outcome State Fault Refusal := .next (s.writeRigCtl v)

/-- Read bytes of the image. -/
def State.rigBytes (s : State) (l : RigLoad) (n : Nat) : List (Byte × Bool) × State :=
  if l.inHbm then s.hbmBytes l.addr n else s.hostFetch l.addr n

/-- The stroke numbers are renumbered at the completion of staging, where no rig is in force (02 R413): the rig's period,
fraction and phase come into force, and B_L is a boundary of the new numbering. -/
def State.renumber (s : State) (g : RigImg) : State :=
  let v := s.rigView g
  let lo := s.stk.bound + s.period
  let rec_ := s.recovery
  let s := s.setReg R.STK_CTL [] (rigPart R.STK_CTL (s.reg R.STK_CTL []) (v.reg R.STK_CTL []))
  let s := (s.setReg R.STK_PHASE_LO [] (v.reg R.STK_PHASE_LO [])).setReg R.STK_PHASE_HI [] (v.reg R.STK_PHASE_HI [])
  let s := s.setStk { s.stk with renum := some (lo, rec_), rx := s.stk.rx.map fun p => (p.1, { p.2 with adopt := true }) }
  s.rewake

/-- RIG_STAGED (R397 step 2): staging completes, or the first check that fails ends the load. An image with a poisoned byte
does not verify. -/
def execRigStaged (t : Nat) (s : State) : Host.Outcome State Fault Refusal :=
  let s := s.advance t
  match s.rig.load with
  | none => .next s
  | some l =>
    if l.staged || (!l.inHbm && s.pow.perst) then .next s
    else
      let (h, s) := s.rigBytes l 64
      let (b, s) := s.rigBytes l (field (plain h) 8 4)
      let g := rigOf (plain b)
      match (if anyPoison b then some { status := 2 } else s.rigCheck l g) with
      | some f => .next (s.failLoad f)
      | none =>
        let renum := s.rig.inForce.isNone
        let s := if renum then s.renumber g else s
        let first := match s.stk.renum with
          | some (lo, _) => strokeNumber s.phase s.period (lo - 1) + 1
          | none => s.stk.num + 1
        let s := s.setRig { s.rig with
          load := some { l with staged := true }, staged := some g, effect := some (l.at_.getD first) }
        .next (s.setFld F.RIG_STAT_state [] 2)

/-! ### Taking effect (16 R398, R399) -/

/-- What refuses a staged rig at B_L (table Rig-load status): BUSY, UNAVAILABLE. -/
def State.rigRefused (s : State) (g : RigImg) : Option RigFail :=
  let carried := s.carriedBy g
  match firstOf s.crewList fun n => !carried.elem n && !s.crewIdle n with
  | some n => some { status := 0xA, crew := n }
  | none => if !s.coxActive || s.inEasy then some { status := 0xD } else none

/-- A crew as the rig defines it, before its reset: STATE pages in their own frames, pools empty, slots open. -/
def newCrew (g : RigImg) (n : Nat) : Crew :=
  let state := (g.regions n).filter fun r => decide (r.cls = 0)
  let pages := (state.flatMap fun r => iota r.first r.pages).foldl
    (fun m p => Map.insert p ({ live := { page := p } } : PageSt) m) []
  let pool := fun (p : Nat) =>
    let b := ((g.sec 7).drop (64 * n + 16 * p)).take 16
    ({ base := field b 0 8, cap := field b 8 4 } : Pool)
  let slot := fun (w : Nat) =>
    let x := field (g.sec 8) (256 * n + w) 1
    (w, ({ active := decide (x % 2 = 1), stepClose := decide (x / 2 % 2 = 1) } : Slot))
  { regions := g.regions n
    key := BitVec.ofNat 128 (leNat ((((g.sec 5).drop (16 * n)).take 16).reverse))
    pools := (iota 0 4).map pool
    slots := ((iota 0 256).map slot).filter fun p => decide (p.2 ≠ {})
    pages := pages }

/-- The queue bindings of a rig; a queue whose context it unbinds or gives to another crew is disabled (R399 step 5). -/
def State.rigCtxs (s : State) (g : RigImg) : State :=
  let ctx := fun (c : Nat) =>
    let x := field (g.sec 3) c 1
    ({ bound := decide (128 ≤ x), privileged := decide (x / 64 % 2 = 1), crew := if 128 ≤ x then x % 16 else 0 } : Ctx)
  let keep := fun (c : Nat) => (ctx c).bound && (s.ctx c).bound && decide ((ctx c).crew = (s.ctx c).crew)
  let off := (s.queues.filter fun p => p.2.enable && !keep p.2.context).map fun p => p.1
  let s := s.setCtxs (((iota 0 4096).map fun c => (c, ctx c)).filter fun (p : Nat × Ctx) => decide (p.2 ≠ ({} : Ctx)))
  s.each off fun s q => s.modQueue q fun k => { k with enable := false, fetched := [] }

/-- The tally allocation of a rig; values stay until a crew reset zeroes them. -/
def State.rigTallies (s : State) (g : RigImg) : State :=
  let tal := fun (t : Nat) =>
    let x := field (g.sec 4) t 1
    ({ value := (s.tally t).value, allocated := decide (128 ≤ x), remote := decide (128 ≤ x) && decide (x / 64 % 2 = 1)
       crew := if 128 ≤ x then x % 16 else 0 } : Tally)
  s.setTallies (((iota 0 16384).map fun t => (t, tal t)).filter fun (p : Nat × Tally) => decide (p.2 ≠ ({} : Tally)))

/-- Links at B_L (R399 step 6; 08 R212): one without a role is held in low-power idle; one whose LNK_CFG_n changes, or
that is not in service at x2, trains. `old` holds the registers before. -/
def State.rigLinks (s old : State) (g : RigImg) : State :=
  s.each (iota 0 96) fun s l =>
    let ix := lnk48 l
    let s := s.modLink l fun k => { k with shares := if (g.shares l).all fun x => decide (x = 0) then [] else g.shares l }
    let fresh := fun (s : State) (st : Nat) (join : Bool) =>
      ((s.setFld F.LNK_STAT_state ix st).dropBit F.LNK_STAT_frozen ix).modLink l fun k => { k with
        usable := [true, true], degSent := false, degRecv := false, restripeDue := false, restriped := false, reconciled := false
        retryOut := false, replay := [], hdrs := [], withheld := [], idleFrom := none, retrained := none, rejoin := join }
    if s.fld F.LNK_CFG_role ix = 0 then (if s.linkState l = 5 then s else fresh s 5 false)
    else if s.reg R.LNK_CFG ix ≠ old.reg R.LNK_CFG ix ∨ s.linkState l ≠ 2 then fresh s 1 true
    else s

/-- Under the NF6 personality every status field starts as it reads (R387). -/
def State.rigPers (s old : State) : State :=
  if s.nf6 && !old.nf6 then
    let m := fun (p : Nat × Word) => match regAt p.1 with
      | some (r, _) => (p.1, p.2 &&& r.maskOf fun a => a.isStatus)
      | none => (p.1, 0)
    s.setConv { s.conv with nf6Latch := (s.regs.map m).filter fun p => decide (p.2 ≠ 0), nf6Seq := [] }
  else if s.nf6 then s
  else s.setConv { s.conv with nf6Latch := [], nf6Seq := [] }

/-- Counts that a rig starts anew for a crew: crabs, rollbacks, lost trace records, committed steps. -/
def State.rigCounts (s : State) (n : Nat) : State :=
  let s := s.setReg R.STK_CREW [n] (rigPart R.STK_CREW R.STK_CREW.reset (s.reg R.STK_CREW [n]))
  let s := s.setReg R.GLB_RCV [n] (rigPart R.GLB_RCV R.GLB_RCV.reset (s.reg R.GLB_RCV [n]))
  let s := (s.setReg R.TRC_LOST [n] 0).setFld F.CHK_STEPS_committed [n] 0
  let s := (s.setReg R.CHK_STAT [n] 0).setReg R.CHK_ACK [n] 0
  (s.setReg R.CHK_FREE [n] 0).setFld F.LNK_COLL_open [n] 0

/-- The stroke phase at B_L (R399 step 2; 02 R39): computed where the period changes, else kept. -/
def State.rigPhase (s old : State) : State :=
  if old.rig.inForce.isNone then s
  else
    let v := if s.period = old.period then old.phase else Int.ofNat s.stk.bound - Int.ofNat s.stk.num * Int.ofNat s.period
    s.setPair R.STK_PHASE_LO R.STK_PHASE_HI [] (fromSigned 64 v)

/-- After a chip reset each crew is restored to its newest point with readable copies, and held; one with none is held
without a point, its launches ABORTED_RESET (12 R304). -/
def State.chipRestore (s : State) (n : Nat) : State :=
  let s := s.modCrew n fun k => { k with
    points := k.points.dropWhile fun p => s.unusable n p.snap.slot
    freezeEnd := none, freezePoint := false, freezeSnap := none, replayEnd := none, retime := [], bRestore := none, restart := false
    releaseAt := none, ckReq := [], colls := [], restore := none, lastStop := s.stk.num
    stop := some { bStop := s.stk.num, hold := true } }
  let s := if (s.crew n).ckpt.isSome then s.endCkpt n 2 else s
  if (s.crew n).points = [] then ((s.abortTal n).abortLaunches n 9).noPoint n
  else (s.setFld F.GLB_RCV_state [n] 1).showPoints n

/-- The rig takes effect at B_L (R399), or, after a chip reset, takes effect again (12 R304). -/
def State.takeRig (s : State) (g : RigImg) : State :=
  let old := s
  let reload := s.flt.chipReload
  let carried := s.carriedBy g
  let s := (s.rigRegs g).rigPhase old
  let src := s.reg R.TIM_SRC []
  let s := (s.setReg R.TIM_SRC [] (old.reg R.TIM_SRC [])).setSource src
  let s := s.setReg R.LNK_SELF [] (BitVec.ofNat 32 (2 ^ 31 + g.package))
  let s := ((s.rigCtxs g).rigTallies g).rigPers old
  let fresh := (iota 0 16).filter fun n => g.defines n && !(reload || carried.elem n)
  let gone := (iota 0 16).filter fun n => !g.defines n
  let s := s.each gone fun s n => (s.modCrew n fun _ => {}).rigCounts n
  let s := s.each fresh fun s n =>
    (((s.modCrew n fun _ => newCrew g n).rigCounts n).beginCrewReset n).modCrew n fun k => { k with firstFrom := some s.stk.num }
  let s := s.each (iota 0 16) fun s n => (s.setFld F.SEQ_CREWCFG_members [n] (s.members n).length).showPending n
  let s := s.each s.crewList State.releaseCopies
  let s := (s.rigLinks old g).each (iota 0 64) fun s w =>
    s.setFld F.ATM_WIN_LO_ordered [w] (if s.isSet F.ATM_WIN_LO_valid [w] && s.winOrdered w then 1 else 0)
  let s := if reload then s.each s.crewList State.chipRestore else s
  let s := s
    |>.setRig { load := none, staged := none, inForce := some g, effect := none }
    |>.setFlt { s.flt with chipReload := false }
    |>.setPmc (if reload then s.pmc else { s.pmc with seq := 0 })
    |>.setNv (if reload then s.nv else { s.nv with shadowDone := false })
  let s := s.setReg R.RIG_ID [] g.id
  if reload then s.setFld F.RIG_STAT_state [] 3
  else
    let s := ((s.setFld F.RIG_STAT_state [] 4).setFld F.RIG_STAT_status [] 1).setFld F.RIG_STAT_section [] 0xFF
    (s.setFld F.RIG_STAT_crew [] 0).setPair R.RIG_SHORT_LO R.RIG_SHORT_HI [] 0

/-- What B_L brings a staged rig: it takes effect, or the load ends BUSY or UNAVAILABLE. -/
def State.rigEffect (s : State) : State :=
  match s.rig.staged with
  | none => s
  | some g =>
    match (if s.flt.chipReload then none else s.rigRefused g) with
    | some f => s.failLoad f
    | none => s.takeRig g

/-- RIG_SHADOWED (R397 step 4): the rig is in the rig shadow, and the load ends. -/
def execRigShadowed (s : State) : Host.Outcome State Fault Refusal :=
  match s.rig.inForce with
  | none => .next s
  | some g =>
    if s.fld F.RIG_STAT_state [] = 4 then
      let s := s.setNv { s.nv with shadow := some g.bytes, shadowDone := true }
      .next ((s.setFld F.RIG_STAT_state [] 3).liveBit F.RIG_CTL_busy [] false)
    else .next s

end Sys2Proof.Machine
end

