-- ==== Sys2Proof/Machine/Stroke.lean ====
section
/-!
DEFINITION. The stroke: boundaries and what takes effect at them, stroke receivers, drive ends and crabs (02).
-/
namespace Sys2Proof.Machine

/-! ### Samples and selections at a boundary (15 R373 to R375) -/

/-- A dump set as sampled at the boundary in progress; its count of skipped samples is put in when it is written. -/
def State.pmcSet (s : State) : Bytes :=
  natLe 4 0x4E46504D ++ natLe 4 s.pmc.seq ++ natLe 8 s.stk.num ++ natLe 8 s.stk.bound ++ natLe 2 0
    ++ natLe 2 (s.fld F.GLB_MODE_current []) ++ natLe 36 0 ++ (iota 0 144).flatMap s.coreRecord
    ++ s.dieRecord 0 ++ s.dieRecord 1

/-- PMC_DUMP_SAMPLE (15 R374): all counters are sampled, or the sample is skipped. -/
def State.pmcSample (s : State) : State :=
  let every := s.fld F.PMC_CTL_every []
  if s.isSet F.PMC_CTL_dump_en [] && decide (every ≠ 0) && decide (s.stk.num % every = 0) then
    let full := decide (s.pmcSets ≤ (s.reg R.PMC_TAIL [] - s.reg R.PMC_HEAD []).toNat)
    if s.pmc.set.isSome || full then
      (s.setPmc { s.pmc with skipped := satAdd s.pmc.skipped 1 0xFFFF }).raiseBit F.PMC_CTL_skip_hist []
    else s.setPmc { s.pmc with set := some s.pmcSet }
  else s

/-- Selections and a clear asked for since the last boundary take effect (15 R373, R375). -/
def State.pmcBoundary (s : State) : State :=
  let s := s.pmcSample
  let s := (s.setPmc { s.pmc with selNext := [] }).each s.pmc.selNext fun s p =>
    match regAt p.1 with | some (r, ix) => s.hostPut r ix p.2 | none => s
  if s.pmc.clearNext then
    let perf := fun (a : Nat) =>
      match regAt a with | some (r, _) => decide (r.base = R.PMC_CNT_LO_CORE.base) || decide (r.base = R.PMC_CNT_LO_IOD.base) | none => false
    let s := s.setPmc { s.pmc with clearNext := false, counts := s.pmc.counts.filter fun p => !perf p.1 }
    (s.each (iota 0 144) fun s c => s.setReg R.PMC_OVF_CORE [c] 0).each (iota 0 2) fun s d => s.setReg R.PMC_OVF_IOD [d] 0
  else s

/-! ### Boundary actions (R41) -/

/-- Table SETs of the last stroke act: by core, then in command order (03 R89 rule 3). -/
def State.doTabSets (s : State) : State :=
  let mine := fun (c : Nat) => s.tabSets.filter fun w => decide (w.core = c)
  (s.setTabSets []).each ((iota 0 144).flatMap mine) fun s w => s.putTally w.tally w.value

/-- Remote ADDs held under FIXED act for a crew that works in the stroke that begins (03 R89 rule 1). -/
def State.doRemote (s : State) (n : Nat) : State :=
  if s.mayStart n then
    let l := (s.crew n).remHeld
    (s.modCrew n fun k => { k with remHeld := [] }).each l fun s w => s.putTally w.1 ((s.tally w.1).value + w.2.1)
  else s

/-- Balancing is in force from this boundary on if it is asked for and FIXED is off; pool items are numbered (03 R93). -/
def State.poolBoundary (s : State) (n : Nat) : State :=
  let s := s.liveBit F.SEQ_CREWCFG_lb_active [n] (s.isSet F.SEQ_CREWCFG_lb_enable [n] && !s.fixed)
  s.modCrew n fun k => { k with pools := k.pools.map Pool.number }

/-- The other members of a launch that a format error or a timeout ends stop issuing (03 R69, R71). -/
def State.stopMembers (s : State) (n : Nat) : State :=
  match (s.crew n).runningLaunch with
  | some l =>
    if l.stopNext then
      s.each (s.members n) fun s c => s.modCore c fun k => { k with seq := { k.seq with stopped := true }, posts := [] }
    else s
  | none => s

/-- What a boundary does on the cox die: a new management key comes into force (14 R367). -/
def State.coxBoundary (s : State) : State :=
  match s.cox.mgmtNext with
  | some k => s.setCox { s.cox with mgmtKey := k, mgmtNext := none }
  | none => s

/-- Do the dies beside the cox die take boundaries: their clocks run? -/
def State.diesRun (s : State) : Bool := !s.inEasy && !s.inReset && !s.pow.tripped && decide (5 ≤ s.pow.step)

/-- Everything that takes effect at a boundary (R41; 03 R75, R89; 12 R285, R288; 13 R318; 08 R209; 15 R374). -/
def State.boundaryActions (s : State) : State :=
  let s := s.coxBoundary
  if !s.diesRun then s.pump
  else
    let s := s.endMode.beginMode.rampVid.enterEasy
    let crews := s.crewList
    let s := (s.each crews State.holdFreeze).doTabSets
    let s := (s.each crews State.recoverBoundary).each crews State.crewBoundary
    let s := (s.each crews State.doRemote).doHostTal
    let s := s.each crews fun s n => (s.poolBoundary n).stopMembers n
    let s := s.each (s.cores.map fun p => p.1) fun s c => s.modCore c fun k => { k with added := [] }
    let s := s.acceptAll
    let s := s.each (iota 0 96) fun s l => (s.linkBoundary l).drainColl l
    let s := s.pmcBoundary.capBoundary
    let s := ((s.each crews State.flushCpls).each crews State.beginCrew).ringFlush
    (s.each (crews.filter fun n => s.isSet F.STK_CREW_carrying [n]) fun s n => s.showDom (.crew n)).pump

/-! ### The generator (R37 to R40, R46, R413) -/

/-- The number of the boundary that has come by now, if one has. -/
def State.risen (s : State) : Option Nat :=
  let n := strokeNumber s.phase s.period s.ns
  match s.stk.renum with
  | some (lo, _) => if lo ≤ s.ns ∧ strokeNumber s.phase s.period (lo - 1) < n then some n else none
  | none => if s.stk.num < n then some n else none

/-- A count jump (R48): the stroke that begins at the next boundary carries no work. -/
def State.countJump (s : State) (rx : Nat) : State :=
  (s.setStk { s.stk with noWork := s.stk.noWork ++ [(s.stk.num + 1, rx)] }).raiseBit F.STK_RX_jump [rx]

/-- The generator's number rises (R37, R40, R46): the frame goes out on the stroke line, and the drive begins. -/
def State.beginStroke (s : State) (n : Nat) : State :=
  let jumped := s.stk.renum.isNone && decide (s.stk.num + 1 < n)
  let s := s.setStk { s.stk with
    num := n
    bound := (s.boundaryOf n).toNat
    drive := true
    renum := none
    frame := BitVec.ofNat 32 (0xF9A8 * 2 ^ 16 + n % 2 ^ 16) }
  if jumped then s.each (iota 0 3) State.countJump else s

/-- The recovery ends with what it owes: the comparisons of its stroke (R62), the verdicts due (10 R245) and the floor lines
of scrub (R60). -/
def State.endRecovery (s : State) : State :=
  if s.stk.drive then s else s.compareAll.verdictsDue.floorLines.setRecess {}

/-- STROKE_BOUNDARY (R41): the boundary's number is taken, and everything that waits for a boundary takes effect; at B_L
the rig comes first, as RIG_TAKE_EFFECT. -/
def execStrokeBoundary (t : Nat) (s : State) : Host.Outcome State Fault Refusal :=
  let s := s.advance t
  match s.risen with
  | some n =>
    if !s.isSet F.STK_CTL_running [] then .next s
    else
      let s := s.endRecovery.beginStroke n
      .next (if s.rigDue then s else s.boundaryActions)
  | none => .next s

/-- WAKE_COMPLETE (01 R32, R34, R35, R41): at the boundary T_first the package is awake, and what waits for a boundary takes
effect. -/
def execWakeComplete (t : Nat) (notReady : List Part) (s : State) : Host.Outcome State Fault Refusal :=
  let s := s.advance t
  if s.pow.easy = .waking ∧ s.pow.tFirst ≤ s.stk.bound ∧ s.stk.drive = true ∧ s.ns ≤ s.stk.bound + 1 then
    let s := s.wakeUp notReady
    .next (if s.rigDue then s else s.boundaryActions)
  else .next s

/-- RIG_TAKE_EFFECT (16 R399): at B_L, before every other action of the boundary. -/
def execRigTakeEffect (s : State) : Host.Outcome State Fault Refusal :=
  .next (if s.rigDue then s.rigEffect.boundaryActions else s)

/-! ### Stroke receivers (R47 to R49) -/

/-- The die's or chip's counters count a receiver event: 0 missed, 1 out of window, 2 resync (15 R373). -/
def State.pmcRx (s : State) (rx event : Nat) : State :=
  if rx = 0 then s.each (iota 0 144) fun s c => s.pmcCore c (0x10 + event) none else s.pmcDie (rx - 1) (0x52 + event) none

/-- A receiver's flywheel. -/
def State.rx (s : State) (n : Nat) : Flywheel := Map.getD {} s.stk.rx n

/-- The value nearest to a count whose low 16 bits are given (R48). -/
def nearest16 (count : Nat) (num : BitVec 16) : Nat :=
  fromSigned 64 (Int.ofNat count + toSigned 16 (num - BitVec.ofNat 16 count).toNat)

/-- A classified mark fixes the next prediction: it comes into force at once where the boundary has been emitted. -/
def Flywheel.settle (f : Flywheel) (next : Nat) : Flywheel :=
  if f.emitted then { f with count := f.count + 1, pred := next, emitted := false, next := none } else { f with next := some next }

/-- The replica of fabric time of a receiver's die is anchored at an accepted mark to the instant of its boundary, the line delay
being out of both (09 R220). -/
def State.anchorReplica (s : State) (rx count : Nat) : State :=
  let base := (s.boundaryOf count).toNat * 2 ^ 32
  s.modRx rx fun f => { f with repBase := base, repRaw := s.raw, repRate := s.rate }

/-- A mark is adopted in HUNT or DEAD, and the receiver is LOCKED (R47, R48). -/
def State.resync (s : State) (rx : Nat) : State :=
  ((s.bump F.STK_RX_resyncs [rx] 1).setFld F.STK_RX_state [rx] 0).pmcRx rx 2

/-- Do a receiver's flywheel commands concern a die that runs? Its clocks are up from step 5 of power-up on, and step 10 waits
for it to lock (17 R401). -/
def State.rxRuns (s : State) (rx : Nat) : Bool := decide (rx < 3) && !s.inEasy && !s.pow.tripped && decide (5 ≤ s.pow.step)

/-- STROKE_MARK (R47, R48, R413 rule 4): a mark ends at an instant, with its 16 number bits. The first mark after power-up or a
chip reset is adopted as it comes and counts as a resync of a receiver in HUNT; the out-of-window run is 0 again on entering
HUNT: DESIGN CHOICE (assumption log 25). -/
def execStrokeMark (rx : Nat) (t : Nat) (num : BitVec 16) (s : State) : Host.Outcome State Fault Refusal :=
  let s := s.advance t
  if !s.rxRuns rx then .next s
  else
    let f := s.rx rx
    let st := s.fld F.STK_RX_state [rx]
    let now := s.ns
    let off := if now ≤ f.pred then f.pred - now else now - f.pred
    if f.adopt then
      let count := nearest16 s.stk.num num
      let s := s.modRx rx fun _ => { count := count + 1, pred := now + s.period, adopt := false }
      let s := s.anchorReplica rx count
      .next (if st = 0 then s else s.resync rx)
    else if f.next.isSome || decide (s.period / 2 < off) then .next s
    else if st = 0 then
      if off ≤ 2 ∧ num = BitVec.ofNat 16 f.count then
        .next ((s.anchorReplica rx f.count).modRx rx fun f => ({ f with run := 0, missRun := 0 }).settle (now + s.period))
      else
        let hunt := decide (2 ≤ f.run)
        let s := (s.bump F.STK_RX_out_of_window [rx] 1).pmcRx rx 1
        let s := s.modRx rx fun f => ({ f with run := if hunt then 0 else f.run + 1 }).settle (f.pred + s.period)
        .next (if hunt then s.setFld F.STK_RX_state [rx] 1 else s)
    else
      let count := nearest16 f.count num
      let s := (s.anchorReplica rx count).resync rx
      let s := s.modRx rx fun f => ({ f with count := count, run := 0, missRun := 0 }).settle (now + s.period)
      .next (if count = f.count then s else s.countJump rx)

/-- FLYWHEEL_BOUNDARY (R47): the predicted instant comes, and the receiver gives its blocks the boundary. -/
def execFlywheelBoundary (rx : Nat) (t : Nat) (s : State) : Host.Outcome State Fault Refusal :=
  let s := s.advance t
  let f := s.rx rx
  if !s.rxRuns rx || f.adopt || f.emitted || decide (s.ns < f.pred) then .next s
  else
    .next ((s.noteCapture (5 + rx) 0 0 rx).modRx rx fun f => match f.next with
      | some p => { f with count := f.count + 1, pred := p, next := none }
      | none => { f with emitted := true })

/-- MISSED_MARK (R47, R49): no mark within half a period of the prediction; the sixteenth in a run enters DEAD. In DEAD a
missed mark is counted too: DESIGN CHOICE (assumption log 25). -/
def execMissedMark (rx : Nat) (t : Nat) (s : State) : Host.Outcome State Fault Refusal :=
  let s := s.advance t
  let f := s.rx rx
  if !s.rxRuns rx || f.adopt || !f.emitted || decide (s.ns ≤ f.pred + s.period / 2) then .next s
  else
    let s := (s.bump F.STK_RX_missed [rx] 1).pmcRx rx 0
    let s := s.modRx rx fun f => ({ f with missRun := f.missRun + 1 }).settle (f.pred + s.period)
    if f.missRun = 15 ∧ s.fld F.STK_RX_state [rx] ≠ 2 then
      let s := (s.setFld F.STK_RX_state [rx] 2).raiseBit F.STK_RX_dead_hist [rx]
      .next (s.raiseFault { s.fault0 6 3 0x0609 with die := rx })
    else .next s

/-! ### The drive end (R43, R44, R53, R54) -/

/-- When the drive of the stroke in progress ends; at a renumbering the recovery of the old numbering comes before the
first new boundary (R413 rule 3). -/
def State.driveEndAt (s : State) : Nat :=
  match s.stk.renum with
  | some (lo, rec_) => (s.boundaryOf (strokeNumber s.phase s.period (lo - 1) + 1)).toNat - rec_
  | none => s.driveEndNs

/-- The lowest unit of a core that holds an incomplete command. -/
def State.busyUnit (s : State) (c : Nat) : Option Nat :=
  let k := s.core c
  match (iota 0 12).find? fun e => let x := s.eng c e; decide (x.q ≠ []) || decide (x.out ≠ []) with
  | some e => some e
  | none => if k.vecq ≠ [] then some 0xC else if k.dmaq ≠ [] then some 0xD else none

/-- Where the next entry that may still issue stands: past an entry that its timed-out waits skip (R65, R67). -/
def State.nextEntry (s : State) (c n : Nat) : Nat :=
  let q := (s.core c).seq
  match q.waits, s.peekWord c n q.table q.pos with
  | some ws, some h =>
    if (ws.any fun w => w.expired) && (ws.all fun w => w.sat || w.expired) && hdrSkip h && !s.fixed then q.pos + 1 + hdrWords h
    else q.pos
  | _, _ => q.pos

/-- Has the next entry of a core's table its stroke by now, without having issued? -/
def State.entryDue (s : State) (c n : Nat) : Bool :=
  let q := (s.core c).seq
  let pos := s.nextEntry c n
  q.accept.isSome && !q.ended && !q.stopped && decide (pos < q.table.len)
    && (match s.peekWord c n q.table pos with
      | some h => decide (q.start + hdrOffset h + q.shift + s.slipOf n ≤ s.stk.num)
      | none => false)

/-- The unsatisfied wait of a core that is due: its tally. -/
def State.openWait (s : State) (c : Nat) : Option Nat :=
  let k := s.core c
  let open_ := fun (w : Wait) => !w.sat && !w.expired
  let header := if k.seq.stopped then none else (k.seq.waits.getD []).find? open_
  ((k.waits.head?).map fun w => w.wait.tally).or (header.map fun w => w.tally)

/-- A link that at the drive end still holds a flit of a crew that this stroke or an earlier one launched (R44). -/
def State.lateLink (s : State) (n : Nat) : Option Nat :=
  (s.links.find? fun p => (p.2.rxHeld.any fun f => decide (f.crew = some n) && decide (f.stroke ≤ s.stk.num))
    || (p.2.rxColl.any fun c => decide (c.crew = n) && decide (c.stroke ≤ s.stk.num))
    || p.2.hdrs.any fun h => decide (h.1 = 2 ∧ h.2.1 = n) && decide (h.2.2 ≤ s.stk.num)).map fun p => p.1

/-- Does a launch of a crew begin in, or have an entry due in, the stroke in progress? -/
def State.workDue (s : State) (n : Nat) : Bool :=
  ((s.members n).any fun c => s.entryDue c n)
    || ((s.crew n).runningLaunch.isNone && (s.crew n).launches.any fun l => l.finished.isNone && decide (l.start ≤ s.stk.num))

/-- Why a crew has crabbed at this drive end, with the detail of its record: the lowest event that holds (R53; 12 R296). Flits
held over the drive end and a start that finds another launch running are crabs of a TIMED crew alone (R44; 03 R77). An entry
that is due, or words that the sequencer holds, name the sequencer's unit code 0xE: DESIGN CHOICE (assumption log 25). -/
def State.crabCause (s : State) (n : Nat) : Option (Nat × Nat) :=
  let cores := s.members n
  let due := cores.filter fun c => s.entryDue c n
  let held := cores.find? fun c =>
    let k := s.core c
    !k.seq.stopped && (decide (k.seq.held ≠ []) || decide (k.tq ≠ []) || due.elem c) && (s.openWait c).isNone
  ((cores.findSome? s.busyUnit).map fun u => (0x0501, u)).or <|
    (held.map fun _ => (0x0501, 0xE)).or <|
    (if s.timed n then (s.lateLink n).map fun l => (0x0502, l) else none).or <|
    ((cores.findSome? s.openWait).map fun t => (0x0503, t)).or <|
    if s.timed n then (s.crew n).clash.map fun a => (0x0504, a % 2 ^ 32) else none

/-- An ELASTIC crew at a drive end (R54): with work left it pauses and slips a stroke. -/
def State.slipCrew (s : State) (n : Nat) (late : Bool) : State :=
  let s := if late then
      ((s.crab n 0x0501 0).bump F.STK_CREW_slip_run [n] 1).modCrew n fun k => { k with slip := k.slip + 1 }
    else s.setFld F.STK_CREW_slip_run [n] 0
  (s.liveBit F.STK_CREW_carrying [n] late).showDom (.crew n)

/-- Flits of a TIMED crew that a link still holds are discarded (R44). -/
def State.discardLate (s : State) (n : Nat) : State :=
  s.each (s.links.map fun p => p.1) fun s l =>
    let late := fun (f : Flit) => decide (f.crew = some n) && decide (f.stroke ≤ s.stk.num)
    let lateColl := fun (p : CollHeld) => decide (p.crew = n) && decide (p.stroke ≤ s.stk.num)
    let lateHdr := fun (h : Nat × Nat × Nat) => decide (h.1 = 2 ∧ h.2.1 = n) && decide (h.2.2 ≤ s.stk.num)
    let k := s.link l
    let s := s.modLink l fun k => { k with
      rxHeld := k.rxHeld.filter fun f => !late f
      rxColl := k.rxColl.filter fun p => !lateColl p
      hdrs := k.hdrs.filter fun h => !lateHdr h }
    let s := s.each (k.rxHeld.filter late) fun s f => (s.leaveSlot l n f.vc f.slot).loseFlit l n f.cls f.vc f.last f.bytes
    let s := s.each (k.rxColl.filter lateColl) fun s p => s.leaveSlot l n .bulk p.slot
    s.each (k.hdrs.filter lateHdr) fun s _ => s.leaveSlot l n .bulk true

/-- The crab check of a crew at a drive end. -/
def State.crabCheck (s : State) (n : Nat) : State :=
  let cause := s.crabCause n
  if s.timed n then
    let s := s.discardLate n
    match cause with | some (e, d) => s.crab n e d | none => s
  else s.slipCrew n cause.isSome

/-- In a stroke emptied by a count jump a TIMED crew with work due crabs (R48). Where several receivers jumped, the detail
names the one of the lowest number: DESIGN CHOICE (assumption log 25). -/
def State.jumpCheck (s : State) (n : Nat) : State :=
  match ((s.stk.noWork.filter fun p => decide (p.1 = s.stk.num)).map fun p => p.2).min? with
  | some die => if s.timed n && !s.halted n && !s.frozen n && s.workDue n then s.crab n 0x0505 die else s
  | none => s

/-- What a unit's commands have done so far: tag, progress and rows of each. -/
def sigOf (l : List QCmd) : List (Nat × Nat × Nat) := l.map fun q => (q.tag, q.done, q.rows)

/-- Drives without progress: one more where a unit that holds commands did nothing since the last drive end (12 R294). -/
def stillFor (old now : List (Nat × Nat × Nat)) (n : Nat) : Nat := if now.isEmpty then 0 else if now = old then n + 1 else 0

/-- Watch the progress of a core's units over this drive. -/
def State.watchCore (s : State) (c : Nat) : State :=
  s.modCore c fun k => { k with
    eng := k.eng.map fun p =>
      let now := sigOf p.2.q
      (p.1, { p.2 with noProgress := stillFor p.2.sig now p.2.noProgress, sig := now })
    vecIdle := stillFor k.vecSig (sigOf k.vecq) k.vecIdle
    vecSig := sigOf k.vecq
    dmaIdle := stillFor k.dmaSig (sigOf k.dmaq) k.dmaIdle
    dmaSig := sigOf k.dmaq }

/-- DRIVE_END (R43, R44, R53, R54): waits that expire do so first (03 R67); then each crew that worked in the stroke is
checked, and the recovery begins. -/
def execDriveEnd (t : Nat) (s : State) : Host.Outcome State Fault Refusal :=
  let s := s.advance t
  if !s.stk.drive || decide (s.ns < s.driveEndAt) || s.rigDue then .next s
  else
    let crews := s.crewList.filter s.works
    let s := s.each (crews.flatMap s.members) State.expireWaits
    let s := s.each (crews.flatMap s.members) State.watchCore
    let empty := s.emptyStroke
    let s := (s.setStk { s.stk with drive := false }).recoveryLinks
    let s := s.each crews State.crabCheck
    .next (if empty && s.diesRun && !s.stalled then s.each s.crewList State.jumpCheck else s)

end Sys2Proof.Machine
end

