-- ==== Sys2Proof/Machine/Observe.lean ====
section
/-!
DEFINITION. Counters and trace (15): latched reads of register pairs, performance-counter dumps and selections, trace drains.
-/
namespace Sys2Proof.Machine

/-! ### Register pairs (R371; 16 R382) -/

/-- Low registers whose read latches the register after them: the counters, STK_NUM, SEQ_ACCNUM, ENG_CHAINK, HBM_ERRADDR,
TIM_RAW, the journal's numbers and RIG_SHORT (R371; 02, 03, 04, 07, 09, 14 and 16, Registers). -/
def latchLows : List Nat :=
  counterLows ++ [R.STK_NUM_LO.base, R.SEQ_ACCNUM_LO.base, R.ENG_CHAINK_LO.base, R.HBM_ERRADDR_LO.base, R.TIM_RAW_LO.base,
    R.JNL_CURSOR_LO.base, R.JNL_OLDEST_LO.base, R.JNL_NEWEST_LO.base, R.RIG_SHORT_LO.base]

/-- The offsets that a read of this register latches: TIM_NOW_FRAC latches TIM_NOW_LO and TIM_NOW_HI (09, Registers). -/
def latchedBy (off : Nat) : List Nat :=
  match regAt off with
  | some (r, _) => if r.base = R.TIM_NOW_FRAC.base then [off + 4, off + 8] else if latchLows.elem r.base then [off + 4] else []
  | none => []

/-- PAIR_LO_READ (R371): the low bits are returned and the high bits latched, for the host or for the management cores apart
(16 R382). -/
def execPairLoRead (who : Reader) (off : Nat) (s : State) : Host.Outcome State Fault Refusal :=
  let keep := fun (l : List (Nat × Word)) => (latchedBy off).foldl (fun l o => Map.insert o (s.readReg o) l) l
  match who with
  | .host =>
    if s.strayAt off then .next (s.stray.giveWord 0xFFFFFFFF)
    else .next ((s.setConv { s.conv with latch := keep s.conv.latch }).giveWord (s.readReg off))
  | .mgmt => .next (s.setCox { s.cox with mgmtLatch := keep s.cox.mgmtLatch })

/-! ### Performance counters (R373 to R375) -/

/-- PMC_DUMP_WRITE (R374, R375; 02 R59, R60): in a recovery, on the counter client's turn, the next record of the sampled set
is written to the dump ring; its header takes the count of the samples skipped, and with the last record the set is done. -/
def execPmcDumpWrite (s : State) : Host.Outcome State Fault Refusal :=
  match s.pmc.set with
  | some b =>
    let a := s.pmcAddr
    if s.turn (stackOf a) .pmc then
      let i := s.pmc.done
      let set := if i = 0 then b.take 24 ++ natLe 2 s.pmc.skipped ++ b.drop 26 else b
      let s := (s.charge (stackOf a) .pmc).hbmPut a (clean ((set.drop (pmcRecord i).1).take (pmcRecord i).2))
      let s := if i = 0 then s.setPmc { s.pmc with skipped := 0 } else s
      .next (if i < 146 then s.setPmc { s.pmc with done := i + 1 }
        else (s.setReg R.PMC_TAIL [] (s.reg R.PMC_TAIL [] + 1)).setPmc { s.pmc with set := none, done := 0, seq := s.pmc.seq + 1 })
    else .next s
  | none => .next s

/-- PMC_CLEAR (R375): PMC_CTL is written; clear acts at the next boundary. -/
def execPmcClear (v : BitVec 32) (s : State) : Host.Outcome State Fault Refusal :=
  .next (s.hostReg R.PMC_CTL.base v fun s =>
    let s := s.hostPut R.PMC_CTL [] v
    if bits v.toNat 30 30 = 1 then (s.setPmc { s.pmc with clearNext := true }) else s)

/-- A write to a PMC_SEL register waits for the next boundary (R373). -/
def State.writeSel (s : State) (off : Nat) (v : Word) : State :=
  s.setPmc { s.pmc with selNext := Map.insert off v s.pmc.selNext }

/-- Is this the offset of a PMC_SEL register? -/
def isSel (off : Nat) : Bool :=
  match regAt off with
  | some (r, _) => decide (r.base = R.PMC_SEL_CORE.base) || decide (r.base = R.PMC_SEL_IOD.base)
  | none => false

/-- PMC_SEL_WRITE (R373): the counted event changes at the next boundary, and the counter keeps its value. -/
def execPmcSelWrite (off : Nat) (v : BitVec 32) (s : State) : Host.Outcome State Fault Refusal :=
  if isSel off then .next (s.hostReg off v fun s => s.writeSel off v) else .next s

/-! ### Trace (R377 to R379) -/

/-- The 32 bytes of a trace record. -/
def Trc.bytes (r : Trc) : Bytes :=
  natLe 8 r.time ++ natLe 1 r.kind ++ natLe 1 r.unit ++ natLe 1 r.core ++ natLe 1 r.flags ++ natLe 2 r.ctx ++ natLe 2 r.entry
    ++ natLe 8 r.accept ++ natLe 4 r.stroke ++ natLe 4 r.detail

/-- Write a record at the tail of a crew's ring. -/
def State.tracePut (s : State) (n : Nat) (r : Trc) : State :=
  let s := s.hbmPut (s.traceAddr n) (clean r.bytes)
  s.setReg R.TRC_TAIL [n] (s.reg R.TRC_TAIL [n] + 1)

/-- Drain one record of core c into crew n's ring (R378, R379): behind a run of drops it follows a LOSS record; with no
room it is dropped and counted. -/
def State.drainRecord (s : State) (n c : Nat) (r : Trc) : State :=
  let run := Map.find c s.pmc.trcRun
  let s := match run with
    | some l =>
      if s.traceFull n then s
      else
        let loss : Trc := { r with
          time := l.time, kind := 4, unit := 0xFF, flags := r.flags % 64, entry := 0, accept := 2 ^ 64 - 1, stroke := l.stroke,
          detail := l.count }
        (s.setPmc { s.pmc with trcRun := Map.erase c s.pmc.trcRun }).tracePut n loss
    | none => s
  if s.traceFull n then
    let l : LossRun := match Map.find c s.pmc.trcRun with
      | some l => { l with count := satAdd l.count 1 0xFFFFFFFF }
      | none => { count := 1, time := r.time, stroke := r.stroke }
    let s := s.setPmc { s.pmc with trcRun := Map.insert c l s.pmc.trcRun }
    s.setReg R.TRC_LOST [n] (BitVec.ofNat 32 (satAdd (s.reg R.TRC_LOST [n]).toNat 1 0xFFFFFFFF))
  else s.tracePut n r

/-- TRACE_DRAIN (R378, R379; 02 R59): in a recovery, on the trace client's turn, one staged record of the next core goes to the
crew's ring; a record for which the ring has no room is dropped without a request. -/
def execTraceDrain (crew : Nat) (s : State) : Host.Outcome State Fault Refusal :=
  let k := stackOf (s.traceAddr crew)
  if s.isSet F.TRC_CTL_enable [crew] && (s.turn k .trace || (s.hbmServed && s.traceFull crew)) then
    match s.traceCore crew with
    | some c =>
      match (s.core c).trc with
      | r :: rest =>
        let s := if s.traceFull crew then s else s.charge k .trace
        let s := s.modCore c fun k => { k with trc := rest }
        let s := s.setPmc { s.pmc with trcNext := Map.setD 0 s.pmc.trcNext crew ((c + 1) % 144) }
        .next (s.drainRecord crew c r)
      | [] => .next s
    | none => .next s
  else .next s

end Sys2Proof.Machine
end

