-- ==== Sys2Proof/Machine/Registers.lean ====
section
/-!
DEFINITION. The register conventions (16 R382 to R391): writes of registers without a row of their own, bad accesses, the NF6
personality, and configuration parity with its reloads.
-/
namespace Sys2Proof.Machine

/-! ### Writes (R382, R386) -/

/-- Registers whose write is a command of its own. -/
def ownWrites : List RegDef :=
  [R.GLB_MODE, R.GLB_EASY, R.GLB_WAKE_AT_LO, R.GLB_WAKE_AT_HI, R.TAL_ADD, R.TAL_SET, R.SEQ_QCFG, R.ENG_ACC_DATA, R.HBM_LOOP,
   R.LNK_LOOP, R.WCH_CTL, R.GLB_FLT_CTL, R.GLB_RCV_CMD, R.CHK_CMD, R.TIM_SET_HI, R.TIM_CAP, R.PMC_CTL, R.PMC_SEL_CORE,
   R.PMC_SEL_IOD, R.GLB_NF6_CLR, R.PCI_BAR4, R.RIG_CTL]

/-- Registers that only the management cores write (09, TIM_PTPM; 14, COX_BEAT). -/
def coreWrites : List RegDef := [R.TIM_PTPM_LO, R.TIM_PTPM_HI, R.COX_BEAT]

/-- A write of a queue register through SEQ_QSEL (03 R72, R73). -/
def State.writeQueue (s : State) (off : Nat) (v : Word) : State :=
  s.modQueue (s.fld F.SEQ_QSEL_queue []) fun k =>
    if off = 0x408 then { k with ringLo := v &&& 0xFFFFFFC0 }
    else if off = 0x40C then { k with ringHi := v }
    else if off = 0x410 then { k with cplLo := v &&& 0xFFFFFFE0 }
    else if off = 0x414 then { k with cplHi := v }
    else if off = 0x418 ∧ k.enable = false then { k with expected := v }
    else k

/-- A write of a register without a row of its own takes its fields by their access codes (R386), and shows what it
changes; so does a command register written without go, and one written with a reserved operation refuses it (12 R302, 13
R324, 17 R412). -/
def State.writeReg (s : State) (off : Nat) (v : Word) : State :=
  match regAt off with
  | none => s
  | some (r, ix) =>
    let is := fun (l : List RegDef) => l.any fun x => decide (x.base = r.base)
    let go := decide (v.toNat % 2 = 1)
    let op := bits v.toNat 27 24
    if r.base = R.GLB_RCV_CMD.base ∧ (go = false ∨ op = 0 ∨ 8 < op) then
      let s := s.hostPut r ix v
      if go then s.rcvRefuse else s
    else if r.base = R.CHK_CMD.base ∧ (go = false ∨ op = 0 ∨ 5 < op) then
      let s := s.hostPut r ix v
      if go then s.chkRefuse else s
    else if r.base = R.LNK_LOOP.base ∧ 4 < bits v.toNat 26 24 then (s.putRwb r ix v).setFld F.LNK_LOOP_result ix 3
    else if is (ownWrites ++ coreWrites) then s
    else if 0x408 ≤ off ∧ off ≤ 0x418 then s.writeQueue off v
    else if r.base = R.GLB_NF6_SEL.base ∧ s.nf6 = false then s
    else if r.base = R.TIM_SET_LO.base then s.setReg r ix v
    else if is [R.LOG_CURSOR, R.LOG_CTL] then (s.hostPut r ix v).showLog
    else if is [R.JNL_CURSOR_LO, R.JNL_CURSOR_HI, R.JNL_STAT] then (s.hostPut r ix v).showJnlGone
    else s.hostPut r ix v

/-- REGISTER_WRITE (R386). -/
def execRegisterWrite (off : Nat) (v : BitVec 32) (s : State) : Host.Outcome State Fault Refusal :=
  .next (s.hostReg off v fun s => s.writeReg off v)

/-- PCI_BAR4_WRITE (R384): the window moves for requests that arrive later. -/
def execPciBar4Write (v : BitVec 32) (s : State) : Host.Outcome State Fault Refusal :=
  .next (s.hostReg R.PCI_BAR4.base v fun s => s.hostPut R.PCI_BAR4 [] v)

/-- BAR0_BAD_ACCESS (R382): a read returns ones and a write is discarded; acc_hist is set. -/
def execBar0BadAccess (write : Bool) (off bytes : Nat) (s : State) : Host.Outcome State Fault Refusal :=
  if (bytes = 4 ∧ off % 4 = 0) ∨ (bytes = 8 ∧ off % 8 = 0) then .next s
  else
    let s := if write then s.fromHost bytes else s.giveHost (List.replicate bytes 0xFF) false
    .next (s.raiseBit F.GLB_CFGPAR_acc_hist [])

/-! ### HBM loop-back (07 R185) -/

/-- A write of HBM_LOOP with a mode: refused with a rig loaded or while busy, else its fields take it (R185; 00 R6). -/
def State.hbmLoop (s : State) (stack mode : Nat) (v : Word) : State :=
  let ix := stk4 stack
  let s := s.fromHost 4
  if s.strayAt (R.HBM_LOOP.addr ix) then s.stray
  else if s.rig.inForce.isSome || s.isSet F.HBM_LOOP_busy ix then (s.putRwb R.HBM_LOOP ix v).setFld F.HBM_LOOP_result ix 3
  else
    let s := (s.hostPut R.HBM_LOOP ix v).setFld F.HBM_LOOP_mode ix mode
    if mode = 0 then s.setFld F.HBM_STAT_rate ix s.pinRate
    else if v.toNat % 2 = 1 then (s.setFld F.HBM_STAT_rate ix 3).liveBit F.HBM_LOOP_busy ix true
    else s

/-- HBM_LOOP_NEAR_DIGITAL (R185): HBM_LOOP is written with mode 0b01. -/
def execHbmLoopNearDigital (stack : Nat) (v : BitVec 32) (s : State) : Host.Outcome State Fault Refusal :=
  .next (s.hbmLoop stack 1 v)

/-- HBM_LOOP_PHY_ANALOGUE (R185): mode 0b10. -/
def execHbmLoopPhyAnalogue (stack : Nat) (v : BitVec 32) (s : State) : Host.Outcome State Fault Refusal :=
  .next (s.hbmLoop stack 2 v)

/-- HBM_LOOP_BASE_DIE (R185): mode 0b11. -/
def execHbmLoopBaseDie (stack : Nat) (v : BitVec 32) (s : State) : Host.Outcome State Fault Refusal :=
  .next (s.hbmLoop stack 3 v)

/-- HBM_LOOP_OFF (R185): mode 0b00, and the pseudo-channels return to service. -/
def execHbmLoopOff (stack : Nat) (v : BitVec 32) (s : State) : Host.Outcome State Fault Refusal :=
  .next (s.hbmLoop stack 0 v)

/-- HBM_LOOP_DONE (R185): a test ends with a number of bit errors. -/
def execHbmLoopDone (stack errors : Nat) (s : State) : Host.Outcome State Fault Refusal :=
  let ix := stk4 stack
  if s.isSet F.HBM_LOOP_busy ix then
    .next ((((s.liveBit F.HBM_LOOP_busy ix false).setFld F.HBM_LOOP_result ix (if errors = 0 then 1 else 2)).setFld
      F.HBM_LOOP_ERR_bit_errors ix (satAdd 0 errors (2 ^ 32 - 1))))
  else .next s

/-! ### The NF6 personality (R387) -/

/-- GLB_NF6_SEQ_READ (R387 rule 3): the sequence number is returned, and the latched value goes to GLB_NF6_DATA. -/
def execGlbNf6SeqRead (s : State) : Host.Outcome State Fault Refusal :=
  if s.nf6 then
    let v := s.readReg (4 * s.fld F.GLB_NF6_SEL_word [])
    .next ((s.setReg R.GLB_NF6_DATA [] v).giveWord (s.readReg R.GLB_NF6_SEQ.base))
  else .next (s.giveWord 0)

/-- GLB_NF6_CLR (R387 rule 4): the named register's status fields are cleared only under its present number; those whose
cause persists set again. -/
def execGlbNf6Clr (v : BitVec 32) (s : State) : Host.Outcome State Fault Refusal :=
  let s := s.fromHost 4
  let off := 4 * bits v.toNat 23 0
  match regAt off with
  | none => .next s
  | some (r, ix) =>
    let seq := Map.getD 0 s.conv.nf6Seq off
    if s.nf6 && isStatus r && seq == BitVec.ofNat 8 (bits v.toNat 31 24) then
      let live := (s.special r ix).getD (s.reg r ix) &&& r.statusMask .rl
      let s := if (s.special r ix).isSome then s else s.setReg r ix (s.reg r ix &&& ~~~ r.statusMask .w1c)
      .next (s.setConv { s.conv with
        nf6Latch := Map.setD 0 s.conv.nf6Latch off live
        nf6Seq := Map.setD 0 s.conv.nf6Seq off (if live = 0 then seq else seq + 1) })
    else .next s

/-! ### Configuration parity (R389 to R391) -/

/-- The die of a BAR0 register (11 R272). -/
def dieOfReg (off : Nat) : Nat :=
  if 0x02000000 ≤ off ∧ off < 0x02800000 then 1
  else if 0x02800000 ≤ off ∧ off < 0x03000000 then 2
  else if stoppedReg off then 0
  else 3

/-- Is a register out of reach of the scans: its clocks stand in Easy or in a reset? The scan of a wake reaches it (01 R32). -/
def State.unscanned (s : State) (off : Nat) : Bool := stoppedReg off && (s.inReset || decide (s.pow.easy = .asleep))

/-- PARITY_SCAN (R389): the scanner reads a configuration register; bad parity waits for its PARITY_FAILURE. -/
def execParityScan (off : Nat) (bad : Bool) (s : State) : Host.Outcome State Fault Refusal :=
  let config := match regAt off with | some (r, _) => isConfig r | none => false
  if config && bad && !s.conv.badPar.elem off && !s.unscanned off then
    .next (s.setConv { s.conv with badPar := off :: s.conv.badPar })
  else .next s

/-- A CFG-PARITY fault (R390), to charge to a crew. -/
def State.parityFault (s : State) (off sev event : Nat) : Fault0 :=
  { s.fault0 9 sev event with space := 4, addr := off, die := dieOfReg off }

/-- The records of a failure that counts (R390, R391): one for each crew of the domain, one with no crew where there is
none, or one of Package severity where it is the second within 2^24 strokes. -/
def State.parityRecords (s : State) (off : Nat) (d : ParDom) (byRead : Bool) : State :=
  let event := if byRead then 0x0902 else 0x0901
  let second := match Map.find off s.conv.counted with | some w => decide (s.stk.num ≤ w + 2 ^ 24) | none => false
  let s' := s.setConv { s.conv with counted := Map.insert off s.stk.num s.conv.counted }
  if second then s.raiseFault (s.parityFault off 3 0x0903)
  else
    match s.parityCrews d with
    | [] => s'.raiseFault (s.parityFault off 2 event)
    | l => s'.each l fun s n => s.raiseFault ((s.parityFault off 2 event).charge n (s.crew n).runningLaunch)

/-- PARITY_FAILURE (R390, R391): a scan or a read finds bad parity in a register that has not failed already. Its records are
raised, its domain's crews stop, a parked core is reset, and the reload begins. -/
def execParityFailure (off : Nat) (byRead : Bool) (s : State) : Host.Outcome State Fault Refusal :=
  let config := match regAt off with | some (r, _) => isConfig r | none => false
  if !config || s.unscanned off || (s.conv.failed.any fun p => decide (p.1 = off)) || (!byRead && !s.conv.badPar.elem off) then .next s
  else
    let q := s.fld F.SEQ_QSEL_queue []
    let d := s.parityDom off q
    let s := s.parityRecords off d byRead
    let s := s.setConv { s.conv with
      badPar := s.conv.badPar.filter fun o => decide (o ≠ off)
      failed := s.conv.failed ++ [(off, q)] }
    let s := (s.raiseBit F.GLB_CFGPAR_par_hist []).setFld F.GLB_CFGPAR_last_word [] (off / 4)
    let s := s.liveBit F.GLB_CFGPAR_reloading [] true
    match d with
    | .core c => .next (s.resetAsk (.core c) 4)
    | _ => .next s

/-- Reload a register (R390): its rig-set fields from the rig shadow, the fields that software writes at reset. -/
def State.reloadReg (s : State) (off q : Nat) : State :=
  match regAt off with
  | none => s
  | some (r, ix) =>
    let fresh : Queue := {}
    if off = 0x404 then
      s.modQueue q fun k =>
        let k := { k with enable := false, ringInHbm := false, cplInHbm := false, log2 := fresh.log2, context := 0, fetched := [] }
        { k with head := k.head % k.size, tail := k.tail % k.size }
    else if off = 0x408 then s.modQueue q fun k => { k with ringLo := 0 }
    else if off = 0x40C then s.modQueue q fun k => { k with ringHi := 0 }
    else if off = 0x410 then s.modQueue q fun k => { k with cplLo := 0 }
    else if off = 0x414 then s.modQueue q fun k => { k with cplHi := 0 }
    else
      let soft := r.maskOf Acc.soft &&& ~~~ rigMask r
      let rig : Word := match s.rig.inForce with
        | some g => (s.rigView g).reg r ix
        | none => r.reset
      let old := s.reg r ix
      s.setReg r ix (rigPart r ((old &&& ~~~soft) ||| (r.reset &&& soft)) rig)

/-- Perform a write that was held (R390), by its register. -/
def State.performWrite (s : State) (p : Nat × Word) : State :=
  match regAt p.1 with
  | none => s
  | some (r, ix) =>
    if r.base = R.SEQ_QCFG.base then s.writeQcfg p.2
    else if r.base = R.GLB_WAKE_AT_LO.base ∨ r.base = R.GLB_WAKE_AT_HI.base then s.writeWakeAt r p.2
    else if r.base = R.GLB_FLT_CTL.base then s.writeFltCtl p.2
    else if r.base = R.TIM_CAP.base then s.writeCap (ix.headD 0) p.2
    else if isSel p.1 then s.writeSel p.1 p.2
    else if r.base = R.PCI_BAR4.base then s.hostPut r ix p.2
    else s.writeReg p.1 p.2

/-- PARITY_RELOAD_DONE (R390, R400): the register holds its reloaded value, and the writes that no reload holds any more are
performed in arrival order; while the shadow is programmed a register with rig-set fields waits. -/
def execParityReloadDone (off : Nat) (s : State) : Host.Outcome State Fault Refusal :=
  match s.conv.failed.find? fun p => decide (p.1 = off) with
  | none => .next s
  | some (_, q) =>
    let needs := match regAt off with | some (r, _) => decide (rigMask r ≠ 0) | none => false
    if needs && decide (s.fld F.RIG_STAT_state [] = 4) then .next s
    else
      let s := s.reloadReg off q
      let s := s.setConv { s.conv with failed := s.conv.failed.filter fun p => decide (p.1 ≠ off) }
      let s := s.liveBit F.GLB_CFGPAR_reloading [] (!s.conv.failed.isEmpty)
      let held := s.conv.heldWrites
      .next ((s.setConv { s.conv with heldWrites := [] }).each held fun s p =>
        if s.writeHeld p.1 then (s.setConv { s.conv with heldWrites := s.conv.heldWrites ++ [p] }) else s.performWrite p)

end Sys2Proof.Machine
end

