-- ==== Sys2Proof/Machine/Cox.lean ====
section
/-!
DEFINITION. The cox die's management: takeovers, claims and gates, the tray, the power-fail warning, vendor messages and
firmware images (14 R336 to R349, R362 to R367).
-/
namespace Sys2Proof.Machine

/-! ### Claims (R343) -/

/-- Bound of a takeover from its 20 ms row, in ns (R340). -/
def takeoverBound : Nat := 160000000

/-- The claim of a core under an epoch. -/
def State.claimOf (s : State) (core epoch : Nat) : Word := BitVec.ofNat 32 (epoch * 16 + s.pins.slot.toNat * 2 + core)

/-- A CLAIM record of Info severity. -/
def State.claimRecord (s : State) (event detail : Nat) : State :=
  s.raiseFault { s.fault0 0xC 0 event with die := 3, detail := detail }

/-- A new epoch record is written, read back and verified, and its claim presented (R343); past the last epoch none is. -/
def State.presentClaim (s : State) : State :=
  let e := s.nv.epoch + 1
  if 0x0FFFFFFE < e then s
  else
    let c := s.claimOf s.cox.core e
    let s := (s.setNv { s.nv with epoch := e }).setCox { s.cox with presented := true, lastClaim := c }
    s.setReg R.COX_CLAIM [] c

/-- Does this cox die hold the tray controller role (R349)? -/
def State.trayCtl (s : State) : Bool := s.isSet F.COX_STAT_tray_ctl []

/-- A cox die whose claim exceeds the last broadcast claim requests the controller role (R349 rule 3). -/
def State.askRole (s : State) : State :=
  if !s.trayCtl && decide (s.cox.trayClaim < s.cox.lastClaim) then s.send (.roleReq s.cox.lastClaim) else s

/-! ### Takeovers (R338 to R342) -/

/-- The image slot that the boot ROM runs: the valid image of the higher version, not below the security version (R337). -/
def State.bootSlot (s : State) : Nat :=
  let ok := fun (f : FwSlot) =>
    Config.ecdsaVerify Config.vendorKey (Config.sha384 f.image) f.sig && decide (s.nv.securityVersion ≤ f.version)
  let v := fun (o : Option FwSlot) => match o with | some f => if ok f then some f.version else none | none => none
  match v s.nv.fw0, v s.nv.fw1 with
  | some a, some b => if a < b then 1 else 0
  | none, some _ => 1
  | _, none => 0

/-- Gate groups that are not in a gap enter it (R346). -/
def State.openGaps (s : State) : State :=
  s.each (iota 0 6) fun s g =>
    if s.isSet F.COX_GATE_in_gap [g] then s
    else
      let k : Gate := Map.getD {} s.cox.gates g
      let gate : Gate := { k with gapH := s.reg R.COX_HOLD [g], gapAt := s.raw }
      (s.setCox { s.cox with gates := Map.setD {} s.cox.gates g gate }).raiseBit F.COX_GATE_in_gap [g]

/-- The core that a takeover starts: not the one that runs or was being started (R339, R341). -/
def State.nextCore (s : State) : Nat := 1 - s.cox.core

/-- A takeover starts (R339, R340, row 20 ms): the old core is held in reset, the gaps begin, the record of class TAKEOVER is
taken, and a rig load that has not taken effect is abandoned (16 R397). -/
def State.beginTakeover (s : State) (why : Nat) : State :=
  let old := s.reg R.COX_CLAIM []
  let core := s.nextCore
  let new := s.claimOf core (s.nv.epoch + 1)
  let recent := s.cox.starts.filter fun w => decide (s.raw < w + 10000000000)
  let s := s.setCox { s.cox with
    core := core
    takeoverAt := some s.raw
    trigger := why
    presented := false
    halted := false
    waiting := false
    starts := recent ++ [s.raw] }
  let s := ((s.setFld F.COX_STAT_state [] 2).bump F.COX_STAT_takeovers [] 1).raiseBit F.COX_STAT_takeover_hist []
  let s := ((s.setReg R.COX_CLAIM [] 0).openGaps.disarm [87, 88]).clocksUp [87 + core]
  (s.trigger { cls := 9, body := natLe 4 why ++ natLe 4 old.toNat ++ natLe 4 new.toNat }).abandonLoad

/-- A trigger of a takeover arrives: while PWR_WARN_N is asserted it waits for the release (R363). -/
def State.startTakeover (s : State) (why : Nat) : State :=
  if s.pow.warn.isSome then (s.setCox { s.cox with waiting := true, trigger := why }) else s.beginTakeover why

/-- Is a core active, or booting with its claim presented, so that a takeover may be triggered? -/
def State.coreRuns (s : State) : Bool :=
  s.coxActive || (decide (s.fld F.COX_STAT_state [] = 0) && s.cox.presented)

/-- Is a takeover making progress (R340, R363)? -/
def State.takingOver (s : State) : Bool := decide (s.fld F.COX_STAT_state [] = 2) && !s.cox.halted && s.pow.warn.isNone

/-- The CPER records that waited are sent once a core is active (R340, R342). -/
def State.sendQueued (s : State) : State :=
  (s.setCox { s.cox with cper := [] }).each s.cox.cper fun s b => s.send (.cper b)

/-- A core becomes active with its first heartbeat (R340, row 180 ms). -/
def State.coreActive (s : State) : State :=
  let s := (s.setFld F.COX_STAT_state [] 1).setFld F.COX_STAT_active_core [] s.cox.core
  (s.setCox { s.cox with takeoverAt := none }).sendQueued

/-- COX_BEAT_WRITE (R338, R340, R341): the running core writes its heartbeat; the first one of a core whose claim has been
presented makes it active, within the bound of its takeover. -/
def execCoxBeatWrite (v : BitVec 32) (t : Nat) (s : State) : Host.Outcome State Fault Refusal :=
  let s := s.advance t
  let inTime := match s.cox.takeoverAt with | some w => decide (s.raw ≤ w + takeoverBound) | none => true
  let beat := fun (s : State) => (s.setReg R.COX_BEAT [] v).setCox { s.cox with beat := s.raw }
  if s.coxActive then .next (beat s)
  else if s.cox.presented && ((s.takingOver && inTime) || s.coreRuns) then .next (beat s).coreActive
  else .next s

/-- HEARTBEAT_EXPIRY (R338, R339): 20 ms pass after the last heartbeat of the active core. -/
def execHeartbeatExpiry (t : Nat) (s : State) : Host.Outcome State Fault Refusal :=
  let s := s.advance t
  if s.coxActive && decide (s.cox.beat + 20000000 ≤ s.raw) && !s.cox.waiting then .next (s.startTakeover 1) else .next s

/-- CORE_MEMORY_UE (R339). -/
def execCoreMemoryUe (s : State) : Host.Outcome State Fault Refusal :=
  .next (if s.coreRuns && !s.cox.waiting then s.startTakeover 2 else s)

/-- FIRMWARE_HANDOVER (R339). -/
def execFirmwareHandover (s : State) : Host.Outcome State Fault Refusal :=
  .next (if s.coreRuns && !s.cox.waiting then s.startTakeover 4 else s)

/-- TAKEOVER (R340, R343): the new core's image is read and checked, the newer saved state loaded, and the epoch record written;
with both good the new claim is presented. An image that fails is not run and an epoch that fails is not presented, so that
no heartbeat follows. -/
def execTakeover (t : Nat) (imageOk epochOk : Bool) (s : State) : Host.Outcome State Fault Refusal :=
  let s := s.advance t
  if s.takingOver && !s.cox.presented && imageOk && epochOk then
    let s := s.setCox { s.cox with savedSeq := s.cox.saved.foldl Nat.max s.cox.savedSeq, fwSlot := s.bootSlot }
    let s := s.presentClaim
    if s.cox.presented then .next (s.claimRecord 0x0C02 s.cox.lastClaim.toNat).askRole else .next s
  else .next s

/-- The package becomes headless (R341). -/
def State.goHeadless (s : State) (n : Nat) : State :=
  let s := ((s.setFld F.COX_STAT_state [] 3).setReg R.COX_CLAIM [] 0).disarm [87, 88]
  (s.setCox { s.cox with takeoverAt := none, presented := false }).claimRecord 0x0C04 n

/-- TAKEOVER_FAILURE (R341): no heartbeat came within the bound; a further takeover goes to the other core, and after the third
to start within 10 s the package is headless. -/
def execTakeoverFailure (t : Nat) (s : State) : Host.Outcome State Fault Refusal :=
  let s := s.advance t
  match s.cox.takeoverAt with
  | some w =>
    if s.takingOver && decide (w + takeoverBound ≤ s.raw) then
      let n := (s.cox.starts.filter fun x => decide (s.raw < x + 10000000000)).length
      .next (if 3 ≤ n then s.goHeadless n else s.startTakeover 5)
    else .next s
  | none => .next s

/-! ### Gates (R344 to R347) -/

/-- Drive the outputs of a gate group (R345). RESETS: bit 0 the chip reset line, bit 1 the package reset line. RAILS: EN_ARR,
EN_CMP, EN_IOD, EN_HBM in bits 0 to 3, off for good after a trip (R347). LINKS: link enables. FLUSH: bit 0 flush now, bits
[63:32] the threshold. TRAY: a write on I3C. BOARD: bit 0 asserts ALERT_N, bit 1 FAULT_LED_N. The places of the bits are a
DESIGN CHOICE (assumption log 22). -/
def State.drive (s : State) (g : Nat) (v : BitVec 96) : State :=
  let x := v.toNat
  let on := fun (i : Nat) => decide (bits x i i = 1)
  match g with
  | 0 =>
    let chip := on 0 && !s.pins.chipRst
    let pkg := on 1 && !s.pins.pkgRst
    let s := s.setPins { s.pins with chipRst := on 0, pkgRst := on 1 }
    let s := if chip then s.resetAsk .chip 6 else s
    if pkg then s.resetAsk .package 7 else s
  | 1 =>
    if s.pow.tripped then s
    else s.setPins { s.pins with enArr := on 0, enCmp := on 1, enIod := on 2, enHbm := on 3 }
  | 2 => s.setPins { s.pins with linkEn := v }
  | 3 => s.setCox { s.cox with flush := s.cox.flush || on 0, threshold := Nat.min 400 (bits x 63 32) }
  | 4 => if s.trayCtl then s.send (.trayList (natLe 12 x)) else s
  | 5 => s.setPins { s.pins with alertN := !on 0, faultLedN := !on 1 }
  | _ => s

/-- GATE_COMMAND (R344, R346): a command with claim C against the gate's claim H; one above the H of the gap's start ends it. -/
def execGateCommand (g : Nat) (claim : BitVec 32) (value : BitVec 96) (s : State) : Host.Outcome State Fault Refusal :=
  if 6 ≤ g then .next s
  else if claim < s.reg R.COX_HOLD [g] then
    .next ((s.raiseBit F.COX_GATE_refused_hist [g]).claimRecord 0x0C01 claim.toNat)
  else
    let k : Gate := Map.getD {} s.cox.gates g
    let gate : Gate := { k with value := value }
    let s := (s.setCox { s.cox with gates := Map.setD {} s.cox.gates g gate }).setReg R.COX_HOLD [g] claim
    let s := if s.isSet F.COX_GATE_in_gap [g] && decide (k.gapH < claim) then
        (s.dropBit F.COX_GATE_in_gap [g]).dropBit F.COX_GATE_safe [g]
      else s
    .next (s.drive g value)

/-- The safe value of a gate group (R345). -/
def State.safeOutputs (s : State) (g : Nat) : State :=
  match g with
  | 0 => s.setPins { s.pins with chipRst := false, pkgRst := false }
  | 1 =>
    if s.pow.tripped then s
    else s.setPins { s.pins with enArr := true, enCmp := true, enIod := true, enHbm := true }
  | 2 => s.setPins { s.pins with linkEn := BitVec.allOnes 96 }
  | 3 => s.setCox { s.cox with threshold := 400 }
  | 4 => s.each s.nv.trayList fun s b => s.send (.trayList b)
  | _ => s.setPins { s.pins with alertN := false, faultLedN := false }

/-- GAP_BOUND_EXPIRY (R346): the bound of a BOUNDED group passes in its gap; TRAY reaches its safe value only through the
controller role. -/
def execGapBoundExpiry (g t : Nat) (s : State) : Host.Outcome State Fault Refusal :=
  let s := s.advance t
  let k : Gate := Map.getD {} s.cox.gates g
  if decide (g < 6) && s.isSet F.COX_GATE_in_gap [g] && s.isSet F.COX_GATE_bounded [g] && !s.isSet F.COX_GATE_safe [g] &&
      decide (k.gapAt + 10 * s.fld F.COX_GATE_bound [g] ≤ s.raw) && (decide (g ≠ 4) || s.trayCtl) then
    .next ((s.safeOutputs g).raiseBit F.COX_GATE_safe [g])
  else .next s

/-! ### The tray (R349) -/

/-- CLAIM_BROADCAST (R349 rule 2): the controller broadcasts the last claim its package presented; a headless one does not. -/
def execClaimBroadcast (s : State) : Host.Outcome State Fault Refusal :=
  if s.trayCtl && decide (s.fld F.COX_STAT_state [] ≠ 3) && decide (s.cox.lastClaim ≠ 0) then
    .next ((s.setCox { s.cox with trayClaim := s.cox.lastClaim }).send (.tray s.cox.lastClaim))
  else .next s

/-- ROLE_REQUEST (R349 rule 3): the controller hands its role over only to a claim above its own; headless, to the first. -/
def execRoleRequest (claim : BitVec 32) (s : State) : Host.Outcome State Fault Refusal :=
  if s.trayCtl && (decide (s.fld F.COX_STAT_state [] = 3) || decide (s.cox.lastClaim < claim)) then
    let s := s.setCox { s.cox with trayClaim := claim, trayAt := s.raw }
    .next (((s.dropBit F.COX_STAT_tray_ctl []).send (.handoff claim)).claimRecord 0x0C03 claim.toNat)
  else .next s

/-- TRAY_SILENCE (R349 rule 4): no broadcast is heard for 50 + 20 × slot ms. -/
def execTraySilence (t : Nat) (s : State) : Host.Outcome State Fault Refusal :=
  let s := s.advance t
  let wait := (50 + 20 * s.pins.slot.toNat) * 1000000
  if !s.trayCtl && decide (s.fld F.COX_STAT_state [] ≠ 3) && decide (1 ≤ s.pow.step) && decide (s.cox.trayAt + wait ≤ s.raw) then
    .next ((s.raiseBit F.COX_STAT_tray_ctl []).claimRecord 0x0C03 s.cox.lastClaim.toNat)
  else .next s

/-! ### The power-fail warning (R362, R363) -/

/-- A POWER record of Info severity. -/
def State.powerRecord (s : State) (event detail : Nat) : State :=
  s.raiseFault { s.fault0 0xA 0 event with die := 3, detail := detail }

/-- PWR_WARN_ASSERT (R362, R363): an assertion held for 1 µs takes its record and starts the power-fail flush; a takeover
halts where it stands. -/
def execPwrWarnAssert (ns : Nat) (s : State) : Host.Outcome State Fault Refusal :=
  if ns < 1000 ∨ s.pow.warn.isSome = true ∨ s.pow.warnFlush = true ∨ s.pow.step = 0 then .next s
  else
    let at_ := s.raw
    let s := s.advance (s.raw + 1000)
    let s := s.setPow { s.pow with warn := some at_, warnFlush := true }
    let s := s.liveBit F.COX_STAT_pwr_warn [] true
    let logs := ceilDiv (Nat.min 800 (s.unflushed.length + 1)) 25
    let jnls := ceilDiv (Nat.min 1008 s.cox.jnl.length) 63
    let s := s.powerRecord 0x0A02 (if s.nv.ro then 0 else logs + jnls)
    let s := s.recordAll s.flt.queue.length
    let l := s.unflushed.take 800
    let j := s.lastJournal 1008
    let s := s.program true (chunks 25 l.length l) (chunks 63 j.length j)
    let halt := decide (s.fld F.COX_STAT_state [] = 2)
    .next (s.setCox { s.cox with halted := s.cox.halted || halt })

/-- POWER_FAIL_FLUSH_DONE (R362; 17 R402): no sector of the flush is left; a package reset that waited begins. -/
def execPowerFailFlushDone (s : State) : Host.Outcome State Fault Refusal :=
  if s.pow.warnFlush && !s.cox.programs.any fun p => p.powerFail then
    .next (s.setPow { s.pow with warnFlush := false }).pump
  else .next s

/-- A halted takeover starts again at its 20 ms row, with a new epoch; its gaps go on (R363). -/
def State.resumeTakeover (s : State) : State :=
  let s := s.setCox { s.cox with halted := false, presented := false, takeoverAt := some s.raw }
  s.setReg R.COX_CLAIM [] 0

/-- PWR_WARN_RELEASE (R362, R363): a release held for 100 µs takes its record; a takeover halted or triggered meanwhile starts. -/
def execPwrWarnRelease (ns : Nat) (s : State) : Host.Outcome State Fault Refusal :=
  match s.pow.warn with
  | some w =>
    if ns < 100000 then .next s
    else
      let us := (s.raw - w) / 1000
      let s := s.advance (s.raw + 100000)
      let s := s.setPow { s.pow with warn := none }
      let s := (s.liveBit F.COX_STAT_pwr_warn [] false).powerRecord 0x0A03 us
      let s := if s.cox.halted then s.resumeTakeover
        else if s.cox.waiting then s.beginTakeover s.cox.trigger
        else s
      .next s.pump
  | none => .next s

/-! ### Messages (R365 to R367) -/

/-- WAKE (R367; 01 R31): `authentic` tells that it came over an authenticated path, or as the wake command of I3C or SMBus. -/
def execMgmtWake (authentic : Bool) (s : State) : Host.Outcome State Fault Refusal :=
  .next (if authentic && s.coxActive then s.requestWake else s)

/-- LOG_READ (R354, R367): the record of a number, or gone. -/
def execLogRead (seq : BitVec 32) (s : State) : Host.Outcome State Fault Refusal :=
  if !s.coxActive then .next s
  else
    match s.findLog seq.toNat with
    | some r => .next (s.send (.reply r.bytes))
    | none => .next (s.send .gone)

/-- JNL_READ (R357, R367): the entry of a number, or gone. -/
def execJnlRead (num : BitVec 64) (s : State) : Host.Outcome State Fault Refusal :=
  if !s.coxActive then .next s
  else
    match s.findJnl num.toNat with
    | (some b, s) => .next (s.send (.reply b))
    | (none, s) => .next (s.send .gone)

/-- The bytes that the signature of a SERVICE message covers: its body up to there and LNK_SELF.package (R367). -/
def State.serviceBody (s : State) (op : Nat) (m : ServiceMsg) : Bytes :=
  natLe 1 5 ++ natLe 1 op ++ natLe 8 m.counter.toNat ++ natLe 2 m.data.length ++ m.data
    ++ natLe 4 (s.fld F.LNK_SELF_package [])

/-- A SERVICE message is performed only if its signature verifies, its counter is the next, and the package is not headless;
it needs the active core (R335, R367). -/
def State.service (s : State) (op : Nat) (m : ServiceMsg) (act : State → State) : State :=
  if s.coxActive && decide (m.counter.toNat = s.nv.serviceCounter + 1) &&
      Config.ecdsaVerify s.nv.ownerKey (Config.sha384 (s.serviceBody op m)) m.sig then
    act (s.setNv { s.nv with serviceCounter := m.counter.toNat })
  else s

/-- CLEAR_REPLACE (R367; 11 R284). -/
def execClearReplace (m : ServiceMsg) (s : State) : Host.Outcome State Fault Refusal :=
  .next (s.service 1 m fun s =>
    let s := s.setNv { s.nv with replace := false, reason := 0 }
    (s.setFld F.GLB_HEALTH_replace [] 0).setFld F.GLB_HEALTH_reason [] 0)

/-- HANDOVER (R339, R367). -/
def execHandover (m : ServiceMsg) (s : State) : Host.Outcome State Fault Refusal :=
  .next (s.service 2 m fun s => if s.cox.waiting then s else s.startTakeover 3)

/-- Rewrite a system-area item (R358, R367). -/
def Nv.config (n : Nv) : ConfigItem → Nv
  | .gates bounded bounds => { n with bounded := bounded, bounds := bounds }
  | .snapList cls l => { n with snapLists := Map.insert cls (l.take 16) n.snapLists }
  | .trayList l => { n with trayList := l.take 8 }
  | .time src servo => { n with timeSrc := src, timeServo := servo }
  | .links l => { n with linkCfg := l }
  | .debugPermit on => { n with debugPermit := on }
  | .macs l => { n with macs := l }
  | .preferred b => { n with preferredB := b }
  | .securityVersion v => { n with securityVersion := v }
  | .spareMap l => { n with spareMap := l }

/-- SET_CONFIG (R367). -/
def execSetConfig (m : ServiceMsg) (s : State) : Host.Outcome State Fault Refusal :=
  .next (s.service 3 m fun s =>
    match Config.configItem m.data with
    | some c => s.setNv (s.nv.config c)
    | none => s)

/-- SET_MGMT_KEY (R367): the key is stored, and loaded into the links at the next boundary. -/
def execSetMgmtKey (m : ServiceMsg) (s : State) : Host.Outcome State Fault Refusal :=
  .next (s.service 4 m fun s =>
    let key := BitVec.ofNat 128 (leNat (fit 16 m.data).reverse)
    ((s.setNv { s.nv with mgmtKey := key }).setCox { s.cox with mgmtNext := some key }))

/-- SET_PREFERRED (R336, R367): byte 0 names the core, 0 for A. -/
def execSetPreferred (m : ServiceMsg) (s : State) : Host.Outcome State Fault Refusal :=
  .next (s.service 5 m fun s => (s.setNv { s.nv with preferredB := decide (field m.data 0 1 = 1) }))

/-- PLDM_FIRMWARE_UPDATE (R337): an image is written into the slot not in use, and runs from the next boot or takeover. -/
def execPldmFirmwareUpdate (image sig : List (BitVec 8)) (s : State) : Host.Outcome State Fault Refusal :=
  if !s.coxActive then .next s
  else
    let x : FwSlot := { version := Config.fwVersion image, image := image, sig := sig }
    .next (s.setNv (if s.cox.fwSlot = 0 then { s.nv with fw1 := some x } else { s.nv with fw0 := some x }))

end Sys2Proof.Machine
end

