-- ==== Sys2Proof/Machine/Bringup.lean ====
section
/-!
DEFINITION. Bring-up: the power-up steps, PCI_PERST_N and the loop-back tests of the links (17).
-/
namespace Sys2Proof.Machine

/-! ### Power-up (R401, R402) -/

/-- PWROK_AON_RISE (R401 step 1, R411): the straps are sampled, the raw counter starts, and with TEST_EN high and debug_permit
held test mode is entered; the cox die of slot 0 is the first tray controller (14 R349). -/
def execPwrokAonRise (traySlot : BitVec 2) (testEn : Bool) (s : State) : Host.Outcome State Fault Refusal :=
  if s.pow.step ≠ 0 then .next s
  else
    let test := testEn && s.nv.debugPermit
    let s := (s.setRaw 0)
      |>.setPow { s.pow with step := 1, testMode := test, testEnSeen := testEn && !test }
      |>.setPins { s.pins with slot := traySlot }
      |>.setFlt { s.flt with resetting := some .cold }
      |>.setCox { s.cox with trayAt := 0 }
    let s := (s.carryRegs s).clocksUp (iota 89 11)
    .next (s.liveBit F.COX_STAT_tray_ctl [] (decide (traySlot = 0)))

/-- The logbook or journal sectors of the NV store that are torn (14 R359). -/
def State.tornSectors (s : State) : Nat := (s.nv.sectors.filter fun x => x.torn).length

/-- Step 2: the generator starts with the default stroke (02 R413), the preferred core boots (14 R336), and the BOOT record and
the RESET entry are taken (14 R350, R355). -/
def State.powerStep2 (s : State) : State :=
  let old := match s.stk.renum with | some p => p | none => (s.ns, s.recovery)
  let first := Nat.max old.1 s.ns
  let core := if s.nv.preferredB then 1 else 0
  let s := (s.liveBit F.STK_CTL_running [] true).clocksUp [87 + core]
  let s := (s.setStk { s.stk with renum := some (first, old.2) }).setCox { s.cox with core := core }
  let s := (s.setFld F.COX_STAT_state [] 0).setFld F.COX_STAT_active_core [] core
  let body := natLe 4 s.pow.bootKind ++ natLe 4 s.tornSectors ++ natLe 4 (if s.pow.testEnSeen then 1 else 0)
  let s := s.trigger { cls := 10, body := body }
  let stroke := strokeNumber s.phase s.period (first - 1) + 1
  let s := s.journal {
    num := 0, kind := 3, status := 0xFF, op := 0, flags := 0, queue := 0, ctx := 0, seq := 0, accept := 0, stroke := stroke,
    cookie := 0, time := 0 }
  s.bootAs 2

/-- Step 3: the NV store is read; torn sectors are recorded (14 R359, R362). -/
def State.powerStep3 (s : State) : State :=
  let s := s.setCox { s.cox with mgmtKey := s.nv.mgmtKey }
  let n := s.tornSectors
  if n = 0 then s.showNv else ((s.raiseBit F.NVS_STAT_torn_hist []).powerRecord 0x0A04 n).showNv

/-- Step 4: the firmware runs; its claim is presented (14 R343), and it sets the time source from the NV store (09 R221). -/
def State.powerStep4 (s : State) : State :=
  let s := s.setCox { s.cox with fwSlot := s.bootSlot }
  let s := (s.presentClaim.askRole).setReg R.TIM_SERVO [] s.nv.timeServo
  s.setSource s.nv.timeSrc

/-- The physical columns of a row that may not be used: by fuse, by the NV spare map, or found in step 7. -/
def State.badCols (s : State) (row : Nat) : List Nat :=
  let l := ((s.fuseSites ++ s.nv.spareMap ++ s.pow.badSites).filter fun p => decide (p.1 = row)).map fun p => p.2
  (iota 0 10).filter l.elem

/-- Step 8: the remap of a row from its merged maps (01 R15): the column out of use gives way to the spare. -/
def State.mapRow (s : State) (row : Nat) : State :=
  let bad := s.badCols row
  let s := (s.setReg R.GLB_REMAP_LO [row] R.GLB_REMAP_LO.reset).setFld F.GLB_REMAP_HI_col8 [row] 8
  match bad with
  | [] =>
    let s := (s.setFld F.GLB_REMAP_HI_retired_col [row] 0xF).setFld F.GLB_REMAP_HI_spare_col [row] 9
    s.liveBit F.GLB_REMAP_HI_spare_avail [row] true
  | c :: _ =>
    let s := if c = 9 then s
      else if c = 8 then s.setFld F.GLB_REMAP_HI_col8 [row] 9
      else s.setReg R.GLB_REMAP_LO [row] (putBits (s.reg R.GLB_REMAP_LO [row]) (4 * c + 3) (4 * c) 9)
    let s := (s.setFld F.GLB_REMAP_HI_retired_col [row] c).setFld F.GLB_REMAP_HI_spare_col [row] 0xF
    s.liveBit F.GLB_REMAP_HI_spare_avail [row] false

/-- Step 8 for every row; a row with fewer than 9 healthy sites sets the replacement flag. -/
def State.powerStep8 (s : State) : State :=
  let s := s.each (iota 0 16) State.mapRow
  let left := ((iota 0 16).filter fun r => s.isSet F.GLB_REMAP_HI_spare_avail [r]).length
  let s := s.setFld F.GLB_HEALTH_spares_left [] left
  if (iota 0 16).any fun r => decide (1 < (s.badCols r).length) then s.setReplace 2 else s

/-- Step 9 for a link (08 R189): it trains with the medium and lane map of the system area; one that does not is LINK-DOWN, and
one that its enable holds off stays down. -/
def State.trainLink (s : State) (l : Nat) (ok : Bool) : State :=
  let ix := lnk48 l
  let v := s.reg R.LNK_CFG ix
  let s := s.setReg R.LNK_CFG ix (putBits v 29 24 (Map.getD 0 s.nv.linkCfg l))
  let s := (s.modLink l fun _ => {}).setFld F.LNK_STAT_state ix 1
  if s.pins.linkEn.toNat / 2 ^ l % 2 = 0 then s.setFld F.LNK_STAT_state ix 0
  else if ok then
    let s := s.each channels fun s vc => s.setFld (creditFld vc) ix (slotsOf vc)
    (s.setFld F.LNK_STAT_state ix 2).modLink l fun k => { k with lastLinkRx := s.raw, lastLinkTx := s.raw }
  else s.linkDown l

/-- Is fabric time locked, and every stroke receiver LOCKED (R401 step 10)? -/
def State.timeReady (s : State) : Bool :=
  s.isSet F.TIM_STAT_locked [] && (iota 0 3).all fun n => decide (s.fld F.STK_RX_state [n] = 0)

/-- Power-up ends at a step until a package or cold reset. -/
def State.endPowerUp (s : State) : State := s.setPow { s.pow with stuck := true }

/-- Clock domains that step 5 brings up: those of the compute chip and the I/O dies whose clock no power mode sets. -/
def plainDomains : List Nat := (iota 16 71).filter fun d => !modeDomains.elem d

/-- Step n succeeds. `bad`: the sites that step 7 finds bad, or the links that step 9 cannot train. -/
def State.stepPassed (s : State) (n : Nat) (bad : List (Nat × Nat)) : State :=
  match n with
  | 2 => s.powerStep2
  | 3 => s.powerStep3
  | 4 => s.powerStep4
  | 5 => (s.setPins { s.pins with enCmp := true, enIod := true }).clocksUp plainDomains
  | 6 =>
    let s := (s.setPins { s.pins with enHbm := true }).clocksUp (iota 25 8 ++ iota 56 8)
    s.each (iota 0 8) fun s k => s.setFld F.HBM_STAT_rate (stk4 k) s.pinRate
  | 7 =>
    let s := (s.setPins { s.pins with enArr := true, vid := vidOf 0 }).setPow { s.pow with badSites := bad }
    (s.setFld F.GLB_MODE_current [] 0).clocksUp (iota 0 16)
  | 8 => s.powerStep8
  | 9 => s.each (iota 0 96) fun s l => s.trainLink l (!bad.any fun (p : Nat × Nat) => decide (p.1 = l))
  | _ => s

/-- Step n fails, as its row states: whether power-up goes on, and the machine. `bad`: at step 5 the modules. -/
def State.stepFailed (s : State) (n : Nat) (bad : List (Nat × Nat)) : Bool × State :=
  match n with
  | 3 => (false, (s.setPins { s.pins with alertN := false }).endPowerUp)
  | 4 => (false, if s.fld F.COX_STAT_state [] = 0 then s.startTakeover 5 else s)
  | 5 =>
    let f := fun (m : Nat) => { s.fault0 3 3 0x0311 with detail := m }
    let s := s
      |>.setPins { s.pins with enCmp := true, enIod := true }
      |>.setFlt { s.flt with queue := s.flt.queue ++ (bad.map fun (p : Nat × Nat) => p.1).map f }
    (false, (s.setReplace 3).endPowerUp)
  | 6 => (false, ((s.setPins { s.pins with enHbm := true }).setReplace 4).endPowerUp)
  | 8 => (true, s.powerStep8)
  | 9 => (true, s.stepPassed 9 bad)
  | 10 => (true, s)
  | _ => (false, s)

/-- POWER_UP_STEP (R401, R402): the step after the last one completed ends. Nothing moves while PWR_WARN_N is asserted, after a
failure that ends power-up, after a trip, or past step 8 in test mode (R411); step 4 also ends once a takeover has put a
core in charge (14 R341). -/
def execPowerUpStep (t : Nat) (ok : Bool) (bad : List (Nat × Nat)) (s : State) : Host.Outcome State Fault Refusal :=
  let s := s.advance t
  let n := s.pow.step + 1
  if !s.inReset || s.pow.warn.isSome || s.pow.stuck || s.pow.tripped || decide (10 < n) || decide (n < 2) ||
      (s.pow.testMode && decide (8 < n)) || (decide (n = 10) && ok && !s.timeReady) then .next s
  else if n = 4 ∧ s.fld F.COX_STAT_state [] ≠ 0 then
    .next (if s.coxActive then ((s.setReg R.TIM_SERVO [] s.nv.timeServo).setPow { s.pow with step := 4 }).setSource s.nv.timeSrc
      else s)
  else if ok then
    let s := s.stepPassed n bad
    .next (s.setPow { s.pow with step := n })
  else
    match s.stepFailed n bad with
    | (true, s) => .next (s.setPow { s.pow with step := n })
    | (false, s) => .next s

/-! ### PCI_PERST_N (R409) -/

/-- PCI_PERST_N (R409): while it is low rings in host memory are not read or written and host-space DMA stands still. -/
def execPciPerstN (s : State) : Host.Outcome State Fault Refusal := .next (s.setPow { s.pow with perst := true })

/-- PCI_PERST_N_RELEASE (R409): what waited goes on, the fault records first. -/
def execPciPerstNRelease (s : State) : Host.Outcome State Fault Refusal :=
  let s := (s.setPow { s.pow with perst := false }).ringFlush
  .next (s.each s.crewList State.flushCpls)

/-! ### Link loop-back (R412) -/

/-- A write of LNK_LOOP with a testing mode: refused with a rig loaded or while busy; with go the test starts. -/
def State.linkLoop (s : State) (l mode : Nat) (v : Word) : State :=
  let ix := lnk48 l
  let s := s.fromHost 4
  if s.strayAt (R.LNK_LOOP.addr ix) then s.stray
  else if s.rig.inForce.isSome || s.isSet F.LNK_LOOP_busy ix then (s.putRwb R.LNK_LOOP ix v).setFld F.LNK_LOOP_result ix 3
  else
    let s := (s.hostPut R.LNK_LOOP ix v).setFld F.LNK_LOOP_mode ix mode
    if v.toNat % 2 = 1 then (s.liveBit F.LNK_LOOP_busy ix true).setFld F.LNK_STAT_state ix 1 else s

/-- LOOP_NEAR_DIGITAL (R412): mode 0b001. -/
def execLoopNearDigital (link : Nat) (v : BitVec 32) (s : State) : Host.Outcome State Fault Refusal := .next (s.linkLoop link 1 v)

/-- LOOP_NEAR_ANALOGUE (R412): mode 0b010. -/
def execLoopNearAnalogue (link : Nat) (v : BitVec 32) (s : State) : Host.Outcome State Fault Refusal := .next (s.linkLoop link 2 v)

/-- LOOP_ECHO (R412): mode 0b011, which gives no result and lasts until it is ended. -/
def execLoopEcho (link : Nat) (v : BitVec 32) (s : State) : Host.Outcome State Fault Refusal := .next (s.linkLoop link 3 v)

/-- LOOP_LINE_CHECK (R412): mode 0b100. -/
def execLoopLineCheck (link : Nat) (v : BitVec 32) (s : State) : Host.Outcome State Fault Refusal := .next (s.linkLoop link 4 v)

/-- LINK_LOOP_DONE (R412): a test ends; a lane passes with no error in mode 0b001, else with at most 2,097,152. -/
def execLinkLoopDone (link errs0 errs1 : Nat) (s : State) : Host.Outcome State Fault Refusal :=
  let ix := lnk48 link
  let mode := s.fld F.LNK_LOOP_mode ix
  if s.isSet F.LNK_LOOP_busy ix && decide (mode ≠ 3) then
    let most := if mode = 1 then 0 else 2097152
    let pass := decide (errs0 ≤ most ∧ errs1 ≤ most)
    let s := (s.liveBit F.LNK_LOOP_busy ix false).setFld F.LNK_LOOP_result ix (if pass then 1 else 2)
    .next ((s.setFld F.LNK_LOOP_ERR_lane0 ix (satAdd 0 (ceilDiv errs0 64) 0xFFFF)).setFld F.LNK_LOOP_ERR_lane1 ix
      (satAdd 0 (ceilDiv errs1 64) 0xFFFF))
  else .next s

/-- LINK_LOOP_OFF (R412): mode 0b000 ends the test, and the link retrains. -/
def execLinkLoopOff (link : Nat) (v : BitVec 32) (s : State) : Host.Outcome State Fault Refusal :=
  let ix := lnk48 link
  let s := s.fromHost 4
  if s.strayAt (R.LNK_LOOP.addr ix) then .next s.stray
  else
    let tested := decide (s.fld F.LNK_LOOP_mode ix ≠ 0)
    let s := ((s.hostPut R.LNK_LOOP ix v).setFld F.LNK_LOOP_mode ix 0).liveBit F.LNK_LOOP_busy ix false
    .next (if tested then
        (s.setFld F.LNK_STAT_state ix 1).modLink link fun k => { k with rejoin := true, retrained := none, reconciled := false }
      else s)

end Sys2Proof.Machine
end

