-- ==== Sys2Proof/Machine/Dispatch.lean ====
section
/-!
DEFINITION. The meaning of every command: one arm per constructor of Instr.
-/
namespace Sys2Proof.Machine

/-- What a command does to everything but the queue. -/
def exec (i : Instr) (s : State) : Host.Outcome State Fault Refusal :=
  match i with
  | .strokeBoundary t => Sys2Proof.Machine.execStrokeBoundary t s
  | .strokeMark rx t num => Sys2Proof.Machine.execStrokeMark rx t num s
  | .flywheelBoundary rx t => Sys2Proof.Machine.execFlywheelBoundary rx t s
  | .missedMark rx t => Sys2Proof.Machine.execMissedMark rx t s
  | .driveEnd t => Sys2Proof.Machine.execDriveEnd t s
  | .waitTimeout core => Sys2Proof.Machine.execWaitTimeout core s
  | .modeChangeRequest v => Sys2Proof.Machine.execModeChangeRequest v s
  | .modeSettleEnd t => Sys2Proof.Machine.execModeSettleEnd t s
  | .easyEnter v => Sys2Proof.Machine.execEasyEnter v s
  | .easyEntryComplete t => Sys2Proof.Machine.execEasyEntryComplete t s
  | .easyWake v => Sys2Proof.Machine.execEasyWake v s
  | .wakeAtReached t => Sys2Proof.Machine.execWakeAtReached t s
  | .wakeAtWrite which v => Sys2Proof.Machine.execWakeAtWrite which v s
  | .wakeSequence t => Sys2Proof.Machine.execWakeSequence t s
  | .wakeComplete t notReady => Sys2Proof.Machine.execWakeComplete t notReady s
  | .strayAccess write bar4 off => Sys2Proof.Machine.execStrayAccess write bar4 off s
  | .clockMonitorTrip dom => Sys2Proof.Machine.execClockMonitorTrip dom s
  | .monitorRearm dom t => Sys2Proof.Machine.execMonitorRearm dom t s
  | .blockIdleEnter b => Sys2Proof.Machine.execBlockIdleEnter b s
  | .blockIdleExit b => Sys2Proof.Machine.execBlockIdleExit b s
  | .overCurrentTrip watts => Sys2Proof.Machine.execOverCurrentTrip watts s
  | .powerGoodFall rail watts => Sys2Proof.Machine.execPowerGoodFall rail watts s
  | .doorbell q tail => Sys2Proof.Machine.execDoorbell q tail s
  | .ringEntryFetch q bad => Sys2Proof.Machine.execRingEntryFetch q bad s
  | .hostLaunch q => Sys2Proof.Machine.execHostLaunch q s
  | .hostTallyAdd q => Sys2Proof.Machine.execHostTallyAdd q s
  | .hostTallySet q => Sys2Proof.Machine.execHostTallySet q s
  | .queueWait q => Sys2Proof.Machine.execQueueWait q s
  | .hostNop q => Sys2Proof.Machine.execHostNop q s
  | .directoryCheck accept => Sys2Proof.Machine.execDirectoryCheck accept s
  | .argumentBlockLanded core => Sys2Proof.Machine.execArgumentBlockLanded core s
  | .launchComplete crew => Sys2Proof.Machine.execLaunchComplete crew s
  | .entryIssue core => Sys2Proof.Machine.execEntryIssue core s
  | .commandWordDispatch core => Sys2Proof.Machine.execCommandWordDispatch core s
  | .runAheadFetch core => Sys2Proof.Machine.execRunAheadFetch core s
  | .tallyAddCmd core => Sys2Proof.Machine.execTallyAddCmd core s
  | .waitGe core => Sys2Proof.Machine.execWaitGe core s
  | .tallySetCmd core => Sys2Proof.Machine.execTallySetCmd core s
  | .tallyReadCmd core => Sys2Proof.Machine.execTallyReadCmd core s
  | .ctlNop core => Sys2Proof.Machine.execCtlNop core s
  | .fenceCmd core => Sys2Proof.Machine.execFenceCmd core s
  | .loopCmd core => Sys2Proof.Machine.execLoopCmd core s
  | .endTable core => Sys2Proof.Machine.execEndTable core s
  | .stepCmd core => Sys2Proof.Machine.execStepCmd core s
  | .poolTake core => Sys2Proof.Machine.execPoolTake core s
  | .poolPut core => Sys2Proof.Machine.execPoolPut core s
  | .markCmd core => Sys2Proof.Machine.execMarkCmd core s
  | .talAddWrite n v => Sys2Proof.Machine.execTalAddWrite n v s
  | .talSetWrite n v => Sys2Proof.Machine.execTalSetWrite n v s
  | .seqQcfgWrite v => Sys2Proof.Machine.execSeqQcfgWrite v s
  | .matrixFull core eng => Sys2Proof.Machine.execMatrixFull core eng s
  | .matrixQuad core eng => Sys2Proof.Machine.execMatrixQuad core eng s
  | .matrixWide core eng => Sys2Proof.Machine.execMatrixWide core eng s
  | .emitCommit core eng upsets => Sys2Proof.Machine.execEmitCommit core eng upsets s
  | .engAccDataWrite core eng v => Sys2Proof.Machine.execEngAccDataWrite core eng v s
  | .ceWriteback core addr => Sys2Proof.Machine.execCeWriteback core addr s
  | .patrolRead core bank flips => Sys2Proof.Machine.execPatrolRead core bank flips s
  | .vecAdd core => Sys2Proof.Machine.execVecAdd core s
  | .vecSub core => Sys2Proof.Machine.execVecSub core s
  | .vecMul core => Sys2Proof.Machine.execVecMul core s
  | .vecFma core => Sys2Proof.Machine.execVecFma core s
  | .vecDiv core => Sys2Proof.Machine.execVecDiv core s
  | .vecMin core => Sys2Proof.Machine.execVecMin core s
  | .vecMax core => Sys2Proof.Machine.execVecMax core s
  | .vecSqrt core => Sys2Proof.Machine.execVecSqrt core s
  | .vecRecip core => Sys2Proof.Machine.execVecRecip core s
  | .vecRsqrt core => Sys2Proof.Machine.execVecRsqrt core s
  | .vecExp2 core => Sys2Proof.Machine.execVecExp2 core s
  | .vecExp core => Sys2Proof.Machine.execVecExp core s
  | .vecLog2 core => Sys2Proof.Machine.execVecLog2 core s
  | .vecLn core => Sys2Proof.Machine.execVecLn core s
  | .vecSin core => Sys2Proof.Machine.execVecSin core s
  | .vecCos core => Sys2Proof.Machine.execVecCos core s
  | .vecTanh core => Sys2Proof.Machine.execVecTanh core s
  | .vecSigmoid core => Sys2Proof.Machine.execVecSigmoid core s
  | .vecErf core => Sys2Proof.Machine.execVecErf core s
  | .vecCvt core => Sys2Proof.Machine.execVecCvt core s
  | .vecCmplt core => Sys2Proof.Machine.execVecCmplt core s
  | .vecCmple core => Sys2Proof.Machine.execVecCmple core s
  | .vecCmpeq core => Sys2Proof.Machine.execVecCmpeq core s
  | .vecSelect core => Sys2Proof.Machine.execVecSelect core s
  | .vecRsum core => Sys2Proof.Machine.execVecRsum core s
  | .vecRmax core => Sys2Proof.Machine.execVecRmax core s
  | .vecRmin core => Sys2Proof.Machine.execVecRmin core s
  | .vecRsumsq core => Sys2Proof.Machine.execVecRsumsq core s
  | .vecRsumc core => Sys2Proof.Machine.execVecRsumc core s
  | .vecRope core => Sys2Proof.Machine.execVecRope core s
  | .vecMask core => Sys2Proof.Machine.execVecMask core s
  | .dmaCopy core slot => Sys2Proof.Machine.execDmaCopy core slot s
  | .dmaGather core slot => Sys2Proof.Machine.execDmaGather core slot s
  | .dmaScatter core slot => Sys2Proof.Machine.execDmaScatter core slot s
  | .dmaRingAppend core slot => Sys2Proof.Machine.execDmaRingAppend core slot s
  | .ringAppendLine core slot => Sys2Proof.Machine.execRingAppendLine core slot s
  | .dmaFill core slot => Sys2Proof.Machine.execDmaFill core slot s
  | .dmaSend core slot => Sys2Proof.Machine.execDmaSend core slot s
  | .hbmRead addr retries onDie errs => Sys2Proof.Machine.execHbmRead addr retries onDie errs s
  | .hbmWrite addr retries poisoned data => Sys2Proof.Machine.execHbmWrite addr retries poisoned data s
  | .hbmWriteback stack => Sys2Proof.Machine.execHbmWriteback stack s
  | .scrubLine stack errs => Sys2Proof.Machine.execScrubLine stack errs s
  | .hbmRefresh pc => Sys2Proof.Machine.execHbmRefresh pc s
  | .hbmTempChange stack temp => Sys2Proof.Machine.execHbmTempChange stack temp s
  | .grainRead core addr => Sys2Proof.Machine.execGrainRead core addr s
  | .grainWrite core addr poisoned data => Sys2Proof.Machine.execGrainWrite core addr poisoned data s
  | .atomicRequest core addr poisoned data => Sys2Proof.Machine.execAtomicRequest core addr poisoned data s
  | .orderedAtomicApply win => Sys2Proof.Machine.execOrderedAtomicApply win s
  | .bar4Read off len => Sys2Proof.Machine.execBar4Read off len s
  | .bar4Write off data => Sys2Proof.Machine.execBar4Write off data s
  | .hbmLoopNearDigital stack v => Sys2Proof.Machine.execHbmLoopNearDigital stack v s
  | .hbmLoopPhyAnalogue stack v => Sys2Proof.Machine.execHbmLoopPhyAnalogue stack v s
  | .hbmLoopBaseDie stack v => Sys2Proof.Machine.execHbmLoopBaseDie stack v s
  | .hbmLoopDone stack errors => Sys2Proof.Machine.execHbmLoopDone stack errors s
  | .hbmLoopOff stack v => Sys2Proof.Machine.execHbmLoopOff stack v s
  | .gateSlot link slot => Sys2Proof.Machine.execGateSlot link slot s
  | .flitLaunch link vc => Sys2Proof.Machine.execFlitLaunch link vc s
  | .flitReceive link badLane flit => Sys2Proof.Machine.execFlitReceive link badLane flit s
  | .flitDeliver link => Sys2Proof.Machine.execFlitDeliver link s
  | .linkFlit link lastSeq freed => Sys2Proof.Machine.execLinkFlit link lastSeq freed s
  | .linkFlitSend link t => Sys2Proof.Machine.execLinkFlitSend link t s
  | .linkRetry link seq => Sys2Proof.Machine.execLinkRetry link seq s
  | .creditSync link lastSeq free => Sys2Proof.Machine.execCreditSync link lastSeq free s
  | .landAck link pairs => Sys2Proof.Machine.execLandAck link pairs s
  | .ackTimeout link t => Sys2Proof.Machine.execAckTimeout link t s
  | .laneUnusable link lane cause => Sys2Proof.Machine.execLaneUnusable link lane cause s
  | .laneDegrade link lane => Sys2Proof.Machine.execLaneDegrade link lane s
  | .laneAck link => Sys2Proof.Machine.execLaneAck link s
  | .restripe link => Sys2Proof.Machine.execRestripe link s
  | .linkDown link => Sys2Proof.Machine.execLinkDown link s
  | .linkSilenceTimeout link t => Sys2Proof.Machine.execLinkSilenceTimeout link t s
  | .linkRetrain link ok => Sys2Proof.Machine.execLinkRetrain link ok s
  | .allReduce core slot => Sys2Proof.Machine.execAllReduce core slot s
  | .reduceScatter core slot => Sys2Proof.Machine.execReduceScatter core slot s
  | .allGather core slot => Sys2Proof.Machine.execAllGather core slot s
  | .collPartial link crew flit => Sys2Proof.Machine.execCollPartial link crew flit s
  | .collectiveComplete crew collId => Sys2Proof.Machine.execCollectiveComplete crew collId s
  | .abortNotice n => Sys2Proof.Machine.execAbortNotice n s
  | .timeReqSend secondary t => Sys2Proof.Machine.execTimeReqSend secondary t s
  | .timeReq link t body => Sys2Proof.Machine.execTimeReq link t body s
  | .timeResp link t body => Sys2Proof.Machine.execTimeResp link t body s
  | .exchangeAbandon link t => Sys2Proof.Machine.execExchangeAbandon link t s
  | .timPtpmWrite secondary interval v => Sys2Proof.Machine.execTimPtpmWrite secondary interval v s
  | .sourceSilence t => Sys2Proof.Machine.execSourceSilence t s
  | .holdoverExpiry t => Sys2Proof.Machine.execHoldoverExpiry t s
  | .reAnchor t => Sys2Proof.Machine.execReAnchor t s
  | .timSet v => Sys2Proof.Machine.execTimSet v s
  | .timTsStatRead x => Sys2Proof.Machine.execTimTsStatRead x s
  | .timedLaunch port t => Sys2Proof.Machine.execTimedLaunch port t s
  | .transmitDescriptor d => Sys2Proof.Machine.execTransmitDescriptor d s
  | .frameReceive port t frame => Sys2Proof.Machine.execFrameReceive port t frame s
  | .captureEdge ch src link cls t => Sys2Proof.Machine.execCaptureEdge ch src link cls t s
  | .timCapWrite ch v => Sys2Proof.Machine.execTimCapWrite ch v s
  | .pairLoRead who off => Sys2Proof.Machine.execPairLoRead who off s
  | .umpireCompare core => Sys2Proof.Machine.execUmpireCompare core s
  | .mismatchFault core => Sys2Proof.Machine.execMismatchFault core s
  | .mismatchVerdict crew => Sys2Proof.Machine.execMismatchVerdict crew s
  | .transientWindowClose core => Sys2Proof.Machine.execTransientWindowClose core s
  | .watchCloseRequest v => Sys2Proof.Machine.execWatchCloseRequest v s
  | .watchClose crew slot => Sys2Proof.Machine.execWatchClose crew slot s
  | .watchMergeComplete crew slot => Sys2Proof.Machine.execWatchMergeComplete crew slot s
  | .faultRecord => Sys2Proof.Machine.execFaultRecord s
  | .glbFltCtlWrite v => Sys2Proof.Machine.execGlbFltCtlWrite v s
  | .poisonConsumed r => Sys2Proof.Machine.execPoisonConsumed r s
  | .spareSwitchIn core => Sys2Proof.Machine.execSpareSwitchIn core s
  | .suspectDrain => Sys2Proof.Machine.execSuspectDrain s
  | .orderlyDrain cause => Sys2Proof.Machine.execOrderlyDrain cause s
  | .drainStepLimit crew => Sys2Proof.Machine.execDrainStepLimit crew s
  | .drainComplete => Sys2Proof.Machine.execDrainComplete s
  | .hardFaultWindowClose core => Sys2Proof.Machine.execHardFaultWindowClose core s
  | .crewStop crew => Sys2Proof.Machine.execCrewStop crew s
  | .rollbackRun crew => Sys2Proof.Machine.execRollbackRun crew s
  | .restorationComplete crew => Sys2Proof.Machine.execRestorationComplete crew s
  | .queueWatchdog q t => Sys2Proof.Machine.execQueueWatchdog q t s
  | .tallyWaitWatchdog core t => Sys2Proof.Machine.execTallyWaitWatchdog core t s
  | .engineProgressWatchdog core unit => Sys2Proof.Machine.execEngineProgressWatchdog core unit s
  | .collectiveWatchdog crew collId t => Sys2Proof.Machine.execCollectiveWatchdog crew collId t s
  | .slipWatchdog crew => Sys2Proof.Machine.execSlipWatchdog crew s
  | .dumpStart => Sys2Proof.Machine.execDumpStart s
  | .dumpComplete => Sys2Proof.Machine.execDumpComplete s
  | .haltCmd v => Sys2Proof.Machine.execHaltCmd v s
  | .releaseCmd v => Sys2Proof.Machine.execReleaseCmd v s
  | .rollbackRequest v => Sys2Proof.Machine.execRollbackRequest v s
  | .resetEngine v => Sys2Proof.Machine.execResetEngine v s
  | .resetCore v => Sys2Proof.Machine.execResetCore v s
  | .resetCrew v => Sys2Proof.Machine.execResetCrew v s
  | .resetChip v => Sys2Proof.Machine.execResetChip v s
  | .resetPackage v => Sys2Proof.Machine.execResetPackage v s
  | .resetComplete => Sys2Proof.Machine.execResetComplete s
  | .pkgRstN ns => Sys2Proof.Machine.execPkgRstN ns s
  | .freezeEnd crew left => Sys2Proof.Machine.execFreezeEnd crew left s
  | .cowLineCopy crew page => Sys2Proof.Machine.execCowLineCopy crew page s
  | .checkpointTimer crew => Sys2Proof.Machine.execCheckpointTimer crew s
  | .takeFull v => Sys2Proof.Machine.execTakeFull v s
  | .takeTensor v => Sys2Proof.Machine.execTakeTensor v s
  | .restoreFull v => Sys2Proof.Machine.execRestoreFull v s
  | .restoreTensor v => Sys2Proof.Machine.execRestoreTensor v s
  | .chkAbandon v => Sys2Proof.Machine.execChkAbandon v s
  | .checkpointPageCopy crew => Sys2Proof.Machine.execCheckpointPageCopy crew s
  | .checkpointComplete crew => Sys2Proof.Machine.execCheckpointComplete crew s
  | .coxBeatWrite v t => Sys2Proof.Machine.execCoxBeatWrite v t s
  | .heartbeatExpiry t => Sys2Proof.Machine.execHeartbeatExpiry t s
  | .coreMemoryUe => Sys2Proof.Machine.execCoreMemoryUe s
  | .firmwareHandover => Sys2Proof.Machine.execFirmwareHandover s
  | .takeover t imageOk epochOk => Sys2Proof.Machine.execTakeover t imageOk epochOk s
  | .takeoverFailure t => Sys2Proof.Machine.execTakeoverFailure t s
  | .gateCommand g claim value => Sys2Proof.Machine.execGateCommand g claim value s
  | .gapBoundExpiry g t => Sys2Proof.Machine.execGapBoundExpiry g t s
  | .claimBroadcast => Sys2Proof.Machine.execClaimBroadcast s
  | .roleRequest claim => Sys2Proof.Machine.execRoleRequest claim s
  | .traySilence t => Sys2Proof.Machine.execTraySilence t s
  | .logbookRecord => Sys2Proof.Machine.execLogbookRecord s
  | .logbookFlush => Sys2Proof.Machine.execLogbookFlush s
  | .sectorProgram verifies => Sys2Proof.Machine.execSectorProgram verifies s
  | .logWinRead word => Sys2Proof.Machine.execLogWinRead word s
  | .jnlWinRead word => Sys2Proof.Machine.execJnlWinRead word s
  | .journalMirror => Sys2Proof.Machine.execJournalMirror s
  | .pwrWarnAssert ns => Sys2Proof.Machine.execPwrWarnAssert ns s
  | .powerFailFlushDone => Sys2Proof.Machine.execPowerFailFlushDone s
  | .pwrWarnRelease ns => Sys2Proof.Machine.execPwrWarnRelease ns s
  | .mgmtWake authentic => Sys2Proof.Machine.execMgmtWake authentic s
  | .logRead seq => Sys2Proof.Machine.execLogRead seq s
  | .jnlRead num => Sys2Proof.Machine.execJnlRead num s
  | .clearReplace m => Sys2Proof.Machine.execClearReplace m s
  | .handover m => Sys2Proof.Machine.execHandover m s
  | .setConfig m => Sys2Proof.Machine.execSetConfig m s
  | .setMgmtKey m => Sys2Proof.Machine.execSetMgmtKey m s
  | .setPreferred m => Sys2Proof.Machine.execSetPreferred m s
  | .pmcDumpWrite => Sys2Proof.Machine.execPmcDumpWrite s
  | .pmcClear v => Sys2Proof.Machine.execPmcClear v s
  | .pmcSelWrite off v => Sys2Proof.Machine.execPmcSelWrite off v s
  | .counterWindowRead crew off len => Sys2Proof.Machine.execCounterWindowRead crew off len s
  | .traceDrain crew => Sys2Proof.Machine.execTraceDrain crew s
  | .registerWrite off v => Sys2Proof.Machine.execRegisterWrite off v s
  | .bar0BadAccess write off bytes => Sys2Proof.Machine.execBar0BadAccess write off bytes s
  | .glbNf6SeqRead => Sys2Proof.Machine.execGlbNf6SeqRead s
  | .glbNf6Clr v => Sys2Proof.Machine.execGlbNf6Clr v s
  | .parityScan off bad => Sys2Proof.Machine.execParityScan off bad s
  | .parityFailure off byRead => Sys2Proof.Machine.execParityFailure off byRead s
  | .parityReloadDone off => Sys2Proof.Machine.execParityReloadDone off s
  | .pciBar4Write v => Sys2Proof.Machine.execPciBar4Write v s
  | .rigLoad v => Sys2Proof.Machine.execRigLoad v s
  | .rigStaged t => Sys2Proof.Machine.execRigStaged t s
  | .rigTakeEffect => Sys2Proof.Machine.execRigTakeEffect s
  | .rigShadowed => Sys2Proof.Machine.execRigShadowed s
  | .rigAbort v => Sys2Proof.Machine.execRigAbort v s
  | .pwrokAonRise traySlot testEn => Sys2Proof.Machine.execPwrokAonRise traySlot testEn s
  | .powerUpStep t ok bad => Sys2Proof.Machine.execPowerUpStep t ok bad s
  | .pciPerstN => Sys2Proof.Machine.execPciPerstN s
  | .thermalWarn sensor temp => Sys2Proof.Machine.execThermalWarn sensor temp s
  | .throttleEnter sensor temp => Sys2Proof.Machine.execThrottleEnter sensor temp s
  | .throttleExit sensor temp => Sys2Proof.Machine.execThrottleExit sensor temp s
  | .criticalTrip sensor temp => Sys2Proof.Machine.execCriticalTrip sensor temp s
  | .loopNearDigital link v => Sys2Proof.Machine.execLoopNearDigital link v s
  | .loopNearAnalogue link v => Sys2Proof.Machine.execLoopNearAnalogue link v s
  | .loopEcho link v => Sys2Proof.Machine.execLoopEcho link v s
  | .loopLineCheck link v => Sys2Proof.Machine.execLoopLineCheck link v s
  | .linkLoopDone link errs0 errs1 => Sys2Proof.Machine.execLinkLoopDone link errs0 errs1 s
  | .linkLoopOff link v => Sys2Proof.Machine.execLinkLoopOff link v s
  | .timedAcknowledgement link t => Sys2Proof.Machine.execTimedAcknowledgement link t s
  | .pwrokAonFall => Sys2Proof.Machine.execPwrokAonFall s
  | .pciPerstNRelease => Sys2Proof.Machine.execPciPerstNRelease s
  | .ucieModuleFailure m => Sys2Proof.Machine.execUcieModuleFailure m s
  | .restoreComplete crew => Sys2Proof.Machine.execRestoreComplete crew s
  | .pldmFirmwareUpdate image sig => Sys2Proof.Machine.execPldmFirmwareUpdate image sig s
  | .thermalWarnClear sensor temp => Sys2Proof.Machine.execThermalWarnClear sensor temp s

end Sys2Proof.Machine
end

