-- ==== Sys2Proof/WellFormed.lean ====
section
/-!
DEFINITION. Which commands name units the package has: cores 0 to 143 (01 R12), engines 0 to 11, links 0 to 95, crews
0 to 15 (01 R17), stacks 0 to 7, pseudo-channels 0 to 511 (07 R162), clock domains 0 to 99 (01 R19) and the like.
-/
namespace Sys2Proof

/-- Every index of an error of the silicon is in range. -/
def HwError.wf : HwError → Bool
  | .accumulator core eng row col => decide (core < 144) && decide (eng < 12) && decide (row < 256) && decide (col < 256)
  | .operand core eng row col => decide (core < 144) && decide (eng < 12) && decide (row < 256) && decide (col < 256)
  | .vectorLane core _ => decide (core < 144)
  | .dmaAddress core _ => decide (core < 144)
  | .adder crew _ => decide (crew < 16)
  | .sequencer core _ => decide (core < 144)
  | .queueState q _ => decide (q < 65536)
  | .tallyValue t _ => decide (t < 16384)
  | .heldGranule addr _ => decide (addr < 2 ^ 39)
  | .sram _ => true
  | .prefetchLine core => decide (core < 144)
  | .noc die _ => decide (die < 4)

/-- Every index of the command is in range. -/
def Instr.wf : Instr → Bool
  | .strokeBoundary _ => true
  | .strokeMark rx _ _ => decide (rx < 3)
  | .flywheelBoundary rx _ => decide (rx < 3)
  | .missedMark rx _ => decide (rx < 3)
  | .driveEnd _ => true
  | .waitTimeout core => decide (core < 144)
  | .modeChangeRequest _ => true
  | .modeSettleEnd _ => true
  | .easyEnter _ => true
  | .easyEntryComplete _ => true
  | .easyWake _ => true
  | .wakeAtReached _ => true
  | .wakeAtWrite _ _ => true
  | .wakeSequence _ => true
  | .wakeComplete _ _ => true
  | .strayAccess _ _ _ => true
  | .clockMonitorTrip dom => decide (dom < 100)
  | .monitorRearm dom _ => decide (dom < 100)
  | .blockIdleEnter _ => true
  | .blockIdleExit _ => true
  | .overCurrentTrip _ => true
  | .powerGoodFall _ _ => true
  | .doorbell q _ => decide (q < 65536)
  | .ringEntryFetch q _ => decide (q < 65536)
  | .hostLaunch q => decide (q < 65536)
  | .hostTallyAdd q => decide (q < 65536)
  | .hostTallySet q => decide (q < 65536)
  | .queueWait q => decide (q < 65536)
  | .hostNop q => decide (q < 65536)
  | .directoryCheck _ => true
  | .argumentBlockLanded core => decide (core < 144)
  | .launchComplete crew => decide (crew < 16)
  | .entryIssue core => decide (core < 144)
  | .commandWordDispatch core => decide (core < 144)
  | .runAheadFetch core => decide (core < 144)
  | .tallyAddCmd core => decide (core < 144)
  | .waitGe core => decide (core < 144)
  | .tallySetCmd core => decide (core < 144)
  | .tallyReadCmd core => decide (core < 144)
  | .ctlNop core => decide (core < 144)
  | .fenceCmd core => decide (core < 144)
  | .loopCmd core => decide (core < 144)
  | .endTable core => decide (core < 144)
  | .stepCmd core => decide (core < 144)
  | .poolTake core => decide (core < 144)
  | .poolPut core => decide (core < 144)
  | .markCmd core => decide (core < 144)
  | .talAddWrite n _ => decide (n < 16384)
  | .talSetWrite n _ => decide (n < 16384)
  | .seqQcfgWrite _ => true
  | .matrixFull core eng => decide (core < 144) && decide (eng < 12)
  | .matrixQuad core eng => decide (core < 144) && decide (eng < 12)
  | .matrixWide core eng => decide (core < 144) && decide (eng < 12)
  | .emitCommit core eng _ => decide (core < 144) && decide (eng < 12)
  | .engAccDataWrite core eng _ => decide (core < 144) && decide (eng < 12)
  | .ceWriteback core addr => decide (core < 144) && decide (addr < 0x300000)
  | .patrolRead core bank _ => decide (core < 144) && decide (bank < 24)
  | .vecAdd core => decide (core < 144)
  | .vecSub core => decide (core < 144)
  | .vecMul core => decide (core < 144)
  | .vecFma core => decide (core < 144)
  | .vecDiv core => decide (core < 144)
  | .vecMin core => decide (core < 144)
  | .vecMax core => decide (core < 144)
  | .vecSqrt core => decide (core < 144)
  | .vecRecip core => decide (core < 144)
  | .vecRsqrt core => decide (core < 144)
  | .vecExp2 core => decide (core < 144)
  | .vecExp core => decide (core < 144)
  | .vecLog2 core => decide (core < 144)
  | .vecLn core => decide (core < 144)
  | .vecSin core => decide (core < 144)
  | .vecCos core => decide (core < 144)
  | .vecTanh core => decide (core < 144)
  | .vecSigmoid core => decide (core < 144)
  | .vecErf core => decide (core < 144)
  | .vecCvt core => decide (core < 144)
  | .vecCmplt core => decide (core < 144)
  | .vecCmple core => decide (core < 144)
  | .vecCmpeq core => decide (core < 144)
  | .vecSelect core => decide (core < 144)
  | .vecRsum core => decide (core < 144)
  | .vecRmax core => decide (core < 144)
  | .vecRmin core => decide (core < 144)
  | .vecRsumsq core => decide (core < 144)
  | .vecRsumc core => decide (core < 144)
  | .vecRope core => decide (core < 144)
  | .vecMask core => decide (core < 144)
  | .dmaCopy core slot => decide (core < 144) && decide (slot < 4)
  | .dmaGather core slot => decide (core < 144) && decide (slot < 4)
  | .dmaScatter core slot => decide (core < 144) && decide (slot < 4)
  | .dmaRingAppend core slot => decide (core < 144) && decide (slot < 4)
  | .ringAppendLine core slot => decide (core < 144) && decide (slot < 4)
  | .dmaFill core slot => decide (core < 144) && decide (slot < 4)
  | .dmaSend core slot => decide (core < 144) && decide (slot < 4)
  | .hbmRead addr _ _ _ => decide (addr < 2 ^ 39)
  | .hbmWrite addr _ _ _ => decide (addr < 2 ^ 39)
  | .hbmWriteback stack => decide (stack < 8)
  | .scrubLine stack _ => decide (stack < 8)
  | .hbmRefresh pc => decide (pc < 512)
  | .hbmTempChange stack _ => decide (stack < 8)
  | .grainRead core addr => decide (core < 144) && decide (addr < 2 ^ 39)
  | .grainWrite core addr _ _ => decide (core < 144) && decide (addr < 2 ^ 39)
  | .atomicRequest core addr _ _ => decide (core < 144) && decide (addr < 2 ^ 39)
  | .orderedAtomicApply win => decide (win < 64)
  | .bar4Read _ _ => true
  | .bar4Write _ _ => true
  | .hbmLoopNearDigital stack _ => decide (stack < 8)
  | .hbmLoopPhyAnalogue stack _ => decide (stack < 8)
  | .hbmLoopBaseDie stack _ => decide (stack < 8)
  | .hbmLoopDone stack _ => decide (stack < 8)
  | .hbmLoopOff stack _ => decide (stack < 8)
  | .gateSlot link slot => decide (link < 96) && decide (slot < 1024)
  | .flitLaunch link _ => decide (link < 96)
  | .flitReceive link _ flit => decide (link < 96) && decide (flit.length = 128)
  | .flitDeliver link => decide (link < 96)
  | .linkFlit link _ _ => decide (link < 96)
  | .linkFlitSend link _ => decide (link < 96)
  | .linkRetry link _ => decide (link < 96)
  | .creditSync link _ _ => decide (link < 96)
  | .landAck link _ => decide (link < 96)
  | .ackTimeout link _ => decide (link < 96)
  | .laneUnusable link lane _ => decide (link < 96) && decide (lane < 2)
  | .laneDegrade link lane => decide (link < 96) && decide (lane < 2)
  | .laneAck link => decide (link < 96)
  | .restripe link => decide (link < 96)
  | .linkDown link => decide (link < 96)
  | .linkSilenceTimeout link _ => decide (link < 96)
  | .linkRetrain link _ => decide (link < 96)
  | .allReduce core slot => decide (core < 144) && decide (slot < 4)
  | .reduceScatter core slot => decide (core < 144) && decide (slot < 4)
  | .allGather core slot => decide (core < 144) && decide (slot < 4)
  | .collPartial link crew _ => decide (link < 96) && decide (crew < 16)
  | .collectiveComplete crew _ => decide (crew < 16)
  | .abortNotice _ => true
  | .timeReqSend _ _ => true
  | .timeReq link _ _ => decide (link < 96)
  | .timeResp link _ _ => decide (link < 96)
  | .exchangeAbandon link _ => decide (link < 96)
  | .timPtpmWrite _ _ _ => true
  | .sourceSilence _ => true
  | .holdoverExpiry _ => true
  | .reAnchor _ => true
  | .timSet _ => true
  | .timTsStatRead x => decide (x < 6)
  | .timedLaunch port _ => decide (port < 3)
  | .transmitDescriptor _ => true
  | .frameReceive port _ _ => decide (port < 2)
  | .captureEdge ch _ link _ _ => decide (ch < 4) && decide (link < 96)
  | .timCapWrite ch _ => decide (ch < 4)
  | .pairLoRead _ off => decide (off < 0x4000000)
  | .umpireCompare core => decide (core < 144)
  | .mismatchFault core => decide (core < 144)
  | .mismatchVerdict crew => decide (crew < 16)
  | .transientWindowClose core => decide (core < 144)
  | .watchCloseRequest _ => true
  | .watchClose crew slot => decide (crew < 16) && decide (slot < 256)
  | .watchMergeComplete crew slot => decide (crew < 16) && decide (slot < 256)
  | .faultRecord => true
  | .glbFltCtlWrite _ => true
  | .poisonConsumed r => match r with | .error e => e.wf | .poison _ => true
  | .spareSwitchIn core => decide (core < 144)
  | .suspectDrain => true
  | .orderlyDrain _ => true
  | .drainStepLimit crew => decide (crew < 16)
  | .drainComplete => true
  | .hardFaultWindowClose core => decide (core < 144)
  | .crewStop crew => decide (crew < 16)
  | .rollbackRun crew => decide (crew < 16)
  | .restorationComplete crew => decide (crew < 16)
  | .queueWatchdog q _ => decide (q < 65536)
  | .tallyWaitWatchdog core _ => decide (core < 144)
  | .engineProgressWatchdog core unit => decide (core < 144) && decide (unit < 14)
  | .collectiveWatchdog crew _ _ => decide (crew < 16)
  | .slipWatchdog crew => decide (crew < 16)
  | .dumpStart => true
  | .dumpComplete => true
  | .haltCmd _ => true
  | .releaseCmd _ => true
  | .rollbackRequest _ => true
  | .resetEngine _ => true
  | .resetCore _ => true
  | .resetCrew _ => true
  | .resetChip _ => true
  | .resetPackage _ => true
  | .resetComplete => true
  | .pkgRstN _ => true
  | .freezeEnd crew _ => decide (crew < 16)
  | .cowLineCopy crew _ => decide (crew < 16)
  | .checkpointTimer crew => decide (crew < 16)
  | .takeFull _ => true
  | .takeTensor _ => true
  | .restoreFull _ => true
  | .restoreTensor _ => true
  | .chkAbandon _ => true
  | .checkpointPageCopy crew => decide (crew < 16)
  | .checkpointComplete crew => decide (crew < 16)
  | .coxBeatWrite _ _ => true
  | .heartbeatExpiry _ => true
  | .coreMemoryUe => true
  | .firmwareHandover => true
  | .takeover _ _ _ => true
  | .takeoverFailure _ => true
  | .gateCommand g _ _ => decide (g < 6)
  | .gapBoundExpiry g _ => decide (g < 6)
  | .claimBroadcast => true
  | .roleRequest _ => true
  | .traySilence _ => true
  | .logbookRecord => true
  | .logbookFlush => true
  | .sectorProgram _ => true
  | .logWinRead word => decide (word < 40)
  | .jnlWinRead word => decide (word < 16)
  | .journalMirror => true
  | .pwrWarnAssert _ => true
  | .powerFailFlushDone => true
  | .pwrWarnRelease _ => true
  | .mgmtWake _ => true
  | .logRead _ => true
  | .jnlRead _ => true
  | .clearReplace _ => true
  | .handover _ => true
  | .setConfig _ => true
  | .setMgmtKey _ => true
  | .setPreferred _ => true
  | .pmcDumpWrite => true
  | .pmcClear _ => true
  | .pmcSelWrite off _ => decide (off < 0x4000000)
  | .counterWindowRead crew _ _ => decide (crew < 16)
  | .traceDrain crew => decide (crew < 16)
  | .registerWrite off _ => decide (off < 0x4000000)
  | .bar0BadAccess _ _ _ => true
  | .glbNf6SeqRead => true
  | .glbNf6Clr _ => true
  | .parityScan off _ => decide (off < 0x4000000)
  | .parityFailure off _ => decide (off < 0x4000000)
  | .parityReloadDone off => decide (off < 0x4000000)
  | .pciBar4Write _ => true
  | .rigLoad _ => true
  | .rigStaged _ => true
  | .rigTakeEffect => true
  | .rigShadowed => true
  | .rigAbort _ => true
  | .pwrokAonRise _ _ => true
  | .powerUpStep _ _ _ => true
  | .pciPerstN => true
  | .thermalWarn sensor _ => decide (sensor < 27)
  | .throttleEnter sensor _ => decide (sensor < 27)
  | .throttleExit sensor _ => decide (sensor < 27)
  | .criticalTrip sensor _ => decide (sensor < 27)
  | .loopNearDigital link _ => decide (link < 96)
  | .loopNearAnalogue link _ => decide (link < 96)
  | .loopEcho link _ => decide (link < 96)
  | .loopLineCheck link _ => decide (link < 96)
  | .linkLoopDone link _ _ => decide (link < 96)
  | .linkLoopOff link _ => decide (link < 96)
  | .timedAcknowledgement link _ => decide (link < 96)
  | .pwrokAonFall => true
  | .pciPerstNRelease => true
  | .ucieModuleFailure _ => true
  | .restoreComplete crew => decide (crew < 16)
  | .pldmFirmwareUpdate _ _ => true
  | .thermalWarnClear sensor _ => decide (sensor < 27)

end Sys2Proof
end

