-- ==== Sys2Proof/Safety.lean ====
section
/-!
DEFINITION. What a safe run is, and the words in which the statements say what a command leaves unchanged and what it
records.
-/
namespace Sys2Proof.Machine

/-- Every waiting command names units the package has. -/
def State.pendingWf (s : State) : Prop := ∀ c ∈ s.pending, c.wf = true

/-- A step that neither faults nor refuses. -/
def stepSafe (s : State) : Prop := ∃ t, step s = .next t

/-! ### Frames -/

/-- A byte of HBM, by physical address. -/
def State.hbmAt (s : State) (a : Nat) : Byte := Map.getD unlisted s.mem a

/-- A byte of host memory. -/
def State.hostAt (s : State) (a : Nat) : Byte := Map.getD unlisted s.hostMem a

/-- A byte of a core's store. -/
def State.storeAt (s : State) (c a : Nat) : Byte := Map.getD unlisted (s.core c).store a

/-- HBM and host memory are unchanged: every byte, every granule's check state and every poison mark. -/
def State.sameMemory (s t : State) : Prop :=
  (∀ a, t.hbmAt a = s.hbmAt a) ∧ (∀ a, t.granSt a = s.granSt a) ∧ (∀ a, t.hostAt a = s.hostAt a) ∧ t.hostPoison = s.hostPoison

/-- Cores, tallies, queues, contexts and accept numbers are unchanged: what a job computes with. -/
def State.sameJobs (s t : State) : Prop :=
  t.cores = s.cores ∧ t.tallies = s.tallies ∧ t.queues = s.queues ∧ t.ctxs = s.ctxs ∧ t.nextAccept = s.nextAccept
    ∧ t.hostTal = s.hostTal ∧ t.tabSets = s.tabSets

/-- The cox die and the NV store are unchanged. -/
def State.sameCox (s t : State) : Prop := t.cox = s.cox ∧ t.nv = s.nv

/-- Power state and pins are unchanged. -/
def State.samePower (s t : State) : Prop := t.pow = s.pow ∧ t.pins = s.pins

/-- Fabric time and the stroke generator are unchanged. -/
def State.sameTime (s t : State) : Prop := t.tim = s.tim ∧ t.stk = s.stk ∧ t.raw = s.raw

/-- Every register but those at the offsets given reads as before. -/
def State.regsBut (s : State) (offs : List Nat) (t : State) : Prop :=
  ∀ o d, o ∉ offs → Map.getD d t.regs o = Map.getD d s.regs o

/-- One fault of a class, severity and event joins those that wait for their record (11 R272, R275). -/
def State.records (s t : State) (cls sev event : Nat) : Prop :=
  ∃ f : Fault0, t.flt.queue = s.flt.queue ++ [f] ∧ f.cls = cls ∧ f.sev = sev ∧ f.event = event

/-- Every crew of the rig in force is to stop (11, severity Package). -/
def State.allStop (s t : State) : Prop := ∀ n, n < 16 → s.crewValid n = true → (t.crew n).stop.isSome = true

end Sys2Proof.Machine
end

