-- ==== Sys2Proof/Certificates/Slice0/Obligations.lean ====
section
/-!
DEFINITION. The statements for the provers. Each formalises the rules of the spec that its entry in OBLIGATIONS.json cites.
-/
open Sys2Proof Sys2Proof.Machine

/-- A sensor's reading at or above the warn level raises warn and one Info record 0x0B01; below it warn drops. A reading
at or above the throttle level raises throttle and throttle_hist and one Info record 0x0B02; below the exit level
throttle drops. A reading at or above the critical level removes EN_ARR, EN_CMP, EN_IOD and EN_HBM, asks for a logbook
flush, asserts THERM_TRIP_N, raises one Package record 0x0B03 and stops every crew. Each completes and leaves memory,
jobs, time and every other register unchanged. -/
def Obligations.ThermalCommandsActAtTheirLevels : Prop :=
  ∀ (s : State) (n x : Nat), n < 27 → x < 256 →
    let warn := if n < 19 then 95 else 90
    let throttle := if n < 19 then 105 else 95
    let exit := if n < 19 then 100 else 90
    let critical := if n < 19 then 115 else 105
    let keeps := fun t : State => t.fld F.COX_TEMP_temp [n] = x ∧ s.sameMemory t ∧ s.sameJobs t ∧ s.sameTime t
      ∧ s.regsBut [R.COX_TEMP.addr [n]] t
    (warn ≤ x → s.fld F.COX_TEMP_warn [n] = 0 →
      ∃ t, exec (.thermalWarn n x) s = .next t ∧ t.fld F.COX_TEMP_warn [n] = 1 ∧ s.records t 0xB 0 0x0B01 ∧ keeps t) ∧
    (x < warn →
      ∃ t, exec (.thermalWarnClear n x) s = .next t ∧ t.fld F.COX_TEMP_warn [n] = 0 ∧ t.flt = s.flt ∧ keeps t) ∧
    (throttle ≤ x → s.fld F.COX_TEMP_throttle [n] = 0 →
      ∃ t, exec (.throttleEnter n x) s = .next t ∧ t.fld F.COX_TEMP_throttle [n] = 1
        ∧ t.fld F.COX_TEMP_throttle_hist [n] = 1 ∧ s.records t 0xB 0 0x0B02 ∧ keeps t) ∧
    (x < exit →
      ∃ t, exec (.throttleExit n x) s = .next t ∧ t.fld F.COX_TEMP_throttle [n] = 0 ∧ t.flt = s.flt ∧ keeps t) ∧
    (critical ≤ x → s.pow.critical = false →
      ∃ t, exec (.criticalTrip n x) s = .next t
        ∧ t.pins = { s.pins with enArr := false, enCmp := false, enIod := false, enHbm := false, thermTripN := false }
        ∧ t.cox = { s.cox with flush := true } ∧ s.records t 0xB 3 0x0B03 ∧ s.allStop t ∧ keeps t)

/-- A block with nothing to do enters its idle state, and any block leaves it, and no other part of the state changes:
no register, result, memory or stroke. -/
def Obligations.BlockIdleChangesOnlyPower : Prop :=
  ∀ (s : State) (b : Block),
    (s.blockFree b = true → b ∉ s.pow.idle →
      exec (.blockIdleEnter b) s = .next { s with pow := { s.pow with idle := s.pow.idle ++ [b] } }) ∧
    ∃ t, exec (.blockIdleExit b) s = .next t ∧ b ∉ t.pow.idle ∧ (∀ x, x ≠ b → (x ∈ t.pow.idle ↔ x ∈ s.pow.idle)) ∧
      t = { s with pow := { s.pow with idle := t.pow.idle } }

/-- Rail power above 1,100 W, and a power-good that falls while its enable is asserted and no PWR_WARN_N is, raise a
POWER record 0x0A01 of Package severity and remove the compute-chip and I/O-die enables (EN_ARR among them: the model's
reading, assumption log 24). A clock that leaves its frequency in an armed domain raises 0x0313, a failing UCIe module
0x0311, both UE-F of Package severity. Every crew is to stop. A monitor that nothing holds disarmed is armed again 1 µs
after its clock reached its set frequency. Memory, jobs and registers stay. -/
def Obligations.SupplyAndClockTripsStopEveryCrew : Prop :=
  ∀ (s : State),
    let keeps := fun t : State => s.sameMemory t ∧ s.sameJobs t ∧ s.sameCox t ∧ s.regsBut [] t
    (∀ w : BitVec 32, 1100 < w.toNat → s.pow.tripped = false → 1 ≤ s.pow.step →
      ∃ t, exec (.overCurrentTrip w) s = .next t ∧ t.pins = { s.pins with enArr := false, enCmp := false, enIod := false }
        ∧ t.pow = { s.pow with tripped := true } ∧ s.records t 0xA 3 0x0A01 ∧ s.allStop t ∧ keeps t) ∧
    (∀ (r : Rail) (w : BitVec 32), s.enabledRail r = true → s.pow.warn = none →
      ∃ t, exec (.powerGoodFall r w) s = .next t ∧ t.pins = { s.pins with enArr := false, enCmp := false, enIod := false }
        ∧ t.pow = { s.pow with tripped := true } ∧ s.records t 0xA 3 0x0A01 ∧ s.allStop t ∧ keeps t) ∧
    (∀ d, d ∈ s.pow.armed →
      ∃ t, exec (.clockMonitorTrip d) s = .next t ∧ s.records t 3 3 0x0313 ∧ s.allStop t ∧ s.samePower t ∧ keeps t) ∧
    (∀ m, ∃ t, exec (.ucieModuleFailure m) s = .next t ∧ s.records t 3 3 0x0311 ∧ m ∈ t.flt.ucie ∧ s.allStop t
        ∧ s.samePower t ∧ keeps t) ∧
    (∀ d at0 x, Map.find d s.pow.rearm = some at0 → at0 + 1000 ≤ x → s.raw ≤ x → s.pow.step ≠ 0 → s.monitorHeld d = false →
      ∃ t, exec (.monitorRearm d x) s = .next t ∧ t.raw = x ∧ d ∈ t.pow.armed ∧ Map.find d t.pow.rearm = none ∧ keeps t)

/-- A written go is refused (refused reads 1, no change begins) when the target is 0b11, when it names a stroke less
than two after the present one, when a change is busy, or in Easy; a target equal to current is a null change; any other
is taken: busy reads 1 and the change waits for its start stroke or the next boundary. The settling interval of
2,000,000 ns once over, the supply code is the target's. Memory and jobs stay. -/
def Obligations.ModeChangeIsTakenRefusedOrNull : Prop :=
  ∀ (s : State) (v : BitVec 32), v.toNat % 2 = 1 →
    let target := bits v.toNat 25 24
    let named := bits v.toNat 1 1 = 1
    let start := s.pair R.GLB_MODE_AT_LO R.GLB_MODE_AT_HI []
    let bad := target = 3 ∨ (named ∧ start < s.stk.num + 2) ∨ s.pow.mode.isSome = true ∨ s.inEasy = true
    (bad → ∃ t, exec (.modeChangeRequest v) s = .next t ∧ t.fld F.GLB_MODE_refused [] = 1 ∧ s.samePower t
      ∧ s.sameMemory t ∧ s.sameJobs t) ∧
    (¬ bad → target = s.fld F.GLB_MODE_current [] →
      ∃ t, exec (.modeChangeRequest v) s = .next t ∧ s.samePower t ∧ t.fld F.GLB_MODE_busy [] = s.fld F.GLB_MODE_busy []
        ∧ s.sameMemory t ∧ s.sameJobs t) ∧
    (¬ bad → target ≠ s.fld F.GLB_MODE_current [] →
      ∃ t, exec (.modeChangeRequest v) s = .next t ∧ t.fld F.GLB_MODE_busy [] = 1
        ∧ (∀ m, t.pow.mode = some m → m.target = target ∧ (named → m.start = some start) ∧ (¬ named → m.start = none)
            ∧ m.b0 = none)
        ∧ t.pow.mode.isSome = true ∧ t.pins = s.pins ∧ s.sameMemory t ∧ s.sameJobs t) ∧
    (∀ (x : Nat) (m : ModeChange), s.pow.mode = some m → m.b0.isSome = true → m.settled = false →
      m.settle ≤ (s.advance x).ns →
      ∃ t, exec (.modeSettleEnd x) s = .next t ∧ t.pow.mode = some { m with settled := true }
        ∧ t.pins = { s.pins with vid := vidOf m.target } ∧ s.sameMemory t ∧ s.sameJobs t ∧ s.regsBut [] t)

/-- GLB_EASY.enter asks for entry when awake. The end of entry puts the package asleep (asleep 1, waking 0). A wake
request of a package asleep, by GLB_EASY.wake, by the named time, or by naming a boundary less than 60,000 ns away,
plans a wake; W is 60,000 ns before T_first. At W the sequence starts (asleep 0, waking 1) and at the boundary T_first
the package is awake (waking 0), held doorbells delivered, and the actions of the boundary follow. A stray read gives
ones and sets stray_access. HBM, host memory, tallies, cores and the NV store stay but for those actions. -/
def Obligations.EasyEntryAndWakeRunTheirSequence : Prop :=
  ∀ (s : State),
    let keeps := fun t : State => s.sameMemory t ∧ t.cores = s.cores ∧ t.tallies = s.tallies ∧ t.nv = s.nv ∧ t.ctxs = s.ctxs
    (∀ v : BitVec 32, s.pow.easy = .awake → v.toNat % 2 = 1 → bits v.toNat 1 1 = 0 → bits v.toNat 3 3 = 0 →
      ∃ t, exec (.easyEnter v) s = .next t ∧ t.pow = { s.pow with easy := .requested } ∧ t.pins = s.pins
        ∧ t.queues = s.queues ∧ keeps t) ∧
    (∀ x, s.pow.easy = .entering → s.pow.wakeReq = false →
      ∃ t, exec (.easyEntryComplete x) s = .next t ∧ t.pow = { s.pow with easy := .asleep } ∧ t.fld F.GLB_EASY_asleep [] = 1
        ∧ t.fld F.GLB_EASY_waking [] = 0 ∧ t.queues = s.queues ∧ keeps t) ∧
    (∀ v : BitVec 32, s.pow.easy = .asleep → s.pow.wakeReq = false → v.toNat % 2 = 0 → bits v.toNat 1 1 = 1 →
      ∃ t, exec (.easyWake v) s = .next t ∧ t.pow.wakeReq = true ∧ t.pow.easy = .asleep
        ∧ t.pow.wakeW = t.pow.tFirst - 60000 ∧ t.queues = s.queues ∧ keeps t) ∧
    (∀ v : BitVec 32, s.pow.easy = .asleep → s.pow.wakeReq = false → bits v.toNat 1 1 = 0 → bits v.toNat 3 3 = 1 →
      s.boundaryOf s.wakeStroke < Int.ofNat s.ns + 60000 →
      ∃ t, exec (.wakeAtWrite .easy v) s = .next t ∧ t.pow.wakeReq = true ∧ t.fld F.GLB_EASY_wake_late [] = 1
        ∧ t.queues = s.queues ∧ keeps t) ∧
    (∀ x, s.pow.easy = .asleep → s.pow.wakeReq = false → s.isSet F.GLB_EASY_wake_at_valid [] = true →
      (s.advance x).boundaryOf (s.advance x).wakeStroke - 60000 ≤ Int.ofNat (s.advance x).ns →
      Int.ofNat s.pow.entry ≤ (s.advance x).boundaryOf (s.advance x).wakeStroke - 60000 →
      ∃ t, exec (.wakeAtReached x) s = .next t ∧ t.pow.wakeReq = true ∧ t.pow.easy = .asleep ∧ t.queues = s.queues ∧ keeps t) ∧
    (∀ x, s.pow.easy = .asleep → s.pow.wakeReq = true → s.pow.wakeW ≤ (s.advance x).ns →
      ∃ t, exec (.wakeSequence x) s = .next t ∧ t.pow.easy = .waking ∧ t.fld F.GLB_EASY_asleep [] = 0
        ∧ t.fld F.GLB_EASY_waking [] = 1
        ∧ (∀ n, n < 3 → (Map.getD {} t.stk.rx n).count = s.pow.tFirstStroke ∧ (Map.getD {} t.stk.rx n).pred = s.pow.tFirst)
        ∧ t.queues = s.queues ∧ keeps t) ∧
    (∀ x, s.pow.easy = .waking → s.pow.tFirst ≤ s.stk.bound → s.stk.drive = true → (s.advance x).ns ≤ s.stk.bound + 1 →
      ∃ t, exec (.wakeComplete x []) s = .next (if t.rigDue then t else t.boundaryActions) ∧ t.pow.easy = .awake
        ∧ t.pow.wakeReq = false ∧ t.pow.held = [] ∧ t.fld F.GLB_EASY_waking [] = 0 ∧ keeps t) ∧
    (∀ off, s.strayAt off = true →
      ∃ t, exec (.strayAccess false false off) s = .next t ∧ t.hostData = [0xFF, 0xFF, 0xFF, 0xFF]
        ∧ t.fld F.GLB_EASY_stray_access [] = 1 ∧ s.samePower t ∧ t.queues = s.queues ∧ keeps t)

/-- When fabric time has reached a boundary and the generator runs, STROKE_BOUNDARY gives the generator the boundary's
stroke number and instant, begins the drive, puts 0xF9A8 over the number's low 16 bits on the stroke line, ends any
renumbering, and then does the actions of the boundary; with a rig due at the boundary these wait for RIG_TAKE_EFFECT,
which puts the staged rig in force first. While the other dies do not run and no reset waits, nothing but the cox die
takes the boundary. DRIVE_END ends the drive and keeps the number and HBM. -/
def Obligations.StrokeBoundaryBeginsTheNextStroke : Prop :=
  ∀ (s : State) (x : Nat),
    (∀ n, (s.advance x).risen = some n → s.isSet F.STK_CTL_running [] = true →
      (∃ u : State, exec (.strokeBoundary x) s = .next (if u.rigDue then u else u.boundaryActions) ∧ u.stk.num = n
        ∧ u.stk.bound = (u.boundaryOf n).toNat ∧ u.stk.drive = true ∧ u.stk.renum = none
        ∧ u.stk.frame = BitVec.ofNat 32 (0xF9A8 * 2 ^ 16 + n % 2 ^ 16) ∧ u.raw = (s.advance x).raw
        ∧ u.flt.resets = s.flt.resets) ∧
      (s.diesRun = false → s.flt.resets = [] →
        ∃ t, exec (.strokeBoundary x) s = .next t ∧ t.stk.num = n ∧ t.stk.drive = true ∧ t.raw = (s.advance x).raw
          ∧ t.crews = (s.advance x).endRecovery.crews ∧ t.cores = (s.advance x).endRecovery.cores)) ∧
    (s.stk.drive = true → (s.advance x).driveEndAt ≤ (s.advance x).ns → s.rigDue = false →
      ∃ t, exec (.driveEnd x) s = .next t ∧ t.stk.drive = false ∧ t.stk.num = s.stk.num ∧ t.raw = (s.advance x).raw
        ∧ (∀ a, t.hbmAt a = s.hbmAt a) ∧ (∀ a, t.hostAt a = s.hostAt a) ∧ t.queues = s.queues ∧ t.nv = s.nv) ∧
    (∀ g, s.rigDue = true → s.rig.staged = some g → s.flt.chipReload = false → s.rigRefused g = none →
      ∃ u : State, exec .rigTakeEffect s = .next u.boundaryActions
        ∧ u.rig = { load := none, staged := none, inForce := some g, effect := none }
        ∧ u.reg R.RIG_ID [] = g.id ∧ u.fld F.RIG_STAT_state [] = 4)

/-- In LOCKED a mark within 2 ns of the prediction with the expected 16 number bits is accepted: the next boundary is
predicted one period after it, at once where this boundary was emitted already, and the runs of bad and missed marks
restart; the replica of fabric time of the die is anchored to the boundary; no register changes. At the predicted
instant the flywheel emits the boundary. With no mark within half a period missed rises; the sixteenth in a run enters
DEAD, sets dead_hist, records HANG 0x0609 of Package severity and stops every crew. -/
def Obligations.FlywheelClassifiesMarks : Prop :=
  ∀ (s : State) (rx x : Nat), s.rxRuns rx = true → (s.rx rx).adopt = false → 4 ≤ s.period →
    let now := (s.advance x).ns
    let f := s.rx rx
    let g := { f with repBase := (s.boundaryOf f.count).toNat * 2 ^ 32, repRaw := (s.advance x).raw, repRate := s.rate }
    (∀ num : BitVec 16, f.next = none → s.fld F.STK_RX_state [rx] = 0 → now ≤ f.pred + 2 → f.pred ≤ now + 2 →
      num = BitVec.ofNat 16 f.count →
      ∃ t, exec (.strokeMark rx x num) s = .next t ∧ t.rx rx =
          (if f.emitted then { g with count := f.count + 1, pred := now + s.period, run := 0, missRun := 0, emitted := false }
            else { g with run := 0, missRun := 0, next := some (now + s.period) })
        ∧ s.regsBut [] t ∧ s.sameMemory t ∧ s.sameJobs t) ∧
    (f.emitted = false → f.pred ≤ now →
      ∃ t, exec (.flywheelBoundary rx x) s = .next t ∧ t.rx rx =
          (match f.next with
            | some p => { f with count := f.count + 1, pred := p, next := none }
            | none => { f with emitted := true })
        ∧ s.regsBut [] t ∧ s.sameMemory t ∧ s.sameJobs t) ∧
    (f.emitted = true → f.pred + s.period / 2 < now → f.missRun ≠ 15 →
      ∃ t, exec (.missedMark rx x) s = .next t ∧ (t.rx rx).missRun = f.missRun + 1 ∧ (t.rx rx).pred = f.pred + s.period
        ∧ t.fld F.STK_RX_missed [rx] = satAdd (s.fld F.STK_RX_missed [rx]) 1 255 ∧ t.flt = s.flt ∧ s.sameMemory t
        ∧ t.tallies = s.tallies) ∧
    (f.emitted = true → f.pred + s.period / 2 < now → f.missRun = 15 → s.fld F.STK_RX_state [rx] ≠ 2 →
      ∃ t, exec (.missedMark rx x) s = .next t ∧ t.fld F.STK_RX_state [rx] = 2 ∧ t.fld F.STK_RX_dead_hist [rx] = 1
        ∧ s.records t 6 3 0x0609 ∧ s.allStop t ∧ s.sameMemory t ∧ t.tallies = s.tallies)

/-- A well-formed command at the head of an eligible queue, with the expected sequence number and no drain, is accepted
at the boundary: it takes the next accept number, the queue's head and expected number advance. An unnamed LAUNCH joins
its crew's launches to start at the next stroke; a TALLY_ADD adds to, and a privileged TALLY_SET sets, its crew's tally
at once when the crew is not stopped or replaying; a satisfied QUEUE_WAIT and a NOP only complete. A command that leaves
a sequence gap is not accepted: it stops the queue with error 1. -/
def Obligations.AcceptedHostCommandsTakeEffect : Prop :=
  ∀ (s : State) (q : Nat) (b : Bytes), (s.queue q).headCmd = some b → s.atBoundary = true → s.canTake q = true →
    s.flt.drain = none → (hostCmd b).bad = false →
    let h := hostCmd b
    let n := s.queueCrew q
    let accepted := fun t : State => t.nextAccept = s.nextAccept + 1 ∧ t.lastServed = q
      ∧ (t.queue q).head = ((s.queue q).head + 1) % (s.queue q).size ∧ (t.queue q).expected = (s.queue q).expected + 1
      ∧ (t.queue q).lastAccept = s.nextAccept
    (h.seq = (s.queue q).expected →
      (h.op = 1 → h.named = false → ∃ t, exec (.hostLaunch q) s = .next t ∧ accepted t ∧ t.tallies = s.tallies
        ∧ ∃ l ∈ (t.crew n).launches, l.accept = s.nextAccept ∧ l.start = s.stk.num + 1 + s.shift n
            ∧ l.directory = h.directory ∧ l.queue = q ∧ l.running = false) ∧
      (h.op = 2 → s.tallyOf n h.tally = true → s.halted n = false → s.shift n = 0 →
        ∃ t, exec (.hostTallyAdd q) s = .next t ∧ accepted t ∧ (t.tally h.tally).value = (s.tally h.tally).value + h.value
          ∧ ∀ i, i ≠ h.tally → t.tally i = s.tally i) ∧
      (h.op = 3 → (s.ctx (s.queue q).context).privileged = true → s.tallyOf n h.tally = true → s.halted n = false →
        s.shift n = 0 →
        ∃ t, exec (.hostTallySet q) s = .next t ∧ accepted t ∧ (t.tally h.tally).value = h.value
          ∧ ∀ i, i ≠ h.tally → t.tally i = s.tally i) ∧
      (h.op = 4 → ∃ t, exec (.queueWait q) s = .next t ∧ accepted t ∧ t.tallies = s.tallies) ∧
      (h.op = 5 → ∃ t, exec (.hostNop q) s = .next t ∧ accepted t ∧ t.tallies = s.tallies)) ∧
    (h.op = 1 → 0 < serial32 h.seq (s.queue q).expected →
      ∃ t, exec (.hostLaunch q) s = .next t ∧ t.nextAccept = s.nextAccept ∧ (t.queue q).stopped = true
        ∧ (t.queue q).error = 1 ∧ t.tallies = s.tallies)

/-- A doorbell sets an enabled queue's tail, and stops the queue with error 4 when it lies beyond the ring. The
front-end fetches the 64 bytes of the next ring entry below the tail. A write of SEQ_QCFG enables the selected queue
when its context is bound. A write of TAL_ADD or TAL_SET waits for the next boundary. A launch's directory gives the
launch its members; a misaligned one gives it FORMAT. An argument block that fits core store lands and marks the core's
sequencer. -/
def Obligations.QueueFrontEndCommandsActOnTheirQueue : Prop :=
  ∀ (s : State),
    (∀ (q : Nat) (v : BitVec 32), s.inEasy = false → s.inReset = false → (s.queue q).enable = true →
      ∃ t, exec (.doorbell q v) s = .next t ∧ s.sameMemory t ∧ t.tallies = s.tallies ∧ t.crews = s.crews
        ∧ (∀ p, p ≠ q → t.queue p = s.queue p)
        ∧ (v.toNat < (s.queue q).size → (t.queue q).tail = v.toNat ∧ (t.queue q).stopped = (s.queue q).stopped)
        ∧ ((s.queue q).size ≤ v.toNat → (t.queue q).stopped = true ∧ (t.queue q).error = 4
            ∧ (t.queue q).tail = (s.queue q).tail)) ∧
    (∀ q, s.frontEnd = true → (s.queue q).enable = true → (s.queue q).stopped = false → (s.queue q).ringInHbm = false →
      s.pow.perst = false → (s.queue q).fetched = [] → (s.queue q).covers (s.queue q).head = true →
      (s.queue q).head < (s.queue q).size → 2 ≤ (s.queue q).size →
      let a := (s.queue q).ringLo.toNat + 2 ^ 32 * (s.queue q).ringHi.toNat + 64 * (s.queue q).head
      (∀ i, i < 64 → a + i ∉ s.hostPoison) →
      ∃ t, exec (.ringEntryFetch q false) s = .next t ∧ s.sameMemory t
        ∧ (t.queue q).fetched = [{ slot := (s.queue q).head, data := (iota a 64).map s.hostAt, since := s.raw }]) ∧
    (∀ v : BitVec 32, s.strayAt R.SEQ_QCFG.base = false → s.writeHeld R.SEQ_QCFG.base = false →
      let q := s.fld F.SEQ_QSEL_queue []
      (s.queue q).enable = false → bits v.toNat 31 31 = 1 → (s.ctx (bits v.toNat 11 0)).bound = true →
      ∃ t, exec (.seqQcfgWrite v) s = .next t ∧ (t.queue q).enable = true ∧ (t.queue q).stopped = false
        ∧ (t.queue q).error = 0 ∧ (t.queue q).context = bits v.toNat 11 0 ∧ (∀ p, p ≠ q → t.queue p = s.queue p)) ∧
    (∀ (n : Nat) (v : BitVec 32), s.strayAt (R.TAL_ADD.addr [n]) = false →
      ∃ t, exec (.talAddWrite n v) s = .next t ∧ t.tallies = s.tallies ∧ s.sameMemory t
        ∧ t.hostTal = s.hostTal ++ [{ isSet := false, tally := n, value := v }]) ∧
    (∀ (n : Nat) (v : BitVec 32), s.strayAt (R.TAL_SET.addr [n]) = false →
      ∃ t, exec (.talSetWrite n v) s = .next t ∧ t.tallies = s.tallies ∧ s.sameMemory t
        ∧ t.hostTal = s.hostTal ++ [{ isSet := true, tally := n, value := v }]) ∧
    (∀ accept n l, s.launchOf accept = some (n, l) → s.inReset = false → s.inEasy = false → l.checked = false →
      (l.directory % 64 ≠ 0 → ∃ t, exec (.directoryCheck accept) s = .next t ∧ s.sameMemory t
        ∧ ∃ k ∈ (t.crew n).launches, k.accept = accept ∧ k.checked = true ∧ 4 ∈ k.statuses) ∧
      (l.directory % 64 = 0 → s.inRange n l.directory 2304 = true →
        let r := s.hbmBytes l.directory 2304
        anyPoison r.1 = false → r.2.dirBad n r.1 = false →
        ∃ t, exec (.directoryCheck accept) s = .next t ∧ ∃ k ∈ (t.crew n).launches, k.accept = accept ∧ k.checked = true
          ∧ k.members.map (fun m => m.1) = (r.2.members n).filter fun c => decide (field (dirEntry r.1 c) 8 2 ≠ 0))) ∧
    (∀ c n l, s.runningOf c = some (n, l) → (s.core c).seq.argLanded = false → s.coreWorks c = true →
      s.dumpFrozen c 0xD = false → (s.core c).seq.accept = some l.accept → (l.argsInHbm = true ∨ s.pow.perst = false) →
      (s.core c).seq.stopped = false →
      (((l.members.find? fun m => decide (m.1 = c)).map fun m => m.2.2).getD 0) + l.argsLen ≤ storeEnd →
      ∃ t, exec (.argumentBlockLanded c) s = .next t ∧ (t.core c).seq.argLanded = true ∧ t.tallies = s.tallies)

/-- An unconditional entry whose waits are satisfied gives the sequencer its words. The next word joins the queue of the
unit it names, behind the words before it; a word in error is not performed, stops the sequencer and gives the launch
FORMAT. Run-ahead looks at the next entry. A launch all of whose parts are performed and delivered completes in this
stroke. At the drive end of stroke W + timeout - 1 a WAIT_GE expires, and the launch ends with TIMEOUT. -/
def Obligations.SequencerTakesEntriesAndWords : Prop :=
  ∀ (s : State) (c n : Nat), s.crewOf c = some n →
    let q := (s.core c).seq
    (∀ a ws h l, q.accept = some a → q.waits = some ws → (∀ w ∈ ws, w.sat = true ∧ w.expired = false) → q.stopped = false →
      q.ended = false → q.argLanded = true → s.coreWorks c = true → s.dumpFrozen c 0xE = false →
      s.peekWord c n q.table q.pos = some h →
      hdrCond h = false → (s.tableWords c n q.table (q.pos + 1) (hdrWords h)).1 = some l → l ≠ [] →
      (∀ p ∈ l, p.2 = false) →
      ∃ t, exec (.entryIssue c) s = .next t ∧ (t.core c).seq.held = l.map (fun p => p.1) ∧ (t.core c).seq.entry = q.pos
        ∧ (t.core c).seq.pos = q.pos + 1 + hdrWords h ∧ (t.core c).seq.waits = none ∧ t.tallies = s.tallies) ∧
    (∀ w r, q.held = w :: r → s.wordReady c = true →
      (s.wordBad c w = true → ∀ a, q.accept = some a →
        ∃ t, exec (.commandWordDispatch c) s = .next t ∧ (t.core c).seq.stopped = true ∧ (t.core c).seq.held = q.held
          ∧ (∀ l ∈ (t.crew n).launches, l.accept = a → 4 ∈ l.statuses) ∧ t.tallies = s.tallies ∧ s.sameMemory t) ∧
      (s.wordBad c w = false →
        (wbits w 255 252 = 1 → (s.eng c (unitOf w)).q.length < 4 →
          ∃ t x, exec (.commandWordDispatch c) s = .next t ∧ (t.eng c (unitOf w)).q = (s.eng c (unitOf w)).q ++ [x]
            ∧ x.tag = (s.core c).nextTag ∧ (t.core c).nextTag = (s.core c).nextTag + 1) ∧
        (wbits w 255 252 = 2 → (s.core c).vecq.length < 4 →
          ∃ t x, exec (.commandWordDispatch c) s = .next t ∧ (t.core c).vecq = (s.core c).vecq ++ [x]
            ∧ x.tag = (s.core c).nextTag ∧ (t.core c).nextTag = (s.core c).nextTag + 1) ∧
        (wbits w 255 252 = 3 → (s.core c).dmaq.length < 8 →
          ∃ t x, exec (.commandWordDispatch c) s = .next t ∧ (t.core c).dmaq = (s.core c).dmaq ++ [x]
            ∧ x.tag = (s.core c).nextTag ∧ (t.core c).nextTag = (s.core c).nextTag + 1) ∧
        (wbits w 255 252 = 4 → talOp w ≠ 1 → (s.core c).tq = [] →
          ∃ t x, exec (.commandWordDispatch c) s = .next t ∧ (t.core c).tq = [x]
            ∧ x.tag = (s.core c).nextTag ∧ (t.core c).nextTag = (s.core c).nextTag + 1))) ∧
    (∀ a h, q.accept = some a → q.ended = false → q.stopped = false → q.loops = [] → s.inEasy = false → s.inReset = false →
      s.dumpFrozen c 0xE = false → q.pos ≤ q.aheadPos → s.peekWord c n q.table q.aheadPos = some h →
      hdrBad h q.aheadPos q.table.len = false → hdrCond h = false → q.start + hdrOffset h + s.slipOf n ≤ s.stk.num + 4 →
      ∃ t, exec (.runAheadFetch c) s = .next t ∧ (t.core c).seq.aheadPos = q.aheadPos + 1 + hdrWords h
        ∧ (t.core c).seq.pos = q.pos ∧ (t.core c).store = (s.core c).store ∧ t.tallies = s.tallies ∧ s.sameMemory t) ∧
    (∀ l, (s.crew n).runningLaunch = some l → s.crewValid n = true → s.halted n = false → s.inReset = false →
      l.poisoned = false → (∀ d ∈ s.members n, s.corePerformed d l.accept = true) → s.flitsDone n l.accept = true →
      (∀ r ∈ s.aord, r.crew ≠ n) →
      ∃ t, exec (.launchComplete n) s = .next t ∧ t.nextAccept = s.nextAccept ∧ t.tallies = s.tallies
        ∧ ∀ k ∈ (t.crew n).launches, k.accept = l.accept → k.finished = some s.stk.num ∧ k.running = false) ∧
    (∀ a w, s.driveOver = true → s.halted n = false → q.accept = some a → q.waits = none → w ∈ (s.core c).waits →
      w.wait.begun = true → w.wait.sat = false → w.wait.expired = false → 0 < w.wait.timeout →
      w.wait.w + w.wait.timeout ≤ s.stk.num + 1 →
      ∃ t, exec (.waitTimeout c) s = .next t ∧ w ∉ (t.core c).waits ∧ (t.core c).seq.stopped = true
        ∧ (∀ l ∈ (t.crew n).launches, l.accept = a → 6 ∈ l.statuses) ∧ t.tallies = s.tallies ∧ s.sameMemory t)

/-- The oldest tally operation of a core that works: a local ADD, once the writes before it are performed, adds modulo
2^32; a SET of a privileged context gives the value at once, under FIXED at the next boundary; a READ puts the value it
observes into core store, little-endian. Each leaves the queue, and no other tally changes. A WAIT_GE that its tally
does not satisfy (i32(value - threshold) < 0) is held for the unit it names. -/
def Obligations.TallyCommandsActOnTheirTally : Prop :=
  ∀ (s : State) (c n : Nat), s.crewOf c = some n → s.coreWorks c = true →
    (∀ q r, (s.core c).tq = q :: r →
      let k := talNum q.word
      s.tallyOf n k = true →
      (talOp q.word = 0 → wbits q.word 231 231 = 0 → q.started = false → (s.core c).released (unitOf q.word) q.tag = true →
        ∃ t, exec (.tallyAddCmd c) s = .next t ∧ (t.tally k).value = (s.tally k).value + talValue q.word
          ∧ (∀ i, i ≠ k → t.tally i = s.tally i) ∧ (t.core c).tq = r ∧ s.sameMemory t) ∧
      (talOp q.word = 2 → (s.ctx (ctxOf q.word)).privileged = true → s.fixed = false →
        ∃ t, exec (.tallySetCmd c) s = .next t ∧ (t.tally k).value = talValue q.word
          ∧ (∀ i, i ≠ k → t.tally i = s.tally i) ∧ (t.core c).tq = r ∧ s.sameMemory t) ∧
      (talOp q.word = 2 → (s.ctx (ctxOf q.word)).privileged = true → s.fixed = true →
        ∃ t, exec (.tallySetCmd c) s = .next t ∧ t.tallies = s.tallies ∧ (t.core c).tq = r ∧ s.sameMemory t
          ∧ t.tabSets = s.tabSets ++ [{ isSet := true, tally := k, value := talValue q.word, core := c }]) ∧
      (talOp q.word = 3 → s.mustWait c k = false →
        ∃ t, exec (.tallyReadCmd c) s = .next t ∧ t.tallies = s.tallies ∧ (t.core c).tq = r ∧ s.sameMemory t
          ∧ ∀ i, i < 4 → (t.storeAt c (wbits q.word 158 137 + i)).toNat = (s.observed c k).toNat / 256 ^ i % 256)) ∧
    (∀ w r, (s.core c).seq.held = w :: r → wbits w 255 252 = 4 → talOp w = 1 → s.wordReady c = true → s.wordBad c w = false →
      (s.core c).waits = [] → s.tallyOf n (talNum w) = true →
      serial32 (s.tally (talNum w)).value (talValue w) < 0 →
      ∃ t, exec (.waitGe c) s = .next t ∧ t.tallies = s.tallies
        ∧ ∃ x ∈ (t.core c).waits, x.unit = unitOf w ∧ x.wait.tally = talNum w ∧ x.wait.value = talValue w)

/-- Each control word is taken in order (the next word of the entry follows). FENCE stalls the core while what was
issued before it is not performed; LOOP goes back to the first of the repeated entries, in pass 1; END ends the core's
part of the launch; STEP makes the next boundary a step boundary; MARK stages a record of kind 3 with its marker;
POOL_TAKE takes the item that is next for the core out of its pool, and on an empty pool writes a zero item; POOL_PUT
appends an item. -/
def Obligations.ControlCommandsSteerTheSequencer : Prop :=
  ∀ (s : State) (c n : Nat), s.crewOf c = some n →
    let q := (s.core c).seq
    let taken := fun t : State => (t.core c).nextTag = (s.core c).nextTag + 1 ∧ t.tallies = s.tallies
    (∀ w, s.ctlWord c 0 = some w → ∃ t, exec (.ctlNop c) s = .next t ∧ taken t
      ∧ (2 ≤ q.held.length → (t.core c).seq = { q with held := q.held.tail } ∧ (t.core c).store = (s.core c).store)) ∧
    (∀ w, s.ctlWord c 1 = some w → (s.core c).fencePast (s.core c).nextTag = false →
      ∃ t, exec (.fenceCmd c) s = .next t ∧ taken t ∧ ∃ f ∈ (t.core c).fences, f.tag = (s.core c).nextTag) ∧
    (∀ w x, s.ctlWord c 2 = some w →
      let before := q.starts.filter fun y => decide (y < q.entry)
      let back := wbits w 215 203
      0 < back → back ≤ before.length → 0 < wbits w 231 216 → (before.drop (before.length - back)).head? = some x →
      ∃ t, exec (.loopCmd c) s = .next t ∧ taken t ∧ (t.core c).seq.pos = x
        ∧ ∃ f, (t.core c).seq.loops.head? = some f ∧ f.pass = 1 ∧ f.count = wbits w 231 216 ∧ f.stride = wbits w 202 187
            ∧ f.rest = q.held.tail ∧ f.resume = q.pos) ∧
    (∀ w, s.ctlWord c 3 = some w → q.caller = none →
      ∃ t, exec (.endTable c) s = .next t ∧ taken t ∧ (t.core c).seq.ended = true ∧ (t.core c).seq.held = []) ∧
    (∀ w, s.ctlWord c 4 = some w → ∃ t, exec (.stepCmd c) s = .next t ∧ taken t ∧ (t.crew n).stepNext = true) ∧
    (∀ w, s.ctlWord c 7 = some w → s.isSet F.TRC_CTL_enable [n] = true → (s.core c).trc.length < 250 →
      (s.core c).trcReset = false → (s.core c).trcLoss = none →
      ∃ t, exec (.markCmd c) s = .next t ∧ taken t
        ∧ ∃ r ∈ (t.core c).trc, r.kind = 3 ∧ r.detail = wbits w 159 128 ∧ r.core = c) ∧
    (∀ w, s.ctlWord c 5 = some w → q.caller = none → (s.core c).fences = [] → wbits w 186 183 ≤ 3 →
      inData (wbits w 181 160) 32 = true →
      let p := wbits w 186 183
      (s.nextItem n c ((s.crew n).pool p) = none → 2 ≤ q.held.length →
        ∃ t, exec (.poolTake c) s = .next t ∧ taken t ∧ s.sameMemory t
          ∧ ∀ i, i < 32 → t.storeAt c (wbits w 181 160 + i) = 0) ∧
      (∀ x, s.nextItem n c ((s.crew n).pool p) = some x →
        ∃ t, exec (.poolTake c) s = .next t ∧ taken t
          ∧ ((t.crew n).pool p).items = ((s.crew n).pool p).items.filter fun y => decide (y.ord ≠ x.ord))) ∧
    (∀ w, s.ctlWord c 6 = some w → (s.core c).fences = [] → wbits w 186 183 ≤ 3 → inData (wbits w 181 160) 32 = true →
      let pool := (s.crew n).pool (wbits w 186 183)
      pool.full = false →
      ∃ t, exec (.poolPut c) s = .next t ∧ taken t
        ∧ ((t.crew n).pool (wbits w 186 183)).items = pool.items ++ [{ ord := pool.nput, stroke := s.stk.num, core := c }]
        ∧ ((t.crew n).pool (wbits w 186 183)).nput = pool.nput + 1)

/-- Outside Easy and resets, a queued write-back of a word with one flipped bit and no poison leaves the word's data and
clears its error, and leaves the queue. In the recovery, PATROL_READ of a bank that has yet to read its row leaves every
word of the named row that had one flipped bit and no poison clean, with its data; the row counter moves on when all 24
banks have read the row, and past row 2,047 starts again at 0 with one more pass. Memory, tallies and other cores stay.
-/
def Obligations.CoreStoreCorrectionAndPatrol : Prop :=
  ∀ (s : State) (c : Nat), c < 144 →
    let others := fun t : State => s.sameMemory t ∧ t.tallies = s.tallies ∧ ∀ d, d ≠ c → t.core d = s.core d
    (∀ a b, a / 8 ∈ (s.core c).ceWb → s.wordSt c (a / 8) = { poison := false, flips := [b] } → s.inEasy = false → s.inReset = false →
      ∃ t, exec (.ceWriteback c a) s = .next t ∧ t.wordSt c (a / 8) = {} ∧ a / 8 ∉ (t.core c).ceWb
        ∧ (∀ x, t.storeAt c x = s.storeAt c x) ∧ s.regsBut [] t ∧ others t) ∧
    (∀ bank, s.patrolDue c bank = true →
      ∃ t, exec (.patrolRead c bank []) s = .next t ∧ others t
        ∧ (∀ i b, i ∈ rowWords bank (s.fld F.CST_PATROL_row [c]) → s.wordSt c i = { poison := false, flips := [b] } →
            t.wordSt c i = {} ∧ t.wordData c i = s.wordData c i)
        ∧ ((s.core c).patrolled.length + 1 < 24 → t.fld F.CST_PATROL_row [c] = s.fld F.CST_PATROL_row [c]
            ∧ bank ∈ (t.core c).patrolled)
        ∧ (24 ≤ (s.core c).patrolled.length + 1 → (t.core c).patrolled = [] ∧
            if s.fld F.CST_PATROL_row [c] = 2047 then t.fld F.CST_PATROL_row [c] = 0
              ∧ t.fld F.CST_PATROL_passes [c] = satAdd (s.fld F.CST_PATROL_passes [c]) 1 65535
            else t.fld F.CST_PATROL_row [c] = s.fld F.CST_PATROL_row [c] + 1))

/-- An engine whose oldest command has the shape, runs, and has linear streams and a free output buffer performs the
command whole: it leaves the queue, the engine holds its chain, in which every present problem has advanced by its
k_len, and an emit fills one more output buffer with the command's tiles. No byte of core store changes before the
commit; other cores stay but for the engines of the core whose umpire follows the chain; tallies and memory stay. A
command with a format error leaves the queue too, but no accumulator changes, the sequencer stops and the launch gets
FORMAT. -/
def Obligations.MatrixCommandsRunTheirChain : Prop :=
  ∀ (s : State) (c e : Nat) (cmd : QCmd) (r : List QCmd), c < 144 → e < 12 → (s.eng c e).q = cmd :: r →
    cmd.started = false → cmd.done = 0 → s.unitRuns c e cmd.tag = true → (s.eng c e).frozen = false → (∀ i, s.wordSt c i = {}) →
    let m := mcmd cmd.word
    let ctx := wbits cmd.word 251 240
    let desc := if m.shape = 1 ∧ m.aAddr % 128 = 0 ∧ inData m.aAddr 128 = true then
      Map.bytes unlisted (s.core c).store m.aAddr 128 else []
    (m.emit = true → (s.eng c e).out.length < 2) →
    ∀ x ∈ [(0, Instr.matrixFull c e), (1, .matrixQuad c e), (2, .matrixWide c e)], m.shape = x.1 →
      (s.matrixBad c e cmd ctx desc = false →
        (∀ p ∈ problems m desc, ringName p.a = none ∧ ringName p.b = none ∧ ringName p.aScale = none ∧ ringName p.bScale = none) →
        ∃ t ch, exec x.2 s = .next t ∧ (t.eng c e).q = r ∧ (t.eng c e).chain = some ch ∧ ch.accept = cmd.accept
          ∧ ch.shape = m.shape ∧ ch.group = m.group
          ∧ (∀ p ∈ problems m desc, ch.k.getD p.q 0 = (s.eng c e).chainPos m p.q + p.k)
          ∧ (m.emit = false → (t.eng c e).out = (s.eng c e).out)
          ∧ (m.emit = true → ∃ b, (t.eng c e).out = (s.eng c e).out ++ [b] ∧ b.tiles = tilesOf m (problems m desc)
              ∧ b.cmd.tag = cmd.tag ∧ b.outFmt = m.outFmt)
          ∧ (∀ a, t.storeAt c a = s.storeAt c a) ∧ (∀ d, d ≠ c → d ≠ hostOf c → t.core d = s.core d)
          ∧ t.core (hostOf c) = { s.core (hostOf c) with eng := (t.core (hostOf c)).eng } ∧ t.tallies = s.tallies ∧ s.sameMemory t) ∧
      (s.matrixBad c e cmd ctx desc = true →
        ∃ t, exec x.2 s = .next t ∧ (t.eng c e).q = r ∧ (t.eng c e).cells = (s.eng c e).cells ∧ (t.eng c e).chk = (s.eng c e).chk
          ∧ (t.eng c e).out = (s.eng c e).out ∧ (t.core c).seq.stopped = true
          ∧ (∀ n, s.crewOf c = some n → ∀ l ∈ (t.crew n).launches, l.accept = cmd.accept → 4 ∈ l.statuses)
          ∧ (∀ a, t.storeAt c a = s.storeAt c a) ∧ t.tallies = s.tallies ∧ s.sameMemory t)

/-- MATRIX_FULL with keep_acc 0 and emit 1, linear streams and input formats without a block scale: in the output buffer
that it fills, the cell of every row and column holds the sum and error term that R121's chain gives for A[row][k] and
B[k][column], k from 0 to k_len - 1, with the command's group size, where each element is decoded from the bits of its
stream at that K position; no cell is poisoned. -/
def Obligations.MatrixFullSumsProducts : Prop :=
  ∀ (s : State) (c e : Nat) (cmd : QCmd) (r : List QCmd), c < 144 → e < 12 → (s.eng c e).q = cmd :: r →
    cmd.started = false → cmd.done = 0 → s.unitRuns c e cmd.tag = true → (s.eng c e).frozen = false → (∀ i, s.wordSt c i = {}) →
    let m := mcmd cmd.word
    ∀ (fa fb : Fmt) (wa wb ka kb : Nat), inFmt m.aFmt = some (fa, wa, false, ka) → inFmt m.bFmt = some (fb, wb, false, kb) →
    m.shape = 0 → m.keep = false → m.emit = true → (s.eng c e).out.length < 2 → ringName m.aAddr = none → ringName m.bAddr = none →
    s.matrixBad c e cmd (wbits cmd.word 251 240) [] = false →
    let elem := fun (f : Fmt) (w a k i : Nat) =>
      f.decode (bits (leNat (Map.bytes unlisted (s.core c).store (a + k * (4 * w)) (4 * w))) (w * i + w - 1) (w * i))
    ∃ t b, exec (.matrixFull c e) s = .next t ∧ (t.eng c e).out = (s.eng c e).out ++ [b] ∧
      ∀ i j, i < 32 → j < 32 → ∃ d ∈ b.cells, d.row = i ∧ d.col = j ∧ d.poison = false ∧ (d.s, d.e) =
        Cell.value ((iota 0 m.kLen).foldl
          (fun x k => x.take (groupSize m.group)
            (scaledProduct (elem fa wa m.aAddr k i) (elem fb wb m.bAddr k j) (some 0) (some 0))) {})

/-- EMIT_COMMIT of an engine's oldest buffer, of a chain that no umpire follows, outside a diagnostic replay and with no
error of the silicon: when no row mismatches, an unwatched single tile without poison is in core store, row by row at
the pitch of the tile, and the buffer is free. When a row mismatches, no byte of core store changes, the engine is
frozen, mis_hist is set and a fault of event 0x0401 is recorded. ENG_ACC_DATA_WRITE in the debug personality on an idle
or frozen engine sets the selected sum to the bits written; else it is ignored. -/
def Obligations.EmitCommitWritesOrWithholds : Prop :=
  ∀ (s : State) (c e n : Nat), c < 144 → e < 12 → s.crewOf c = some n →
    (∀ b r, (s.eng c e).out = b :: r → s.coreWorks c = true → (s.eng c e).frozen = false → s.shadowed c e = none → b.sampled = false →
      (∀ i, s.wordSt c i = {}) →
      (firstMismatch 0 (s.checkRows c b b.cells b.chk) = none → b.watch = none → (∀ d ∈ b.cells, d.poison = false) →
        ∀ tile, b.tiles = [tile] → (∀ x ∈ tileRows b tile b.cells, x.length ≤ tile.pitch) →
        ∃ t, exec (.emitCommit c e []) s = .next t ∧ (t.eng c e).out = r ∧ (t.eng c e).frozen = false ∧ t.flt = s.flt
          ∧ t.tallies = s.tallies ∧ s.sameMemory t
          ∧ (∀ i row, (tileRows b tile b.cells)[i]? = some row → ∀ j, j < row.length →
              some (t.storeAt c (tile.dst + i * tile.pitch + j)) = (row[j]?).map fun x => x.1)
          ∧ (∀ a, a < tile.dst ∨ tile.dst + tile.rows * tile.pitch ≤ a → t.storeAt c a = s.storeAt c a)) ∧
      (firstMismatch 0 (s.checkRows c b b.cells b.chk) ≠ none →
        ∃ t, exec (.emitCommit c e []) s = .next t ∧ (t.eng c e).out = r ∧ (t.eng c e).frozen = true
          ∧ t.fld F.ENG_SCHK_mis_hist [c] = 1 ∧ s.records t 4 2 0x0401 ∧ (t.crew n).stop.isSome = true
          ∧ (∀ a, t.storeAt c a = s.storeAt c a) ∧ t.tallies = s.tallies ∧ s.sameMemory t)) ∧
    (∀ v : Word, s.accOpen c e = true → s.strayAt (R.ENG_ACC_DATA.addr [c, e]) = false →
      s.fld F.ENG_ACC_SEL_col [c, e] < 32 → s.fld F.ENG_ACC_SEL_word [c, e] = 0 →
      let i := 32 * s.fld F.ENG_ACC_SEL_row [c, e] + s.fld F.ENG_ACC_SEL_col [c, e]
      ∃ t, exec (.engAccDataWrite c e v) s = .next t ∧ (Map.getD {} (t.eng c e).cells i).s = v
        ∧ (∀ k, k ≠ i → Map.getD {} (t.eng c e).cells k = Map.getD {} (s.eng c e).cells k)
        ∧ (t.eng c e).chk = (s.eng c e).chk ∧ (t.eng c e).q = (s.eng c e).q ∧ t.tallies = s.tallies ∧ s.sameMemory t) ∧
    (∀ v : Word, s.accOpen c e = false → s.strayAt (R.ENG_ACC_DATA.addr [c, e]) = false →
      ∃ t, exec (.engAccDataWrite c e v) s = .next t ∧ t.cores = s.cores ∧ s.regsBut [] t ∧ s.sameMemory t ∧ t.tallies = s.tallies)

/-- On words without errors or poison, the oldest command of a vector engine that runs is performed whole when its op is
the commanded one: element j of row r of the destination becomes the op's result for the elements of a, b and c (stream,
per row, or scalar) of row r, rounded to out_fmt; no byte of core store outside the destination rows changes, nor any
other core, tally, memory. The functions of R135 give their special values or, where R135 gives only a bound, a free
value within it (assumption log 10). -/
def Obligations.VectorElementwiseResult : Prop :=
  ∀ (s : State) (c : Nat) (q : QCmd) (rest : List QCmd) (src out : VFmt), c < 144 → (s.core c).vecq = q :: rest →
    s.unitRuns c 0xC q.tag = true → (∀ i, s.wordSt c i = {}) →
    let v := vcmd q.word
    v.bad = false → vSrc v.fmt = some src → vOut v.out = some out →
    let g := src.1.getD fFP32
    let fn := fun (op : Nat) (a : FVal) => narrow g (functionValue op (workFmt g) a)
    let opd := fun (f : VFmt) (mode addr r j : Nat) =>
      if mode = 1 then scalarV f.1 v.imm
      else decodeV f.1 (leNat (Map.bytes unlisted (s.core c).store
        (if mode = 0 then addr + r * v.step f.2 + j * f.2 else addr + r * f.2) f.2))
    ∀ x ∈ ([(0x00, .vecAdd c, fun a b _ => a.add b), (0x01, .vecSub c, fun a b _ => a.add b.neg),
        (0x02, .vecMul c, fun a b _ => a.mul b), (0x03, .vecFma c, fun a b k => (a.mul b).add k),
        (0x04, .vecDiv c, fun a b _ => narrow g (a.div b)), (0x05, .vecMin c, fun a b _ => a.min b),
        (0x06, .vecMax c, fun a b _ => a.max b), (0x07, .vecSqrt c, fun a _ _ => narrow g a.sqrt),
        (0x08, .vecRecip c, fun a _ _ => narrow g (FVal.div (.fin false 1 0) a)), (0x09, .vecRsqrt c, fun a _ _ => fn 0x09 a),
        (0x0A, .vecExp2 c, fun a _ _ => fn 0x0A a), (0x0B, .vecExp c, fun a _ _ => fn 0x0B a),
        (0x0C, .vecLog2 c, fun a _ _ => fn 0x0C a), (0x0D, .vecLn c, fun a _ _ => fn 0x0D a),
        (0x0E, .vecSin c, fun a _ _ => fn 0x0E a), (0x0F, .vecCos c, fun a _ _ => fn 0x0F a),
        (0x10, .vecTanh c, fun a _ _ => fn 0x10 a), (0x11, .vecSigmoid c, fun a _ _ => fn 0x11 a),
        (0x12, .vecErf c, fun a _ _ => fn 0x12 a), (0x13, .vecCvt c, fun a _ _ => a),
        (0x14, .vecCmplt c, fun a b _ => truth (!a.isNan && !b.isNan && a.lt b)),
        (0x15, .vecCmple c, fun a b _ => truth (!a.isNan && !b.isNan && !b.lt a)),
        (0x16, .vecCmpeq c, fun a b _ => truth (a.eqv b)), (0x17, .vecSelect c, fun a b k => if k.isZero then b else a)] :
        List (Nat × Instr × (FVal → FVal → FVal → FVal))), v.op = x.1 →
      ∃ t, exec x.2.1 s = .next t ∧ (t.core c).vecq = rest ∧ t.tallies = s.tallies ∧ s.sameMemory t
        ∧ (∀ d, d ≠ c → t.core d = s.core d)
        ∧ (∀ r j i, r < v.rows → j < v.n → i < out.2 →
            t.storeAt c (v.d + r * v.step out.2 + j * out.2 + i) = (natLe out.2 (encodeV src.1 out.1 v.rz
              (x.2.2 (opd src 0 v.a r j) (if vNeedsB v.op then opd src v.bMode v.b r j else .nan)
                (if vNeedsC v.op then opd (if v.op = 0x17 then (none, 4) else src) v.cMode v.c r j else .nan)))).getD i 0)
        ∧ (∀ a, (∀ r, r < v.rows → a < v.d + r * v.step out.2 ∨ v.d + r * v.step out.2 + v.n * out.2 ≤ a) →
            t.storeAt c a = s.storeAt c a)

/-- On words without errors or poison: RSUM, RMAX, RMIN, RSUMSQ and RSUMC put row r's reduction, taken by the lanes and
tree of R146, at d + r × the size of out_fmt. ROPE (positions from pos_base, adjacent pairs) writes x0 cos - x1 sin and
x0 sin + x1 cos of position × frequency. MASK keeps a where key ≤ position and the window is 0 or admits it, else writes
-infinity. Nothing else in core store changes. -/
def Obligations.VectorRowOperationsResult : Prop :=
  ∀ (s : State) (c : Nat) (q : QCmd) (rest : List QCmd) (src out : VFmt), c < 144 → (s.core c).vecq = q :: rest →
    s.unitRuns c 0xC q.tag = true → (∀ i, s.wordSt c i = {}) →
    let v := vcmd q.word
    v.bad = false → vSrc v.fmt = some src → vOut v.out = some out →
    let store := (s.core c).store
    let a := fun r j => decodeV src.1 (leNat (Map.bytes unlisted store (v.a + r * v.step src.2 + j * src.2) src.2))
    let put := fun (t : State) (addr : Nat) (x : FVal) => ∀ i, i < out.2 →
      t.storeAt c (addr + i) = (natLe out.2 (encodeV src.1 out.1 v.rz x)).getD i 0
    let frame := fun t : State => (t.core c).vecq = rest ∧ t.tallies = s.tallies ∧ s.sameMemory t ∧ ∀ d, d ≠ c → t.core d = s.core d
    let pos := fun r => if v.cMode = 3 then v.pos + r else v.pos
    (∀ x ∈ [(0x20, Instr.vecRsum c), (0x21, .vecRmax c), (0x22, .vecRmin c), (0x23, .vecRsumsq c), (0x24, .vecRsumc c)], v.op = x.1 →
      ∃ t, exec x.2 s = .next t ∧ frame t
        ∧ (∀ r, r < v.rows → put t (v.d + r * out.2) (rowReduce v.op src.1 ((iota 0 v.n).map (a r))))
        ∧ ∀ y, y < v.d ∨ v.d + v.rows * out.2 ≤ y → t.storeAt c y = s.storeAt c y) ∧
    (v.op = 0x28 → v.half = false → (v.cMode = 1 ∨ v.cMode = 3) →
      ∃ t, exec (.vecRope c) s = .next t ∧ frame t ∧ ∀ r i, r < v.rows → 2 * i + 1 < v.n →
        let cs := ropeAngle (pos r) (fFP32.decode (leNat (Map.bytes unlisted store (v.b + 4 * i) 4)))
        put t (v.d + r * v.step out.2 + 2 * i * out.2) (((a r (2 * i)).mul cs.1).add ((a r (2 * i + 1)).mul cs.2).neg)
          ∧ put t (v.d + r * v.step out.2 + (2 * i + 1) * out.2) (((a r (2 * i)).mul cs.2).add ((a r (2 * i + 1)).mul cs.1))) ∧
    (v.op = 0x29 → (v.cMode = 1 ∨ v.cMode = 3) →
      ∃ t, exec (.vecMask c) s = .next t ∧ frame t ∧ ∀ r j, r < v.rows → j < v.n →
        put t (v.d + r * v.step out.2 + j * out.2)
          (if v.key + j ≤ pos r ∧ (v.imm % 2 ^ 23 = 0 ∨ pos r - (v.key + j) < v.imm % 2 ^ 23) then a r j else .inf true))

/-- A vector command in error under R160 whose op is the commanded one leaves the engine's queue; no byte of core store
or memory and no tally changes, the core's sequencer stops issuing, and the command's launch carries the status FORMAT.
-/
def Obligations.VectorFormatErrorPerformsNothing : Prop :=
  ∀ (s : State) (c n : Nat) (q : QCmd) (rest : List QCmd), c < 144 → s.crewOf c = some n → (s.core c).vecq = q :: rest →
    s.unitRuns c 0xC q.tag = true → (vcmd q.word).bad = true →
    ∀ x ∈ [(0x00, Instr.vecAdd c), (0x01, .vecSub c), (0x02, .vecMul c), (0x03, .vecFma c), (0x04, .vecDiv c),
        (0x05, .vecMin c), (0x06, .vecMax c), (0x07, .vecSqrt c), (0x08, .vecRecip c), (0x09, .vecRsqrt c),
        (0x0A, .vecExp2 c), (0x0B, .vecExp c), (0x0C, .vecLog2 c), (0x0D, .vecLn c), (0x0E, .vecSin c),
        (0x0F, .vecCos c), (0x10, .vecTanh c), (0x11, .vecSigmoid c), (0x12, .vecErf c), (0x13, .vecCvt c),
        (0x14, .vecCmplt c), (0x15, .vecCmple c), (0x16, .vecCmpeq c), (0x17, .vecSelect c), (0x20, .vecRsum c),
        (0x21, .vecRmax c), (0x22, .vecRmin c), (0x23, .vecRsumsq c), (0x24, .vecRsumc c), (0x28, .vecRope c),
        (0x29, .vecMask c)], (vcmd q.word).op = x.1 →
      ∃ t, exec x.2 s = .next t ∧ (t.core c).vecq = rest ∧ (t.core c).seq.stopped = true
        ∧ (∀ l ∈ (t.crew n).launches, l.accept = q.accept → 4 ∈ l.statuses)
        ∧ (∀ a, t.storeAt c a = s.storeAt c a) ∧ t.tallies = s.tallies ∧ s.sameMemory t ∧ t.flt = s.flt

/-- A DMA command of core store without codec, at its turn in a progress slot, with nothing prefetched for its entry,
whose destination rows meet neither each other nor what it reads, on words without errors: COPY moves row i with both
strides, GATHER takes the source row of index i, SCATTER the destination row of index i, FILL repeats the pattern from
its byte 0 in each row. The command leaves the queue; no other byte of core store, memory, tally or core changes. A
command in error leaves the queue, moves nothing, stops the sequencer and gives the launch FORMAT. -/
def Obligations.DmaMovesRowsInCoreStore : Prop :=
  ∀ (s : State) (c n slot : Nat) (q : QCmd) (d : DCmd), c < 144 → s.dmaReady c slot = some (n, q, d) →
    q.started = false →
    let idx := fun i => leNat (Map.bytes unlisted (s.core c).store (d.aux + 8 * i) 8)
    let gone := fun t : State => (t.core c).dmaq = (s.core c).dmaq.filter (fun x => decide (x.tag ≠ q.tag))
      ∧ t.tallies = s.tallies ∧ s.sameMemory t ∧ ∀ k, k ≠ c → t.core k = s.core k
    let apart := fun (da : Nat → Nat) => ∀ i j, i < d.rows → j < d.rows → i ≠ j →
      da i + d.rowBytes ≤ da j ∨ da j + d.rowBytes ≤ da i
    let frame := fun (t : State) (da : Nat → Nat) => ∀ a, (∀ i, i < d.rows → a < da i ∨ da i + d.rowBytes ≤ a) →
      t.storeAt c a = s.storeAt c a
    (s.dmaBad c n d = false → d.codec = 0 → d.dst = 0 → (∀ i, s.wordSt c i = {}) → (∀ p ∈ (s.core c).pre, p.entry ≠ q.entry) →
      (∀ x ∈ ([(0, .dmaCopy c slot, fun i => d.srcA + i * d.srcS, fun i => d.dstA + i * d.dstS),
          (1, .dmaGather c slot, fun i => d.srcA + idx i * d.srcS, fun i => d.dstA + i * d.dstS),
          (2, .dmaScatter c slot, fun i => d.srcA + i * d.srcS, fun i => d.dstA + idx i * d.dstS)] :
          List (Nat × Instr × (Nat → Nat) × (Nat → Nat))), d.op = x.1 → d.src = 0 → apart x.2.2.2 →
        (∀ i, i < d.rows → s.extOk c n 0 (x.2.2.1 i) d.rowBytes = true ∧ s.extOk c n 0 (x.2.2.2 i) d.rowBytes = true) →
        (∀ i j, i < d.rows → j < d.rows → x.2.2.1 i + d.rowBytes ≤ x.2.2.2 j ∨ x.2.2.2 j + d.rowBytes ≤ x.2.2.1 i) →
        (d.op ≠ 0 → ∀ j, j < d.rows → d.aux + 8 * d.rows ≤ x.2.2.2 j ∨ x.2.2.2 j + d.rowBytes ≤ d.aux) →
        ∃ t, exec x.2.1 s = .next t ∧ gone t ∧ frame t x.2.2.2
          ∧ ∀ i j, i < d.rows → j < d.rowBytes → t.storeAt c (x.2.2.2 i + j) = s.storeAt c (x.2.2.1 i + j)) ∧
      (d.op = 4 → apart (fun i => d.dstA + i * d.dstS) →
        ∃ t, exec (.dmaFill c slot) s = .next t ∧ gone t ∧ frame t (fun i => d.dstA + i * d.dstS)
          ∧ ∀ i j, i < d.rows → j < d.rowBytes →
            t.storeAt c (d.dstA + i * d.dstS + j) = BitVec.ofNat 8 (d.srcA / 256 ^ (j % 4)))) ∧
    (s.dmaBad c n d = true →
      ∀ x ∈ [(0, Instr.dmaCopy c slot), (1, .dmaGather c slot), (2, .dmaScatter c slot), (3, .dmaRingAppend c slot),
        (4, .dmaFill c slot), (5, .dmaSend c slot)], d.op = x.1 →
        ∃ t, exec x.2 s = .next t ∧ (t.core c).dmaq = (s.core c).dmaq.filter (fun x => decide (x.tag ≠ q.tag))
          ∧ (t.core c).seq.stopped = true ∧ (∀ l ∈ (t.crew n).launches, l.accept = q.accept → 4 ∈ l.statuses)
          ∧ (∀ a, t.storeAt c a = s.storeAt c a) ∧ t.tallies = s.tallies ∧ s.sameMemory t)

/-- A COPY of one row without codec, nothing of it prefetched, on data without errors or poison, outside STATE pages,
windows and ports: from core store to HBM, to host memory through the crew's aperture, or to another member core's
store, and from HBM or host memory to core store, every byte of the destination row becomes its source byte and no other
byte of that memory changes. The command leaves the queue; tallies stay. -/
def Obligations.DmaReachesEverySpace : Prop :=
  ∀ (s : State) (c n slot : Nat) (q : QCmd) (d : DCmd), c < 144 → s.dmaReady c slot = some (n, q, d) →
    (∀ p ∈ (s.core c).pre, p.entry ≠ q.entry) → q.started = false →
    s.dmaBad c n d = false → s.toPort n d = false → d.codec = 0 → d.op = 0 → d.rows = 1 →
    (∀ k i, s.wordSt k i = {}) → (∀ a, s.granSt a = {}) → s.hostPoison = [] → (∀ a, s.isState a = false) →
    (∀ w, w < 64 → s.isSet F.ATM_WIN_LO_valid [w] = false) → (∀ k, k < 16 → s.isSet F.PMC_CREW_permit [k] = false) →
    (∀ a, s.inPort n a = false) →
    let gone := fun t : State => (t.core c).dmaq = (s.core c).dmaq.filter (fun x => decide (x.tag ≠ q.tag)) ∧ t.tallies = s.tallies
    let moved := fun (src dst dst0 : Nat → Byte) (a b : Nat) =>
      (∀ j, j < d.rowBytes → dst (b + j) = src (a + j)) ∧ ∀ x, x < b ∨ b + d.rowBytes ≤ x → dst x = dst0 x
    (d.src = 0 → d.dst = 1 → ∃ t, exec (.dmaCopy c slot) s = .next t ∧ gone t ∧ moved (s.storeAt c) t.hbmAt s.hbmAt d.srcA d.dstA
      ∧ (∀ k a, t.storeAt k a = s.storeAt k a) ∧ ∀ a, t.hostAt a = s.hostAt a) ∧
    (d.src = 0 → d.dst = 3 → ∃ t, exec (.dmaCopy c slot) s = .next t ∧ gone t
      ∧ moved (s.storeAt c) t.hostAt s.hostAt d.srcA (s.aperture n d.dstA)
      ∧ (∀ k a, t.storeAt k a = s.storeAt k a) ∧ ∀ a, t.hbmAt a = s.hbmAt a) ∧
    (d.src = 0 → d.dst = 2 → bits d.dstA 29 22 ≠ c → ∃ t, exec (.dmaCopy c slot) s = .next t ∧ gone t
      ∧ moved (s.storeAt c) (t.storeAt (bits d.dstA 29 22)) (s.storeAt (bits d.dstA 29 22)) d.srcA (d.dstA % 2 ^ 22)
      ∧ s.sameMemory t ∧ ∀ k a, k ≠ bits d.dstA 29 22 → t.storeAt k a = s.storeAt k a) ∧
    (d.src = 1 → d.dst = 0 → ∃ t, exec (.dmaCopy c slot) s = .next t ∧ gone t
      ∧ moved s.hbmAt (t.storeAt c) (s.storeAt c) d.srcA d.dstA ∧ s.sameMemory t) ∧
    (d.src = 3 → d.dst = 0 → ∃ t, exec (.dmaCopy c slot) s = .next t ∧ gone t
      ∧ moved s.hostAt (t.storeAt c) (s.storeAt c) (s.aperture n d.srcA) d.dstA ∧ s.sameMemory t)

/-- A RING_APPEND of core-store rows without codec, nothing of it prefetched, whose ring has room for all its lines,
puts the rows' bytes one after another into the ring from fill on, wrapping at its end, advances fill by their number,
and leaves the queue. With no room for a line it starts and changes neither ring nor fill. RING_APPEND_LINE of a command
in progress with room appends its next 64 bytes and advances fill by 64; after the last line the command leaves the
queue, else it is held with one more line done. -/
def Obligations.RingAppendFillsItsRing : Prop :=
  ∀ (s : State) (c n slot : Nat) (q : QCmd) (d : DCmd), c < 144 → s.dmaReady c slot = some (n, q, d) →
    (∀ p ∈ (s.core c).pre, p.entry ≠ q.entry) → d.op = 3 →
    s.dmaBad c n d = false → d.codec = 0 → d.src = 0 → d.ring < 8 → (∀ i, s.wordSt c i = {}) →
    let total := d.rows * d.rowBytes
    let data := fun k => s.storeAt c (d.srcA + k / d.rowBytes * d.srcS + k % d.rowBytes)
    let fill := s.reg R.ENG_RFILL [c, d.ring]
    let at_ := fun k => s.ringBase c d.ring + (fill.toNat + k) % s.ringSize c d.ring
    0 < total → 64 ≤ s.ringSize c d.ring → fill.toNat % 64 = 0 →
    (∀ i, i < d.rows → d.srcA + i * d.srcS + d.rowBytes ≤ s.ringBase c d.ring
      ∨ s.ringBase c d.ring + s.ringSize c d.ring ≤ d.srcA + i * d.srcS) →
    let rest := (s.core c).dmaq.filter (fun x => decide (x.tag ≠ q.tag))
    (q.started = false → q.done = 0 → s.ringFill c d.ring + total ≤ s.ringSize c d.ring →
      ∃ t, exec (.dmaRingAppend c slot) s = .next t ∧ (t.core c).dmaq = rest
        ∧ t.reg R.ENG_RFILL [c, d.ring] = fill + BitVec.ofNat 32 total ∧ (∀ k, k < total → t.storeAt c (at_ k) = data k)
        ∧ (∀ a, (∀ k, k < total → a ≠ at_ k) → t.storeAt c a = s.storeAt c a) ∧ t.tallies = s.tallies ∧ s.sameMemory t) ∧
    (q.started = false → q.done = 0 → s.ringRoom c d.ring = false →
      ∃ t, exec (.dmaRingAppend c slot) s = .next t ∧ t.reg R.ENG_RFILL [c, d.ring] = fill
        ∧ (∀ x ∈ (t.core c).dmaq, x.tag = q.tag → x.started = true ∧ x.done = 0)
        ∧ (∀ a, t.storeAt c a = s.storeAt c a) ∧ t.tallies = s.tallies ∧ s.sameMemory t) ∧
    (q.started = true → 64 * q.done < total → s.ringRoom c d.ring = true →
      ∃ t, exec (.ringAppendLine c slot) s = .next t ∧ t.reg R.ENG_RFILL [c, d.ring] = fill + 64
        ∧ (∀ k, k < 64 → t.storeAt c (at_ k) = data (64 * q.done + k))
        ∧ (∀ a, (∀ k, k < 64 → a ≠ at_ k) → t.storeAt c a = s.storeAt c a) ∧ t.tallies = s.tallies ∧ s.sameMemory t
        ∧ (total ≤ 64 * (q.done + 1) → (t.core c).dmaq = rest)
        ∧ (64 * (q.done + 1) < total → ∀ x ∈ (t.core c).dmaq, x.tag = q.tag → x.started = true ∧ x.done = q.done + 1))

/-- A COPY of one row of 32 FP32 elements of core store, nothing of it prefetched, with codec quantise along the row
writes to the destination the packed codes that R157's conversion gives for the row's decoded elements, and to aux_addr
the block's scale byte. No other byte of core store changes; the command leaves the queue. -/
def Obligations.QuantiseWritesCodesAndScales : Prop :=
  ∀ (s : State) (c n slot : Nat) (q : QCmd) (d : DCmd) (f : Fmt) (w : Nat) (emax : Int), c < 144 →
    s.dmaReady c slot = some (n, q, d) →
    (∀ p ∈ (s.core c).pre, p.entry ≠ q.entry) → q.started = false → s.dmaBad c n d = false → d.op = 0 → d.codec = 1 → d.wide = true →
    d.axis = 0 → d.src = 0 → d.dst = 0 → d.rows = 1 → d.rowBytes = 128 → mxFmt d.mx = some (f, w, emax) →
    (∀ i, s.wordSt c i = {}) → (d.aux < d.dstA ∨ d.dstA + 4 * w ≤ d.aux) →
    let x := (iota 0 32).map fun i => fFP32.decode (leNat (Map.bytes unlisted (s.core c).store (d.srcA + 4 * i) 4))
    let b := quantBlock f emax x
    ∃ t, exec (.dmaCopy c slot) s = .next t ∧ t.storeAt c d.aux = BitVec.ofNat 8 b.1
      ∧ (∀ i, i < 4 * w → t.storeAt c (d.dstA + i) =
          (natLe (4 * w) (b.2.foldr (fun y acc => acc * 2 ^ w + y % 2 ^ w) 0)).getD i 0)
      ∧ (∀ a, a ≠ d.aux → a < d.dstA ∨ d.dstA + 4 * w ≤ a → t.storeAt c a = s.storeAt c a)
      ∧ (t.core c).dmaq = (s.core c).dmaq.filter (fun y => decide (y.tag ≠ q.tag)) ∧ t.tallies = s.tallies ∧ s.sameMemory t

/-- Where the stack serves accesses, HBM_READ of a clean granule changes nothing a register of HBM_ECC shows; one of a
granule with one symbol error counts and marks a CE and has a write-back queued, a command error past the third retry is
a Package fault of event 0x0312. On the scrub client's turn in a recovery the oldest write-back rewrites a CE granule
clean with its data, and a stale one is dropped. SCRUB_LINE, as the stack's floor line or on that turn with no
write-back queued, moves its stack's pointer on, and past the last line to 0. REFRESH changes nothing. HBM_TEMP_CHANGE
reports the temperature and is hot above 85 °C and not hot from 83 °C down. None changes a byte of HBM. -/
def Obligations.HbmReadsReportAndHeal : Prop :=
  ∀ (s : State),
    let same := fun t : State => (∀ a, t.hbmAt a = s.hbmAt a) ∧ t.cores = s.cores ∧ t.tallies = s.tallies ∧ t.hostMem = s.hostMem
    let up := fun (pa n : Nat) => s.populated pa n = true ∧ s.extentUp pa n = true
    (∀ addr od, od ≤ 2 → up (s.readPa addr) 1 → s.granSt (s.readPa addr) = {} →
      let ix := stk4 (stackOf (s.readPa addr))
      ∃ t, exec (.hbmRead addr 0 od []) s = .next t ∧ same t ∧ (∀ a, t.granSt a = s.granSt a) ∧ t.wbq = s.wbq ∧ t.flt = s.flt
        ∧ t.reg R.HBM_ECC ix = s.reg R.HBM_ECC ix
        ∧ (od = 1 → t.fld F.HBM_ODECC_od_ce ix = satAdd (s.fld F.HBM_ODECC_od_ce ix) 1 F.HBM_ODECC_od_ce.top)) ∧
    (∀ addr e, up (s.readPa addr) 1 → s.granSt (s.readPa addr) = { poison := false, errs := [e] } →
      let pa := s.readPa addr
      let ix := stk4 (stackOf pa)
      ∃ t, exec (.hbmRead addr 0 0 []) s = .next t ∧ same t ∧ (∀ a, t.granSt a = s.granSt a) ∧ t.fld F.HBM_ECC_ce_hist ix = 1
        ∧ t.fld F.HBM_ECC_ce_count ix = satAdd (s.fld F.HBM_ECC_ce_count ix) 1 65535
        ∧ ∃ w ∈ Map.getD [] t.wbq (stackOf pa), w.gran = pa / 32 ∧ w.stale = false) ∧
    (∀ addr r, up (s.readPa addr) 1 → 3 < r →
      ∃ t, exec (.hbmRead addr r 0 []) s = .next t ∧ same t ∧ s.records t 3 3 0x0312 ∧ s.allStop t) ∧
    (∀ stack w rest, stack < 8 → Map.getD [] s.wbq stack = w :: rest → s.turn stack .scrub = true →
      (w.stale = true → ∃ t, exec (.hbmWriteback stack) s = .next t ∧ same t ∧ (∀ a, t.granSt a = s.granSt a)
        ∧ Map.getD [] t.wbq stack = rest ∧ t.fld F.HBM_ECC_wb_dropped (stk4 stack) = 1) ∧
      (∀ e, w.stale = false → w.poisoning = false → s.granSt (32 * w.gran) = { poison := false, errs := [e] } →
        ∃ t, exec (.hbmWriteback stack) s = .next t ∧ same t ∧ Map.getD [] t.wbq stack = rest ∧ t.granSt (32 * w.gran) = {}
          ∧ ∀ a, a / 32 ≠ w.gran → t.granSt a = s.granSt a)) ∧
    (∀ stack, stack < 8 → (s.floorDue stack = true ∨ s.turn stack .scrub = true ∧ Map.getD [] s.wbq stack = []) →
      let i := s.fld F.HBM_SCRUB_next_line (stk4 stack)
      ∃ t, exec (.scrubLine stack []) s = .next t ∧ same t ∧ (∀ a, t.granSt a = s.granSt a)
        ∧ t.fld F.HBM_SCRUB_next_line (stk4 stack) = if i + 1 < s.stackLines then i + 1 else 0) ∧
    (∀ pc, exec (.hbmRefresh pc) s = .next s) ∧
    (∀ stack temp, stack < 8 → temp < 256 →
      ∃ t, exec (.hbmTempChange stack temp) s = .next t ∧ same t ∧ s.regsBut [R.HBM_STAT.addr (stk4 stack)] t
        ∧ t.fld F.HBM_STAT_temp (stk4 stack) = temp
        ∧ t.isSet F.HBM_STAT_hot (stk4 stack) = (decide (85 < temp) || (decide (83 < temp) && s.isSet F.HBM_STAT_hot (stk4 stack))))

/-- On clean granules outside STATE pages, counter windows, collective ports and atomic windows, where the stacks serve
accesses, HBM_WRITE, GRAIN_WRITE within one granule, and BAR4_WRITE at its base put their bytes at their addresses and
change no other byte; a poisoned write marks the granules it touches. GRAIN_READ changes no byte and counts 32.
BAR4_READ answers the bytes stored. An unpopulated BAR4 address reads 0xFF and discards writes, and counts in HBM_VOID;
in Easy and in a reset either access is stray. -/
def Obligations.HbmWritesPutTheirBytes : Prop :=
  ∀ (s : State), (∀ a, s.isState a = false) → (∀ a, s.granSt a = {}) →
    let up := fun (a n : Nat) => s.populated a n = true ∧ s.extentUp a n = true
    let put := fun (t : State) (a : Nat) (data : Bytes) =>
      (∀ j, j < data.length → some (t.hbmAt (a + j)) = data[j]?) ∧ (∀ x, x < a ∨ a + data.length ≤ x → t.hbmAt x = s.hbmAt x)
        ∧ t.cores = s.cores ∧ t.tallies = s.tallies ∧ ∀ x, t.hostAt x = s.hostAt x
    (∀ addr p data, up addr data.length →
      ∃ t, exec (.hbmWrite addr 0 p data) s = .next t ∧ put t addr data
        ∧ ∀ j, j < data.length → t.granSt (addr + j) = { poison := p, errs := [] }) ∧
    (∀ c n addr p data, c < 144 → s.coreWorks c = true → s.crewOf c = some n → addr % 32 + data.length ≤ 32 →
      s.populated addr data.length = true → s.silentIn addr data.length = false → s.windowAt addr = none →
      s.windowsOf addr data.length = [] →
      ∃ t, exec (.grainWrite c addr p data) s = .next t ∧ put t addr data
        ∧ ∀ j, j < data.length → t.granSt (addr + j) = { poison := p, errs := [] }) ∧
    (∀ c addr, c < 144 → s.coreWorks c = true → s.populated addr 1 = true → s.remoteHolds (addr / 32 * 32) 32 = false →
      let k := R.GRN_BYTES_RD_LO.addr [stackOf addr / 4]
      ∃ t, exec (.grainRead c addr) s = .next t ∧ put t addr [] ∧ Map.getD 0 t.pmc.counts k = (Map.getD 0 s.pmc.counts k + 32) % 2 ^ 64) ∧
    (∀ off len, s.inEasy = false → s.inReset = false →
      (up (s.bar4Addr off) len → s.silentIn (s.bar4Addr off) len = false →
        ∃ t, exec (.bar4Read off len) s = .next t ∧ s.sameMemory t ∧ t.hostEP = false
          ∧ t.hostData = Map.bytes unlisted s.mem (s.bar4Addr off) len) ∧
      (s.populated (s.bar4Addr off) len = false →
        ∃ t, exec (.bar4Read off len) s = .next t ∧ s.sameMemory t ∧ t.hostData = List.replicate len 0xFF
          ∧ t.fld F.HBM_VOID_count [] = satAdd (s.fld F.HBM_VOID_count []) 1 65535)) ∧
    (∀ off data, s.inEasy = false → s.inReset = false →
      (up (s.bar4Addr off) data.length → s.silentIn (s.bar4Addr off) data.length = false →
        ∃ t, exec (.bar4Write off data) s = .next t ∧ put t (s.bar4Addr off) data) ∧
      (s.populated (s.bar4Addr off) data.length = false →
        ∃ t, exec (.bar4Write off data) s = .next t ∧ s.sameMemory t ∧ t.fld F.HBM_VOID_hist [] = 1)) ∧
    (∀ off len data, (s.inEasy = true ∨ s.inReset = true) →
      (∃ t, exec (.bar4Read off len) s = .next t ∧ s.sameMemory t ∧ t.hostData = List.replicate len 0xFF
        ∧ t.fld F.GLB_EASY_stray_access [] = 1) ∧
      ∃ t, exec (.bar4Write off data) s = .next t ∧ s.sameMemory t ∧ t.fld F.GLB_EASY_stray_access [] = 1)

/-- A request of one element, without errors or poison, to a window that is not ordered, from a working core of the
window's crew, replaces the element by the operation's result for the old and the written value (the expected and the
new value for CAS) and changes no other byte. Under FIXED a posted request to an ordered window whose turn has not come
is held at the end of the buffer and changes no byte; ORDERED_ATOMIC_APPLY applies a held request whose turn has come
and takes it from the buffer. -/
def Obligations.AtomicsUpdateTheirElement : Prop :=
  ∀ (s : State) (w n : Nat), (∀ a, s.isState a = false) → (∀ a, s.granSt a = {}) → s.winOp w ≤ 0xB →
    let op := s.winOp w
    let width := atomWidth op
    let applied := fun (t : State) (addr : Nat) (data : Bytes) =>
      leNat (Map.bytes unlisted t.mem addr width) = atomElem op (leNat (Map.bytes unlisted s.mem addr width))
          (leNat (data.take width)) (leNat ((data.drop width).take width))
        ∧ (∀ x, x < addr ∨ addr + width ≤ x → t.hbmAt x = s.hbmAt x) ∧ t.tallies = s.tallies ∧ t.cores = s.cores
    let one := fun (addr : Nat) (data : Bytes) => addr % width = 0 ∧ data.length = (if isCas op then 2 * width else width)
    (∀ c addr data, c < 144 → s.windowAt addr = some w → s.crewOf c = some n → s.coreWorks c = true →
      s.inRange n addr 1 = true → s.fld F.ATM_WIN_HI_crew [w] = n → one addr data →
      (s.winOrdered w = false → ∃ t, exec (.atomicRequest c addr false data) s = .next t ∧ applied t addr data ∧ t.aord = s.aord) ∧
      (s.winOrdered w = true → s.ownPost c true w = true → s.lowerPosts c true w = true → s.aord.length < 4096 →
        ∃ t r, exec (.atomicRequest c addr false data) s = .next t ∧ s.sameMemory t ∧ t.aord = s.aord ++ [r] ∧ r.core = c
          ∧ r.addr = addr ∧ r.data = data ∧ r.stroke = s.stk.num ∧ t.cores = s.cores ∧ t.tallies = s.tallies)) ∧
    (∀ r : AReq, s.aord = [r] → s.windowAt r.addr = some w → s.works r.crew = true → r.poisoned = false → one r.addr r.data →
      (r.pkg = none ∧ s.lowerPosts r.core true w = false ∨ r.pkg ≠ none ∧ r.stroke < s.stk.num) →
      ∃ t, exec (.orderedAtomicApply w) s = .next t ∧ applied t r.addr r.data ∧ t.aord = [])

/-- HBM_LOOP written with go in one of the three modes, no rig in force, starts the test: busy, the mode, and the stack
out of service (rate 0b11). Mode 0 returns it to the pin rate of the power mode. With a rig in force or busy 1 the
result reads 0b11, and mode, busy and rate stay. HBM_LOOP_DONE ends a test with result 0b01 for no bit error, else 0b10,
and the number of errors. No command changes a byte of HBM or any job's state. -/
def Obligations.HbmLoopBackCommands : Prop :=
  ∀ (s : State) (k : Nat) (v : Word), k < 8 →
    let ix := stk4 k
    let same := fun t : State => s.sameMemory t ∧ s.sameJobs t ∧ t.flt = s.flt
    (∀ x ∈ [(1, Instr.hbmLoopNearDigital k v), (2, .hbmLoopPhyAnalogue k v), (3, .hbmLoopBaseDie k v), (0, .hbmLoopOff k v)],
      s.strayAt (R.HBM_LOOP.addr ix) = false →
      (s.rig.inForce = none → s.isSet F.HBM_LOOP_busy ix = false →
        ∃ t, exec x.2 s = .next t ∧ same t ∧ t.fld F.HBM_LOOP_mode ix = x.1 ∧ t.fld F.HBM_LOOP_pc ix = bits v.toNat 15 8
          ∧ (x.1 = 0 → t.fld F.HBM_STAT_rate ix = s.pinRate ∧ t.isSet F.HBM_LOOP_busy ix = false)
          ∧ (x.1 ≠ 0 → v.toNat % 2 = 1 → t.fld F.HBM_STAT_rate ix = 3 ∧ t.isSet F.HBM_LOOP_busy ix = true)) ∧
      (s.rig.inForce ≠ none ∨ s.isSet F.HBM_LOOP_busy ix = true →
        ∃ t, exec x.2 s = .next t ∧ same t ∧ t.fld F.HBM_LOOP_result ix = 3 ∧ t.fld F.HBM_LOOP_mode ix = s.fld F.HBM_LOOP_mode ix
          ∧ t.isSet F.HBM_LOOP_busy ix = s.isSet F.HBM_LOOP_busy ix ∧ t.fld F.HBM_STAT_rate ix = s.fld F.HBM_STAT_rate ix)) ∧
    (∀ errors, errors < 2 ^ 32 → s.isSet F.HBM_LOOP_busy ix = true →
      ∃ t, exec (.hbmLoopDone k errors) s = .next t ∧ same t ∧ t.isSet F.HBM_LOOP_busy ix = false
        ∧ t.fld F.HBM_LOOP_result ix = (if errors = 0 then 1 else 2) ∧ t.fld F.HBM_LOOP_ERR_bit_errors ix = errors)

/-- On a link that is ready for a channel, FLIT_LAUNCH takes the first flit of the BULK queue that may go and overtakes
none of its flow, or the head of the CONTROL or MANAGEMENT queue: the flit goes out once with the link's next sequence
number, joins the end of the replay buffer, and one credit of the channel is spent. TIMED flits go in gate slots: an
entry of count 1 launches the named crew's first flit that may go, in a drive only. SEND of one row of at most 96 bytes,
not prefetched, puts one last flit, with its data, target and its unit's next message tag, into the queue of its route
and stays in progress. -/
def Obligations.FlitsAreNumberedAndLaunchedOnCredit : Prop :=
  ∀ (s : State) (l : Nat), l < 96 →
    let k := s.link l
    let sent := fun (t : State) (f : Flit) => (∃ g, (t.link l).replay = k.replay ++ [g] ∧ g.body = f.body ∧ g.seq = k.txSeq
        ∧ g.crew = f.crew ∧ g.dst = f.dst) ∧ (t.link l).txSeq = (k.txSeq + 1) % 4096
      ∧ t.fld (creditFld f.vc) (lnk48 l) = s.fld (creditFld f.vc) (lnk48 l) - 1 ∧ t.out.length = s.out.length + 1
      ∧ t.cores = s.cores ∧ t.tallies = s.tallies ∧ s.sameMemory t
    (∀ f q, s.linkReady l .bulk = true → f.vc = .bulk → firstFlit (s.mayLaunch l) [] k.bulkQ = some (f, q) →
      ∃ t, exec (.flitLaunch l .bulk) s = .next t ∧ sent t f ∧ (t.link l).bulkQ = q) ∧
    (∀ f q, s.linkReady l .control = true → f.vc = .control → k.ctlQ = f :: q →
      ∃ t, exec (.flitLaunch l .control) s = .next t ∧ sent t f ∧ (t.link l).ctlQ = q) ∧
    (∀ f q, s.linkReady l .management = true → f.vc = .management → k.mgmtQ = f :: q →
      ∃ t, exec (.flitLaunch l .management) s = .next t ∧ sent t f ∧ (t.link l).mgmtQ = q) ∧
    (∀ slot f q, s.stk.drive = true → s.linkReady l .timed = true → f.vc = .timed →
      let w := (s.reg R.GATE_TABLE (lnk48 l ++ [s.linkState l - 2, slot])).toNat
      bits w 15 8 = 1 →
      firstFlit (fun f => decide (f.crew = some (bits w 7 4)) && s.mayLaunch l f) [] k.timedQ = some (f, q) →
      ∃ t, exec (.gateSlot l slot) s = .next t ∧ sent t f ∧ (t.link l).timedQ = q) ∧
    (∀ slot, s.stk.drive = false → exec (.gateSlot l slot) s = .next s) ∧
    (∀ c n slot q d vc, c < 144 → s.dmaReady c slot = some (n, q, d) → q.started = false → s.dmaBad c n d = false → d.op = 5 →
      d.src = 0 → (d.dst = 4 ∨ d.dst = 5) → d.codec = 0 → d.rows = 1 → d.rowBytes ≤ 96 → s.route n c d.pkg = some (l, vc) →
      (∀ i, s.wordSt c i = {}) → (∀ p ∈ (s.core c).pre, p.entry ≠ q.entry) →
      let data := clean (Map.bytes unlisted (s.core c).store d.srcA d.rowBytes)
      let tag := Map.getD 0 (s.core c).msgTags 0xD
      ∃ t f, exec (.dmaSend c slot) s = .next t ∧ f.body = .data (s.jobBody (d.target d.dstA) tag c 0xD l data)
        ∧ Map.getD 0 (t.core c).msgTags 0xD = (tag + 1) % 65536
        ∧ f.vc = vc ∧ f.cls = 0 ∧ f.crew = some n ∧ f.dst = d.pkg ∧ f.last = true ∧ f.core = c ∧ f.cmd = q.tag
        ∧ (vc = .bulk → (t.link l).bulkQ = k.bulkQ ++ [f]) ∧ (vc = .timed → (t.link l).timedQ = k.timedQ ++ [f])
        ∧ (∀ x ∈ (t.core c).dmaq, x.tag = q.tag → x.started = true) ∧ (t.core c).dmaq.length = (s.core c).dmaq.length
        ∧ t.tallies = s.tallies ∧ s.sameMemory t ∧ ∀ a, t.storeAt c a = s.storeAt c a)

/-- LINK_FLIT drops the acknowledged flits from the replay buffer and, unless frozen, adds the slots freed since the
last report to each channel's credits, at most the partner's slots; CREDIT_SYNC sets the credits. RETRY resends from the
named flit and counts one replay. LINK_FLIT_SEND after 1 microsecond reports the last number received and the slots
freed since the last CREDIT_SYNC (a reading of R194, assumption log 31). LAND_ACK, once its header has passed the
receive checks, lets go of the crew's first message under the tag named (assumption log 31); the flight time of TIMED
flits lets go of those. A BULK flit older than its crew's limit is a HANG 0x0608 that stops the crew. -/
def Obligations.LinkFlitsAcknowledgeAndReturnCredits : Prop :=
  ∀ (s : State) (l : Nat), l < 96 →
    let k := s.link l
    let same := fun t : State => t.tallies = s.tallies ∧ s.sameMemory t
    (∀ seq c, s.linkState l ≠ 0 → s.linkState l ≠ 5 →
      (∃ t, exec (.linkFlit l seq c) s = .next t ∧ (t.link l).replay = dropThrough seq.toNat k.replay ∧ t.cores = s.cores ∧ same t
        ∧ ∀ v, t.fld (creditFld v) (lnk48 l) = if s.linkFrozen l = true then s.fld (creditFld v) (lnk48 l) else
            satAdd (s.fld (creditFld v) (lnk48 l)) (creditOf (moreThan c k.freedSeen) v) (slotsOf v)) ∧
      ∃ t, exec (.creditSync l seq c) s = .next t ∧ (t.link l).reconciled = true ∧ t.cores = s.cores ∧ same t
        ∧ (t.link l).replay.length = (dropThrough seq.toNat k.replay).length
        ∧ ∀ v, t.fld (creditFld v) (lnk48 l) = if creditOf c v ≤ slotsOf v then creditOf c v else slotsOf v) ∧
    (∀ (seq : BitVec 12) a f b, s.linkUp l = true → s.linkFrozen l = false → k.replay = a ++ f :: b → f.seq = seq.toNat →
      (∀ g ∈ a, g.seq ≠ seq.toNat) → f.replays < 8 →
      ∃ t, exec (.linkRetry l seq) s = .next t ∧ t.cores = s.cores ∧ same t
        ∧ (t.link l).replay = a ++ (f :: b).map (fun g => { g with replays := g.replays + 1 })
        ∧ t.out.length = s.out.length + b.length + 1
        ∧ t.fld F.LNK_STAT_replays (lnk48 l) = satAdd (s.fld F.LNK_STAT_replays (lnk48 l)) 1 65535) ∧
    (∀ x, s.linkUp l = true → s.inEasy = false → k.lastLinkTx + 1000 ≤ (s.advance x).raw →
      ∃ t, exec (.linkFlitSend l x) s = .next t ∧ t.out = s.out ++ [.linkFlit l ((k.rxSeq + 4095) % 4096) k.freed]
        ∧ (t.link l).freedSent = k.freed ∧ (t.link l).freed = k.freed ∧ (t.link l).lastLinkTx = t.raw ∧ t.cores = s.cores ∧ same t) ∧
    (∀ src msg h rest m, takeHeader 3 none k.hdrs = some (h, rest) →
      (s.link src).unacked.find? (fun u => u.bulk && !u.lost && decide (u.crew = h.1 ∧ u.msg = msg)) = some m →
      ∃ t, exec (.landAck l [(src, msg)]) s = .next t ∧ same t ∧ (t.link l).hdrs = rest ∧ (t.link src).unacked =
        (s.link src).unacked.filter (fun u => !(u.bulk && !u.lost &&
          decide (u.crew = h.1 ∧ u.msg = msg ∧ u.core = m.core ∧ u.unit = m.unit ∧ u.cmd = m.cmd)))) ∧
    (∀ pairs, takeHeader 3 none k.hdrs = none → exec (.landAck l pairs) s = .next s) ∧
    (∀ x, ∃ t, exec (.timedAcknowledgement l x) s = .next t ∧ same t ∧ t.raw = (s.advance x).raw ∧ (t.link l).unacked =
      k.unacked.filter (fun u => !(!u.bulk && !u.lost &&
        decide (u.launched + s.fld F.LNK_FLIGHT_flight_ns (lnk48 l) ≤ (s.advance x).ns)))) ∧
    (∀ x u n, k.unacked = [u] → u.bulk = true → u.crew = n →
      u.launched + 1000 * s.fld F.LNK_CREW_ack_timeout_us [n] ≤ (s.advance x).ns → s.halted n = false → (s.crew n).stop = none →
      ∃ t, exec (.ackTimeout l x) s = .next t ∧ s.records t 6 2 0x0608 ∧ (t.crew n).stop.isSome = true ∧ t.links = s.links
        ∧ t.cores = s.cores ∧ same t)

/-- At x2 with both lanes usable, LANE_UNUSABLE and the partner's LANE_DEGRADE freeze the link (state 4) on the other
lane and send the lane message, with a LINK-DEGRADE record (its event code 0x0701 is the model's choice, assumption log
16); LANE_ACK completes the exchange, and RESTRIPE in the recovery that begins after it re-stripes and sends
CREDIT_SYNC. LINK_DOWN, and 10 microseconds without a LINK flit, put the link in state 0 with down_hist, discard its
replay buffer and TIMED queue, and stop every crew allocated the link with fault 0x0801. LINK_RETRAIN of a downed or
degraded link keeps its state and its result, and where it succeeds sends CREDIT_SYNC, as does that of a link that a rig
set to train. -/
def Obligations.LaneChangesAndLinkDown : Prop :=
  ∀ (s : State) (l : Nat), l < 96 →
    let k := s.link l
    let same := fun t : State => t.tallies = s.tallies ∧ s.sameMemory t ∧ t.cores = s.cores
    let down := fun t : State => s.linkState l ≠ 0 → t.linkState l = 0 ∧ t.fld F.LNK_STAT_down_hist (lnk48 l) = 1
      ∧ t.linkFrozen l = false ∧ (t.link l).replay = [] ∧ (t.link l).timedQ = [] ∧ (t.link l).bulkQ = k.bulkQ
      ∧ (∀ n, n < 16 → s.crewValid n = true → s.onLink l n = true → (t.crew n).stop.isSome = true
          ∧ ∃ f ∈ t.flt.queue, f.event = 0x0801 ∧ f.cls = 8 ∧ f.sev = 2 ∧ f.crew = some n)
    (∀ lane, lane < 2 → s.linkState l = 2 → k.usable = [true, true] →
      (∃ t, exec (.laneUnusable l lane .fecLock) s = .next t ∧ same t ∧ t.linkState l = 4 ∧ t.linkFrozen l = true
        ∧ t.fld F.LNK_STAT_good_lane (lnk48 l) = 1 - lane ∧ (t.link l).degSent = true ∧ (t.link l).degRecv = false
        ∧ t.out = s.out ++ [.lane l lane false] ∧ s.records t 7 0 0x0701 ∧ (t.link l).replay = k.replay) ∧
      ∃ t, exec (.laneDegrade l lane) s = .next t ∧ same t ∧ t.linkState l = 4 ∧ t.linkFrozen l = true
        ∧ t.fld F.LNK_STAT_good_lane (lnk48 l) = 1 - lane ∧ (t.link l).degSent = true ∧ (t.link l).degRecv = true
        ∧ t.out = s.out ++ [.lane l lane true] ∧ s.records t 7 0 0x0701 ∧ (t.link l).replay = k.replay) ∧
    (s.linkState l = 4 → k.degSent = true →
      (∃ t, exec (.laneAck l) s = .next t ∧ same t ∧ (t.link l).degRecv = true ∧ s.regsBut [] t) ∧
      (s.stk.drive = false → k.restripeDue = true → k.restriped = false →
        ∃ t c, exec (.restripe l) s = .next t ∧ same t ∧ (t.link l).restriped = true ∧ s.regsBut [] t
          ∧ t.out = s.out ++ [.creditSync l ((k.rxSeq + 4095) % 4096) c])) ∧
    (s.linkState l ≠ 5 → ∃ t, exec (.linkDown l) s = .next t ∧ same t ∧ down t) ∧
    (∀ x, s.linkUp l = true → s.inEasy = false → k.lastLinkRx + 10000 ≤ (s.advance x).raw →
      ∃ t, exec (.linkSilenceTimeout l x) s = .next t ∧ same t ∧ down t) ∧
    (∀ ok, s.stk.drive = false →
      (s.linkState l = 0 ∨ s.linkState l = 3 → ∃ t, exec (.linkRetrain l ok) s = .next t ∧ same t ∧ t.linkState l = s.linkState l
        ∧ (t.link l).retrained = some ok
        ∧ (ok = true → ∃ c, t.out = s.out ++ [.creditSync l ((k.rxSeq + 4095) % 4096) c])) ∧
      (s.linkState l = 1 → k.rejoin = true → ok = true →
        ∃ t c, exec (.linkRetrain l true) s = .next t ∧ same t ∧ (t.link l).usable = [true, true] ∧ (t.link l).txSeq = 0
          ∧ (t.link l).rxSeq = 0 ∧ t.out = s.out ++ [.creditSync l 4095 c]))

/-- A numbered flit whose CRC fails is discarded, and the RETRY names the sequence number expected. A flit in order that
passes every check of R205 for a crew of this package is held with its body, and the expected number moves on.
FLIT_DELIVER of the one held flit of a working crew: a TALLY_ADD without poison adds its value to the remote tally of
the crew and changes no other; a WRITE puts its bytes into a member core's store at its target and changes no other
byte. The held flit goes. -/
def Obligations.FlitsAreCheckedAndDelivered : Prop :=
  ∀ (s : State) (l : Nat), l < 96 →
    let k := s.link l
    (∀ flit : Bytes, 2 ≤ s.linkState l → s.linkState l ≠ 5 → flit.length = 128 →
      let h := field flit 0 8
      let body := (flit.drop 8).take 112
      bits h 14 12 ≤ 1 →
      (leNat ((flit.drop 120).take 4) ≠ (crc32 (flit.take 120)).toNat →
        ∃ t, exec (.flitReceive l none flit) s = .next t ∧ t.out = s.out ++ [.retry l k.rxSeq] ∧ (t.link l).rxHeld = k.rxHeld
          ∧ (t.link l).rxSeq = k.rxSeq ∧ t.cores = s.cores ∧ t.tallies = s.tallies ∧ s.sameMemory t ∧ s.regsBut [] t) ∧
      (∀ n, leNat ((flit.drop 120).take 4) = (crc32 (flit.take 120)).toNat → bits h 27 16 = k.rxSeq → bits h 63 62 ≤ 1 →
        (bits h 15 15 = 1 ↔ field body 6 2 ≠ 0) → s.fld F.LNK_SELF_valid [] = 1 → bits h 45 28 = s.fld F.LNK_SELF_package [] →
        s.crewOfTag (bits h 61 46) = some n →
        cmac4 (s.crew n).key (natLe 8 (h - bits h 27 16 * 2 ^ 16) ++ body) = (flit.drop 124).take 4 →
        s.deaf n = false → s.timed n = false ∨ s.drivePast (s.strokeOf (bits h 11 4)) = false →
        ∃ t g, exec (.flitReceive l none flit) s = .next t ∧ (t.link l).rxHeld = k.rxHeld ++ [g] ∧ g.body = .data body
          ∧ g.crew = some n ∧ g.cls = bits h 14 12 ∧ g.vc = vcOf (bits h 63 62) ∧ (t.link l).rxSeq = (k.rxSeq + 1) % 4096
          ∧ t.cores = s.cores ∧ t.tallies = s.tallies ∧ s.sameMemory t ∧ t.flt = s.flt)) ∧
    (∀ f b n, k.rxHeld = [f] → f.crew = some n → f.body = .data b → s.works n = true →
      1 ≤ field b 5 1 → field b 5 1 ≤ 96 → field b 6 2 = 0 →
      (f.cls = 1 → s.fixed = false →
        let i := field b 0 5 % 2 ^ 14
        s.tallyOf n i = true → (s.tally i).remote = true →
        ∃ t, exec (.flitDeliver l) s = .next t ∧ (t.link l).rxHeld = []
          ∧ (t.tally i).value = (s.tally i).value + BitVec.ofNat 32 (leNat (((b.drop 16).take (field b 5 1)).take 4))
          ∧ (∀ j, j ≠ i → t.tally j = s.tally j) ∧ s.sameMemory t) ∧
      (f.cls = 0 → b.length = 112 → field b 0 5 / 2 ^ 39 = 0 →
        let c := bits (field b 0 5) 29 22
        let a := bits (field b 0 5) 21 0
        s.crewOf c = some n → c < 144 → a + field b 5 1 ≤ storeEnd → (∀ i, s.wordSt c i = {}) →
        ∃ t, exec (.flitDeliver l) s = .next t ∧ (t.link l).rxHeld = [] ∧ t.tallies = s.tallies ∧ s.sameMemory t
          ∧ (∀ j, j < field b 5 1 → some (t.storeAt c (a + j)) = b[16 + j]?)
          ∧ (∀ x, x < a ∨ a + field b 5 1 ≤ x → t.storeAt c x = s.storeAt c x) ∧ ∀ d, d ≠ c → t.core d = s.core d))

/-- A descriptor written to the crew's port in order opens the collective of its operation and its command leaves the
queue. The content of a COLL flit whose header passed the receive checks is dropped and counted where its collective was
aborted, its credit going back or being withheld; it is held where its collective is not open; and a result element of
an open ALL_GATHER is written at its place. When every element of the member's result is written, the collective closes
and its tally rises by 1, no other changing. An authentic notice aborts the named collectives of its crew, records HANG
0x0605 and holds the crew; any other notice changes nothing. -/
def Obligations.CollectivesOpenProgressAndEnd : Prop :=
  ∀ (s : State),
    (∀ c n slot q d, c < 144 → n < 16 → s.dmaReady c slot = some (n, q, d) → q.started = false → s.toPort n d = true → d.op = 0 →
      s.dmaBad c n d = false → 0 < d.rows → d.src = 0 → (∀ i, s.wordSt c i = {}) →
      (∀ p ∈ (s.core c).pre, p.entry ≠ q.entry) →
      let desc := Map.bytes unlisted (s.core c).store d.srcA 64
      let k := collOf desc q.accept s.raw
      s.collBad n desc k = false →
      ∀ x ∈ [(1, Instr.allReduce c slot), (2, .reduceScatter c slot), (3, .allGather c slot)], k.op = x.1 →
        ∃ t, exec x.2 s = .next t ∧ (t.core c).dmaq = (s.core c).dmaq.filter (fun y => decide (y.tag ≠ q.tag))
          ∧ (∃ o ∈ (t.crew n).colls, o.id = k.id ∧ o.op = k.op ∧ o.count = k.count ∧ o.rank = k.rank ∧ o.accept = q.accept)
          ∧ t.fld F.LNK_COLL_open [n] = (s.crew n).colls.length + 1 ∧ t.tallies = s.tallies) ∧
    (∀ l n f h rest, l < 96 → n < 16 → takeHeader 2 (some n) (s.link l).hdrs = some (h, rest) → (s.link l).rxColl = [] →
      ((s.crew n).aborted.elem f.collId = true →
        let credits := fun k : Link => k.freed.bulk + Map.getD 0 k.withheld n
        ∃ t, exec (.collPartial l n f) s = .next t ∧ (t.link l).rxColl = [] ∧ (t.link l).hdrs = rest
          ∧ credits (t.link l) = credits (s.link l) + 1
          ∧ t.fld F.LNK_DROP_misrouted (lnk48 l) = satAdd (s.fld F.LNK_DROP_misrouted (lnk48 l)) 1 255 ∧ s.sameMemory t
          ∧ t.tallies = s.tallies) ∧
      ((s.crew n).aborted.elem f.collId = false → (s.crew n).coll f.collId = none →
        ∃ t, exec (.collPartial l n f) s = .next t ∧ (t.link l).rxColl = [{ crew := n, stroke := h.2, flit := f }] ∧ s.sameMemory t
          ∧ s.regsBut [] t ∧ t.tallies = s.tallies) ∧
      (∀ k v e, (s.crew n).aborted.elem f.collId = false → (s.crew n).coll f.collId = some k → s.works n = true → k.op = 3 →
        f.isResult = true → f.vals = [(v, e, false)] → f.first < k.count → (∀ a, s.isState a = false) → (∀ a, s.granSt a = {}) →
        s.silentIn (k.dst + f.first * k.outBytes) k.outBytes = false →
        ∃ t k2, exec (.collPartial l n f) s = .next t ∧ (t.link l).rxColl = [] ∧ (t.crew n).coll f.collId = some k2
          ∧ f.first ∈ k2.results ∧ t.tallies = s.tallies
          ∧ (∀ j, j < k.outBytes → t.hbmAt (k.dst + f.first * k.outBytes + j) = (natLe k.outBytes v).getD j 0)
          ∧ ∀ a, a < k.dst + f.first * k.outBytes ∨ k.dst + (f.first + 1) * k.outBytes ≤ a → t.hbmAt a = s.hbmAt a)) ∧
    (∀ n id k, n < 16 → (s.crew n).coll id = some k → s.works n = true → k.results.length = k.needed → s.tallyOf n k.tally = true →
      ∃ t, exec (.collectiveComplete n id) s = .next t ∧ (t.tally k.tally).value = (s.tally k.tally).value + 1
        ∧ (∀ i, i ≠ k.tally → t.tally i = s.tally i) ∧ (t.crew n).coll id = none ∧ s.sameMemory t) ∧
    (∀ a c, s.crewOfTag a.jobTag.toNat = some c →
      (a.authentic = true → ∃ t, exec (.abortNotice a) s = .next t
        ∧ (t.crew c).colls = (s.crew c).colls.filter (fun k => !(a.allOpen || decide (k.id = a.collId)))
        ∧ s.records t 6 2 0x0605 ∧ (∃ st, (t.crew c).stop = some st ∧ st.hold = true) ∧ t.tallies = s.tallies ∧ s.sameMemory t) ∧
      (a.authentic = false → exec (.abortNotice a) s = .next s))

/-- TIME_REQ_SEND sends a request whose t1 lies within the raw tick of the command (where in it is a free value,
assumption log 20) and opens its exchange. TIME_REQ is answered with the identifier and t1 echoed, t2 within that tick
and t3 within 1 microsecond of t2. TIME_RESP closes its exchange: from an unlocked parent it is discarded and no
register changes; of the first four after d_min was cleared it is kept for d_min only; else, within the delay gate, it
is accepted: counted, with R223's offset, t4 within the tick, in TIM_THETA. EXCHANGE_ABANDON closes exchanges older than
10 microseconds. TIM_PTPM_WRITE by the active core is an accepted measurement of a PTP source. -/
def Obligations.TimeExchangesMeasureTheParent : Prop :=
  ∀ (s : State) (l x : Nat), l < 96 →
    let u := s.advance x
    let same := fun t : State => t.raw = u.raw ∧ t.cores = s.cores ∧ t.tallies = s.tallies ∧ s.sameMemory t ∧ t.flt = s.flt
    let ball := fun now : Nat => u.fabric ≤ now ∧ now < u.fabric + 2 ^ 32
    (∀ sec, s.sourceCode sec = l → s.linkUp l = true → s.servo ≠ 0 →
      ∃ t b, exec (.timeReqSend sec x) s = .next t ∧ same t ∧ ball b.t1
        ∧ t.out = s.out ++ [.timeReq l b (timeFlitOf b true s.stk.num)]
        ∧ b.exchId = BitVec.ofNat 16 s.tim.exchId ∧ s.regsBut [] t
        ∧ t.tim.exch = s.tim.exch ++ [(l, s.tim.exchId, b.t1, s.atX2 l)]) ∧
    (∀ body, s.linkUp l = true →
      ∃ t b, exec (.timeReq l x body) s = .next t ∧ same t ∧ t.out = s.out ++ [.timeResp l b (timeFlitOf b false s.stk.num)]
        ∧ b.exchId = body.exchId ∧ b.t1 = body.t1 ∧ ball b.t2 ∧ b.t2 ≤ b.t3 ∧ b.t3 ≤ b.t2 + 1000 * 2 ^ 32 ∧ b.locked = s.locked
        ∧ t.tim = s.tim ∧ s.regsBut [] t) ∧
    (∀ body sec t1 wide, s.tim.exch = [(l, body.exchId.toNat, t1, wide)] → s.sourceOf l = some sec →
      let up : Int := Int.ofNat body.t2 - Int.ofNat t1
      let down := fun now : Nat => Int.ofNat now - Int.ofNat body.t3
      let theta := fun now : Nat => (down now - up + toSigned 32 (s.reg R.TIM_ASYM [l]).toNat * 2 ^ 24) / 2
      let d := fun now : Nat => (down now + up) / 2
      let hist := Map.getD [] s.tim.dHist l
      let good := body.locked = true ∧ u.fabric + 2 ^ 32 ≤ t1 + 10000 * 2 ^ 32 ∧ body.domain.toNat = s.fld F.TIM_SRC_domain []
        ∧ body.x2 = wide ∧ Map.find l s.tim.width = some wide
      (body.locked = false → ∃ t, exec (.timeResp l x body) s = .next t ∧ same t ∧ t.tim.exch = [] ∧ s.regsBut [] t
        ∧ t.tim.dHist = s.tim.dHist ∧ t.tim.offset = s.tim.offset) ∧
      (good → Map.getD 0 s.tim.rebuilt l < 4 → ∃ t now, exec (.timeResp l x body) s = .next t ∧ same t ∧ t.tim.exch = []
        ∧ ball now ∧ s.regsBut [] t ∧ Map.getD [] t.tim.dHist l = (d now :: hist).take 16
        ∧ Map.getD 0 t.tim.rebuilt l = Map.getD 0 s.tim.rebuilt l + 1 ∧ t.tim.offset = s.tim.offset) ∧
      (good → 4 ≤ Map.getD 0 s.tim.rebuilt l →
        (∀ m, minOf hist = some m → d (u.fabric + 2 ^ 32) ≤ m + Int.ofNat (s.fld F.TIM_SERVO_delay_gate []) * 2 ^ 32) →
        ∃ t now, exec (.timeResp l x body) s = .next t ∧ same t ∧ t.tim.exch = [] ∧ ball now
          ∧ t.fld F.TIM_STAT_accepted [] = (s.fld F.TIM_STAT_accepted [] + 1) % 2 ^ 16
          ∧ t.reg R.TIM_THETA [] = BitVec.ofNat 32 (fromSigned 32 (clamp (-(2 ^ 31)) (2 ^ 31 - 1) (theta now / 2 ^ 24))))) ∧
    (∃ t, exec (.exchangeAbandon l x) s = .next t ∧ same t ∧ s.regsBut [] t ∧ t.tim.exch =
      s.tim.exch.filter (fun e => !(decide (e.1 = l) && decide (e.2.2.1 + 10000 * 2 ^ 32 ≤ u.fabric)))) ∧
    (∀ sec i v, s.coxActive = true → (s.sourceCode sec = 0x60 ∨ s.sourceCode sec = 0x61) → 0 < i →
      ∃ t, exec (.timPtpmWrite sec i v) s = .next t ∧ t.raw = s.raw ∧ t.cores = s.cores ∧ t.tallies = s.tallies ∧ s.sameMemory t
        ∧ t.fld F.TIM_STAT_accepted [] = (s.fld F.TIM_STAT_accepted [] + 1) % 2 ^ 16
        ∧ t.reg R.TIM_THETA [] = BitVec.ofNat 32 (fromSigned 32 (clamp (-(2 ^ 31)) (2 ^ 31 - 1) (toSigned 64 v.toNat * 2 ^ 16 / 2 ^ 24))))

/-- Eight intervals of the source without an accepted measurement from the source in use move the servo to the other
source where that one has given one, and else put a LOCKED servo into HOLDOVER with the rate at -integ. holdover_ms
after the last one HOLDOVER becomes LOST: locked falls, unlock_hist is set and a TIME trigger is taken. RE_ANCHOR leaves
fabric time as it is. TIM_SET of a root without a rig, to a time ahead, makes it the fabric time and sets step_hist; any
other is refused, sets set_refused and leaves fabric time. -/
def Obligations.ServoHoldsOverAndKeepsTimeContinuous : Prop :=
  ∀ (s : State) (x : Nat),
    let u := s.advance x
    let same := fun t : State => t.cores = s.cores ∧ t.tallies = s.tallies ∧ s.sameMemory t ∧ t.flt = s.flt
    let span := fun sec : Bool => 8 * s.sourceInterval sec
    (s.isSet F.TIM_STAT_on_secondary [] = false → s.servo ≠ 0 → (∀ w, s.tim.lastAcc1 = some w → w + span false ≤ u.raw) →
      s.tim.lastAny + span false ≤ u.raw →
      ((∃ w, s.tim.lastAcc2 = some w ∧ u.raw < w + span true) → s.sourceCode true ≠ 0x7F →
        ∃ t, exec (.sourceSilence x) s = .next t ∧ same t ∧ t.isSet F.TIM_STAT_on_secondary [] = true ∧ t.tim.dHist = []
          ∧ t.tim.integ = s.tim.integ ∧ t.servo = s.servo) ∧
      (s.tim.lastAcc2 = none → s.servo = 2 →
        ∃ t, exec (.sourceSilence x) s = .next t ∧ same t ∧ t.servo = 3 ∧ t.locked = true
          ∧ t.reg R.TIM_RATE [] = BitVec.ofNat 32 (fromSigned 32 (-s.tim.integ)) ∧ t.tim.integ = s.tim.integ)) ∧
    (s.servo = 3 → s.isSet F.TIM_STAT_locked [] = true → s.tim.lastAny + 1000000 * s.fld F.TIM_SRC_holdover_ms [] ≤ u.raw →
      ∃ t, exec (.holdoverExpiry x) s = .next t ∧ same t ∧ t.servo = 4 ∧ t.locked = false
        ∧ t.isSet F.TIM_STAT_unlock_hist [] = true ∧ (∃ g, t.cox.triggers = s.cox.triggers ++ [g] ∧ g.cls = 3) ∧ t.tim = s.tim) ∧
    (∃ t, exec (.reAnchor x) s = .next t ∧ same t ∧ t.fabric = u.fabric ∧ t.tim.anchor = u.raw ∧ t.rate = s.rate ∧ t.raw = u.raw) ∧
    (∀ v : Word,
      let time := ((s.reg R.TIM_SET_LO []).toNat + 2 ^ 32 * v.toNat) * 2 ^ 32
      (s.servo = 0 → s.rig.inForce = none → s.fabric < time →
        ∃ t, exec (.timSet v) s = .next t ∧ same t ∧ t.fabric = time ∧ t.isSet F.TIM_STAT_step_hist [] = true ∧ t.raw = s.raw) ∧
      (s.servo ≠ 0 ∨ s.rig.inForce ≠ none ∨ time ≤ s.fabric →
        ∃ t, exec (.timSet v) s = .next t ∧ same t ∧ t.fabric = s.fabric ∧ t.tim = s.tim
          ∧ t.isSet F.TIM_STAT_set_refused [] = true))

/-- TIM_TS_STAT_READ takes the oldest entry and latches it, and of an empty queue reads valid 0 and changes no latch. A
well-formed descriptor of the active core joins its port's queue; one more than 2^32 ns ahead is discarded. TIMED_LAUNCH
at or after its launch time sends the frame at the head of a port's queue and enters a timestamp where asked, late when
the time had passed as it reached the head or is past the slack; of the link queue it launches an MGMT flit.
FRAME_RECEIVE gives the frame to the active core with the fabric time (what a subscription in it changes is a free
function, assumption log 33). CAPTURE_EDGE of the selected event enters the fabric time, or that noted on the event's
die, with the channel's number. TIM_CAP_WRITE waits for the boundary. -/
def Obligations.TimestampsLaunchesAndCaptures : Prop :=
  ∀ (s : State) (x : Nat),
    let u := s.advance x
    let same := fun t : State => t.cores = s.cores ∧ t.tallies = s.tallies ∧ s.sameMemory t ∧ t.flt = s.flt
    (∀ q, q < 6 →
      (∀ e r, Map.getD [] s.tim.ts q = e :: r →
        ∃ t, exec (.timTsStatRead q) s = .next t ∧ same t ∧ Map.getD [] t.tim.ts q = r ∧ t.fld F.TIM_TS_STAT_valid [q] = 1
          ∧ t.fld F.TIM_TS_STAT_id [q] = e.id % 2 ^ 16 ∧ t.fld F.TIM_TS_STAT_depth [q] = r.length % 64
          ∧ t.isSet F.TIM_TS_STAT_late [q] = e.late ∧ t.reg R.TIM_TS_FRAC [q] = BitVec.ofNat 32 e.time
          ∧ t.reg R.TIM_TS_LO [q] = BitVec.ofNat 32 (e.time / 2 ^ 32) ∧ t.reg R.TIM_TS_HI [q] = BitVec.ofNat 32 (e.time / 2 ^ 64)) ∧
      (Map.getD [] s.tim.ts q = [] →
        ∃ t, exec (.timTsStatRead q) s = .next t ∧ same t ∧ t.fld F.TIM_TS_STAT_valid [q] = 0 ∧ t.tim = s.tim
          ∧ s.regsBut [R.TIM_TS_STAT.addr [q]] t)) ∧
    (∀ d, s.coxActive = true → txDescOk d = true →
      ((d.hold = true → d.launchTime ≤ s.ns + 2 ^ 32) →
        ∃ t, exec (.transmitDescriptor d) s = .next t ∧ same t ∧ s.regsBut [] t
          ∧ Map.getD [] t.tim.txq d.port = Map.getD [] s.tim.txq d.port ++ [(d, s.fabric)]) ∧
      (d.hold = true → s.ns + 2 ^ 32 < d.launchTime →
        ∃ t, exec (.transmitDescriptor d) s = .next t ∧ same t ∧ t.tim.txq = s.tim.txq)) ∧
    (∀ p d z r, p < 2 → Map.getD [] s.tim.txq p = (d, z) :: r → (d.hold = true → d.launchTime * 2 ^ 32 ≤ u.fabric) →
      (Map.getD [] s.tim.ts p).length < 16 →
      let late := d.hold && (decide (d.launchTime * 2 ^ 32 < z) || decide (d.launchTime * 2 ^ 32 + s.launchSlack d < u.fabric))
      ∃ t, exec (.timedLaunch p x) s = .next t ∧ same t ∧ t.out = s.out ++ [.frame p d.buffer]
        ∧ Map.getD [] t.tim.txq p = nextHead u.fabric r
        ∧ (d.stamp = false → t.tim.ts = s.tim.ts)
        ∧ (d.stamp = true → ∃ e, Map.getD [] t.tim.ts p = Map.getD [] s.tim.ts p ++ [e] ∧ e.id = d.tsId.toNat ∧ e.time = u.fabric
            ∧ e.late = late ∧ e.refused = false)) ∧
    (∀ d z r, Map.getD [] s.tim.txq 2 = (d, z) :: r → d.link < 96 → s.linkReady d.link .management = true →
      (d.hold = true → d.launchTime * 2 ^ 32 ≤ u.fabric) →
      ∃ t, exec (.timedLaunch 2 x) s = .next t ∧ same t ∧ t.out.length = s.out.length + 1
        ∧ Map.getD [] t.tim.txq 2 = nextHead u.fabric r ∧ (t.link d.link).txSeq = ((s.link d.link).txSeq + 1) % 4096
        ∧ (∃ f, (t.link d.link).replay = (s.link d.link).replay ++ [f] ∧ f.cls = 6 ∧ f.vc = .management)) ∧
    (∀ p f, p < 2 → s.coxActive = true →
      ∃ t, exec (.frameReceive p x f) s = .next t ∧ t.cores = s.cores ∧ t.tallies = s.tallies ∧ s.sameMemory t ∧ s.regsBut [] t
        ∧ t.tim.rxFrames = s.tim.rxFrames ++ [(p, u.fabric, f)]
        ∧ t.flt = { s.flt with infoSub := (Config.infoSubscription f).getD s.flt.infoSub }) ∧
    (∀ c src link cls, c < 4 → 1 ≤ src → src ≤ 8 → s.fld F.TIM_CAP_src [c] = src →
      (src = 8 → s.fld F.TIM_CAP_link [c] = link ∧ s.fld F.TIM_CAP_launch_class [c] = cls) →
      (Map.getD [] s.tim.ts (2 + c)).length < 8 →
      let entered := fun (t : State) (time : Nat) => same t ∧ s.regsBut [] t ∧ ∃ e,
        Map.getD [] t.tim.ts (2 + c) = Map.getD [] s.tim.ts (2 + c) ++ [e] ∧ e.time = time ∧ e.id = Map.getD 0 s.tim.capNum c
      (src ≤ 4 → ∃ t, exec (.captureEdge c src link cls x) s = .next t ∧ entered t u.fabric) ∧
      (∀ time free r, 5 ≤ src → s.tim.capDue = (c, time, free) :: r →
        ∃ t, exec (.captureEdge c src link cls x) s = .next t ∧ entered t time ∧ t.tim.capDue = r)) ∧
    (∀ c v, c < 4 → s.strayAt (R.TIM_CAP.addr [c]) = false → s.writeHeld (R.TIM_CAP.addr [c]) = false →
      ∃ t, exec (.timCapWrite c v) s = .next t ∧ same t ∧ s.regsBut [] t ∧ Map.find c t.tim.capNext = some v)

/-- In a recovery UMPIRE_COMPARE takes a core's oldest comparison: one that met poison, or whose digests agree with a
good sum check, passes; differing digests are counted against the umpire's host and raise fault 0x0402 of Domain
severity, which stops the crew. MISMATCH reports a frozen engine as 0x0401. MISMATCH_VERDICT, at the offset of the
detection, ends the diagnostic replay and writes a VERIFY trigger: a Transient is counted in its core's window, a hard
fault of the worker waits for its spare switch-in, a suspect package waits for its drain. TRANSIENT_WINDOW_CLOSE clears
a window of 2^24 strokes. A write of WCH_CTL with close asks for the close of the selected slot, if it is active. At the
boundary of a step of the crew, or one at which it is idle, the requested close merges every member's partial into the
slot's result, resets the partials, and stamps the stroke and the sequence number. When the merge is complete the record
is valid. -/
def Obligations.VerificationCommandsTakeEffect : Prop :=
  ∀ (s : State),
    (∀ c p rest, c < 144 → s.background = true → (s.core c).ump.pend = p :: rest →
      ∃ t, exec (.umpireCompare c) s = .next t ∧ (t.core c).ump.pend = rest ∧ s.sameMemory t ∧ t.tallies = s.tallies
        ∧ (p.poison = true ∨ (p.worker = p.umpire ∧ p.umpFail = false) → t.flt = s.flt ∧ t.crews = s.crews)
        ∧ (∀ n, s.crewOf c = some n → p.poison = false → p.worker ≠ p.umpire → p.shadow = false →
            s.records t 4 2 0x0402 ∧ (t.crew n).stop.isSome = true ∧ t.isSet F.UMP_STAT_mis_hist [hostOf c] = true)) ∧
    (∀ c e en n, (s.core c).eng.find? (fun p => p.2.frozen) = some (e, en) → s.crewOf c = some n → (s.crew n).stop = none →
      s.halted n = false →
      ∃ t, exec (.mismatchFault c) s = .next t ∧ s.records t 4 2 0x0401 ∧ (t.crew n).stop.isSome = true ∧ s.sameMemory t
        ∧ t.cores = s.cores ∧ t.tallies = s.tallies) ∧
    (∀ n d, (s.crew n).diag = some d → d.running = true → s.background = true →
      (s.crew n).stepStart + (s.crew n).delta + d.offset ≤ s.stk.num →
      ∃ t, exec (.mismatchVerdict n) s = .next t ∧ (t.crew n).diag = none ∧ s.sameMemory t ∧ t.tallies = s.tallies
        ∧ (∃ x : Trigger, t.cox.triggers = s.cox.triggers ++ [x] ∧ x.cls = 4)
        ∧ (verdictOf d = 7 → (s.core d.core).transOpen = none →
            (t.core d.core).transOpen = some s.stk.num ∧ (t.core d.core).trans = 1 ∧ t.flt = s.flt)
        ∧ (verdictOf d = 5 → d.core ∈ t.flt.switches.map fun p => p.1)
        ∧ (verdictOf d = 1 ∨ verdictOf d = 3 ∨ verdictOf d = 4 →
            t.flt.pendingDrain = some (true, 1) ∧ (t.crew n).stop.isSome = true)) ∧
    (∀ c w, (s.core c).transOpen = some w → w + 2 ^ 24 ≤ s.stk.num →
      ∃ t, exec (.transientWindowClose c) s = .next t ∧ (t.core c).transOpen = none ∧ (t.core c).trans = 0
        ∧ t.fld F.UMP_STAT_transients [hostOf c] = 0 ∧ s.sameMemory t ∧ t.crews = s.crews ∧ t.flt = s.flt) ∧
    (∀ v : BitVec 32, s.strayAt R.WCH_CTL.base = false → bits v.toNat 28 28 = 1 →
      let n := s.fld F.WCH_SEL_crew []
      let w := s.fld F.WCH_SEL_slot []
      ((s.crew n).slot w).active = true →
      ∃ t, exec (.watchCloseRequest v) s = .next t ∧ ((t.crew n).slot w).requested = true ∧ s.sameMemory t ∧ s.sameJobs t
        ∧ (∀ m, m ≠ n → t.crew m = s.crew m) ∧ ∀ x, x ≠ w → (t.crew n).slot x = (s.crew n).slot x) ∧
    (∀ n w, s.stk.drive = true → s.ns = s.stk.bound → ((s.crew n).stepStart = s.stk.num ∨ s.crewIdle n = true) →
      ((s.crew n).slot w).active = true → ((s.crew n).slot w).requested = true →
      ∃ t, exec (.watchClose n w) s = .next t ∧ s.sameMemory t ∧ t.tallies = s.tallies
        ∧ ((t.crew n).slot w).result = (s.members n).foldl (fun r c => r.merge (Map.getD {} (s.core c).watch w)) {}
        ∧ ((t.crew n).slot w).closeStroke = s.stk.num ∧ ((t.crew n).slot w).closeSeq = ((s.crew n).slot w).closeSeq + 1
        ∧ ((t.crew n).slot w).requested = false ∧ ((t.crew n).slot w).merging.isSome = true
        ∧ (∀ c ∈ s.members n, Map.getD {} (t.core c).watch w = {} ∧ (t.core c).store = (s.core c).store)
        ∧ ∀ m, m ≠ n → t.crew m = s.crew m) ∧
    (∀ n w, ((s.crew n).slot w).merging.isSome = true →
      ∃ t, exec (.watchMergeComplete n w) s = .next t ∧ ((t.crew n).slot w).valid = true ∧ ((t.crew n).slot w).merging = none
        ∧ ((t.crew n).slot w).result = ((s.crew n).slot w).result ∧ s.sameMemory t ∧ s.sameJobs t ∧ t.flt = s.flt)

/-- FAULT_RECORD takes the oldest fault: with the ring enabled, in host memory, holding fault records, with room and
none waiting, a fault of Contained or Domain severity goes as its 64 bytes to the slot of the tail, the tail advances,
and the MSI-X vector is sent; with no fault it does nothing. A write of GLB_FLT_CTL that enables the ring zeroes tail,
head and lost; while it is enabled its other fields stay. POISON_CONSUMED charges the crew's running launch with a
Contained fault and stops the crew; with none running the record is of Info severity. An accumulator parity error that
is reported raises the Domain fault 0x0301, which stops the crew that owns the core; a second one within 2^24 strokes is
a hard fault of the core. -/
def Obligations.FaultRecordsReachTheHostRing : Prop :=
  ∀ (s : State),
    (∀ f rest, s.flt.queue = f :: rest → 1 ≤ f.sev → f.sev ≤ 2 → s.isSet F.GLB_FLT_CTL_in_hbm [] = false →
      s.isSet F.GLB_FLT_CTL_cper [] = false → s.pow.perst = false → s.ringTakes = true → s.flt.ringWait = [] →
      let base := (s.reg R.GLB_FLT_BASE_LO []).toNat / 512 * 512 + 2 ^ 32 * (s.reg R.GLB_FLT_BASE_HI []).toNat
      let a := base + s.fld F.GLB_FLT_TAIL_tail [] % s.ringSlots * 64
      ∃ t, exec .faultRecord s = .next t ∧ t.flt.queue = rest ∧ t.crews = s.crews ∧ t.cores = s.cores ∧ t.tallies = s.tallies
        ∧ t.fld F.GLB_FLT_TAIL_tail [] = (s.fld F.GLB_FLT_TAIL_tail [] + 1) % 2 ^ 16
        ∧ Msg.msix (s.fld F.GLB_FLT_CTL_vector []) ∈ t.out
        ∧ (∀ x, t.hbmAt x = s.hbmAt x) ∧ (∀ x, ¬(a ≤ x ∧ x < a + 64) → t.hostAt x = s.hostAt x)
        ∧ ∃ seq lost, ∀ i, i < 64 → t.hostAt (a + i) = (f.bytes seq lost).getD i 0) ∧
    (s.flt.queue = [] → exec .faultRecord s = .next s) ∧
    (∀ v : BitVec 32, s.writeHeld R.GLB_FLT_CTL.base = false → bits v.toNat 31 31 = 1 →
      ∃ t, exec (.glbFltCtlWrite v) s = .next t ∧ s.sameMemory t ∧ t.flt.queue = s.flt.queue
        ∧ t.isSet F.GLB_FLT_CTL_enable [] = true
        ∧ (s.isSet F.GLB_FLT_CTL_enable [] = false → t.fld F.GLB_FLT_TAIL_tail [] = 0 ∧ t.fld F.GLB_FLT_HEAD_head [] = 0
            ∧ t.reg R.GLB_FLT_LOST [] = 0 ∧ t.fld F.GLB_FLT_CTL_vector [] = bits v.toNat 10 0)
        ∧ (s.isSet F.GLB_FLT_CTL_enable [] = true → t.reg R.GLB_FLT_TAIL [] = s.reg R.GLB_FLT_TAIL []
            ∧ t.reg R.GLB_FLT_HEAD [] = s.reg R.GLB_FLT_HEAD [] ∧ t.reg R.GLB_FLT_LOST [] = s.reg R.GLB_FLT_LOST []
            ∧ t.fld F.GLB_FLT_CTL_vector [] = s.fld F.GLB_FLT_CTL_vector []
            ∧ t.fld F.GLB_FLT_CTL_log2_entries [] = s.fld F.GLB_FLT_CTL_log2_entries [])) ∧
    (∀ p : PoisonUse, s.crewValid p.crew = true →
      ∃ t, exec (.poisonConsumed (.poison p)) s = .next t ∧ s.sameMemory t ∧ t.cores = s.cores ∧ t.tallies = s.tallies
        ∧ (∀ l, (s.crew p.crew).runningLaunch = some l → s.records t 2 1 (poisonEvent p.kind)
            ∧ (t.crew p.crew).stop.isSome = true ∧ ∃ k ∈ (t.crew p.crew).launches, k.accept = l.accept ∧ k.poisoned = true)
        ∧ ((s.crew p.crew).runningLaunch = none → s.records t 2 0 (poisonEvent p.kind) ∧ t.crews = s.crews)) ∧
    (∀ c n e row col, s.crewOf c = some n →
      ∃ t, exec (.poisonConsumed (.error (.accumulator c e row col))) s = .next t ∧ t.tallies = s.tallies
        ∧ (∃ f ∈ t.flt.queue, f.cls = 3 ∧ f.sev = 2 ∧ f.event = 0x0301)
        ∧ (t.crew n).stop.isSome = true ∧ (∀ d, d ≠ c → t.core d = s.core d) ∧ (∀ a, t.storeAt c a = s.storeAt c a)
        ∧ ((s.core c).uefWin = none → (t.core c).uefWin = some s.stk.num)
        ∧ ∀ w, (s.core c).uefWin = some w → s.stk.num < w + 2 ^ 24 → c ∈ t.flt.switches.map fun p => p.1)

/-- At a boundary SPARE_SWITCH_IN moves the failed core's logical column to its row's spare site, empties the core, uses
the spare up and records the switch; with no spare left a NO_SPARE drain waits and the crew is rolled back without a
replay. SUSPECT_DRAIN sets the replacement flag with reason 1, gives each crew its notice and stops it; ORDERLY_DRAIN
does so with reason 2 and stops no crew. A crew with no step boundary within 2^20 strokes of an orderly drain is
stopped. When every crew has stopped GLB_HEALTH shows drained. Hard-fault windows close after 2^24 strokes. -/
def Obligations.SparesAndDrains : Prop :=
  ∀ (s : State),
    (∀ c cls, c < 144 → Map.find c s.flt.switches = some cls → s.boundaryNow = true →
      (s.isSet F.GLB_REMAP_HI_spare_avail [c / 9] = true →
        ∃ t, exec (.spareSwitchIn c) s = .next t ∧ s.sameMemory t ∧ t.tallies = s.tallies ∧ t.crews = s.crews
          ∧ t.physCol (c / 9) (c % 9) = s.fld F.GLB_REMAP_HI_spare_col [c / 9]
          ∧ t.fld F.GLB_REMAP_HI_retired_col [c / 9] = s.physCol (c / 9) (c % 9)
          ∧ t.isSet F.GLB_REMAP_HI_spare_avail [c / 9] = false ∧ t.core c = {} ∧ (∀ x, x ≠ c → t.core x = s.core x)
          ∧ t.nv.spareMap = s.nv.spareMap ++ [(c / 9, s.physCol (c / 9) (c % 9))]
          ∧ s.records t cls 2 (cls * 256 + 0xFE) ∧ ∀ x ∈ t.flt.switches, x.1 ≠ c) ∧
      (s.isSet F.GLB_REMAP_HI_spare_avail [c / 9] = false → s.flt.pendingDrain = none →
        ∃ t, exec (.spareSwitchIn c) s = .next t ∧ t.flt.pendingDrain = some (false, cls)
          ∧ (∀ x a, t.storeAt x a = s.storeAt x a) ∧ t.tallies = s.tallies
          ∧ ∀ n, s.crewOf c = some n → s.rcvState n ≠ 1 → s.rcvState n ≠ 2 →
            ∃ st, (t.crew n).stop = some st ∧ st.replay = false)) ∧
    (∀ x, s.flt.pendingDrain = some (true, x) → s.flt.drain = none →
      ∃ t, exec .suspectDrain s = .next t ∧ t.flt.drain = some { suspect := true, since := s.stk.num } ∧ s.sameMemory t
        ∧ t.nv.replace = true ∧ t.nv.reason = 1 ∧ t.isSet F.GLB_HEALTH_suspect [] = true ∧ t.flt.pendingDrain = none
        ∧ ∀ n, n < 16 → s.crewValid n = true → (∃ f ∈ t.flt.queue, f.crew = some n ∧ f.event = 0x04FF ∧ f.sev = 3)
            ∧ ((s.crew n).drainStop = false → ∃ st, (t.crew n).stop = some st ∧ st.replay = false)) ∧
    (∀ x : BitVec 8, s.flt.pendingDrain = some (false, x.toNat) → s.flt.drain = none →
      ∃ t, exec (.orderlyDrain x) s = .next t ∧ t.flt.drain = some { suspect := false, since := s.stk.num } ∧ s.sameMemory t
        ∧ t.nv.replace = true ∧ t.nv.reason = 2 ∧ t.crews = s.crews ∧ t.flt.pendingDrain = none
        ∧ ∀ n, n < 16 → s.crewValid n = true →
            ∃ f ∈ t.flt.queue, f.crew = some n ∧ f.event = x.toNat * 256 + 0xFF ∧ f.sev = 3) ∧
    (∀ n d, s.flt.drain = some d → d.suspect = false → d.since + 2 ^ 20 ≤ s.stk.num → s.crewValid n = true →
      (s.crew n).drainStop = false → (s.rcvState n = 0 ∨ s.rcvState n = 3) → (s.crew n).stop = none →
      ∃ t, exec (.drainStepLimit n) s = .next t ∧ s.sameMemory t ∧ s.sameJobs t
        ∧ (t.crew n).stop = some { bStop := s.stk.num + 1, replay := false }) ∧
    (s.flt.drain.isSome = true → s.isSet F.GLB_HEALTH_drained [] = false →
      (∀ n, n < 16 → s.crewValid n = true → (s.crew n).drainStop = true ∨ s.rcvState n = 4) →
      ∃ t, exec .drainComplete s = .next t ∧ t.isSet F.GLB_HEALTH_drained [] = true
        ∧ t.isSet F.GLB_HEALTH_draining [] = false ∧ t.crews = s.crews ∧ s.sameMemory t ∧ s.sameJobs t) ∧
    (∀ c, ∃ t, exec (.hardFaultWindowClose c) s = .next t ∧ s.sameMemory t ∧ t.regs = s.regs ∧ t.crews = s.crews
        ∧ (∀ w k, (s.core c).ueWin = some (w, k) →
            (t.core c).ueWin = if w + 2 ^ 24 ≤ s.stk.num then none else some (w, k))
        ∧ (∀ w, (s.core c).uefWin = some w → (t.core c).uefWin = if w + 2 ^ 24 ≤ s.stk.num then none else some w)
        ∧ ∀ w, (s.core c).progFault = some w → (t.core c).progFault = if w + 2 ^ 24 ≤ s.stk.num then none else some w)

/-- When the boundary of a stop has come, a crew that runs, replays or is held is stopped and its collectives are
aborted. ROLLBACK of a stopped crew whose dump has been made resets every member core, whose store stays, drops what
umpires hold of their chains, discards the crew's held remote ADDs and ordered requests, and makes the crew restoring
from the newest point at or before the target; with none it is held with no_point set. In a drive RESTORATION_COMPLETE
brings the crew's stores back to the point, and the replay is due at the next boundary. -/
def Obligations.CrewsStopRollBackAndRestore : Prop :=
  ∀ (s : State) (n : Nat), n < 16 → s.crewValid n = true →
    (∀ st, (s.crew n).stop = some st → st.bStop ≤ s.stk.num → (s.rcvState n = 0 ∨ s.rcvState n = 3 ∨ s.rcvState n = 4) →
      s.freezePast n = true → s.inReset = false →
      ∃ t, exec (.crewStop n) s = .next t ∧ t.rcvState n = 1 ∧ (t.crew n).colls = [] ∧ (t.crew n).lastStop = st.bStop
        ∧ (t.crew n).bRestore = none ∧ t.tallies = s.tallies ∧ (∀ c, (t.core c).store = (s.core c).store)
        ∧ (st.cause < 2 → ∃ x ∈ t.flt.dumps, x.dom = .crew n ∧ x.cause = st.cause)) ∧
    (∀ st, (s.crew n).stop = some st → s.rcvState n = 1 → s.dumpWaits (.crew n) = false → s.inReset = false →
      let target := match st.target with
        | some x => (s.crew n).points.find? fun p => decide (p.stroke ≤ x)
        | none => (s.crew n).points.head?
      (∀ p, target = some p →
        ∃ t, exec (.rollbackRun n) s = .next t ∧ t.rcvState n = 2 ∧ t.isSet F.GLB_RCV_rb_hist [n] = true
          ∧ (∃ x, (t.crew n).stop = some x ∧ x.target = some p.stroke) ∧ (t.crew n).remHeld = [] ∧ t.tallies = s.tallies
          ∧ (∀ r ∈ t.aord, r.crew ≠ n)
          ∧ (∀ c, c ∉ s.members n → t.core c = { s.core c with eng := (t.core c).eng, ump := (t.core c).ump }
              ∧ (hostOf c ∉ s.members n → workerOf c ∉ s.members n → t.core c = s.core c))
          ∧ (∀ c ∈ s.members n, (t.core c).eng = [] ∧ (t.core c).vecq = [] ∧ (t.core c).dmaq = [] ∧ (t.core c).seq = {}
              ∧ (t.core c).pre = [] ∧ (t.core c).store = (s.core c).store)
          ∧ ((s.crew n).cpls = [] → ∃ q, (t.crew n).points.head? = some q ∧ q.stroke = p.stroke)) ∧
      (target = none →
        ∃ t, exec (.rollbackRun n) s = .next t ∧ t.rcvState n = 4 ∧ t.isSet F.GLB_RCV_no_point [n] = true
          ∧ (t.crew n).points = [] ∧ (t.crew n).stop = none ∧ (∀ c a, t.storeAt c a = s.storeAt c a) ∧ t.tallies = s.tallies)) ∧
    (∀ p rest, (s.crew n).points = p :: rest → s.rcvState n = 2 → (s.crew n).bRestore = none → (s.crew n).restart = false →
      (s.crew n).restore = none → (∀ x ∈ s.flt.switches, s.crewOf x.1 ≠ some n) → s.stk.drive = true → s.stalled = false →
      s.inReset = false → s.inEasy = false → s.emptyStroke = false → s.reloading n = false →
      s.unusable n p.snap.slot = false →
      ∃ t, exec (.restorationComplete n) s = .next t ∧ (t.crew n).bRestore = some (s.stk.num + 1) ∧ t.rcvState n = 2
        ∧ (t.crew n).stepStart = p.stroke)

/-- When a queue's oldest launch, a wait with timeout 0, an open collective, an engine without progress, or a slipping
entry of a watched crew passes its limit, the watchdog raises the HANG fault of its event with Domain severity, and the
crew is to stop; a collective is aborted and its crew held. Memory and tallies are as before. -/
def Obligations.WatchdogsStopTheirCrew : Prop :=
  ∀ (s : State) (t0 : Nat),
    let u := s.advance t0
    (∀ q l, ((s.crew (s.queueCrew q)).launches.filter fun l => l.finished.isNone && decide (l.queue = q)).head? = some l →
      (s.queue q).enable = true → s.watched (s.queueCrew q) = true →
      u.elapsed l.since (s.fld F.GLB_WDOG_A_queue_ms []) = true →
      ∃ r, exec (.queueWatchdog q t0) s = .next r ∧ s.records r 6 2 0x0601 ∧ s.sameMemory r ∧ s.sameJobs r
        ∧ (r.crew (s.queueCrew q)).stop.isSome = true) ∧
    (∀ c n w, s.crewOf c = some n → s.watched n = true →
      ((((s.core c).seq.waits.getD []) ++ (s.core c).waits.map fun x => x.wait).find? fun w =>
        w.begun && !w.sat && decide (w.timeout = 0) && u.elapsed w.since (s.fld F.GLB_WDOG_A_tally_ms [])) = some w →
      ∃ r, exec (.tallyWaitWatchdog c t0) s = .next r ∧ s.records r 6 2 0x0602 ∧ s.sameMemory r ∧ s.sameJobs r
        ∧ (r.crew n).stop.isSome = true) ∧
    (∀ c e n, s.crewOf c = some n → s.watched n = true → e < 14 → s.fld F.GLB_WDOG_B_engine_strokes [] ≠ 0 →
      s.fld F.GLB_WDOG_B_engine_strokes [] ≤ s.idleDrives c e →
      ∃ r, exec (.engineProgressWatchdog c e) s = .next r ∧ s.records r 6 2 0x0603 ∧ s.sameMemory r
        ∧ (r.crew n).stop.isSome = true ∧ (r.core c).store = (s.core c).store ∧ r.tallies = s.tallies) ∧
    (∀ n id k, (s.crew n).coll id = some k → s.watched n = true →
      u.elapsed k.since (s.fld F.GLB_WDOG_B_coll_ms []) = true →
      ∃ r, exec (.collectiveWatchdog n id t0) s = .next r ∧ s.records r 6 2 0x0604 ∧ s.sameMemory r ∧ r.tallies = s.tallies
        ∧ (∃ st, (r.crew n).stop = some st ∧ st.hold = true) ∧ ∀ x ∈ (r.crew n).colls, x.id ≠ k.id) ∧
    (∀ n, s.watched n = true → s.timed n = false → s.fld F.GLB_WDOG_B_slip_limit [] ≠ 0 →
      s.fld F.GLB_WDOG_B_slip_limit [] ≤ s.fld F.STK_CREW_slip_run [n] →
      ∃ r, exec (.slipWatchdog n) s = .next r ∧ s.records r 6 2 0x0606 ∧ s.sameMemory r ∧ s.sameJobs r ∧ r.regs = s.regs
        ∧ (r.crew n).stop.isSome = true)

/-- When the engine-progress watchdog fires for a core that has had none open, the stroke of this first fault is kept.
When it fires for any unit of the core again within 2^24 strokes of the first, the core is a hard fault: it waits for
its spare switch-in. Later than that the new fault is a first one. -/
def Obligations.SecondProgressFaultIsAHardFault : Prop :=
  ∀ (s : State) (c e n : Nat), s.crewOf c = some n → s.watched n = true → e < 14 →
    s.fld F.GLB_WDOG_B_engine_strokes [] ≠ 0 → s.fld F.GLB_WDOG_B_engine_strokes [] ≤ s.idleDrives c e →
    ∃ r, exec (.engineProgressWatchdog c e) s = .next r ∧ s.records r 6 2 0x0603
      ∧ ((s.core c).progFault = none → (r.core c).progFault = some s.stk.num ∧ r.flt.switches = s.flt.switches)
      ∧ ∀ w, (s.core c).progFault = some w →
          (s.stk.num < w + 2 ^ 24 → c ∈ r.flt.switches.map fun p => p.1) ∧
          (w + 2 ^ 24 ≤ s.stk.num → (r.core c).progFault = some s.stk.num ∧ r.flt.switches = s.flt.switches)

/-- With go and nothing busy, HALT of a running or replaying crew stops it at the next boundary to be held, RELEASE of a
held crew with a point sets its replay boundary (the next, or the named stroke if at least two strokes ahead), and
ROLLBACK stops the crew with its target stroke; each waits as busy. A request that names no crew of the rig is refused,
and any request while one is busy. Memory and job state are as before. -/
def Obligations.RecoveryRequestsAreTakenOrRefused : Prop :=
  ∀ (s : State) (v : BitVec 32), bits v.toNat 0 0 = 1 →
    let n := rcvCrew v
    (s.isSet F.GLB_RCV_CMD_busy [] = false → s.crewValid n = true →
      (s.rcvState n = 0 ∨ s.rcvState n = 3 →
        ∃ t, exec (.haltCmd v) s = .next t ∧ s.sameMemory t ∧ s.sameJobs t ∧ t.isSet F.GLB_RCV_CMD_busy [] = true
          ∧ ∃ st, (t.crew n).stop = some st ∧ st.hold = true ∧ st.bStop ≤ s.stk.num + 1) ∧
      (s.rcvState n = 4 → s.isSet F.GLB_RCV_no_point [n] = false →
        (bits v.toNat 1 1 = 0 → ∃ t, exec (.releaseCmd v) s = .next t ∧ s.sameMemory t ∧ s.sameJobs t
          ∧ t.isSet F.GLB_RCV_CMD_busy [] = true ∧ (t.crew n).releaseAt = some (s.stk.num + 1)) ∧
        (bits v.toNat 1 1 = 1 → s.stk.num + 2 ≤ s.rcvArg2 → ∃ t, exec (.releaseCmd v) s = .next t
          ∧ t.isSet F.GLB_RCV_CMD_busy [] = true ∧ (t.crew n).releaseAt = some s.rcvArg2) ∧
        (bits v.toNat 1 1 = 1 → s.rcvArg2 < s.stk.num + 2 → ∃ t, exec (.releaseCmd v) s = .next t
          ∧ t.isSet F.GLB_RCV_CMD_refused [] = true ∧ t.crews = s.crews)) ∧
      (s.rcvState n ≠ 5 → bits v.toNat 1 1 = 0 →
        ∃ t, exec (.rollbackRequest v) s = .next t ∧ s.sameMemory t ∧ s.sameJobs t ∧ t.isSet F.GLB_RCV_CMD_busy [] = true
          ∧ ∃ st, (t.crew n).stop = some st ∧ st.target = some (s.pair R.GLB_RCV_ARG_LO R.GLB_RCV_ARG_HI []))) ∧
    (s.isSet F.GLB_RCV_CMD_busy [] = true ∨ s.crewValid n = false →
      ∀ c, c = .haltCmd v ∨ c = .releaseCmd v ∨ c = .rollbackRequest v →
        ∃ t, exec c s = .next t ∧ t.isSet F.GLB_RCV_CMD_refused [] = true ∧ t.crews = s.crews ∧ t.flt = s.flt
          ∧ s.sameMemory t ∧ s.sameJobs t)

/-- At a boundary, or where its domain stands still, the oldest dump due is frozen with its stroke and time and GLB_DUMP
reads busy; if the dump area cannot be written, the dump is skipped and the flag set. DUMP_COMPLETE writes the dump's
bytes into the slot that the previous one did not use, outside the pages of any crew's STATE region, and shows slot,
cause and number; no other byte of memory changes. -/
def Obligations.DumpsAreFrozenAndWritten : Prop :=
  ∀ (s : State) (d : DumpReq) (rest : List DumpReq), s.flt.dumps = d :: rest → s.flt.resets = [] →
    (d.writing = false → (s.boundaryNow = true ∨ s.domStill d.dom = true) →
      ∃ t, exec .dumpStart s = .next t ∧ s.sameMemory t ∧ s.sameJobs t
        ∧ (s.dumpBlocked = false → t.isSet F.GLB_DUMP_busy [] = true
            ∧ t.flt.dumps = { d with writing := true, stroke := s.stk.num, time := s.ns } :: rest)
        ∧ (s.dumpBlocked = true → t.isSet F.GLB_DUMP_skipped [] = true ∧ t.flt.dumps = rest)) ∧
    (d.writing = true → s.dumpBlocked = false →
      let slot := match s.flt.lastSlot with | some k => 1 - k | none => 0
      let seq := (s.fld F.GLB_DUMP_seq [] + 1) % 2 ^ 16
      let a := s.dumpBase + slot * 2 ^ 23
      let b := s.dumpBytes d seq
      (∀ i, i < b.length → s.isState (a + i) = false) → a % 2 ^ 23 = 0 →
      ∃ t, exec .dumpComplete s = .next t ∧ t.flt.dumps = rest ∧ t.flt.lastSlot = some slot
        ∧ t.isSet F.GLB_DUMP_busy [] = false ∧ t.fld F.GLB_DUMP_seq [] = seq ∧ t.fld F.GLB_DUMP_cause [] = d.cause % 16
        ∧ (∀ i, i < b.length → t.hbmAt (a + i) = b.getD i 0)
        ∧ (∀ x, ¬(a ≤ x ∧ x < a + b.length) → t.hbmAt x = s.hbmAt x) ∧ (∀ x, t.hostAt x = s.hostAt x) ∧ s.sameJobs t)

/-- With go and nothing busy, a reset request of an engine or core that is parked, held or frozen, of a crew of the rig,
of the chip or of the package asks for the dump of its domain, whose reset then waits; meanwhile nothing of the domain
is changed. PKG_RST_N held low for 1 µs resets the package without a dump: power-up goes on at step 2, and memory, the
NV store, the raw counter and the accept numbers stay. RESET_COMPLETE ends a crew reset, or, after power-up step 10, a
package reset. -/
def Obligations.ResetRequestsWaitForTheirDump : Prop :=
  ∀ (s : State), s.flt.resets = [] →
    (∀ v : BitVec 32, bits v.toNat 0 0 = 1 → s.isSet F.GLB_RCV_CMD_busy [] = false →
      let asks := fun (c : Instr) (d : Dom) (cause : Nat) => ∃ t, exec c s = .next t ∧ s.sameMemory t ∧ s.sameJobs t
        ∧ t.crews = s.crews ∧ t.nv = s.nv ∧ t.flt.resets = [d] ∧ t.isSet F.GLB_RCV_CMD_busy [] = true
        ∧ ∃ x ∈ t.flt.dumps, x.dom = d ∧ x.cause = cause
      (s.resetOpen (rcvCore v) = true → rcvUnit v ≤ 0xD →
        asks (.resetEngine v) (.engine (rcvCore v) (rcvUnit v)) 3) ∧
      (s.resetOpen (rcvCore v) = true → asks (.resetCore v) (.core (rcvCore v)) 4) ∧
      (s.crewValid (rcvCrew v) = true → asks (.resetCrew v) (.crew (rcvCrew v)) 5) ∧
      asks (.resetChip v) .chip 6 ∧ (s.pow.tripped = false → asks (.resetPackage v) .package 7) ∧
      (∀ c, (c = .resetEngine v ∨ c = .resetCore v) → s.resetOpen (rcvCore v) = false →
        ∃ t, exec c s = .next t ∧ t.isSet F.GLB_RCV_CMD_refused [] = true ∧ t.flt = s.flt ∧ t.crews = s.crews)) ∧
    (∀ ns, 1000 ≤ ns → 1 ≤ s.pow.step → s.flt.resetting = none → s.cox.programs = [] → s.pow.critical = false →
      ∃ t, exec (.pkgRstN ns) s = .next t ∧ s.sameMemory t ∧ t.nv = s.nv ∧ t.raw = s.raw ∧ t.nextAccept = s.nextAccept
        ∧ t.flt.resetting = some .package ∧ t.pow.step = 1 ∧ t.rig = {} ∧ t.crews = [] ∧ t.queues = [] ∧ t.tallies = []
        ∧ t.flt.dumps = []) ∧
    (∀ n, n < 16 → s.flt.resetting = some (.crew n) →
      ∃ t, exec .resetComplete s = .next t ∧ t.flt.resetting = none ∧ t.rcvState n = 0 ∧ (t.crew n).firstStep = true
        ∧ s.sameMemory t ∧ s.sameJobs t) ∧
    (s.flt.resetting = some .package → s.pow.step = 10 →
      ∃ t, exec .resetComplete s = .next t ∧ t.flt.resetting = none ∧ t.pow.step = 11 ∧ t.regs = s.regs ∧ s.sameMemory t
        ∧ s.sameJobs t)

/-- At the end of a freeze that makes a point, with the snapshot complete and the crew idle, the step's boundary becomes
the newer point, with the snapshot and at most one older point; a snapshot not complete is a fault of the crew, which
stops. A timer boundary of a full checkpoint with a drained ring and room begins the checkpoint with its freeze. In a
recovery, on its turn, the copy-on-write engine copies the next unfilled line, whose clean granules arrive unchanged,
and nothing outside the line changes; on its turn the copy phase copies the next line of the next page, and with its
last line takes the page off those left; with none left the checkpoint completes, DONE or SUSPECT, and its number
advances. -/
def Obligations.FreezesTimersAndCopies : Prop :=
  ∀ (s : State) (n : Nat), n < 16 →
    (∀ b x, (s.crew n).freezeEnd = some b → (s.crew n).freezeSnap = some x → b ≤ s.stk.num → s.inReset = false →
      s.inEasy = false → (s.crew n).stop = none →
      ((s.crew n).freezePoint = true → (s.crew n).ckpt = none → (s.crew n).cpls = [] → (s.crew n).talCmds = [] →
        (s.crew n).launches = [] → (∀ c ∈ s.members n, (s.core c).seq.accept = none) →
        ∃ t, exec (.freezeEnd n 0) s = .next t ∧ t.frozen n = false ∧ (t.crew n).freezePoint = false
          ∧ (t.crew n).points = Point.mk (s.crew n).stepStart (s.crew n).stepStart (s.crew n).stepSnapEid x ::
              (s.crew n).points.take (if s.isSet F.CHK_CFG_one_point [n] then 0 else 1)
          ∧ (∀ a, t.hbmAt a = s.hbmAt a) ∧ t.tallies = s.tallies) ∧
      (∀ left, left ≠ 0 →
        ∃ t, exec (.freezeEnd n left) s = .next t ∧ t.frozen n = false ∧ (t.crew n).stop.isSome = true
          ∧ ∃ f ∈ t.flt.queue, f.cls = 5 ∧ f.sev = 2 ∧ f.event = 0x0506 ∧ f.crew = some n)) ∧
    (s.stk.drive = true → s.ns = s.stk.bound → s.crewValid n = true → s.fld F.CHK_TIMER_strokes [n] ≠ 0 →
      s.fld F.CHK_CFG_timer_kind [n] = 1 → s.stk.num ≠ 0 → s.stk.num % s.fld F.CHK_TIMER_strokes [n] = 0 →
      (s.crew n).lastTimer ≠ some s.stk.num → (s.crew n).ckReq = [] → s.halted n = false →
      s.isSet F.STK_CREW_carrying [n] = false → (s.crew n).ckpt = none →
      s.fld F.CHK_STAT_seq [n] = s.fld F.CHK_ACK_seq [n] →
      4096 + s.snapSize n + (s.crew n).statePages.length * 2 ^ 21 ≤ s.ckptSize n →
      ∃ t, exec (.checkpointTimer n) s = .next t ∧ t.frozen n = true ∧ t.fld F.CHK_STAT_state [n] = 1
        ∧ ∃ c, (t.crew n).ckpt = some c ∧ c.tensor = false ∧ c.stroke = s.stk.num ∧ c.freezing = true) ∧
    (∀ page p i line src dst, Map.find page (s.crew n).pages = some p →
      unfilled 0 (p.live :: p.copies) = some (i, line, src, dst) → s.turn (stackOf (src * 2 ^ 21 + 256 * line)) .cow = true →
      (∀ g, g < 8 → s.granSt (src * 2 ^ 21 + 256 * line + 32 * g) = {}) →
      ∃ t, exec (.cowLineCopy n page) s = .next t ∧ t.tallies = s.tallies ∧ t.cores = s.cores
        ∧ (∀ j, j < 256 → t.hbmAt (dst * 2 ^ 21 + 256 * line + j) = s.hbmAt (src * 2 ^ 21 + 256 * line + j))
        ∧ ∀ a, ¬(dst * 2 ^ 21 + 256 * line ≤ a ∧ a < dst * 2 ^ 21 + 256 * line + 256) → t.hbmAt a = s.hbmAt a) ∧
    (∀ c, (s.crew n).ckpt = some c → c.freezing = false → s.copyServed = true →
      (∀ page line fs, s.nextCopy n = some (page, line, fs) →
        s.turn (stackOf (epochPa fs (page * 2 ^ 21 + 256 * line))) .cow = true →
        (∀ x ∈ linePieces page line (s.pieces n c page), ∀ j, j < x.2.1 → s.isState (x.2.2 + j) = false) →
        ∃ t, exec (.checkpointPageCopy n) s = .next t
          ∧ (t.crew n).ckpt = some (match coveredFrom (line + 1) (s.pieces n c page) with
              | some next => { c with line := next }
              | none => { c with left := c.left.tail, line := 0 })
          ∧ t.tallies = s.tallies ∧ t.cores = s.cores ∧ ∀ a, t.hostAt a = s.hostAt a) ∧
      (∀ page rest, c.left = page :: rest → s.nextCopy n = none →
        ∃ t, exec (.checkpointPageCopy n) s = .next t ∧ (t.crew n).ckpt = some { c with left := rest, line := 0 }
          ∧ t.tallies = s.tallies ∧ t.cores = s.cores ∧ ∀ a, t.hostAt a = s.hostAt a) ∧
      (c.left = [] →
        ∃ t, exec (.checkpointComplete n) s = .next t ∧ (t.crew n).ckpt = none ∧ t.fld F.CHK_STAT_state [n] = 0
          ∧ t.fld F.CHK_STAT_status [n] = (if s.isSet F.GLB_HEALTH_suspect [] && !c.suspectAt then 0xA else 1)
          ∧ t.fld F.CHK_STAT_seq [n] = (s.fld F.CHK_STAT_seq [n] + 1) % 2 ^ 16
          ∧ t.tallies = s.tallies ∧ t.cores = s.cores ∧ ∀ a, t.hostAt a = s.hostAt a))

/-- With go and nothing busy, TAKE_FULL and TAKE_TENSOR of a crew of the rig ask for a checkpoint at the next boundary,
or at the stroke named if at least two ahead, and read busy; ABANDON ends the crew's checkpoint with status ABANDONED;
RESTORE_FULL, admitted and of the crew's shape, and RESTORE_TENSOR begin a restore, a shape that differs ends with
status SHAPE and changes no crew. In a drive the restore completes: a tensor one with its status, a full one leaves its
crew held. A request while one is busy, or not admitted, is refused. -/
def Obligations.CheckpointCommandsAndRestores : Prop :=
  ∀ (s : State),
    (∀ v : BitVec 32, bits v.toNat 0 0 = 1 → s.strayAt R.CHK_CMD.base = false →
      let n := chkCrew v
      (s.isSet F.CHK_CMD_busy [] = false →
        (s.crewValid n = true → (bits v.toNat 1 1 = 0 ∨ s.stk.num + 2 ≤ s.chkArg) →
          let r := fun tensor : Bool => CkReq.mk tensor (if bits v.toNat 1 1 = 1 then s.chkArg else s.stk.num + 1) true
          (s.ckptSize n ≠ 0 → ∃ t, exec (.takeFull v) s = .next t ∧ s.sameMemory t ∧ s.sameJobs t
            ∧ (t.crew n).ckReq = (s.crew n).ckReq ++ [r false] ∧ t.isSet F.CHK_CMD_busy [] = true) ∧
          (∃ t, exec (.takeTensor v) s = .next t ∧ s.sameMemory t ∧ s.sameJobs t
            ∧ (t.crew n).ckReq = (s.crew n).ckReq ++ [r true] ∧ t.isSet F.CHK_CMD_busy [] = true)) ∧
        ((s.crew n).ckpt.isSome = true → ∃ t, exec (.chkAbandon v) s = .next t ∧ s.sameMemory t ∧ s.sameJobs t
          ∧ (t.crew n).ckpt = none ∧ t.fld F.CHK_STAT_status [n] = 0xD ∧ t.fld F.CHK_STAT_state [n] = 0) ∧
        (s.restoreOpen n = true →
          let h := plain (s.hbmBytes s.chkArg 4096).1
          (s.shapeOk n h = true → ∃ t, exec (.restoreFull v) s = .next t ∧ s.sameJobs t ∧ (∀ a, t.hbmAt a = s.hbmAt a)
            ∧ (t.crew n).restore = some { tensor := false, addr := s.chkArg, count := 0 } ∧ t.rcvState n = 2
            ∧ t.fld F.CHK_STAT_state [n] = 3) ∧
          (s.shapeOk n h = false → ∃ t, exec (.restoreFull v) s = .next t ∧ s.sameJobs t ∧ (∀ a, t.hbmAt a = s.hbmAt a)
            ∧ t.crews = s.crews ∧ t.fld F.CHK_STAT_status [n] = 8)) ∧
        (s.restoreOpen n = true ∨ (s.crewValid n = true ∧ s.crewIdle n = true) →
          ∃ t, exec (.restoreTensor v) s = .next t ∧ s.sameMemory t ∧ s.sameJobs t ∧ t.fld F.CHK_STAT_state [n] = 3
            ∧ (t.crew n).restore = some { tensor := true, addr := s.chkArg, count := (s.reg R.CHK_ARG2 []).toNat })) ∧
      (s.isSet F.CHK_CMD_busy [] = true →
        ∀ c, c = .takeFull v ∨ c = .takeTensor v ∨ c = .chkAbandon v ∨ c = .restoreFull v ∨ c = .restoreTensor v →
          ∃ t, exec c s = .next t ∧ t.isSet F.CHK_CMD_refused [] = true ∧ t.crews = s.crews ∧ s.sameMemory t ∧ s.sameJobs t)) ∧
    (∀ n r, n < 16 → (s.crew n).restore = some r → s.stk.drive = true → s.stalled = false → s.inReset = false →
      s.inEasy = false → s.emptyStroke = false →
      ∃ t, exec (.restoreComplete n) s = .next t ∧ (t.crew n).restore = none ∧ t.fld F.CHK_STAT_state [n] = 0
        ∧ (r.tensor = true → t.fld F.CHK_STAT_status [n] = (s.restoreTensor r.addr r.count).1 ∧ t.rcvState n = s.rcvState n)
        ∧ (r.tensor = false → t.fld F.CHK_STAT_status [n] = (s.restoreFull n r.addr).1 ∧ t.rcvState n = 4
            ∧ (t.crew n).restoredDelta.isSome = true))

/-- The active core's heartbeat is stored with its instant; the first heartbeat of a core whose claim is presented,
within the bound of its takeover, makes it active. With no power-fail warning, an expired heartbeat, a memory error and
a firmware handover each start a takeover: the other core starts, the old claim goes, every gate group enters its gap
with its outputs as they were, and a TAKEOVER record is taken. With a good image and epoch record the takeover presents
a claim under the next epoch; with a bad one nothing is presented. A takeover past its bound is followed by another to
the other core, or after the third within 10 s by headless. -/
def Obligations.TakeoversFollowTheirTriggers : Prop :=
  ∀ (s : State) (t0 : Nat), s.pow.warn = none → s.cox.waiting = false →
    let u := s.advance t0
    let tookOver := fun (x r : State) (why : Nat) => r.fld F.COX_STAT_state [] = 2 ∧ r.cox.core = 1 - x.cox.core
      ∧ r.cox.takeoverAt = some x.raw ∧ r.cox.trigger = why ∧ r.cox.presented = false ∧ r.reg R.COX_CLAIM [] = 0
      ∧ (∀ g, g < 6 → r.isSet F.COX_GATE_in_gap [g] = true) ∧ r.pins = x.pins ∧ x.sameMemory r ∧ x.sameJobs r
      ∧ (∃ y : Trigger, r.cox.triggers = x.cox.triggers ++ [y] ∧ y.cls = 9) ∧ r.nv = x.nv
    (s.coxActive = true → ∀ v, ∃ r, exec (.coxBeatWrite v t0) s = .next r ∧ r.reg R.COX_BEAT [] = v ∧ r.cox.beat = u.raw
      ∧ r.coxActive = true ∧ r.nv = s.nv ∧ r.pins = s.pins ∧ s.sameMemory r ∧ s.sameJobs r) ∧
    (∀ v w, s.fld F.COX_STAT_state [] = 2 → s.cox.halted = false → s.cox.presented = true → s.cox.takeoverAt = some w →
      u.raw ≤ w + takeoverBound →
      ∃ r, exec (.coxBeatWrite v t0) s = .next r ∧ r.coxActive = true ∧ r.cox.takeoverAt = none ∧ r.cox.beat = u.raw
        ∧ r.fld F.COX_STAT_active_core [] = s.cox.core % 2 ∧ s.sameMemory r ∧ s.sameJobs r) ∧
    (s.coxActive = true → s.cox.beat + 20000000 ≤ u.raw →
      ∃ r, exec (.heartbeatExpiry t0) s = .next r ∧ tookOver u r 1) ∧
    (s.coreRuns = true → (∃ r, exec .coreMemoryUe s = .next r ∧ tookOver s r 2) ∧
      ∃ r, exec .firmwareHandover s = .next r ∧ tookOver s r 4) ∧
    (s.fld F.COX_STAT_state [] = 2 → s.cox.halted = false →
      (s.cox.presented = false →
        (s.nv.epoch + 1 ≤ 0x0FFFFFFE → ∃ r, exec (.takeover t0 true true) s = .next r ∧ r.nv.epoch = s.nv.epoch + 1
          ∧ r.cox.presented = true ∧ r.reg R.COX_CLAIM [] = s.claimOf s.cox.core (s.nv.epoch + 1)
          ∧ s.records r 0xC 0 0x0C02 ∧ r.pins = s.pins ∧ s.sameMemory r ∧ s.sameJobs r) ∧
        (∀ a b, (a && b) = false → exec (.takeover t0 a b) s = .next u)) ∧
      (∀ w, s.cox.takeoverAt = some w → w + takeoverBound ≤ u.raw →
        let n := (s.cox.starts.filter fun x => decide (u.raw < x + 10000000000)).length
        ∃ r, exec (.takeoverFailure t0) s = .next r ∧ (n < 3 → tookOver u r 5) ∧
          (3 ≤ n → r.fld F.COX_STAT_state [] = 3 ∧ r.reg R.COX_CLAIM [] = 0 ∧ r.cox.presented = false
            ∧ s.records r 0xC 0 0x0C04 ∧ s.sameMemory r ∧ s.sameJobs r)))

/-- A gate command with a claim below the gate's is refused with a record and leaves every output; any other is
performed, becomes the gate's claim, and ends the gap if it is above the claim of the gap's start. The bound of a
BOUNDED group in its gap drives the safe value. The tray controller broadcasts its last claim, hands its role to a
higher claim, and a silent tray is taken over. A power-fail warning held 1 µs is recorded and flushed and halts a
takeover; its release is recorded, and a takeover that it held or halted starts. -/
def Obligations.GatesTrayAndPowerWarning : Prop :=
  ∀ (s : State) (t0 : Nat),
    let u := s.advance t0
    (∀ (g : Nat) (claim : BitVec 32) (value : BitVec 96), g < 6 →
      (claim < s.reg R.COX_HOLD [g] → ∃ r, exec (.gateCommand g claim value) s = .next r ∧ r.pins = s.pins ∧ r.cox = s.cox
        ∧ r.reg R.COX_HOLD [g] = s.reg R.COX_HOLD [g] ∧ r.isSet F.COX_GATE_refused_hist [g] = true
        ∧ s.records r 0xC 0 0x0C01 ∧ s.sameMemory r ∧ s.sameJobs r) ∧
      (¬ claim < s.reg R.COX_HOLD [g] → (g = 0 → s.flt.resets = [] ∧ s.pow.tripped = false) →
        ∃ r, exec (.gateCommand g claim value) s = .next r ∧ r.reg R.COX_HOLD [g] = claim
          ∧ (Map.getD {} r.cox.gates g).value = value ∧ s.sameMemory r ∧ s.sameJobs r
          ∧ (s.isSet F.COX_GATE_in_gap [g] = true →
              r.isSet F.COX_GATE_in_gap [g] = !decide ((Map.getD ({} : Gate) s.cox.gates g).gapH < claim))
          ∧ (g = 0 → bits value.toNat 0 0 = 1 → s.pins.chipRst = false → Dom.chip ∈ r.flt.resets)
          ∧ (g = 1 → s.pow.tripped = false → r.pins.enArr = decide (bits value.toNat 0 0 = 1))
          ∧ (g = 2 → r.pins.linkEn = value) ∧ (g = 5 → r.pins.alertN = !decide (bits value.toNat 0 0 = 1)))) ∧
    (∀ g, g < 6 → s.isSet F.COX_GATE_in_gap [g] = true → s.isSet F.COX_GATE_bounded [g] = true →
      s.isSet F.COX_GATE_safe [g] = false → (g = 4 → s.trayCtl = true) →
      (Map.getD ({} : Gate) s.cox.gates g).gapAt + 10 * s.fld F.COX_GATE_bound [g] ≤ u.raw →
      ∃ r, exec (.gapBoundExpiry g t0) s = .next r ∧ r.isSet F.COX_GATE_safe [g] = true
        ∧ r.isSet F.COX_GATE_in_gap [g] = true ∧ s.sameMemory r ∧ s.sameJobs r
        ∧ (g = 0 → r.pins.chipRst = false ∧ r.pins.pkgRst = false) ∧ (g = 2 → r.pins.linkEn = BitVec.allOnes 96)
        ∧ (g = 3 → r.cox.threshold = 400) ∧ (g = 5 → r.pins.alertN = false ∧ r.pins.faultLedN = false)
        ∧ (g = 4 → r.out = s.out ++ s.nv.trayList.map Msg.trayList)) ∧
    (s.trayCtl = true → s.fld F.COX_STAT_state [] ≠ 3 → s.cox.lastClaim ≠ 0 →
      ∃ r, exec .claimBroadcast s = .next r ∧ r.out = s.out ++ [.tray s.cox.lastClaim] ∧ r.cox.trayClaim = s.cox.lastClaim
        ∧ r.regs = s.regs ∧ s.sameMemory r ∧ s.sameJobs r) ∧
    (∀ claim : BitVec 32, s.trayCtl = true →
      (s.fld F.COX_STAT_state [] = 3 ∨ s.cox.lastClaim < claim →
        ∃ r, exec (.roleRequest claim) s = .next r ∧ r.trayCtl = false ∧ r.out = s.out ++ [.handoff claim]
          ∧ s.records r 0xC 0 0x0C03 ∧ s.sameMemory r ∧ s.sameJobs r) ∧
      (s.fld F.COX_STAT_state [] ≠ 3 → ¬ s.cox.lastClaim < claim → exec (.roleRequest claim) s = .next s)) ∧
    (s.trayCtl = false → s.fld F.COX_STAT_state [] ≠ 3 → 1 ≤ s.pow.step →
      s.cox.trayAt + (50 + 20 * s.pins.slot.toNat) * 1000000 ≤ u.raw →
      ∃ r, exec (.traySilence t0) s = .next r ∧ r.trayCtl = true ∧ s.records r 0xC 0 0x0C03 ∧ s.sameMemory r ∧ s.sameJobs r) ∧
    (∀ ns, 1000 ≤ ns → s.pow.warn = none → s.pow.warnFlush = false → s.pow.step ≠ 0 →
      ∃ r, exec (.pwrWarnAssert ns) s = .next r ∧ r.pow.warn = some s.raw ∧ r.pow.warnFlush = true ∧ r.raw = s.raw + 1000
        ∧ r.isSet F.COX_STAT_pwr_warn [] = true ∧ s.sameJobs r ∧ (s.isSet F.GLB_FLT_CTL_in_hbm [] = false → r.flt.queue = [])
        ∧ (s.fld F.COX_STAT_state [] = 2 → r.cox.halted = true)) ∧
    (s.pow.warnFlush = true → (∀ p ∈ s.cox.programs, p.powerFail = false) → s.flt.resets = [] →
      ∃ r, exec .powerFailFlushDone s = .next r ∧ r.pow.warnFlush = false ∧ r.regs = s.regs ∧ s.sameMemory r ∧ s.sameJobs r) ∧
    (∀ ns w, 100000 ≤ ns → s.pow.warn = some w → s.flt.resets = [] → s.pow.step ≠ 0 →
      ∃ r, exec (.pwrWarnRelease ns) s = .next r ∧ r.pow.warn = none ∧ r.isSet F.COX_STAT_pwr_warn [] = false
        ∧ r.raw = s.raw + 100000 ∧ s.records r 0xA 0 0x0A03 ∧ s.sameMemory r ∧ s.sameJobs r
        ∧ (s.cox.halted = true → r.cox.halted = false ∧ r.cox.takeoverAt = some (s.raw + 100000))
        ∧ (s.cox.halted = false → s.cox.waiting = true →
            r.fld F.COX_STAT_state [] = 2 ∧ r.cox.trigger = s.cox.trigger ∧ r.cox.waiting = false))

/-- With a core active, an authentic WAKE asks an entering package to wake; LOG_READ and JNL_READ answer with the record
or entry of the number, or with gone. A SERVICE message whose counter is the next acts if its signature verifies, and
then replaces the counter: it clears the replacement flag, starts a takeover, rewrites a system-area item, stores the
management key or names the preferred core; otherwise it changes nothing. A firmware image goes to the slot not in use.
-/
def Obligations.VendorMessagesTakeEffect : Prop :=
  ∀ (s : State), s.coxActive = true →
    ((s.pow.easy = .entering → ∃ t, exec (.mgmtWake true) s = .next t ∧ t.pow.wakeReq = true ∧ t.regs = s.regs
        ∧ s.sameMemory t ∧ s.sameJobs t) ∧ exec (.mgmtWake false) s = .next s) ∧
    (∀ n : BitVec 32, (∀ r, s.findLog n.toNat = some r → ∃ t, exec (.logRead n) s = .next t
        ∧ t.out = s.out ++ [.reply r.bytes] ∧ t.regs = s.regs ∧ t.cox = s.cox ∧ s.sameMemory t) ∧
      (s.findLog n.toNat = none → ∃ t, exec (.logRead n) s = .next t ∧ t.out = s.out ++ [.gone] ∧ t.regs = s.regs
        ∧ t.cox = s.cox ∧ s.sameMemory t)) ∧
    (∀ n : BitVec 64, (∀ j, s.cox.jnl.find? (fun j => decide (j.num = n.toNat)) = some j → ∃ t, exec (.jnlRead n) s = .next t
        ∧ t.out = s.out ++ [.reply j.bytes] ∧ t.regs = s.regs ∧ s.sameMemory t) ∧
      (s.heldJnl n.toNat = false → ∃ t, exec (.jnlRead n) s = .next t ∧ t.out = s.out ++ [.gone] ∧ t.regs = s.regs
        ∧ s.sameMemory t)) ∧
    (∀ m : ServiceMsg,
      let good := fun op : Nat => Config.ecdsaVerify s.nv.ownerKey (Config.sha384 (s.serviceBody op m)) m.sig
      let nv := { s.nv with serviceCounter := m.counter.toNat }
      (m.counter.toNat = s.nv.serviceCounter + 1 →
        (∃ t, exec (.clearReplace m) s = .next t ∧ s.sameMemory t ∧ s.sameJobs t ∧ (good 1 = false → t = s)
          ∧ (good 1 = true → t.nv = { nv with replace := false, reason := 0 } ∧ t.fld F.GLB_HEALTH_replace [] = 0
              ∧ t.fld F.GLB_HEALTH_reason [] = 0)) ∧
        (∃ t, exec (.handover m) s = .next t ∧ s.sameMemory t ∧ s.sameJobs t ∧ (good 2 = false → t = s)
          ∧ (good 2 = true → t.nv = nv ∧ (s.pow.warn = none → s.cox.waiting = false →
              t.fld F.COX_STAT_state [] = 2 ∧ t.cox.core = 1 - s.cox.core ∧ t.cox.trigger = 3))) ∧
        (∃ t, exec (.setConfig m) s = .next t ∧ s.sameMemory t ∧ s.sameJobs t ∧ t.regs = s.regs ∧ (good 3 = false → t = s)
          ∧ (good 3 = true → (∀ x, Config.configItem m.data = some x → t.nv = nv.config x)
              ∧ (Config.configItem m.data = none → t.nv = nv))) ∧
        (∃ t, exec (.setMgmtKey m) s = .next t ∧ s.sameMemory t ∧ s.sameJobs t ∧ t.regs = s.regs ∧ (good 4 = false → t = s)
          ∧ (good 4 = true → t.cox.mgmtNext = some t.nv.mgmtKey ∧ t.nv.serviceCounter = m.counter.toNat
              ∧ t.nv.mgmtKey = BitVec.ofNat 128 (leNat (fit 16 m.data).reverse))) ∧
        (∃ t, exec (.setPreferred m) s = .next t ∧ s.sameMemory t ∧ s.sameJobs t ∧ t.regs = s.regs ∧ (good 5 = false → t = s)
          ∧ (good 5 = true → t.nv = { nv with preferredB := decide (field m.data 0 1 = 1) }))) ∧
      (m.counter.toNat ≠ s.nv.serviceCounter + 1 →
        ∀ c, c = .clearReplace m ∨ c = .handover m ∨ c = .setConfig m ∨ c = .setMgmtKey m ∨ c = .setPreferred m →
          exec c s = .next s)) ∧
    (∀ image sig : List (BitVec 8), ∃ t, exec (.pldmFirmwareUpdate image sig) s = .next t ∧ t.regs = s.regs ∧ t.cox = s.cox
      ∧ s.sameMemory t ∧ s.sameJobs t
      ∧ (s.cox.fwSlot = 0 → t.nv.fw1 = some { version := Config.fwVersion image, image := image, sig := sig }
          ∧ t.nv.fw0 = s.nv.fw0)
      ∧ (s.cox.fwSlot ≠ 0 → t.nv.fw0 = some { version := Config.fwVersion image, image := image, sig := sig }
          ∧ t.nv.fw1 = s.nv.fw1))

/-- LOGBOOK_RECORD enters the oldest trigger with the next number, or counts a repeat on the newest record. A flush
gives every unflushed record, and the newest 1,008 journal entries, to a sector of at most 25 records; the background
flush starts sectors at the threshold. SECTOR_PROGRAM that verifies puts the sector in its area and marks its records
flushed; a failing one is retried once, then goes to a spare, and with none left the areas become read-only. A window's
first word latches the record or entry that the cursor names; the other words read the latch. In a recovery, on its
client's turn, the oldest unmirrored journal entry is written to its place in the ring. -/
def Obligations.LogbookRecordsFlushAndWindows : Prop :=
  ∀ (s : State),
    (∀ x rest, s.cox.triggers = x :: rest → ∃ t, exec .logbookRecord s = .next t ∧ t.cox.triggers = rest ∧ s.sameMemory t
      ∧ s.sameJobs t ∧ t.nv = s.nv
      ∧ (s.isRepeat x.cls x.body = false → t.cox.logSeq = s.cox.logSeq + 1 ∧ ∃ r, t.cox.log.getLast? = some r
          ∧ r.seq = s.cox.logSeq ∧ r.cls = x.cls ∧ r.body = fit 64 x.body ∧ r.first = s.ns ∧ r.flushed = false)
      ∧ (∀ r, s.isRepeat x.cls x.body = true → s.cox.log.getLast? = some r → t.cox.logSeq = s.cox.logSeq
          ∧ t.cox.log.length = s.cox.log.length ∧ ∃ r', t.cox.log.getLast? = some r' ∧ r'.seq = r.seq ∧ r'.rep = r.rep + 1)) ∧
    (s.nv.ro = false →
      (s.cox.flush = true → ∃ t, exec .logbookFlush s = .next t ∧ t.cox.flush = false ∧ s.sameMemory t ∧ s.sameJobs t
        ∧ (∀ r ∈ s.unflushed, ∃ p ∈ t.cox.programs, r ∈ p.sector.recs ∧ p.sector.recs.length ≤ 25)
        ∧ (∀ j ∈ s.lastJournal 1008, ∃ p ∈ t.cox.programs, j ∈ p.sector.entries ∧ p.sector.entries.length ≤ 63)) ∧
      (s.cox.flush = false → s.cox.threshold ≤ s.unflushed.length → s.unflushed ≠ [] →
        ∃ t, exec .logbookFlush s = .next t ∧ s.cox.programs.length < t.cox.programs.length ∧ t.cox.log = s.cox.log
          ∧ s.sameMemory t ∧ s.sameJobs t)) ∧
    (∀ p rest, s.cox.programs = p :: rest → s.nv.ro = false →
      (∃ t, exec (.sectorProgram true) s = .next t ∧ t.cox.programs = rest ∧ s.sameMemory t ∧ s.sameJobs t
        ∧ t.nv.sectors = addSector { p.sector with recs := p.sector.recs.map fun r => { r with flushed := true } } s.nv.sectors
        ∧ ∀ r ∈ t.cox.log, (∃ x ∈ p.sector.recs, x.seq = r.seq) → r.flushed = true) ∧
      (∃ t, exec (.sectorProgram false) s = .next t ∧ t.nv.sectors = s.nv.sectors ∧ s.sameMemory t ∧ s.sameJobs t
        ∧ (p.attempts = 0 → t.cox.programs = { p with attempts := 1 } :: rest ∧ t.nv.retries = s.nv.retries + 1)
        ∧ (p.attempts ≠ 0 → t.nv.retired = s.nv.retired + 1 ∧
            (s.nv.spares ≠ 0 → t.cox.programs = { p with attempts := 0 } :: rest ∧ t.nv.spares = s.nv.spares - 1) ∧
            (s.nv.spares = 0 → t.cox.programs = [] ∧ t.nv.ro = true)))) ∧
    ((∀ r, s.findLog (s.reg R.LOG_CURSOR []).toNat = some r → ∃ t, exec (.logWinRead 0) s = .next t ∧ t.cox.logWin = r.bytes
        ∧ t.hostData = natLe 4 (wordOf r.bytes 0).toNat ∧ t.hostEP = false ∧ s.sameMemory t ∧ s.sameJobs t) ∧
      (∀ w, 0 < w → w < 40 → ∃ t, exec (.logWinRead w) s = .next t ∧ t.hostData = natLe 4 (wordOf s.cox.logWin w).toNat
        ∧ t.cox = s.cox ∧ s.sameMemory t ∧ s.sameJobs t
        ∧ (w = 39 → s.isSet F.LOG_CTL_auto_inc [] = true → t.reg R.LOG_CURSOR [] = s.reg R.LOG_CURSOR [] + 1)
        ∧ (w ≠ 39 → t.reg R.LOG_CURSOR [] = s.reg R.LOG_CURSOR []))) ∧
    ((∀ j, s.cox.jnl.find? (fun j => decide (j.num = s.pair R.JNL_CURSOR_LO R.JNL_CURSOR_HI [])) = some j →
        ∃ t, exec (.jnlWinRead 0) s = .next t ∧ t.cox.jnlWin = j.bytes ∧ t.hostData = natLe 4 (wordOf j.bytes 0).toNat
          ∧ s.sameMemory t ∧ s.sameJobs t) ∧
      (∀ w, 0 < w → w < 16 → ∃ t, exec (.jnlWinRead w) s = .next t ∧ t.hostData = natLe 4 (wordOf s.cox.jnlWin w).toNat
        ∧ t.cox = s.cox ∧ s.sameMemory t ∧ s.sameJobs t)) ∧
    (∀ j, s.cox.jnl.find? (fun j => decide (j.num = s.cox.mirrored)) = some j →
      let a := s.jnlRing + j.num % 65536 * 64
      s.turn (stackOf a) .log = true →
      (∀ i, i < 64 → s.isState (a + i) = false) →
      ∃ t, exec .journalMirror s = .next t ∧ t.cox.mirrored = j.num + 1 ∧ t.cox.jnl = s.cox.jnl ∧ s.sameJobs t
        ∧ (∀ i, i < 64 → t.hbmAt (a + i) = j.bytes.getD i 0)
        ∧ ∀ x, ¬(a ≤ x ∧ x < a + 64) → t.hbmAt x = s.hbmAt x)

/-- A read of a low register returns its value and latches what a read of its partners gave then, for host and
management apart. In a recovery, on the client's turn, the next record of the sampled counter set is written to its
place in the ring slot, and with the last one the tail advances; PMC_CTL.clear and a new selection wait for the
boundary. A crew's counter window is served from the live counters. On the trace client's turn a staged record of the
next core goes to the tail of its crew's ring, or with no room is dropped and counted in TRC_LOST. -/
def Obligations.CountersTraceAndLatchedReads : Prop :=
  ∀ (s : State),
    (∀ off, s.strayAt off = false →
      (∃ t, exec (.pairLoRead .host off) s = .next t ∧ t.hostData = natLe 4 (s.readReg off).toNat ∧ s.sameMemory t ∧ s.sameJobs t
        ∧ t.regs = s.regs ∧ t.cox = s.cox ∧ ∀ o ∈ latchedBy off, Map.find o t.conv.latch = some (s.readReg o)) ∧
      (∃ t, exec (.pairLoRead .mgmt off) s = .next t ∧ t.conv = s.conv ∧ s.sameMemory t ∧ s.sameJobs t ∧ t.regs = s.regs
        ∧ ∀ o ∈ latchedBy off, Map.find o t.cox.mgmtLatch = some (s.readReg o))) ∧
    (∀ b, s.pmc.set = some b → s.turn (stackOf s.pmcAddr) .pmc = true → b.length = 19008 → s.pmc.done ≤ 146 →
      let a := s.pmcAddr
      let from_ := (pmcRecord s.pmc.done).1
      let len := (pmcRecord s.pmc.done).2
      let set := if s.pmc.done = 0 then b.take 24 ++ natLe 2 s.pmc.skipped ++ b.drop 26 else b
      (∀ i, i < len → s.isState (a + i) = false) →
      ∃ t, exec .pmcDumpWrite s = .next t ∧ s.sameJobs t
        ∧ (∀ i, i < len → t.hbmAt (a + i) = set.getD (from_ + i) 0)
        ∧ (∀ x, ¬(a ≤ x ∧ x < a + len) → t.hbmAt x = s.hbmAt x)
        ∧ (s.pmc.done = 0 → t.pmc.skipped = 0)
        ∧ (s.pmc.done < 146 → t.pmc.done = s.pmc.done + 1 ∧ t.pmc.set = some b ∧ t.reg R.PMC_TAIL [] = s.reg R.PMC_TAIL [])
        ∧ (s.pmc.done = 146 → t.pmc.done = 0 ∧ t.pmc.set = none ∧ t.pmc.seq = s.pmc.seq + 1
            ∧ t.reg R.PMC_TAIL [] = s.reg R.PMC_TAIL [] + 1)) ∧
    (∀ v : BitVec 32, s.strayAt R.PMC_CTL.base = false → s.writeHeld R.PMC_CTL.base = false → bits v.toNat 30 30 = 1 →
      ∃ t, exec (.pmcClear v) s = .next t ∧ t.pmc.clearNext = true ∧ s.sameMemory t ∧ s.sameJobs t
        ∧ ∀ a, a ≠ R.PCI_BYTES_RX_LO.addr [] → Map.getD 0 t.pmc.counts a = Map.getD 0 s.pmc.counts a) ∧
    (∀ (off : Nat) (v : BitVec 32), isSel off = true → s.strayAt off = false → s.writeHeld off = false →
      ∃ t, exec (.pmcSelWrite off v) s = .next t ∧ Map.find off t.pmc.selNext = some v ∧ t.regs = s.regs
        ∧ s.sameMemory t ∧ s.sameJobs t) ∧
    (∀ n off len, s.isSet F.PMC_CREW_permit [n] = true → s.works n = true → off + len ≤ 32768 →
      ∃ t, exec (.counterWindowRead n off len) s = .next t ∧ t.hostData = s.windowBytes n off len ∧ t.hostEP = false
        ∧ t.regs = s.regs ∧ s.sameMemory t ∧ s.sameJobs t) ∧
    (∀ n c r rest, n < 16 → (s.turn (stackOf (s.traceAddr n)) .trace || (s.hbmServed && s.traceFull n)) = true →
      s.isSet F.TRC_CTL_enable [n] = true → s.traceCore n = some c →
      (s.core c).trc = r :: rest → Map.find c s.pmc.trcRun = none →
      let a := s.fld F.TRC_CTL_base [n] * 2 ^ 20 + (s.reg R.TRC_TAIL [n]).toNat % s.traceSize n * 32
      (∀ i, i < 32 → s.isState (a + i) = false) →
      ∃ t, exec (.traceDrain n) s = .next t ∧ (t.core c).trc = rest ∧ (∀ x, x ≠ c → t.core x = s.core x)
        ∧ t.tallies = s.tallies ∧ t.crews = s.crews
        ∧ (s.traceFull n = false → t.reg R.TRC_TAIL [n] = s.reg R.TRC_TAIL [n] + 1
            ∧ (∀ i, i < 32 → t.hbmAt (a + i) = r.bytes.getD i 0) ∧ ∀ x, ¬(a ≤ x ∧ x < a + 32) → t.hbmAt x = s.hbmAt x)
        ∧ (s.traceFull n = true → s.sameMemory t ∧ t.reg R.TRC_TAIL [n] = s.reg R.TRC_TAIL [n]
            ∧ (t.reg R.TRC_LOST [n]).toNat = Nat.min ((s.reg R.TRC_LOST [n]).toNat + 1) 0xFFFFFFFF))

/-- A write of a register that has no row or rule of its own gives its RW fields the written value, keeps RO and live
fields, clears the W1C bits written 1 outside the NF6 personality (GLB_CFGPAR.rwb_hist, which the same write may set,
aside), and changes RWB fields only in test mode: elsewhere a write that would change one sets rwb_hist. A bad access
sets acc_hist; a read returns ones and a write changes no other register. A write of PCI_BAR4 sets its base. Under NF6 a
read of GLB_NF6_SEQ returns it and latches the selected register; GLB_NF6_CLR clears the latched events only under the
present sequence number. -/
def Obligations.RegisterWritesFollowAccessCodes : Prop :=
  ∀ (s : State),
    (∀ (off : Nat) (v : BitVec 32) (r : RegDef) (ix : List Nat), regAt off = some (r, ix) → s.strayAt off = false →
      s.writeHeld off = false → ¬(0x408 ≤ off ∧ off ≤ 0x418) →
      (∀ x ∈ ownWrites ++ coreWrites ++ [R.GLB_NF6_SEL, R.TIM_SET_LO, R.LOG_CURSOR, R.LOG_CTL, R.JNL_CURSOR_LO,
        R.JNL_CURSOR_HI, R.JNL_STAT], x.base ≠ r.base) →
      let rw := r.maskOf fun a => decide (a = .rw)
      let rwb := r.maskOf fun a => decide (a = .rwb)
      let w1c := r.maskOf fun a => decide (a = .w1c)
      let note : BitVec 32 := if r.base = R.GLB_CFGPAR.base then putBits 0 29 29 1 else 0
      ∃ t, exec (.registerWrite off v) s = .next t ∧ s.sameMemory t ∧ s.sameJobs t ∧ t.crews = s.crews ∧ t.cox = s.cox
        ∧ s.regsBut [r.addr ix, R.GLB_CFGPAR.base] t
        ∧ t.reg r ix &&& rw = v &&& rw
        ∧ (s.nf6 = false → t.reg r ix &&& w1c &&& ~~~note = s.reg r ix &&& w1c &&& ~~~v &&& ~~~note)
        ∧ t.reg r ix &&& ~~~(rw ||| rwb ||| w1c) = s.reg r ix &&& ~~~(rw ||| rwb ||| w1c)
        ∧ (s.pow.testMode = true → t.reg r ix &&& rwb = v &&& rwb)
        ∧ (s.pow.testMode = false → t.reg r ix &&& rwb = s.reg r ix &&& rwb
            ∧ ((v ^^^ s.reg r ix) &&& rwb ≠ 0 → t.isSet F.GLB_CFGPAR_rwb_hist [] = true))) ∧
    (∀ (write : Bool) (off bytes : Nat), ¬((bytes = 4 ∧ off % 4 = 0) ∨ (bytes = 8 ∧ off % 8 = 0)) →
      ∃ t, exec (.bar0BadAccess write off bytes) s = .next t ∧ t.isSet F.GLB_CFGPAR_acc_hist [] = true ∧ s.sameMemory t
        ∧ s.sameJobs t ∧ s.regsBut [R.GLB_CFGPAR.base] t
        ∧ (write = false → t.hostData = List.replicate bytes 0xFF) ∧ (write = true → t.hostData = s.hostData)) ∧
    (∀ v : BitVec 32, s.strayAt R.PCI_BAR4.base = false → s.writeHeld R.PCI_BAR4.base = false →
      ∃ t, exec (.pciBar4Write v) s = .next t ∧ t.fld F.PCI_BAR4_base_gib [] = bits v.toNat 8 0 ∧ s.sameMemory t
        ∧ s.sameJobs t ∧ s.regsBut [R.PCI_BAR4.base, R.GLB_CFGPAR.base] t) ∧
    ((s.nf6 = true → ∃ t, exec .glbNf6SeqRead s = .next t
        ∧ t.reg R.GLB_NF6_DATA [] = s.readReg (4 * s.fld F.GLB_NF6_SEL_word [])
        ∧ s.regsBut [R.GLB_NF6_DATA.base] t ∧ s.sameMemory t ∧ s.sameJobs t) ∧
      (s.nf6 = false → ∃ t, exec .glbNf6SeqRead s = .next t ∧ t.hostData = natLe 4 0 ∧ t.regs = s.regs)) ∧
    (∀ (v : BitVec 32) (r : RegDef) (ix : List Nat), regAt (4 * bits v.toNat 23 0) = some (r, ix) → s.nf6 = true →
      isStatus r = true → s.special r ix = none →
      let off := 4 * bits v.toNat 23 0
      let seq := Map.getD 0 s.conv.nf6Seq off
      ∃ t, exec (.glbNf6Clr v) s = .next t ∧ s.sameMemory t ∧ s.sameJobs t
        ∧ (seq ≠ BitVec.ofNat 8 (bits v.toNat 31 24) → t.conv = s.conv ∧ t.regs = s.regs)
        ∧ (seq = BitVec.ofNat 8 (bits v.toNat 31 24) → t.reg r ix = s.reg r ix &&& ~~~ r.statusMask .w1c
            ∧ Map.getD 0 t.conv.nf6Latch off = s.reg r ix &&& r.statusMask .rl))

/-- A scan that finds bad parity in a configuration register within reach makes it read as ones. A failure of a register
that has not failed already sets par_hist, names its word and starts its reload; each crew of its domain takes one
CFG-PARITY record of Domain severity, and is to stop; a second counted failure within 2^24 strokes is one record of
Package severity and stops every crew. When the reload is done the register has failed no more: its rig-set fields are
those of the rig in force and the fields that software writes are at their reset values. -/
def Obligations.ParityFailuresAreRecordedAndReloaded : Prop :=
  ∀ (s : State) (off : Nat) (r : RegDef) (ix : List Nat), regAt off = some (r, ix) →
    (isConfig r = true → s.unscanned off = false →
      (s.conv.badPar.elem off = false → ∃ t, exec (.parityScan off true) s = .next t ∧ t.readReg off = 0xFFFFFFFF
        ∧ t.regs = s.regs ∧ s.sameMemory t ∧ s.sameJobs t) ∧
      (∀ byRead : Bool, (s.conv.failed.any fun p => decide (p.1 = off)) = false →
        (byRead = true ∨ s.conv.badPar.elem off = true) → s.flt.resets = [] →
        let d := s.parityDom off (s.fld F.SEQ_QSEL_queue [])
        let second := match Map.find off s.conv.counted with | some w => decide (s.stk.num ≤ w + 2 ^ 24) | none => false
        ∃ t, exec (.parityFailure off byRead) s = .next t ∧ (t.conv.failed.any fun p => decide (p.1 = off)) = true
          ∧ t.isSet F.GLB_CFGPAR_par_hist [] = true ∧ t.isSet F.GLB_CFGPAR_reloading [] = true
          ∧ t.fld F.GLB_CFGPAR_last_word [] = off / 4 % 2 ^ 24 ∧ s.sameMemory t ∧ s.sameJobs t
          ∧ (second = true → s.records t 9 3 0x0903 ∧ s.allStop t)
          ∧ (second = false → Map.find off t.conv.counted = some s.stk.num
              ∧ ∀ n ∈ s.parityCrews d, (t.crew n).stop.isSome = true ∧ ∃ f ∈ t.flt.queue, f.cls = 9 ∧ f.sev = 2
                  ∧ f.event = (if byRead then 0x0902 else 0x0901) ∧ f.crew = some n ∧ f.addr = off)
          ∧ (∀ c, d = .core c → Dom.core c ∈ t.flt.resets))) ∧
    (∀ q, s.conv.failed.find? (fun p => decide (p.1 = off)) = some (off, q) → s.fld F.RIG_STAT_state [] ≠ 4 →
      s.conv.heldWrites = [] → ¬(0x404 ≤ off ∧ off ≤ 0x414) → r.base ≠ R.GLB_CFGPAR.base →
      ∃ t, exec (.parityReloadDone off) s = .next t ∧ (t.conv.failed.any fun p => decide (p.1 = off)) = false
        ∧ s.regsBut [r.addr ix, R.GLB_CFGPAR.base] t ∧ s.sameMemory t ∧ s.sameJobs t
        ∧ (∀ g, s.rig.inForce = some g → t.reg r ix &&& rigMask r = (s.rigView g).reg r ix &&& rigMask r)
        ∧ t.reg r ix &&& (r.maskOf Acc.soft &&& ~~~ rigMask r) = r.reset &&& (r.maskOf Acc.soft &&& ~~~ rigMask r))

/-- A go with no load busy starts a load from the address in RIG_ADDR; where no rig can be loaded now it ends with
status 0x0D, and in test mode it does nothing. An abort ends a load with status 0x0C and no rig staged. Staging reads
the image and makes the checks: the first that fails ends the load with its status, and otherwise the rig is staged for
its boundary. With the shadow written the load of the rig in force ends. No job state or crew changes before the rig
takes effect. -/
def Obligations.RigLoadsStageCheckAndTakeShadow : Prop :=
  ∀ (s : State),
    (∀ v : BitVec 32, bits v.toNat 0 0 = 1 → bits v.toNat 4 4 = 0 → s.isSet F.RIG_CTL_busy [] = false →
      ∃ t, exec (.rigLoad v) s = .next t ∧ s.sameMemory t ∧ s.sameJobs t ∧ t.crews = s.crews
        ∧ (s.pow.testMode = true → t.rig = s.rig ∧ t.reg R.RIG_STAT [] = s.reg R.RIG_STAT [])
        ∧ (s.pow.testMode = false → s.rigUnavailable = true → t.fld F.RIG_STAT_status [] = 0xD ∧ t.rig.load = none
            ∧ t.isSet F.RIG_CTL_busy [] = false)
        ∧ (s.pow.testMode = false → s.rigUnavailable = false → t.isSet F.RIG_CTL_busy [] = true
            ∧ t.fld F.RIG_STAT_state [] = 1 ∧ ∃ l, t.rig.load = some l ∧ l.staged = false ∧ l.goStroke = s.stk.num
              ∧ l.addr = s.fld F.RIG_ADDR_LO_addr_lo [] * 64 + 2 ^ 32 * (s.reg R.RIG_ADDR_HI []).toNat
              ∧ l.inHbm = decide (bits v.toNat 2 2 = 1))) ∧
    (∀ v : BitVec 32, bits v.toNat 0 0 = 0 → bits v.toNat 4 4 = 1 → s.rig.load.isSome = true →
      ∃ t, exec (.rigAbort v) s = .next t ∧ t.rig.load = none ∧ t.rig.staged = none ∧ t.rig.inForce = s.rig.inForce
        ∧ t.fld F.RIG_STAT_status [] = 0xC ∧ t.isSet F.RIG_CTL_busy [] = false ∧ s.sameMemory t ∧ s.sameJobs t
        ∧ t.crews = s.crews) ∧
    (∀ t0 l, s.rig.load = some l → l.staged = false → (l.inHbm = true ∨ s.pow.perst = false) →
      let r1 := (s.advance t0).rigBytes l 64
      let r2 := r1.2.rigBytes l (field (plain r1.1) 8 4)
      let g := rigOf (plain r2.1)
      let fail := if anyPoison r2.1 then some { status := 2 } else r2.2.rigCheck l g
      ∃ t, exec (.rigStaged t0) s = .next t ∧ s.sameJobs t ∧ t.crews = s.crews ∧ (∀ a, t.hbmAt a = s.hbmAt a)
        ∧ (∀ f, fail = some f → t.rig.load = none ∧ t.rig.staged = none ∧ t.fld F.RIG_STAT_status [] = f.status % 32
            ∧ t.isSet F.RIG_CTL_busy [] = false)
        ∧ (fail = none → t.rig.staged = some g ∧ t.rig.effect.isSome = true ∧ t.fld F.RIG_STAT_state [] = 2)) ∧
    (∀ g, s.rig.inForce = some g → s.fld F.RIG_STAT_state [] = 4 →
      ∃ t, exec .rigShadowed s = .next t ∧ t.nv.shadow = some g.bytes ∧ t.nv.shadowDone = true
        ∧ t.fld F.RIG_STAT_state [] = 3 ∧ t.isSet F.RIG_CTL_busy [] = false ∧ s.sameMemory t ∧ s.sameJobs t
        ∧ t.crews = s.crews)

/-- PWROK_AON's rise samples the slot, starts the cold reset's power-up at step 1, enters test mode only with TEST_EN
and the permit, and gives slot 0 the tray role. Each further step that succeeds makes the next one due: step 4 presents
the claim of the next epoch, steps 5 to 7 enable the rails. While the warning is asserted nothing moves. Its fall loses
every register and HBM, and keeps the NV store, whose sectors in programming are torn, and the host's memory.
PCI_PERST_N stops and resumes host memory only. -/
def Obligations.PowerUpProceedsAndPowerIsLost : Prop :=
  ∀ (s : State),
    (∀ (slot : BitVec 2) (en : Bool), s.pow.step = 0 →
      ∃ t, exec (.pwrokAonRise slot en) s = .next t ∧ t.pow.step = 1 ∧ t.pins.slot = slot
        ∧ t.flt.resetting = some .cold ∧ t.pow.testMode = (en && s.nv.debugPermit) ∧ t.trayCtl = decide (slot = 0)
        ∧ s.sameMemory t ∧ s.sameJobs t ∧ t.nv = s.nv) ∧
    (∀ t0 bad, s.inReset = true → s.pow.stuck = false → s.pow.tripped = false → 1 ≤ s.pow.step → s.pow.step ≤ 9 →
      (s.pow.testMode = true → s.pow.step ≤ 7) → (s.pow.step = 9 → s.timeReady = true) →
      (s.pow.step = 3 → s.fld F.COX_STAT_state [] = 0) →
      (s.pow.warn.isSome = true → exec (.powerUpStep t0 true bad) s = .next (s.advance t0)) ∧
      (s.pow.warn = none →
        ∃ t, exec (.powerUpStep t0 true bad) s = .next t ∧ t.pow.step = s.pow.step + 1 ∧ s.sameMemory t
          ∧ t.flt.resetting = s.flt.resetting
          ∧ (s.pow.step = 3 → s.nv.epoch + 1 ≤ 0x0FFFFFFE → t.nv.epoch = s.nv.epoch + 1
              ∧ t.reg R.COX_CLAIM [] = s.claimOf s.cox.core (s.nv.epoch + 1) ∧ t.cox.presented = true)
          ∧ (s.pow.step = 4 → t.pins.enCmp = true ∧ t.pins.enIod = true) ∧ (s.pow.step = 5 → t.pins.enHbm = true)
          ∧ (s.pow.step = 6 → t.pins.enArr = true))) ∧
    (∃ t, exec .pwrokAonFall s = .next t ∧ t.pow.step = 0 ∧ t.regs = [] ∧ t.mem = [] ∧ t.crews = [] ∧ t.queues = []
        ∧ t.rig = {} ∧ (∀ a, t.hostAt a = s.hostAt a) ∧ t.nv.epoch = s.nv.epoch ∧ t.nv.shadow = s.nv.shadow
        ∧ t.nv.sectors = s.nv.sectors ++ s.cox.programs.map fun p => { p.sector with torn := true }) ∧
    (∃ t, exec .pciPerstN s = .next t ∧ t.pow = { s.pow with perst := true } ∧ t.regs = s.regs ∧ s.sameMemory t ∧ s.sameJobs t
        ∧ t.crews = s.crews) ∧
    (∃ t, exec .pciPerstNRelease s = .next t ∧ t.pow.perst = false ∧ t.tallies = s.tallies ∧ t.cores = s.cores
        ∧ (s.isSet F.GLB_FLT_CTL_enable [] = true → s.isSet F.GLB_FLT_CTL_in_hbm [] = false → t.flt.ringWait = []))

/-- With no rig and no test running, a write of LNK_LOOP with a testing mode and go starts the test of the link in that
mode, which trains; with a rig in force or a test running it is refused. A test but the echo passes with no error in
mode 1, else with at most 2,097,152 on each lane, and its lane counts show. The mode 0 ends the test, and the link
trains again to rejoin. Other links are as before. -/
def Obligations.LinkLoopTestsRunAndEnd : Prop :=
  ∀ (s : State) (l : Nat), l < 96 →
    (∀ v : BitVec 32, s.strayAt (R.LNK_LOOP.addr (lnk48 l)) = false →
      (∀ c m, (c, m) ∈ [(Instr.loopNearDigital l v, 1), (.loopNearAnalogue l v, 2), (.loopEcho l v, 3), (.loopLineCheck l v, 4)] →
        (s.rig.inForce = none → s.isSet F.LNK_LOOP_busy (lnk48 l) = false → bits v.toNat 0 0 = 1 →
          ∃ t, exec c s = .next t ∧ t.fld F.LNK_LOOP_mode (lnk48 l) = m ∧ t.isSet F.LNK_LOOP_busy (lnk48 l) = true
            ∧ t.fld F.LNK_STAT_state (lnk48 l) = 1 ∧ s.regsBut [R.LNK_LOOP.addr (lnk48 l), R.LNK_STAT.addr (lnk48 l), R.GLB_CFGPAR.base] t
            ∧ s.sameMemory t ∧ s.sameJobs t ∧ t.links = s.links) ∧
        (s.rig.inForce.isSome = true ∨ s.isSet F.LNK_LOOP_busy (lnk48 l) = true →
          ∃ t, exec c s = .next t ∧ t.fld F.LNK_LOOP_result (lnk48 l) = 3
            ∧ t.fld F.LNK_LOOP_mode (lnk48 l) = s.fld F.LNK_LOOP_mode (lnk48 l)
            ∧ s.regsBut [R.LNK_LOOP.addr (lnk48 l), R.GLB_CFGPAR.base] t ∧ s.sameMemory t ∧ s.sameJobs t ∧ t.links = s.links)) ∧
      (s.fld F.LNK_LOOP_mode (lnk48 l) ≠ 0 →
        ∃ t, exec (.linkLoopOff l v) s = .next t ∧ t.fld F.LNK_LOOP_mode (lnk48 l) = 0
          ∧ t.isSet F.LNK_LOOP_busy (lnk48 l) = false ∧ t.fld F.LNK_STAT_state (lnk48 l) = 1 ∧ (t.link l).rejoin = true
          ∧ (∀ k, k ≠ l → t.link k = s.link k) ∧ s.sameMemory t ∧ s.sameJobs t)) ∧
    (∀ e0 e1, s.isSet F.LNK_LOOP_busy (lnk48 l) = true → s.fld F.LNK_LOOP_mode (lnk48 l) ≠ 3 →
      let most := if s.fld F.LNK_LOOP_mode (lnk48 l) = 1 then 0 else 2097152
      ∃ t, exec (.linkLoopDone l e0 e1) s = .next t ∧ t.isSet F.LNK_LOOP_busy (lnk48 l) = false
        ∧ t.fld F.LNK_LOOP_result (lnk48 l) = (if e0 ≤ most ∧ e1 ≤ most then 1 else 2)
        ∧ t.fld F.LNK_LOOP_ERR_lane0 (lnk48 l) = Nat.min ((e0 + 63) / 64) 0xFFFF
        ∧ t.fld F.LNK_LOOP_ERR_lane1 (lnk48 l) = Nat.min ((e1 + 63) / 64) 0xFFFF
        ∧ s.sameMemory t ∧ s.sameJobs t ∧ t.links = s.links)

/-- With a command at the front of its queue, a step of the machine is that command's effect on the state with the rest
of the queue. With no command waiting, the step is one tick of the raw counter once power-up has begun, and nothing
before: that an idle step ticks is the model's own choice (assumption log 1). -/
def Obligations.StepRunsTheFrontCommand : Prop :=
  (∀ (c : Instr) (s : State), step { s with pending := c :: s.pending } = exec c s) ∧
    (∀ s : State, s.pending = [] → step s = .next (if s.pow.step = 0 then s else { s with raw := s.raw + 1 }))

/-- After reset the queue of commands, the crews, queues, tallies, links and rig are empty, the power-up has not begun,
both memories are in their canonical form, and every instance of every register stands at the reset value of its field
map; the default stroke, the fault ring's size and the CE stride are those of their maps. That an unlisted byte of
memory reads 0 is the model's own choice (assumption log 4). -/
def Obligations.ResetHoldsTheSpecValues : Prop :=
  State.reset.pending = [] ∧ State.reset.crews = [] ∧ State.reset.queues = [] ∧ State.reset.tallies = []
    ∧ State.reset.links = [] ∧ State.reset.rig = {} ∧ State.reset.pow.step = 0 ∧ State.reset.nextAccept = 0
    ∧ State.reset.raw = 0 ∧ Memory.wf State.reset.mem = true ∧ Memory.wf State.reset.hostMem = true
    ∧ (∀ (r : RegDef) (ix : List Nat), State.reset.reg r ix = r.reset)
    ∧ State.reset.period = 4096 ∧ State.reset.recovery = 256 ∧ State.reset.fld F.GLB_FLT_CTL_log2_entries [] = 8
    ∧ State.reset.fld F.GLB_FLT_CTL_ce_stride [] = 10 ∧ State.reset.isSet F.GLB_FLT_CTL_enable [] = false
    ∧ ∀ a, State.reset.hbmAt a = 0 ∧ State.reset.hostAt a = 0

/-- From every state whose HBM and host memory list addresses that strictly rise and no byte equal to what an unlisted
address reads as, whatever command is in front, the state after a step has both memories in that form again. So equal
memories stay equal data. -/
def Obligations.EveryStepKeepsTheMemoriesCanonical : Prop :=
  ∀ s t : State, Memory.wf s.mem = true → Memory.wf s.hostMem = true → step s = .next t →
    Memory.wf t.mem = true ∧ Memory.wf t.hostMem = true

/-- No command but CLEAR_REPLACE, whatever the state, takes the replacement flag away once it is set: every reset, the
loss of power and every other service message leave it. While it is set, the checks of a rig that defines a crew fail.
CLEAR_REPLACE with the next counter and a signature that verifies, a core being active, clears it. -/
def Obligations.OnlyClearReplaceClearsTheReplacementFlag : Prop :=
  (∀ (c : Instr) (s t : State), (∀ m, c ≠ .clearReplace m) → s.nv.replace = true → exec c s = .next t →
      t.nv.replace = true) ∧
    (∀ (s : State) (l : RigLoad) (g : RigImg) (n : Nat), s.nv.replace = true → n < 16 → g.defines n = true →
      ∃ f, s.rigCheck l g = some f) ∧
    (∀ (s : State) (m : ServiceMsg), s.coxActive = true → m.counter.toNat = s.nv.serviceCounter + 1 →
      ∃ t, exec (.clearReplace m) s = .next t
        ∧ (Config.ecdsaVerify s.nv.ownerKey (Config.sha384 (s.serviceBody 1 m)) m.sig = true → t.nv.replace = false))
end

