-- ==== Sys2Proof/Laws/Bits.lean ====
section
/-!
SUPPORT. Association lists: a read after a write, and the canonical form that every write keeps.
-/
namespace Sys2Proof.Machine

variable {α : Type}

@[simp] theorem Map.find_insert_same (k : Nat) (v : α) (m : List (Nat × α)) : Map.find k (Map.insert k v m) = some v := by
  induction m with
  | nil => simp [Map.insert, Map.find]
  | cons p r ih =>
    obtain ⟨j, x⟩ := p
    simp only [Map.insert]
    split
    · simp [Map.find]
    · split
      · simp [Map.find]
      · next h1 h2 => simp [Map.find, h2, ih]

theorem Map.find_insert_ne {j k : Nat} (h : j ≠ k) (v : α) (m : List (Nat × α)) :
    Map.find j (Map.insert k v m) = Map.find j m := by
  induction m with
  | nil => simp [Map.insert, Map.find, Ne.symm h]
  | cons p r ih =>
    obtain ⟨i, x⟩ := p
    simp only [Map.insert]
    split
    · simp [Map.find, Ne.symm h]
    · split
      · next h2 => subst h2; simp [Map.find, Ne.symm h]
      · simp only [Map.find, ih]

@[simp] theorem Map.find_erase_same (k : Nat) (m : List (Nat × α)) : Map.find k (Map.erase k m) = none := by
  induction m with
  | nil => rfl
  | cons p r ih =>
    obtain ⟨j, x⟩ := p
    simp only [Map.erase]
    split
    · exact ih
    · next h => simp [Map.find, h, ih]

theorem Map.find_erase_ne {j k : Nat} (h : j ≠ k) (m : List (Nat × α)) : Map.find j (Map.erase k m) = Map.find j m := by
  induction m with
  | nil => rfl
  | cons p r ih =>
    obtain ⟨i, x⟩ := p
    simp only [Map.erase]
    split
    · next h2 => subst h2; simp [Map.find, Ne.symm h, ih]
    · simp only [Map.find, ih]

@[simp] theorem Map.getD_setD_same [DecidableEq α] (d : α) (m : List (Nat × α)) (k : Nat) (v : α) :
    Map.getD d (Map.setD d m k v) k = v := by
  unfold Map.getD Map.setD
  split
  · next h => simp [h]
  · simp

theorem Map.getD_setD_ne [DecidableEq α] (d e : α) (m : List (Nat × α)) {j k : Nat} (h : j ≠ k) (v : α) :
    Map.getD e (Map.setD d m k v) j = Map.getD e m j := by
  unfold Map.getD Map.setD
  split
  · rw [Map.find_erase_ne h]
  · rw [Map.find_insert_ne h]

/-! ### The canonical form -/

theorem Map.wfFrom_weaken [DecidableEq α] {d : α} {a b : Nat} (h : a ≤ b) {m : List (Nat × α)}
    (hm : Map.wfFrom d (some b) m = true) : Map.wfFrom d (some a) m = true := by
  cases m with
  | nil => rfl
  | cons p r =>
    obtain ⟨k, v⟩ := p
    simp only [Map.wfFrom, Bool.and_eq_true, decide_eq_true_eq] at hm ⊢
    exact ⟨⟨by omega, hm.1.2⟩, hm.2⟩

theorem Map.wfFrom_none [DecidableEq α] {d : α} {b : Nat} {m : List (Nat × α)}
    (hm : Map.wfFrom d (some b) m = true) : Map.wfFrom d none m = true := by
  cases m with
  | nil => rfl
  | cons p r =>
    obtain ⟨k, v⟩ := p
    simp only [Map.wfFrom, Bool.and_eq_true, decide_eq_true_eq] at hm ⊢
    exact ⟨⟨trivial, hm.1.2⟩, hm.2⟩

theorem Map.wfFrom_erase_some [DecidableEq α] {d : α} (k : Nat) :
    ∀ {m : List (Nat × α)} {lo : Nat}, Map.wfFrom d (some lo) m = true → Map.wfFrom d (some lo) (Map.erase k m) = true := by
  intro m
  induction m with
  | nil => intro lo _; rfl
  | cons p r ih =>
    obtain ⟨j, x⟩ := p
    intro lo h
    simp only [Map.wfFrom, Bool.and_eq_true, decide_eq_true_eq] at h
    simp only [Map.erase]
    split
    · exact Map.wfFrom_weaken (Nat.le_of_lt h.1.1) (ih h.2)
    · simp only [Map.wfFrom, Bool.and_eq_true, decide_eq_true_eq]
      exact ⟨h.1, ih h.2⟩

theorem Map.wfFrom_insert_some [DecidableEq α] {d : α} {k : Nat} {v : α} (hv : v ≠ d) :
    ∀ {m : List (Nat × α)} {lo : Nat}, lo < k → Map.wfFrom d (some lo) m = true →
      Map.wfFrom d (some lo) (Map.insert k v m) = true := by
  intro m
  induction m with
  | nil => intro lo hk _; simp [Map.insert, Map.wfFrom, hk, hv]
  | cons p r ih =>
    obtain ⟨j, x⟩ := p
    intro lo hk h
    have h' := h
    simp only [Map.wfFrom, Bool.and_eq_true, decide_eq_true_eq] at h
    simp only [Map.insert]
    split
    · next hkj =>
      simp only [Map.wfFrom, Bool.and_eq_true, decide_eq_true_eq]
      exact ⟨⟨hk, by simpa using hv⟩, ⟨hkj, h.1.2⟩, h.2⟩
    · split
      · next hj =>
        subst hj
        simp only [Map.wfFrom, Bool.and_eq_true, decide_eq_true_eq]
        exact ⟨⟨hk, by simpa using hv⟩, h.2⟩
      · next h1 h2 =>
        simp only [Map.wfFrom, Bool.and_eq_true, decide_eq_true_eq]
        exact ⟨h.1, ih (by omega) h.2⟩

/-- Giving a key a value keeps the canonical form. -/
theorem Map.wf_setD [DecidableEq α] {d : α} {m : List (Nat × α)} (h : Map.wf d m = true) (k : Nat) (v : α) :
    Map.wf d (Map.setD d m k v) = true := by
  unfold Map.wf at *
  cases m with
  | nil =>
    unfold Map.setD
    split
    · rfl
    · next hv => simp [Map.insert, Map.wfFrom, hv]
  | cons p r =>
    obtain ⟨j, x⟩ := p
    have hr : Map.wfFrom d (some j) r = true := by
      simp only [Map.wfFrom, Bool.and_eq_true] at h; exact h.2
    have hx : (!decide (x = d)) = true := by
      simp only [Map.wfFrom, Bool.and_eq_true] at h; exact h.1.2
    unfold Map.setD
    split
    · simp only [Map.erase]
      split
      · exact Map.wfFrom_none (Map.wfFrom_erase_some k hr)
      · simp only [Map.wfFrom, Bool.and_eq_true]
        exact ⟨⟨trivial, hx⟩, Map.wfFrom_erase_some k hr⟩
    · next hv =>
      simp only [Map.insert]
      split
      · next hk =>
        simp only [Map.wfFrom, Bool.and_eq_true, decide_eq_true_eq]
        exact ⟨⟨trivial, by simpa using hv⟩, ⟨hk, hx⟩, hr⟩
      · split
        · next hj =>
          subst hj
          simp only [Map.wfFrom, Bool.and_eq_true]
          exact ⟨⟨trivial, by simpa using hv⟩, hr⟩
        · simp only [Map.wfFrom, Bool.and_eq_true]
          exact ⟨⟨trivial, hx⟩, Map.wfFrom_insert_some hv (by omega) hr⟩

/-- Storing consecutive bytes keeps the canonical form. -/
theorem Map.wf_store {d : Byte} (b : Bytes) : ∀ {m : List (Nat × Byte)} (a : Nat), Map.wf d m = true →
    Map.wf d (Map.store d m a b) = true := by
  induction b with
  | nil => intro m a h; exact h
  | cons x r ih => intro m a h; exact ih (a + 1) (Map.wf_setD h a x)

/-- Storing bytes keeps a memory's canonical form. -/
theorem Memory.wf_store {m : List (Nat × Byte)} (h : Memory.wf m = true) (a : Nat) (b : Bytes) :
    Memory.wf (Map.store unlisted m a b) = true := Map.wf_store b a h

/-- A byte outside the stored run is unchanged. -/
theorem Map.getD_store_out {d : Byte} (b : Bytes) : ∀ (m : List (Nat × Byte)) (a x : Nat), (x < a ∨ a + b.length ≤ x) →
    Map.getD d (Map.store d m a b) x = Map.getD d m x := by
  induction b with
  | nil => intro m a x _; rfl
  | cons y r ih =>
    intro m a x h
    simp only [List.length_cons] at h
    rw [Map.store, ih _ _ _ (by omega), Map.getD_setD_ne _ _ _ (by omega)]

/-- A byte of the stored run reads as stored. -/
theorem Map.getD_store_in {d : Byte} (b : Bytes) : ∀ (m : List (Nat × Byte)) (a i : Nat) (h : i < b.length),
    Map.getD d (Map.store d m a b) (a + i) = b[i] := by
  induction b with
  | nil => intro m a i h; simp at h
  | cons y r ih =>
    intro m a i h
    cases i with
    | zero => rw [Map.store, Map.getD_store_out _ _ _ _ (by omega)]; simp
    | succ n =>
      have := ih (Map.setD d m a y) (a + 1) n (by simpa using h)
      rw [Map.store, show a + (n + 1) = a + 1 + n by omega, this]; rfl

end Sys2Proof.Machine
end

