-- ==== Sys2Proof/Laws/State.lean ====
section
/-!
SUPPORT. What each field of the state holds after one field was changed: the written field holds the value, every other
field stays.
-/
namespace Sys2Proof.Machine

variable (s : State)

@[simp] theorem State.setPending_pending (x : List Instr) : (s.setPending x).pending = x := rfl
@[simp] theorem State.setPending_regs (x : List Instr) : (s.setPending x).regs = s.regs := rfl
@[simp] theorem State.setPending_raw (x : List Instr) : (s.setPending x).raw = s.raw := rfl
@[simp] theorem State.setPending_mem (x : List Instr) : (s.setPending x).mem = s.mem := rfl
@[simp] theorem State.setPending_gran (x : List Instr) : (s.setPending x).gran = s.gran := rfl
@[simp] theorem State.setPending_wbq (x : List Instr) : (s.setPending x).wbq = s.wbq := rfl
@[simp] theorem State.setPending_atm (x : List Instr) : (s.setPending x).atm = s.atm := rfl
@[simp] theorem State.setPending_aord (x : List Instr) : (s.setPending x).aord = s.aord := rfl
@[simp] theorem State.setPending_hostMem (x : List Instr) : (s.setPending x).hostMem = s.hostMem := rfl
@[simp] theorem State.setPending_hostPoison (x : List Instr) : (s.setPending x).hostPoison = s.hostPoison := rfl
@[simp] theorem State.setPending_tim (x : List Instr) : (s.setPending x).tim = s.tim := rfl
@[simp] theorem State.setPending_stk (x : List Instr) : (s.setPending x).stk = s.stk := rfl
@[simp] theorem State.setPending_pow (x : List Instr) : (s.setPending x).pow = s.pow := rfl
@[simp] theorem State.setPending_pins (x : List Instr) : (s.setPending x).pins = s.pins := rfl
@[simp] theorem State.setPending_fuseMem (x : List Instr) : (s.setPending x).fuseMem = s.fuseMem := rfl
@[simp] theorem State.setPending_fuseSites (x : List Instr) : (s.setPending x).fuseSites = s.fuseSites := rfl
@[simp] theorem State.setPending_recess (x : List Instr) : (s.setPending x).recess = s.recess := rfl
@[simp] theorem State.setPending_queues (x : List Instr) : (s.setPending x).queues = s.queues := rfl
@[simp] theorem State.setPending_lastServed (x : List Instr) : (s.setPending x).lastServed = s.lastServed := rfl
@[simp] theorem State.setPending_taken (x : List Instr) : (s.setPending x).taken = s.taken := rfl
@[simp] theorem State.setPending_nextAccept (x : List Instr) : (s.setPending x).nextAccept = s.nextAccept := rfl
@[simp] theorem State.setPending_hostTal (x : List Instr) : (s.setPending x).hostTal = s.hostTal := rfl
@[simp] theorem State.setPending_tabSets (x : List Instr) : (s.setPending x).tabSets = s.tabSets := rfl
@[simp] theorem State.setPending_tallies (x : List Instr) : (s.setPending x).tallies = s.tallies := rfl
@[simp] theorem State.setPending_ctxs (x : List Instr) : (s.setPending x).ctxs = s.ctxs := rfl
@[simp] theorem State.setPending_crews (x : List Instr) : (s.setPending x).crews = s.crews := rfl
@[simp] theorem State.setPending_cores (x : List Instr) : (s.setPending x).cores = s.cores := rfl
@[simp] theorem State.setPending_links (x : List Instr) : (s.setPending x).links = s.links := rfl
@[simp] theorem State.setPending_flt (x : List Instr) : (s.setPending x).flt = s.flt := rfl
@[simp] theorem State.setPending_cox (x : List Instr) : (s.setPending x).cox = s.cox := rfl
@[simp] theorem State.setPending_nv (x : List Instr) : (s.setPending x).nv = s.nv := rfl
@[simp] theorem State.setPending_rig (x : List Instr) : (s.setPending x).rig = s.rig := rfl
@[simp] theorem State.setPending_conv (x : List Instr) : (s.setPending x).conv = s.conv := rfl
@[simp] theorem State.setPending_pmc (x : List Instr) : (s.setPending x).pmc = s.pmc := rfl
@[simp] theorem State.setPending_out (x : List Instr) : (s.setPending x).out = s.out := rfl
@[simp] theorem State.setPending_hostData (x : List Instr) : (s.setPending x).hostData = s.hostData := rfl
@[simp] theorem State.setPending_hostEP (x : List Instr) : (s.setPending x).hostEP = s.hostEP := rfl
@[simp] theorem State.setPending_free (x : List Instr) : (s.setPending x).free = s.free := rfl
@[simp] theorem State.setPending_images (x : List Instr) : (s.setPending x).images = s.images := rfl

@[simp] theorem State.setRegs_pending (x : List (Nat × Word)) : (s.setRegs x).pending = s.pending := rfl
@[simp] theorem State.setRegs_regs (x : List (Nat × Word)) : (s.setRegs x).regs = x := rfl
@[simp] theorem State.setRegs_raw (x : List (Nat × Word)) : (s.setRegs x).raw = s.raw := rfl
@[simp] theorem State.setRegs_mem (x : List (Nat × Word)) : (s.setRegs x).mem = s.mem := rfl
@[simp] theorem State.setRegs_gran (x : List (Nat × Word)) : (s.setRegs x).gran = s.gran := rfl
@[simp] theorem State.setRegs_wbq (x : List (Nat × Word)) : (s.setRegs x).wbq = s.wbq := rfl
@[simp] theorem State.setRegs_atm (x : List (Nat × Word)) : (s.setRegs x).atm = s.atm := rfl
@[simp] theorem State.setRegs_aord (x : List (Nat × Word)) : (s.setRegs x).aord = s.aord := rfl
@[simp] theorem State.setRegs_hostMem (x : List (Nat × Word)) : (s.setRegs x).hostMem = s.hostMem := rfl
@[simp] theorem State.setRegs_hostPoison (x : List (Nat × Word)) : (s.setRegs x).hostPoison = s.hostPoison := rfl
@[simp] theorem State.setRegs_tim (x : List (Nat × Word)) : (s.setRegs x).tim = s.tim := rfl
@[simp] theorem State.setRegs_stk (x : List (Nat × Word)) : (s.setRegs x).stk = s.stk := rfl
@[simp] theorem State.setRegs_pow (x : List (Nat × Word)) : (s.setRegs x).pow = s.pow := rfl
@[simp] theorem State.setRegs_pins (x : List (Nat × Word)) : (s.setRegs x).pins = s.pins := rfl
@[simp] theorem State.setRegs_fuseMem (x : List (Nat × Word)) : (s.setRegs x).fuseMem = s.fuseMem := rfl
@[simp] theorem State.setRegs_fuseSites (x : List (Nat × Word)) : (s.setRegs x).fuseSites = s.fuseSites := rfl
@[simp] theorem State.setRegs_recess (x : List (Nat × Word)) : (s.setRegs x).recess = s.recess := rfl
@[simp] theorem State.setRegs_queues (x : List (Nat × Word)) : (s.setRegs x).queues = s.queues := rfl
@[simp] theorem State.setRegs_lastServed (x : List (Nat × Word)) : (s.setRegs x).lastServed = s.lastServed := rfl
@[simp] theorem State.setRegs_taken (x : List (Nat × Word)) : (s.setRegs x).taken = s.taken := rfl
@[simp] theorem State.setRegs_nextAccept (x : List (Nat × Word)) : (s.setRegs x).nextAccept = s.nextAccept := rfl
@[simp] theorem State.setRegs_hostTal (x : List (Nat × Word)) : (s.setRegs x).hostTal = s.hostTal := rfl
@[simp] theorem State.setRegs_tabSets (x : List (Nat × Word)) : (s.setRegs x).tabSets = s.tabSets := rfl
@[simp] theorem State.setRegs_tallies (x : List (Nat × Word)) : (s.setRegs x).tallies = s.tallies := rfl
@[simp] theorem State.setRegs_ctxs (x : List (Nat × Word)) : (s.setRegs x).ctxs = s.ctxs := rfl
@[simp] theorem State.setRegs_crews (x : List (Nat × Word)) : (s.setRegs x).crews = s.crews := rfl
@[simp] theorem State.setRegs_cores (x : List (Nat × Word)) : (s.setRegs x).cores = s.cores := rfl
@[simp] theorem State.setRegs_links (x : List (Nat × Word)) : (s.setRegs x).links = s.links := rfl
@[simp] theorem State.setRegs_flt (x : List (Nat × Word)) : (s.setRegs x).flt = s.flt := rfl
@[simp] theorem State.setRegs_cox (x : List (Nat × Word)) : (s.setRegs x).cox = s.cox := rfl
@[simp] theorem State.setRegs_nv (x : List (Nat × Word)) : (s.setRegs x).nv = s.nv := rfl
@[simp] theorem State.setRegs_rig (x : List (Nat × Word)) : (s.setRegs x).rig = s.rig := rfl
@[simp] theorem State.setRegs_conv (x : List (Nat × Word)) : (s.setRegs x).conv = s.conv := rfl
@[simp] theorem State.setRegs_pmc (x : List (Nat × Word)) : (s.setRegs x).pmc = s.pmc := rfl
@[simp] theorem State.setRegs_out (x : List (Nat × Word)) : (s.setRegs x).out = s.out := rfl
@[simp] theorem State.setRegs_hostData (x : List (Nat × Word)) : (s.setRegs x).hostData = s.hostData := rfl
@[simp] theorem State.setRegs_hostEP (x : List (Nat × Word)) : (s.setRegs x).hostEP = s.hostEP := rfl
@[simp] theorem State.setRegs_free (x : List (Nat × Word)) : (s.setRegs x).free = s.free := rfl
@[simp] theorem State.setRegs_images (x : List (Nat × Word)) : (s.setRegs x).images = s.images := rfl

@[simp] theorem State.setRaw_pending (x : Nat) : (s.setRaw x).pending = s.pending := rfl
@[simp] theorem State.setRaw_regs (x : Nat) : (s.setRaw x).regs = s.regs := rfl
@[simp] theorem State.setRaw_raw (x : Nat) : (s.setRaw x).raw = x := rfl
@[simp] theorem State.setRaw_mem (x : Nat) : (s.setRaw x).mem = s.mem := rfl
@[simp] theorem State.setRaw_gran (x : Nat) : (s.setRaw x).gran = s.gran := rfl
@[simp] theorem State.setRaw_wbq (x : Nat) : (s.setRaw x).wbq = s.wbq := rfl
@[simp] theorem State.setRaw_atm (x : Nat) : (s.setRaw x).atm = s.atm := rfl
@[simp] theorem State.setRaw_aord (x : Nat) : (s.setRaw x).aord = s.aord := rfl
@[simp] theorem State.setRaw_hostMem (x : Nat) : (s.setRaw x).hostMem = s.hostMem := rfl
@[simp] theorem State.setRaw_hostPoison (x : Nat) : (s.setRaw x).hostPoison = s.hostPoison := rfl
@[simp] theorem State.setRaw_tim (x : Nat) : (s.setRaw x).tim = s.tim := rfl
@[simp] theorem State.setRaw_stk (x : Nat) : (s.setRaw x).stk = s.stk := rfl
@[simp] theorem State.setRaw_pow (x : Nat) : (s.setRaw x).pow = s.pow := rfl
@[simp] theorem State.setRaw_pins (x : Nat) : (s.setRaw x).pins = s.pins := rfl
@[simp] theorem State.setRaw_fuseMem (x : Nat) : (s.setRaw x).fuseMem = s.fuseMem := rfl
@[simp] theorem State.setRaw_fuseSites (x : Nat) : (s.setRaw x).fuseSites = s.fuseSites := rfl
@[simp] theorem State.setRaw_recess (x : Nat) : (s.setRaw x).recess = s.recess := rfl
@[simp] theorem State.setRaw_queues (x : Nat) : (s.setRaw x).queues = s.queues := rfl
@[simp] theorem State.setRaw_lastServed (x : Nat) : (s.setRaw x).lastServed = s.lastServed := rfl
@[simp] theorem State.setRaw_taken (x : Nat) : (s.setRaw x).taken = s.taken := rfl
@[simp] theorem State.setRaw_nextAccept (x : Nat) : (s.setRaw x).nextAccept = s.nextAccept := rfl
@[simp] theorem State.setRaw_hostTal (x : Nat) : (s.setRaw x).hostTal = s.hostTal := rfl
@[simp] theorem State.setRaw_tabSets (x : Nat) : (s.setRaw x).tabSets = s.tabSets := rfl
@[simp] theorem State.setRaw_tallies (x : Nat) : (s.setRaw x).tallies = s.tallies := rfl
@[simp] theorem State.setRaw_ctxs (x : Nat) : (s.setRaw x).ctxs = s.ctxs := rfl
@[simp] theorem State.setRaw_crews (x : Nat) : (s.setRaw x).crews = s.crews := rfl
@[simp] theorem State.setRaw_cores (x : Nat) : (s.setRaw x).cores = s.cores := rfl
@[simp] theorem State.setRaw_links (x : Nat) : (s.setRaw x).links = s.links := rfl
@[simp] theorem State.setRaw_flt (x : Nat) : (s.setRaw x).flt = s.flt := rfl
@[simp] theorem State.setRaw_cox (x : Nat) : (s.setRaw x).cox = s.cox := rfl
@[simp] theorem State.setRaw_nv (x : Nat) : (s.setRaw x).nv = s.nv := rfl
@[simp] theorem State.setRaw_rig (x : Nat) : (s.setRaw x).rig = s.rig := rfl
@[simp] theorem State.setRaw_conv (x : Nat) : (s.setRaw x).conv = s.conv := rfl
@[simp] theorem State.setRaw_pmc (x : Nat) : (s.setRaw x).pmc = s.pmc := rfl
@[simp] theorem State.setRaw_out (x : Nat) : (s.setRaw x).out = s.out := rfl
@[simp] theorem State.setRaw_hostData (x : Nat) : (s.setRaw x).hostData = s.hostData := rfl
@[simp] theorem State.setRaw_hostEP (x : Nat) : (s.setRaw x).hostEP = s.hostEP := rfl
@[simp] theorem State.setRaw_free (x : Nat) : (s.setRaw x).free = s.free := rfl
@[simp] theorem State.setRaw_images (x : Nat) : (s.setRaw x).images = s.images := rfl

@[simp] theorem State.setMem_pending (x : List (Nat × Byte)) : (s.setMem x).pending = s.pending := rfl
@[simp] theorem State.setMem_regs (x : List (Nat × Byte)) : (s.setMem x).regs = s.regs := rfl
@[simp] theorem State.setMem_raw (x : List (Nat × Byte)) : (s.setMem x).raw = s.raw := rfl
@[simp] theorem State.setMem_mem (x : List (Nat × Byte)) : (s.setMem x).mem = x := rfl
@[simp] theorem State.setMem_gran (x : List (Nat × Byte)) : (s.setMem x).gran = s.gran := rfl
@[simp] theorem State.setMem_wbq (x : List (Nat × Byte)) : (s.setMem x).wbq = s.wbq := rfl
@[simp] theorem State.setMem_atm (x : List (Nat × Byte)) : (s.setMem x).atm = s.atm := rfl
@[simp] theorem State.setMem_aord (x : List (Nat × Byte)) : (s.setMem x).aord = s.aord := rfl
@[simp] theorem State.setMem_hostMem (x : List (Nat × Byte)) : (s.setMem x).hostMem = s.hostMem := rfl
@[simp] theorem State.setMem_hostPoison (x : List (Nat × Byte)) : (s.setMem x).hostPoison = s.hostPoison := rfl
@[simp] theorem State.setMem_tim (x : List (Nat × Byte)) : (s.setMem x).tim = s.tim := rfl
@[simp] theorem State.setMem_stk (x : List (Nat × Byte)) : (s.setMem x).stk = s.stk := rfl
@[simp] theorem State.setMem_pow (x : List (Nat × Byte)) : (s.setMem x).pow = s.pow := rfl
@[simp] theorem State.setMem_pins (x : List (Nat × Byte)) : (s.setMem x).pins = s.pins := rfl
@[simp] theorem State.setMem_fuseMem (x : List (Nat × Byte)) : (s.setMem x).fuseMem = s.fuseMem := rfl
@[simp] theorem State.setMem_fuseSites (x : List (Nat × Byte)) : (s.setMem x).fuseSites = s.fuseSites := rfl
@[simp] theorem State.setMem_recess (x : List (Nat × Byte)) : (s.setMem x).recess = s.recess := rfl
@[simp] theorem State.setMem_queues (x : List (Nat × Byte)) : (s.setMem x).queues = s.queues := rfl
@[simp] theorem State.setMem_lastServed (x : List (Nat × Byte)) : (s.setMem x).lastServed = s.lastServed := rfl
@[simp] theorem State.setMem_taken (x : List (Nat × Byte)) : (s.setMem x).taken = s.taken := rfl
@[simp] theorem State.setMem_nextAccept (x : List (Nat × Byte)) : (s.setMem x).nextAccept = s.nextAccept := rfl
@[simp] theorem State.setMem_hostTal (x : List (Nat × Byte)) : (s.setMem x).hostTal = s.hostTal := rfl
@[simp] theorem State.setMem_tabSets (x : List (Nat × Byte)) : (s.setMem x).tabSets = s.tabSets := rfl
@[simp] theorem State.setMem_tallies (x : List (Nat × Byte)) : (s.setMem x).tallies = s.tallies := rfl
@[simp] theorem State.setMem_ctxs (x : List (Nat × Byte)) : (s.setMem x).ctxs = s.ctxs := rfl
@[simp] theorem State.setMem_crews (x : List (Nat × Byte)) : (s.setMem x).crews = s.crews := rfl
@[simp] theorem State.setMem_cores (x : List (Nat × Byte)) : (s.setMem x).cores = s.cores := rfl
@[simp] theorem State.setMem_links (x : List (Nat × Byte)) : (s.setMem x).links = s.links := rfl
@[simp] theorem State.setMem_flt (x : List (Nat × Byte)) : (s.setMem x).flt = s.flt := rfl
@[simp] theorem State.setMem_cox (x : List (Nat × Byte)) : (s.setMem x).cox = s.cox := rfl
@[simp] theorem State.setMem_nv (x : List (Nat × Byte)) : (s.setMem x).nv = s.nv := rfl
@[simp] theorem State.setMem_rig (x : List (Nat × Byte)) : (s.setMem x).rig = s.rig := rfl
@[simp] theorem State.setMem_conv (x : List (Nat × Byte)) : (s.setMem x).conv = s.conv := rfl
@[simp] theorem State.setMem_pmc (x : List (Nat × Byte)) : (s.setMem x).pmc = s.pmc := rfl
@[simp] theorem State.setMem_out (x : List (Nat × Byte)) : (s.setMem x).out = s.out := rfl
@[simp] theorem State.setMem_hostData (x : List (Nat × Byte)) : (s.setMem x).hostData = s.hostData := rfl
@[simp] theorem State.setMem_hostEP (x : List (Nat × Byte)) : (s.setMem x).hostEP = s.hostEP := rfl
@[simp] theorem State.setMem_free (x : List (Nat × Byte)) : (s.setMem x).free = s.free := rfl
@[simp] theorem State.setMem_images (x : List (Nat × Byte)) : (s.setMem x).images = s.images := rfl

@[simp] theorem State.setGran_pending (x : List (Nat × Gran)) : (s.setGran x).pending = s.pending := rfl
@[simp] theorem State.setGran_regs (x : List (Nat × Gran)) : (s.setGran x).regs = s.regs := rfl
@[simp] theorem State.setGran_raw (x : List (Nat × Gran)) : (s.setGran x).raw = s.raw := rfl
@[simp] theorem State.setGran_mem (x : List (Nat × Gran)) : (s.setGran x).mem = s.mem := rfl
@[simp] theorem State.setGran_gran (x : List (Nat × Gran)) : (s.setGran x).gran = x := rfl
@[simp] theorem State.setGran_wbq (x : List (Nat × Gran)) : (s.setGran x).wbq = s.wbq := rfl
@[simp] theorem State.setGran_atm (x : List (Nat × Gran)) : (s.setGran x).atm = s.atm := rfl
@[simp] theorem State.setGran_aord (x : List (Nat × Gran)) : (s.setGran x).aord = s.aord := rfl
@[simp] theorem State.setGran_hostMem (x : List (Nat × Gran)) : (s.setGran x).hostMem = s.hostMem := rfl
@[simp] theorem State.setGran_hostPoison (x : List (Nat × Gran)) : (s.setGran x).hostPoison = s.hostPoison := rfl
@[simp] theorem State.setGran_tim (x : List (Nat × Gran)) : (s.setGran x).tim = s.tim := rfl
@[simp] theorem State.setGran_stk (x : List (Nat × Gran)) : (s.setGran x).stk = s.stk := rfl
@[simp] theorem State.setGran_pow (x : List (Nat × Gran)) : (s.setGran x).pow = s.pow := rfl
@[simp] theorem State.setGran_pins (x : List (Nat × Gran)) : (s.setGran x).pins = s.pins := rfl
@[simp] theorem State.setGran_fuseMem (x : List (Nat × Gran)) : (s.setGran x).fuseMem = s.fuseMem := rfl
@[simp] theorem State.setGran_fuseSites (x : List (Nat × Gran)) : (s.setGran x).fuseSites = s.fuseSites := rfl
@[simp] theorem State.setGran_recess (x : List (Nat × Gran)) : (s.setGran x).recess = s.recess := rfl
@[simp] theorem State.setGran_queues (x : List (Nat × Gran)) : (s.setGran x).queues = s.queues := rfl
@[simp] theorem State.setGran_lastServed (x : List (Nat × Gran)) : (s.setGran x).lastServed = s.lastServed := rfl
@[simp] theorem State.setGran_taken (x : List (Nat × Gran)) : (s.setGran x).taken = s.taken := rfl
@[simp] theorem State.setGran_nextAccept (x : List (Nat × Gran)) : (s.setGran x).nextAccept = s.nextAccept := rfl
@[simp] theorem State.setGran_hostTal (x : List (Nat × Gran)) : (s.setGran x).hostTal = s.hostTal := rfl
@[simp] theorem State.setGran_tabSets (x : List (Nat × Gran)) : (s.setGran x).tabSets = s.tabSets := rfl
@[simp] theorem State.setGran_tallies (x : List (Nat × Gran)) : (s.setGran x).tallies = s.tallies := rfl
@[simp] theorem State.setGran_ctxs (x : List (Nat × Gran)) : (s.setGran x).ctxs = s.ctxs := rfl
@[simp] theorem State.setGran_crews (x : List (Nat × Gran)) : (s.setGran x).crews = s.crews := rfl
@[simp] theorem State.setGran_cores (x : List (Nat × Gran)) : (s.setGran x).cores = s.cores := rfl
@[simp] theorem State.setGran_links (x : List (Nat × Gran)) : (s.setGran x).links = s.links := rfl
@[simp] theorem State.setGran_flt (x : List (Nat × Gran)) : (s.setGran x).flt = s.flt := rfl
@[simp] theorem State.setGran_cox (x : List (Nat × Gran)) : (s.setGran x).cox = s.cox := rfl
@[simp] theorem State.setGran_nv (x : List (Nat × Gran)) : (s.setGran x).nv = s.nv := rfl
@[simp] theorem State.setGran_rig (x : List (Nat × Gran)) : (s.setGran x).rig = s.rig := rfl
@[simp] theorem State.setGran_conv (x : List (Nat × Gran)) : (s.setGran x).conv = s.conv := rfl
@[simp] theorem State.setGran_pmc (x : List (Nat × Gran)) : (s.setGran x).pmc = s.pmc := rfl
@[simp] theorem State.setGran_out (x : List (Nat × Gran)) : (s.setGran x).out = s.out := rfl
@[simp] theorem State.setGran_hostData (x : List (Nat × Gran)) : (s.setGran x).hostData = s.hostData := rfl
@[simp] theorem State.setGran_hostEP (x : List (Nat × Gran)) : (s.setGran x).hostEP = s.hostEP := rfl
@[simp] theorem State.setGran_free (x : List (Nat × Gran)) : (s.setGran x).free = s.free := rfl
@[simp] theorem State.setGran_images (x : List (Nat × Gran)) : (s.setGran x).images = s.images := rfl

@[simp] theorem State.setWbq_pending (x : List (Nat × List WriteBack)) : (s.setWbq x).pending = s.pending := rfl
@[simp] theorem State.setWbq_regs (x : List (Nat × List WriteBack)) : (s.setWbq x).regs = s.regs := rfl
@[simp] theorem State.setWbq_raw (x : List (Nat × List WriteBack)) : (s.setWbq x).raw = s.raw := rfl
@[simp] theorem State.setWbq_mem (x : List (Nat × List WriteBack)) : (s.setWbq x).mem = s.mem := rfl
@[simp] theorem State.setWbq_gran (x : List (Nat × List WriteBack)) : (s.setWbq x).gran = s.gran := rfl
@[simp] theorem State.setWbq_wbq (x : List (Nat × List WriteBack)) : (s.setWbq x).wbq = x := rfl
@[simp] theorem State.setWbq_atm (x : List (Nat × List WriteBack)) : (s.setWbq x).atm = s.atm := rfl
@[simp] theorem State.setWbq_aord (x : List (Nat × List WriteBack)) : (s.setWbq x).aord = s.aord := rfl
@[simp] theorem State.setWbq_hostMem (x : List (Nat × List WriteBack)) : (s.setWbq x).hostMem = s.hostMem := rfl
@[simp] theorem State.setWbq_hostPoison (x : List (Nat × List WriteBack)) : (s.setWbq x).hostPoison = s.hostPoison := rfl
@[simp] theorem State.setWbq_tim (x : List (Nat × List WriteBack)) : (s.setWbq x).tim = s.tim := rfl
@[simp] theorem State.setWbq_stk (x : List (Nat × List WriteBack)) : (s.setWbq x).stk = s.stk := rfl
@[simp] theorem State.setWbq_pow (x : List (Nat × List WriteBack)) : (s.setWbq x).pow = s.pow := rfl
@[simp] theorem State.setWbq_pins (x : List (Nat × List WriteBack)) : (s.setWbq x).pins = s.pins := rfl
@[simp] theorem State.setWbq_fuseMem (x : List (Nat × List WriteBack)) : (s.setWbq x).fuseMem = s.fuseMem := rfl
@[simp] theorem State.setWbq_fuseSites (x : List (Nat × List WriteBack)) : (s.setWbq x).fuseSites = s.fuseSites := rfl
@[simp] theorem State.setWbq_recess (x : List (Nat × List WriteBack)) : (s.setWbq x).recess = s.recess := rfl
@[simp] theorem State.setWbq_queues (x : List (Nat × List WriteBack)) : (s.setWbq x).queues = s.queues := rfl
@[simp] theorem State.setWbq_lastServed (x : List (Nat × List WriteBack)) : (s.setWbq x).lastServed = s.lastServed := rfl
@[simp] theorem State.setWbq_taken (x : List (Nat × List WriteBack)) : (s.setWbq x).taken = s.taken := rfl
@[simp] theorem State.setWbq_nextAccept (x : List (Nat × List WriteBack)) : (s.setWbq x).nextAccept = s.nextAccept := rfl
@[simp] theorem State.setWbq_hostTal (x : List (Nat × List WriteBack)) : (s.setWbq x).hostTal = s.hostTal := rfl
@[simp] theorem State.setWbq_tabSets (x : List (Nat × List WriteBack)) : (s.setWbq x).tabSets = s.tabSets := rfl
@[simp] theorem State.setWbq_tallies (x : List (Nat × List WriteBack)) : (s.setWbq x).tallies = s.tallies := rfl
@[simp] theorem State.setWbq_ctxs (x : List (Nat × List WriteBack)) : (s.setWbq x).ctxs = s.ctxs := rfl
@[simp] theorem State.setWbq_crews (x : List (Nat × List WriteBack)) : (s.setWbq x).crews = s.crews := rfl
@[simp] theorem State.setWbq_cores (x : List (Nat × List WriteBack)) : (s.setWbq x).cores = s.cores := rfl
@[simp] theorem State.setWbq_links (x : List (Nat × List WriteBack)) : (s.setWbq x).links = s.links := rfl
@[simp] theorem State.setWbq_flt (x : List (Nat × List WriteBack)) : (s.setWbq x).flt = s.flt := rfl
@[simp] theorem State.setWbq_cox (x : List (Nat × List WriteBack)) : (s.setWbq x).cox = s.cox := rfl
@[simp] theorem State.setWbq_nv (x : List (Nat × List WriteBack)) : (s.setWbq x).nv = s.nv := rfl
@[simp] theorem State.setWbq_rig (x : List (Nat × List WriteBack)) : (s.setWbq x).rig = s.rig := rfl
@[simp] theorem State.setWbq_conv (x : List (Nat × List WriteBack)) : (s.setWbq x).conv = s.conv := rfl
@[simp] theorem State.setWbq_pmc (x : List (Nat × List WriteBack)) : (s.setWbq x).pmc = s.pmc := rfl
@[simp] theorem State.setWbq_out (x : List (Nat × List WriteBack)) : (s.setWbq x).out = s.out := rfl
@[simp] theorem State.setWbq_hostData (x : List (Nat × List WriteBack)) : (s.setWbq x).hostData = s.hostData := rfl
@[simp] theorem State.setWbq_hostEP (x : List (Nat × List WriteBack)) : (s.setWbq x).hostEP = s.hostEP := rfl
@[simp] theorem State.setWbq_free (x : List (Nat × List WriteBack)) : (s.setWbq x).free = s.free := rfl
@[simp] theorem State.setWbq_images (x : List (Nat × List WriteBack)) : (s.setWbq x).images = s.images := rfl

@[simp] theorem State.setAtm_pending (x : List (Nat × List Nat)) : (s.setAtm x).pending = s.pending := rfl
@[simp] theorem State.setAtm_regs (x : List (Nat × List Nat)) : (s.setAtm x).regs = s.regs := rfl
@[simp] theorem State.setAtm_raw (x : List (Nat × List Nat)) : (s.setAtm x).raw = s.raw := rfl
@[simp] theorem State.setAtm_mem (x : List (Nat × List Nat)) : (s.setAtm x).mem = s.mem := rfl
@[simp] theorem State.setAtm_gran (x : List (Nat × List Nat)) : (s.setAtm x).gran = s.gran := rfl
@[simp] theorem State.setAtm_wbq (x : List (Nat × List Nat)) : (s.setAtm x).wbq = s.wbq := rfl
@[simp] theorem State.setAtm_atm (x : List (Nat × List Nat)) : (s.setAtm x).atm = x := rfl
@[simp] theorem State.setAtm_aord (x : List (Nat × List Nat)) : (s.setAtm x).aord = s.aord := rfl
@[simp] theorem State.setAtm_hostMem (x : List (Nat × List Nat)) : (s.setAtm x).hostMem = s.hostMem := rfl
@[simp] theorem State.setAtm_hostPoison (x : List (Nat × List Nat)) : (s.setAtm x).hostPoison = s.hostPoison := rfl
@[simp] theorem State.setAtm_tim (x : List (Nat × List Nat)) : (s.setAtm x).tim = s.tim := rfl
@[simp] theorem State.setAtm_stk (x : List (Nat × List Nat)) : (s.setAtm x).stk = s.stk := rfl
@[simp] theorem State.setAtm_pow (x : List (Nat × List Nat)) : (s.setAtm x).pow = s.pow := rfl
@[simp] theorem State.setAtm_pins (x : List (Nat × List Nat)) : (s.setAtm x).pins = s.pins := rfl
@[simp] theorem State.setAtm_fuseMem (x : List (Nat × List Nat)) : (s.setAtm x).fuseMem = s.fuseMem := rfl
@[simp] theorem State.setAtm_fuseSites (x : List (Nat × List Nat)) : (s.setAtm x).fuseSites = s.fuseSites := rfl
@[simp] theorem State.setAtm_recess (x : List (Nat × List Nat)) : (s.setAtm x).recess = s.recess := rfl
@[simp] theorem State.setAtm_queues (x : List (Nat × List Nat)) : (s.setAtm x).queues = s.queues := rfl
@[simp] theorem State.setAtm_lastServed (x : List (Nat × List Nat)) : (s.setAtm x).lastServed = s.lastServed := rfl
@[simp] theorem State.setAtm_taken (x : List (Nat × List Nat)) : (s.setAtm x).taken = s.taken := rfl
@[simp] theorem State.setAtm_nextAccept (x : List (Nat × List Nat)) : (s.setAtm x).nextAccept = s.nextAccept := rfl
@[simp] theorem State.setAtm_hostTal (x : List (Nat × List Nat)) : (s.setAtm x).hostTal = s.hostTal := rfl
@[simp] theorem State.setAtm_tabSets (x : List (Nat × List Nat)) : (s.setAtm x).tabSets = s.tabSets := rfl
@[simp] theorem State.setAtm_tallies (x : List (Nat × List Nat)) : (s.setAtm x).tallies = s.tallies := rfl
@[simp] theorem State.setAtm_ctxs (x : List (Nat × List Nat)) : (s.setAtm x).ctxs = s.ctxs := rfl
@[simp] theorem State.setAtm_crews (x : List (Nat × List Nat)) : (s.setAtm x).crews = s.crews := rfl
@[simp] theorem State.setAtm_cores (x : List (Nat × List Nat)) : (s.setAtm x).cores = s.cores := rfl
@[simp] theorem State.setAtm_links (x : List (Nat × List Nat)) : (s.setAtm x).links = s.links := rfl
@[simp] theorem State.setAtm_flt (x : List (Nat × List Nat)) : (s.setAtm x).flt = s.flt := rfl
@[simp] theorem State.setAtm_cox (x : List (Nat × List Nat)) : (s.setAtm x).cox = s.cox := rfl
@[simp] theorem State.setAtm_nv (x : List (Nat × List Nat)) : (s.setAtm x).nv = s.nv := rfl
@[simp] theorem State.setAtm_rig (x : List (Nat × List Nat)) : (s.setAtm x).rig = s.rig := rfl
@[simp] theorem State.setAtm_conv (x : List (Nat × List Nat)) : (s.setAtm x).conv = s.conv := rfl
@[simp] theorem State.setAtm_pmc (x : List (Nat × List Nat)) : (s.setAtm x).pmc = s.pmc := rfl
@[simp] theorem State.setAtm_out (x : List (Nat × List Nat)) : (s.setAtm x).out = s.out := rfl
@[simp] theorem State.setAtm_hostData (x : List (Nat × List Nat)) : (s.setAtm x).hostData = s.hostData := rfl
@[simp] theorem State.setAtm_hostEP (x : List (Nat × List Nat)) : (s.setAtm x).hostEP = s.hostEP := rfl
@[simp] theorem State.setAtm_free (x : List (Nat × List Nat)) : (s.setAtm x).free = s.free := rfl
@[simp] theorem State.setAtm_images (x : List (Nat × List Nat)) : (s.setAtm x).images = s.images := rfl

@[simp] theorem State.setAord_pending (x : List AReq) : (s.setAord x).pending = s.pending := rfl
@[simp] theorem State.setAord_regs (x : List AReq) : (s.setAord x).regs = s.regs := rfl
@[simp] theorem State.setAord_raw (x : List AReq) : (s.setAord x).raw = s.raw := rfl
@[simp] theorem State.setAord_mem (x : List AReq) : (s.setAord x).mem = s.mem := rfl
@[simp] theorem State.setAord_gran (x : List AReq) : (s.setAord x).gran = s.gran := rfl
@[simp] theorem State.setAord_wbq (x : List AReq) : (s.setAord x).wbq = s.wbq := rfl
@[simp] theorem State.setAord_atm (x : List AReq) : (s.setAord x).atm = s.atm := rfl
@[simp] theorem State.setAord_aord (x : List AReq) : (s.setAord x).aord = x := rfl
@[simp] theorem State.setAord_hostMem (x : List AReq) : (s.setAord x).hostMem = s.hostMem := rfl
@[simp] theorem State.setAord_hostPoison (x : List AReq) : (s.setAord x).hostPoison = s.hostPoison := rfl
@[simp] theorem State.setAord_tim (x : List AReq) : (s.setAord x).tim = s.tim := rfl
@[simp] theorem State.setAord_stk (x : List AReq) : (s.setAord x).stk = s.stk := rfl
@[simp] theorem State.setAord_pow (x : List AReq) : (s.setAord x).pow = s.pow := rfl
@[simp] theorem State.setAord_pins (x : List AReq) : (s.setAord x).pins = s.pins := rfl
@[simp] theorem State.setAord_fuseMem (x : List AReq) : (s.setAord x).fuseMem = s.fuseMem := rfl
@[simp] theorem State.setAord_fuseSites (x : List AReq) : (s.setAord x).fuseSites = s.fuseSites := rfl
@[simp] theorem State.setAord_recess (x : List AReq) : (s.setAord x).recess = s.recess := rfl
@[simp] theorem State.setAord_queues (x : List AReq) : (s.setAord x).queues = s.queues := rfl
@[simp] theorem State.setAord_lastServed (x : List AReq) : (s.setAord x).lastServed = s.lastServed := rfl
@[simp] theorem State.setAord_taken (x : List AReq) : (s.setAord x).taken = s.taken := rfl
@[simp] theorem State.setAord_nextAccept (x : List AReq) : (s.setAord x).nextAccept = s.nextAccept := rfl
@[simp] theorem State.setAord_hostTal (x : List AReq) : (s.setAord x).hostTal = s.hostTal := rfl
@[simp] theorem State.setAord_tabSets (x : List AReq) : (s.setAord x).tabSets = s.tabSets := rfl
@[simp] theorem State.setAord_tallies (x : List AReq) : (s.setAord x).tallies = s.tallies := rfl
@[simp] theorem State.setAord_ctxs (x : List AReq) : (s.setAord x).ctxs = s.ctxs := rfl
@[simp] theorem State.setAord_crews (x : List AReq) : (s.setAord x).crews = s.crews := rfl
@[simp] theorem State.setAord_cores (x : List AReq) : (s.setAord x).cores = s.cores := rfl
@[simp] theorem State.setAord_links (x : List AReq) : (s.setAord x).links = s.links := rfl
@[simp] theorem State.setAord_flt (x : List AReq) : (s.setAord x).flt = s.flt := rfl
@[simp] theorem State.setAord_cox (x : List AReq) : (s.setAord x).cox = s.cox := rfl
@[simp] theorem State.setAord_nv (x : List AReq) : (s.setAord x).nv = s.nv := rfl
@[simp] theorem State.setAord_rig (x : List AReq) : (s.setAord x).rig = s.rig := rfl
@[simp] theorem State.setAord_conv (x : List AReq) : (s.setAord x).conv = s.conv := rfl
@[simp] theorem State.setAord_pmc (x : List AReq) : (s.setAord x).pmc = s.pmc := rfl
@[simp] theorem State.setAord_out (x : List AReq) : (s.setAord x).out = s.out := rfl
@[simp] theorem State.setAord_hostData (x : List AReq) : (s.setAord x).hostData = s.hostData := rfl
@[simp] theorem State.setAord_hostEP (x : List AReq) : (s.setAord x).hostEP = s.hostEP := rfl
@[simp] theorem State.setAord_free (x : List AReq) : (s.setAord x).free = s.free := rfl
@[simp] theorem State.setAord_images (x : List AReq) : (s.setAord x).images = s.images := rfl

@[simp] theorem State.setHostMem_pending (x : List (Nat × Byte)) : (s.setHostMem x).pending = s.pending := rfl
@[simp] theorem State.setHostMem_regs (x : List (Nat × Byte)) : (s.setHostMem x).regs = s.regs := rfl
@[simp] theorem State.setHostMem_raw (x : List (Nat × Byte)) : (s.setHostMem x).raw = s.raw := rfl
@[simp] theorem State.setHostMem_mem (x : List (Nat × Byte)) : (s.setHostMem x).mem = s.mem := rfl
@[simp] theorem State.setHostMem_gran (x : List (Nat × Byte)) : (s.setHostMem x).gran = s.gran := rfl
@[simp] theorem State.setHostMem_wbq (x : List (Nat × Byte)) : (s.setHostMem x).wbq = s.wbq := rfl
@[simp] theorem State.setHostMem_atm (x : List (Nat × Byte)) : (s.setHostMem x).atm = s.atm := rfl
@[simp] theorem State.setHostMem_aord (x : List (Nat × Byte)) : (s.setHostMem x).aord = s.aord := rfl
@[simp] theorem State.setHostMem_hostMem (x : List (Nat × Byte)) : (s.setHostMem x).hostMem = x := rfl
@[simp] theorem State.setHostMem_hostPoison (x : List (Nat × Byte)) : (s.setHostMem x).hostPoison = s.hostPoison := rfl
@[simp] theorem State.setHostMem_tim (x : List (Nat × Byte)) : (s.setHostMem x).tim = s.tim := rfl
@[simp] theorem State.setHostMem_stk (x : List (Nat × Byte)) : (s.setHostMem x).stk = s.stk := rfl
@[simp] theorem State.setHostMem_pow (x : List (Nat × Byte)) : (s.setHostMem x).pow = s.pow := rfl
@[simp] theorem State.setHostMem_pins (x : List (Nat × Byte)) : (s.setHostMem x).pins = s.pins := rfl
@[simp] theorem State.setHostMem_fuseMem (x : List (Nat × Byte)) : (s.setHostMem x).fuseMem = s.fuseMem := rfl
@[simp] theorem State.setHostMem_fuseSites (x : List (Nat × Byte)) : (s.setHostMem x).fuseSites = s.fuseSites := rfl
@[simp] theorem State.setHostMem_recess (x : List (Nat × Byte)) : (s.setHostMem x).recess = s.recess := rfl
@[simp] theorem State.setHostMem_queues (x : List (Nat × Byte)) : (s.setHostMem x).queues = s.queues := rfl
@[simp] theorem State.setHostMem_lastServed (x : List (Nat × Byte)) : (s.setHostMem x).lastServed = s.lastServed := rfl
@[simp] theorem State.setHostMem_taken (x : List (Nat × Byte)) : (s.setHostMem x).taken = s.taken := rfl
@[simp] theorem State.setHostMem_nextAccept (x : List (Nat × Byte)) : (s.setHostMem x).nextAccept = s.nextAccept := rfl
@[simp] theorem State.setHostMem_hostTal (x : List (Nat × Byte)) : (s.setHostMem x).hostTal = s.hostTal := rfl
@[simp] theorem State.setHostMem_tabSets (x : List (Nat × Byte)) : (s.setHostMem x).tabSets = s.tabSets := rfl
@[simp] theorem State.setHostMem_tallies (x : List (Nat × Byte)) : (s.setHostMem x).tallies = s.tallies := rfl
@[simp] theorem State.setHostMem_ctxs (x : List (Nat × Byte)) : (s.setHostMem x).ctxs = s.ctxs := rfl
@[simp] theorem State.setHostMem_crews (x : List (Nat × Byte)) : (s.setHostMem x).crews = s.crews := rfl
@[simp] theorem State.setHostMem_cores (x : List (Nat × Byte)) : (s.setHostMem x).cores = s.cores := rfl
@[simp] theorem State.setHostMem_links (x : List (Nat × Byte)) : (s.setHostMem x).links = s.links := rfl
@[simp] theorem State.setHostMem_flt (x : List (Nat × Byte)) : (s.setHostMem x).flt = s.flt := rfl
@[simp] theorem State.setHostMem_cox (x : List (Nat × Byte)) : (s.setHostMem x).cox = s.cox := rfl
@[simp] theorem State.setHostMem_nv (x : List (Nat × Byte)) : (s.setHostMem x).nv = s.nv := rfl
@[simp] theorem State.setHostMem_rig (x : List (Nat × Byte)) : (s.setHostMem x).rig = s.rig := rfl
@[simp] theorem State.setHostMem_conv (x : List (Nat × Byte)) : (s.setHostMem x).conv = s.conv := rfl
@[simp] theorem State.setHostMem_pmc (x : List (Nat × Byte)) : (s.setHostMem x).pmc = s.pmc := rfl
@[simp] theorem State.setHostMem_out (x : List (Nat × Byte)) : (s.setHostMem x).out = s.out := rfl
@[simp] theorem State.setHostMem_hostData (x : List (Nat × Byte)) : (s.setHostMem x).hostData = s.hostData := rfl
@[simp] theorem State.setHostMem_hostEP (x : List (Nat × Byte)) : (s.setHostMem x).hostEP = s.hostEP := rfl
@[simp] theorem State.setHostMem_free (x : List (Nat × Byte)) : (s.setHostMem x).free = s.free := rfl
@[simp] theorem State.setHostMem_images (x : List (Nat × Byte)) : (s.setHostMem x).images = s.images := rfl

@[simp] theorem State.setHostPoison_pending (x : List Nat) : (s.setHostPoison x).pending = s.pending := rfl
@[simp] theorem State.setHostPoison_regs (x : List Nat) : (s.setHostPoison x).regs = s.regs := rfl
@[simp] theorem State.setHostPoison_raw (x : List Nat) : (s.setHostPoison x).raw = s.raw := rfl
@[simp] theorem State.setHostPoison_mem (x : List Nat) : (s.setHostPoison x).mem = s.mem := rfl
@[simp] theorem State.setHostPoison_gran (x : List Nat) : (s.setHostPoison x).gran = s.gran := rfl
@[simp] theorem State.setHostPoison_wbq (x : List Nat) : (s.setHostPoison x).wbq = s.wbq := rfl
@[simp] theorem State.setHostPoison_atm (x : List Nat) : (s.setHostPoison x).atm = s.atm := rfl
@[simp] theorem State.setHostPoison_aord (x : List Nat) : (s.setHostPoison x).aord = s.aord := rfl
@[simp] theorem State.setHostPoison_hostMem (x : List Nat) : (s.setHostPoison x).hostMem = s.hostMem := rfl
@[simp] theorem State.setHostPoison_hostPoison (x : List Nat) : (s.setHostPoison x).hostPoison = x := rfl
@[simp] theorem State.setHostPoison_tim (x : List Nat) : (s.setHostPoison x).tim = s.tim := rfl
@[simp] theorem State.setHostPoison_stk (x : List Nat) : (s.setHostPoison x).stk = s.stk := rfl
@[simp] theorem State.setHostPoison_pow (x : List Nat) : (s.setHostPoison x).pow = s.pow := rfl
@[simp] theorem State.setHostPoison_pins (x : List Nat) : (s.setHostPoison x).pins = s.pins := rfl
@[simp] theorem State.setHostPoison_fuseMem (x : List Nat) : (s.setHostPoison x).fuseMem = s.fuseMem := rfl
@[simp] theorem State.setHostPoison_fuseSites (x : List Nat) : (s.setHostPoison x).fuseSites = s.fuseSites := rfl
@[simp] theorem State.setHostPoison_recess (x : List Nat) : (s.setHostPoison x).recess = s.recess := rfl
@[simp] theorem State.setHostPoison_queues (x : List Nat) : (s.setHostPoison x).queues = s.queues := rfl
@[simp] theorem State.setHostPoison_lastServed (x : List Nat) : (s.setHostPoison x).lastServed = s.lastServed := rfl
@[simp] theorem State.setHostPoison_taken (x : List Nat) : (s.setHostPoison x).taken = s.taken := rfl
@[simp] theorem State.setHostPoison_nextAccept (x : List Nat) : (s.setHostPoison x).nextAccept = s.nextAccept := rfl
@[simp] theorem State.setHostPoison_hostTal (x : List Nat) : (s.setHostPoison x).hostTal = s.hostTal := rfl
@[simp] theorem State.setHostPoison_tabSets (x : List Nat) : (s.setHostPoison x).tabSets = s.tabSets := rfl
@[simp] theorem State.setHostPoison_tallies (x : List Nat) : (s.setHostPoison x).tallies = s.tallies := rfl
@[simp] theorem State.setHostPoison_ctxs (x : List Nat) : (s.setHostPoison x).ctxs = s.ctxs := rfl
@[simp] theorem State.setHostPoison_crews (x : List Nat) : (s.setHostPoison x).crews = s.crews := rfl
@[simp] theorem State.setHostPoison_cores (x : List Nat) : (s.setHostPoison x).cores = s.cores := rfl
@[simp] theorem State.setHostPoison_links (x : List Nat) : (s.setHostPoison x).links = s.links := rfl
@[simp] theorem State.setHostPoison_flt (x : List Nat) : (s.setHostPoison x).flt = s.flt := rfl
@[simp] theorem State.setHostPoison_cox (x : List Nat) : (s.setHostPoison x).cox = s.cox := rfl
@[simp] theorem State.setHostPoison_nv (x : List Nat) : (s.setHostPoison x).nv = s.nv := rfl
@[simp] theorem State.setHostPoison_rig (x : List Nat) : (s.setHostPoison x).rig = s.rig := rfl
@[simp] theorem State.setHostPoison_conv (x : List Nat) : (s.setHostPoison x).conv = s.conv := rfl
@[simp] theorem State.setHostPoison_pmc (x : List Nat) : (s.setHostPoison x).pmc = s.pmc := rfl
@[simp] theorem State.setHostPoison_out (x : List Nat) : (s.setHostPoison x).out = s.out := rfl
@[simp] theorem State.setHostPoison_hostData (x : List Nat) : (s.setHostPoison x).hostData = s.hostData := rfl
@[simp] theorem State.setHostPoison_hostEP (x : List Nat) : (s.setHostPoison x).hostEP = s.hostEP := rfl
@[simp] theorem State.setHostPoison_free (x : List Nat) : (s.setHostPoison x).free = s.free := rfl
@[simp] theorem State.setHostPoison_images (x : List Nat) : (s.setHostPoison x).images = s.images := rfl

@[simp] theorem State.setTim_pending (x : Tim) : (s.setTim x).pending = s.pending := rfl
@[simp] theorem State.setTim_regs (x : Tim) : (s.setTim x).regs = s.regs := rfl
@[simp] theorem State.setTim_raw (x : Tim) : (s.setTim x).raw = s.raw := rfl
@[simp] theorem State.setTim_mem (x : Tim) : (s.setTim x).mem = s.mem := rfl
@[simp] theorem State.setTim_gran (x : Tim) : (s.setTim x).gran = s.gran := rfl
@[simp] theorem State.setTim_wbq (x : Tim) : (s.setTim x).wbq = s.wbq := rfl
@[simp] theorem State.setTim_atm (x : Tim) : (s.setTim x).atm = s.atm := rfl
@[simp] theorem State.setTim_aord (x : Tim) : (s.setTim x).aord = s.aord := rfl
@[simp] theorem State.setTim_hostMem (x : Tim) : (s.setTim x).hostMem = s.hostMem := rfl
@[simp] theorem State.setTim_hostPoison (x : Tim) : (s.setTim x).hostPoison = s.hostPoison := rfl
@[simp] theorem State.setTim_tim (x : Tim) : (s.setTim x).tim = x := rfl
@[simp] theorem State.setTim_stk (x : Tim) : (s.setTim x).stk = s.stk := rfl
@[simp] theorem State.setTim_pow (x : Tim) : (s.setTim x).pow = s.pow := rfl
@[simp] theorem State.setTim_pins (x : Tim) : (s.setTim x).pins = s.pins := rfl
@[simp] theorem State.setTim_fuseMem (x : Tim) : (s.setTim x).fuseMem = s.fuseMem := rfl
@[simp] theorem State.setTim_fuseSites (x : Tim) : (s.setTim x).fuseSites = s.fuseSites := rfl
@[simp] theorem State.setTim_recess (x : Tim) : (s.setTim x).recess = s.recess := rfl
@[simp] theorem State.setTim_queues (x : Tim) : (s.setTim x).queues = s.queues := rfl
@[simp] theorem State.setTim_lastServed (x : Tim) : (s.setTim x).lastServed = s.lastServed := rfl
@[simp] theorem State.setTim_taken (x : Tim) : (s.setTim x).taken = s.taken := rfl
@[simp] theorem State.setTim_nextAccept (x : Tim) : (s.setTim x).nextAccept = s.nextAccept := rfl
@[simp] theorem State.setTim_hostTal (x : Tim) : (s.setTim x).hostTal = s.hostTal := rfl
@[simp] theorem State.setTim_tabSets (x : Tim) : (s.setTim x).tabSets = s.tabSets := rfl
@[simp] theorem State.setTim_tallies (x : Tim) : (s.setTim x).tallies = s.tallies := rfl
@[simp] theorem State.setTim_ctxs (x : Tim) : (s.setTim x).ctxs = s.ctxs := rfl
@[simp] theorem State.setTim_crews (x : Tim) : (s.setTim x).crews = s.crews := rfl
@[simp] theorem State.setTim_cores (x : Tim) : (s.setTim x).cores = s.cores := rfl
@[simp] theorem State.setTim_links (x : Tim) : (s.setTim x).links = s.links := rfl
@[simp] theorem State.setTim_flt (x : Tim) : (s.setTim x).flt = s.flt := rfl
@[simp] theorem State.setTim_cox (x : Tim) : (s.setTim x).cox = s.cox := rfl
@[simp] theorem State.setTim_nv (x : Tim) : (s.setTim x).nv = s.nv := rfl
@[simp] theorem State.setTim_rig (x : Tim) : (s.setTim x).rig = s.rig := rfl
@[simp] theorem State.setTim_conv (x : Tim) : (s.setTim x).conv = s.conv := rfl
@[simp] theorem State.setTim_pmc (x : Tim) : (s.setTim x).pmc = s.pmc := rfl
@[simp] theorem State.setTim_out (x : Tim) : (s.setTim x).out = s.out := rfl
@[simp] theorem State.setTim_hostData (x : Tim) : (s.setTim x).hostData = s.hostData := rfl
@[simp] theorem State.setTim_hostEP (x : Tim) : (s.setTim x).hostEP = s.hostEP := rfl
@[simp] theorem State.setTim_free (x : Tim) : (s.setTim x).free = s.free := rfl
@[simp] theorem State.setTim_images (x : Tim) : (s.setTim x).images = s.images := rfl

@[simp] theorem State.setStk_pending (x : Stk) : (s.setStk x).pending = s.pending := rfl
@[simp] theorem State.setStk_regs (x : Stk) : (s.setStk x).regs = s.regs := rfl
@[simp] theorem State.setStk_raw (x : Stk) : (s.setStk x).raw = s.raw := rfl
@[simp] theorem State.setStk_mem (x : Stk) : (s.setStk x).mem = s.mem := rfl
@[simp] theorem State.setStk_gran (x : Stk) : (s.setStk x).gran = s.gran := rfl
@[simp] theorem State.setStk_wbq (x : Stk) : (s.setStk x).wbq = s.wbq := rfl
@[simp] theorem State.setStk_atm (x : Stk) : (s.setStk x).atm = s.atm := rfl
@[simp] theorem State.setStk_aord (x : Stk) : (s.setStk x).aord = s.aord := rfl
@[simp] theorem State.setStk_hostMem (x : Stk) : (s.setStk x).hostMem = s.hostMem := rfl
@[simp] theorem State.setStk_hostPoison (x : Stk) : (s.setStk x).hostPoison = s.hostPoison := rfl
@[simp] theorem State.setStk_tim (x : Stk) : (s.setStk x).tim = s.tim := rfl
@[simp] theorem State.setStk_stk (x : Stk) : (s.setStk x).stk = x := rfl
@[simp] theorem State.setStk_pow (x : Stk) : (s.setStk x).pow = s.pow := rfl
@[simp] theorem State.setStk_pins (x : Stk) : (s.setStk x).pins = s.pins := rfl
@[simp] theorem State.setStk_fuseMem (x : Stk) : (s.setStk x).fuseMem = s.fuseMem := rfl
@[simp] theorem State.setStk_fuseSites (x : Stk) : (s.setStk x).fuseSites = s.fuseSites := rfl
@[simp] theorem State.setStk_recess (x : Stk) : (s.setStk x).recess = s.recess := rfl
@[simp] theorem State.setStk_queues (x : Stk) : (s.setStk x).queues = s.queues := rfl
@[simp] theorem State.setStk_lastServed (x : Stk) : (s.setStk x).lastServed = s.lastServed := rfl
@[simp] theorem State.setStk_taken (x : Stk) : (s.setStk x).taken = s.taken := rfl
@[simp] theorem State.setStk_nextAccept (x : Stk) : (s.setStk x).nextAccept = s.nextAccept := rfl
@[simp] theorem State.setStk_hostTal (x : Stk) : (s.setStk x).hostTal = s.hostTal := rfl
@[simp] theorem State.setStk_tabSets (x : Stk) : (s.setStk x).tabSets = s.tabSets := rfl
@[simp] theorem State.setStk_tallies (x : Stk) : (s.setStk x).tallies = s.tallies := rfl
@[simp] theorem State.setStk_ctxs (x : Stk) : (s.setStk x).ctxs = s.ctxs := rfl
@[simp] theorem State.setStk_crews (x : Stk) : (s.setStk x).crews = s.crews := rfl
@[simp] theorem State.setStk_cores (x : Stk) : (s.setStk x).cores = s.cores := rfl
@[simp] theorem State.setStk_links (x : Stk) : (s.setStk x).links = s.links := rfl
@[simp] theorem State.setStk_flt (x : Stk) : (s.setStk x).flt = s.flt := rfl
@[simp] theorem State.setStk_cox (x : Stk) : (s.setStk x).cox = s.cox := rfl
@[simp] theorem State.setStk_nv (x : Stk) : (s.setStk x).nv = s.nv := rfl
@[simp] theorem State.setStk_rig (x : Stk) : (s.setStk x).rig = s.rig := rfl
@[simp] theorem State.setStk_conv (x : Stk) : (s.setStk x).conv = s.conv := rfl
@[simp] theorem State.setStk_pmc (x : Stk) : (s.setStk x).pmc = s.pmc := rfl
@[simp] theorem State.setStk_out (x : Stk) : (s.setStk x).out = s.out := rfl
@[simp] theorem State.setStk_hostData (x : Stk) : (s.setStk x).hostData = s.hostData := rfl
@[simp] theorem State.setStk_hostEP (x : Stk) : (s.setStk x).hostEP = s.hostEP := rfl
@[simp] theorem State.setStk_free (x : Stk) : (s.setStk x).free = s.free := rfl
@[simp] theorem State.setStk_images (x : Stk) : (s.setStk x).images = s.images := rfl

@[simp] theorem State.setPow_pending (x : Pow) : (s.setPow x).pending = s.pending := rfl
@[simp] theorem State.setPow_regs (x : Pow) : (s.setPow x).regs = s.regs := rfl
@[simp] theorem State.setPow_raw (x : Pow) : (s.setPow x).raw = s.raw := rfl
@[simp] theorem State.setPow_mem (x : Pow) : (s.setPow x).mem = s.mem := rfl
@[simp] theorem State.setPow_gran (x : Pow) : (s.setPow x).gran = s.gran := rfl
@[simp] theorem State.setPow_wbq (x : Pow) : (s.setPow x).wbq = s.wbq := rfl
@[simp] theorem State.setPow_atm (x : Pow) : (s.setPow x).atm = s.atm := rfl
@[simp] theorem State.setPow_aord (x : Pow) : (s.setPow x).aord = s.aord := rfl
@[simp] theorem State.setPow_hostMem (x : Pow) : (s.setPow x).hostMem = s.hostMem := rfl
@[simp] theorem State.setPow_hostPoison (x : Pow) : (s.setPow x).hostPoison = s.hostPoison := rfl
@[simp] theorem State.setPow_tim (x : Pow) : (s.setPow x).tim = s.tim := rfl
@[simp] theorem State.setPow_stk (x : Pow) : (s.setPow x).stk = s.stk := rfl
@[simp] theorem State.setPow_pow (x : Pow) : (s.setPow x).pow = x := rfl
@[simp] theorem State.setPow_pins (x : Pow) : (s.setPow x).pins = s.pins := rfl
@[simp] theorem State.setPow_fuseMem (x : Pow) : (s.setPow x).fuseMem = s.fuseMem := rfl
@[simp] theorem State.setPow_fuseSites (x : Pow) : (s.setPow x).fuseSites = s.fuseSites := rfl
@[simp] theorem State.setPow_recess (x : Pow) : (s.setPow x).recess = s.recess := rfl
@[simp] theorem State.setPow_queues (x : Pow) : (s.setPow x).queues = s.queues := rfl
@[simp] theorem State.setPow_lastServed (x : Pow) : (s.setPow x).lastServed = s.lastServed := rfl
@[simp] theorem State.setPow_taken (x : Pow) : (s.setPow x).taken = s.taken := rfl
@[simp] theorem State.setPow_nextAccept (x : Pow) : (s.setPow x).nextAccept = s.nextAccept := rfl
@[simp] theorem State.setPow_hostTal (x : Pow) : (s.setPow x).hostTal = s.hostTal := rfl
@[simp] theorem State.setPow_tabSets (x : Pow) : (s.setPow x).tabSets = s.tabSets := rfl
@[simp] theorem State.setPow_tallies (x : Pow) : (s.setPow x).tallies = s.tallies := rfl
@[simp] theorem State.setPow_ctxs (x : Pow) : (s.setPow x).ctxs = s.ctxs := rfl
@[simp] theorem State.setPow_crews (x : Pow) : (s.setPow x).crews = s.crews := rfl
@[simp] theorem State.setPow_cores (x : Pow) : (s.setPow x).cores = s.cores := rfl
@[simp] theorem State.setPow_links (x : Pow) : (s.setPow x).links = s.links := rfl
@[simp] theorem State.setPow_flt (x : Pow) : (s.setPow x).flt = s.flt := rfl
@[simp] theorem State.setPow_cox (x : Pow) : (s.setPow x).cox = s.cox := rfl
@[simp] theorem State.setPow_nv (x : Pow) : (s.setPow x).nv = s.nv := rfl
@[simp] theorem State.setPow_rig (x : Pow) : (s.setPow x).rig = s.rig := rfl
@[simp] theorem State.setPow_conv (x : Pow) : (s.setPow x).conv = s.conv := rfl
@[simp] theorem State.setPow_pmc (x : Pow) : (s.setPow x).pmc = s.pmc := rfl
@[simp] theorem State.setPow_out (x : Pow) : (s.setPow x).out = s.out := rfl
@[simp] theorem State.setPow_hostData (x : Pow) : (s.setPow x).hostData = s.hostData := rfl
@[simp] theorem State.setPow_hostEP (x : Pow) : (s.setPow x).hostEP = s.hostEP := rfl
@[simp] theorem State.setPow_free (x : Pow) : (s.setPow x).free = s.free := rfl
@[simp] theorem State.setPow_images (x : Pow) : (s.setPow x).images = s.images := rfl

@[simp] theorem State.setPins_pending (x : Pins) : (s.setPins x).pending = s.pending := rfl
@[simp] theorem State.setPins_regs (x : Pins) : (s.setPins x).regs = s.regs := rfl
@[simp] theorem State.setPins_raw (x : Pins) : (s.setPins x).raw = s.raw := rfl
@[simp] theorem State.setPins_mem (x : Pins) : (s.setPins x).mem = s.mem := rfl
@[simp] theorem State.setPins_gran (x : Pins) : (s.setPins x).gran = s.gran := rfl
@[simp] theorem State.setPins_wbq (x : Pins) : (s.setPins x).wbq = s.wbq := rfl
@[simp] theorem State.setPins_atm (x : Pins) : (s.setPins x).atm = s.atm := rfl
@[simp] theorem State.setPins_aord (x : Pins) : (s.setPins x).aord = s.aord := rfl
@[simp] theorem State.setPins_hostMem (x : Pins) : (s.setPins x).hostMem = s.hostMem := rfl
@[simp] theorem State.setPins_hostPoison (x : Pins) : (s.setPins x).hostPoison = s.hostPoison := rfl
@[simp] theorem State.setPins_tim (x : Pins) : (s.setPins x).tim = s.tim := rfl
@[simp] theorem State.setPins_stk (x : Pins) : (s.setPins x).stk = s.stk := rfl
@[simp] theorem State.setPins_pow (x : Pins) : (s.setPins x).pow = s.pow := rfl
@[simp] theorem State.setPins_pins (x : Pins) : (s.setPins x).pins = x := rfl
@[simp] theorem State.setPins_fuseMem (x : Pins) : (s.setPins x).fuseMem = s.fuseMem := rfl
@[simp] theorem State.setPins_fuseSites (x : Pins) : (s.setPins x).fuseSites = s.fuseSites := rfl
@[simp] theorem State.setPins_recess (x : Pins) : (s.setPins x).recess = s.recess := rfl
@[simp] theorem State.setPins_queues (x : Pins) : (s.setPins x).queues = s.queues := rfl
@[simp] theorem State.setPins_lastServed (x : Pins) : (s.setPins x).lastServed = s.lastServed := rfl
@[simp] theorem State.setPins_taken (x : Pins) : (s.setPins x).taken = s.taken := rfl
@[simp] theorem State.setPins_nextAccept (x : Pins) : (s.setPins x).nextAccept = s.nextAccept := rfl
@[simp] theorem State.setPins_hostTal (x : Pins) : (s.setPins x).hostTal = s.hostTal := rfl
@[simp] theorem State.setPins_tabSets (x : Pins) : (s.setPins x).tabSets = s.tabSets := rfl
@[simp] theorem State.setPins_tallies (x : Pins) : (s.setPins x).tallies = s.tallies := rfl
@[simp] theorem State.setPins_ctxs (x : Pins) : (s.setPins x).ctxs = s.ctxs := rfl
@[simp] theorem State.setPins_crews (x : Pins) : (s.setPins x).crews = s.crews := rfl
@[simp] theorem State.setPins_cores (x : Pins) : (s.setPins x).cores = s.cores := rfl
@[simp] theorem State.setPins_links (x : Pins) : (s.setPins x).links = s.links := rfl
@[simp] theorem State.setPins_flt (x : Pins) : (s.setPins x).flt = s.flt := rfl
@[simp] theorem State.setPins_cox (x : Pins) : (s.setPins x).cox = s.cox := rfl
@[simp] theorem State.setPins_nv (x : Pins) : (s.setPins x).nv = s.nv := rfl
@[simp] theorem State.setPins_rig (x : Pins) : (s.setPins x).rig = s.rig := rfl
@[simp] theorem State.setPins_conv (x : Pins) : (s.setPins x).conv = s.conv := rfl
@[simp] theorem State.setPins_pmc (x : Pins) : (s.setPins x).pmc = s.pmc := rfl
@[simp] theorem State.setPins_out (x : Pins) : (s.setPins x).out = s.out := rfl
@[simp] theorem State.setPins_hostData (x : Pins) : (s.setPins x).hostData = s.hostData := rfl
@[simp] theorem State.setPins_hostEP (x : Pins) : (s.setPins x).hostEP = s.hostEP := rfl
@[simp] theorem State.setPins_free (x : Pins) : (s.setPins x).free = s.free := rfl
@[simp] theorem State.setPins_images (x : Pins) : (s.setPins x).images = s.images := rfl

@[simp] theorem State.setFuseMem_pending (x : Nat) : (s.setFuseMem x).pending = s.pending := rfl
@[simp] theorem State.setFuseMem_regs (x : Nat) : (s.setFuseMem x).regs = s.regs := rfl
@[simp] theorem State.setFuseMem_raw (x : Nat) : (s.setFuseMem x).raw = s.raw := rfl
@[simp] theorem State.setFuseMem_mem (x : Nat) : (s.setFuseMem x).mem = s.mem := rfl
@[simp] theorem State.setFuseMem_gran (x : Nat) : (s.setFuseMem x).gran = s.gran := rfl
@[simp] theorem State.setFuseMem_wbq (x : Nat) : (s.setFuseMem x).wbq = s.wbq := rfl
@[simp] theorem State.setFuseMem_atm (x : Nat) : (s.setFuseMem x).atm = s.atm := rfl
@[simp] theorem State.setFuseMem_aord (x : Nat) : (s.setFuseMem x).aord = s.aord := rfl
@[simp] theorem State.setFuseMem_hostMem (x : Nat) : (s.setFuseMem x).hostMem = s.hostMem := rfl
@[simp] theorem State.setFuseMem_hostPoison (x : Nat) : (s.setFuseMem x).hostPoison = s.hostPoison := rfl
@[simp] theorem State.setFuseMem_tim (x : Nat) : (s.setFuseMem x).tim = s.tim := rfl
@[simp] theorem State.setFuseMem_stk (x : Nat) : (s.setFuseMem x).stk = s.stk := rfl
@[simp] theorem State.setFuseMem_pow (x : Nat) : (s.setFuseMem x).pow = s.pow := rfl
@[simp] theorem State.setFuseMem_pins (x : Nat) : (s.setFuseMem x).pins = s.pins := rfl
@[simp] theorem State.setFuseMem_fuseMem (x : Nat) : (s.setFuseMem x).fuseMem = x := rfl
@[simp] theorem State.setFuseMem_fuseSites (x : Nat) : (s.setFuseMem x).fuseSites = s.fuseSites := rfl
@[simp] theorem State.setFuseMem_recess (x : Nat) : (s.setFuseMem x).recess = s.recess := rfl
@[simp] theorem State.setFuseMem_queues (x : Nat) : (s.setFuseMem x).queues = s.queues := rfl
@[simp] theorem State.setFuseMem_lastServed (x : Nat) : (s.setFuseMem x).lastServed = s.lastServed := rfl
@[simp] theorem State.setFuseMem_taken (x : Nat) : (s.setFuseMem x).taken = s.taken := rfl
@[simp] theorem State.setFuseMem_nextAccept (x : Nat) : (s.setFuseMem x).nextAccept = s.nextAccept := rfl
@[simp] theorem State.setFuseMem_hostTal (x : Nat) : (s.setFuseMem x).hostTal = s.hostTal := rfl
@[simp] theorem State.setFuseMem_tabSets (x : Nat) : (s.setFuseMem x).tabSets = s.tabSets := rfl
@[simp] theorem State.setFuseMem_tallies (x : Nat) : (s.setFuseMem x).tallies = s.tallies := rfl
@[simp] theorem State.setFuseMem_ctxs (x : Nat) : (s.setFuseMem x).ctxs = s.ctxs := rfl
@[simp] theorem State.setFuseMem_crews (x : Nat) : (s.setFuseMem x).crews = s.crews := rfl
@[simp] theorem State.setFuseMem_cores (x : Nat) : (s.setFuseMem x).cores = s.cores := rfl
@[simp] theorem State.setFuseMem_links (x : Nat) : (s.setFuseMem x).links = s.links := rfl
@[simp] theorem State.setFuseMem_flt (x : Nat) : (s.setFuseMem x).flt = s.flt := rfl
@[simp] theorem State.setFuseMem_cox (x : Nat) : (s.setFuseMem x).cox = s.cox := rfl
@[simp] theorem State.setFuseMem_nv (x : Nat) : (s.setFuseMem x).nv = s.nv := rfl
@[simp] theorem State.setFuseMem_rig (x : Nat) : (s.setFuseMem x).rig = s.rig := rfl
@[simp] theorem State.setFuseMem_conv (x : Nat) : (s.setFuseMem x).conv = s.conv := rfl
@[simp] theorem State.setFuseMem_pmc (x : Nat) : (s.setFuseMem x).pmc = s.pmc := rfl
@[simp] theorem State.setFuseMem_out (x : Nat) : (s.setFuseMem x).out = s.out := rfl
@[simp] theorem State.setFuseMem_hostData (x : Nat) : (s.setFuseMem x).hostData = s.hostData := rfl
@[simp] theorem State.setFuseMem_hostEP (x : Nat) : (s.setFuseMem x).hostEP = s.hostEP := rfl
@[simp] theorem State.setFuseMem_free (x : Nat) : (s.setFuseMem x).free = s.free := rfl
@[simp] theorem State.setFuseMem_images (x : Nat) : (s.setFuseMem x).images = s.images := rfl

@[simp] theorem State.setFuseSites_pending (x : List (Nat × Nat)) : (s.setFuseSites x).pending = s.pending := rfl
@[simp] theorem State.setFuseSites_regs (x : List (Nat × Nat)) : (s.setFuseSites x).regs = s.regs := rfl
@[simp] theorem State.setFuseSites_raw (x : List (Nat × Nat)) : (s.setFuseSites x).raw = s.raw := rfl
@[simp] theorem State.setFuseSites_mem (x : List (Nat × Nat)) : (s.setFuseSites x).mem = s.mem := rfl
@[simp] theorem State.setFuseSites_gran (x : List (Nat × Nat)) : (s.setFuseSites x).gran = s.gran := rfl
@[simp] theorem State.setFuseSites_wbq (x : List (Nat × Nat)) : (s.setFuseSites x).wbq = s.wbq := rfl
@[simp] theorem State.setFuseSites_atm (x : List (Nat × Nat)) : (s.setFuseSites x).atm = s.atm := rfl
@[simp] theorem State.setFuseSites_aord (x : List (Nat × Nat)) : (s.setFuseSites x).aord = s.aord := rfl
@[simp] theorem State.setFuseSites_hostMem (x : List (Nat × Nat)) : (s.setFuseSites x).hostMem = s.hostMem := rfl
@[simp] theorem State.setFuseSites_hostPoison (x : List (Nat × Nat)) : (s.setFuseSites x).hostPoison = s.hostPoison := rfl
@[simp] theorem State.setFuseSites_tim (x : List (Nat × Nat)) : (s.setFuseSites x).tim = s.tim := rfl
@[simp] theorem State.setFuseSites_stk (x : List (Nat × Nat)) : (s.setFuseSites x).stk = s.stk := rfl
@[simp] theorem State.setFuseSites_pow (x : List (Nat × Nat)) : (s.setFuseSites x).pow = s.pow := rfl
@[simp] theorem State.setFuseSites_pins (x : List (Nat × Nat)) : (s.setFuseSites x).pins = s.pins := rfl
@[simp] theorem State.setFuseSites_fuseMem (x : List (Nat × Nat)) : (s.setFuseSites x).fuseMem = s.fuseMem := rfl
@[simp] theorem State.setFuseSites_fuseSites (x : List (Nat × Nat)) : (s.setFuseSites x).fuseSites = x := rfl
@[simp] theorem State.setFuseSites_recess (x : List (Nat × Nat)) : (s.setFuseSites x).recess = s.recess := rfl
@[simp] theorem State.setFuseSites_queues (x : List (Nat × Nat)) : (s.setFuseSites x).queues = s.queues := rfl
@[simp] theorem State.setFuseSites_lastServed (x : List (Nat × Nat)) : (s.setFuseSites x).lastServed = s.lastServed := rfl
@[simp] theorem State.setFuseSites_taken (x : List (Nat × Nat)) : (s.setFuseSites x).taken = s.taken := rfl
@[simp] theorem State.setFuseSites_nextAccept (x : List (Nat × Nat)) : (s.setFuseSites x).nextAccept = s.nextAccept := rfl
@[simp] theorem State.setFuseSites_hostTal (x : List (Nat × Nat)) : (s.setFuseSites x).hostTal = s.hostTal := rfl
@[simp] theorem State.setFuseSites_tabSets (x : List (Nat × Nat)) : (s.setFuseSites x).tabSets = s.tabSets := rfl
@[simp] theorem State.setFuseSites_tallies (x : List (Nat × Nat)) : (s.setFuseSites x).tallies = s.tallies := rfl
@[simp] theorem State.setFuseSites_ctxs (x : List (Nat × Nat)) : (s.setFuseSites x).ctxs = s.ctxs := rfl
@[simp] theorem State.setFuseSites_crews (x : List (Nat × Nat)) : (s.setFuseSites x).crews = s.crews := rfl
@[simp] theorem State.setFuseSites_cores (x : List (Nat × Nat)) : (s.setFuseSites x).cores = s.cores := rfl
@[simp] theorem State.setFuseSites_links (x : List (Nat × Nat)) : (s.setFuseSites x).links = s.links := rfl
@[simp] theorem State.setFuseSites_flt (x : List (Nat × Nat)) : (s.setFuseSites x).flt = s.flt := rfl
@[simp] theorem State.setFuseSites_cox (x : List (Nat × Nat)) : (s.setFuseSites x).cox = s.cox := rfl
@[simp] theorem State.setFuseSites_nv (x : List (Nat × Nat)) : (s.setFuseSites x).nv = s.nv := rfl
@[simp] theorem State.setFuseSites_rig (x : List (Nat × Nat)) : (s.setFuseSites x).rig = s.rig := rfl
@[simp] theorem State.setFuseSites_conv (x : List (Nat × Nat)) : (s.setFuseSites x).conv = s.conv := rfl
@[simp] theorem State.setFuseSites_pmc (x : List (Nat × Nat)) : (s.setFuseSites x).pmc = s.pmc := rfl
@[simp] theorem State.setFuseSites_out (x : List (Nat × Nat)) : (s.setFuseSites x).out = s.out := rfl
@[simp] theorem State.setFuseSites_hostData (x : List (Nat × Nat)) : (s.setFuseSites x).hostData = s.hostData := rfl
@[simp] theorem State.setFuseSites_hostEP (x : List (Nat × Nat)) : (s.setFuseSites x).hostEP = s.hostEP := rfl
@[simp] theorem State.setFuseSites_free (x : List (Nat × Nat)) : (s.setFuseSites x).free = s.free := rfl
@[simp] theorem State.setFuseSites_images (x : List (Nat × Nat)) : (s.setFuseSites x).images = s.images := rfl

@[simp] theorem State.setRecess_pending (x : Recess) : (s.setRecess x).pending = s.pending := rfl
@[simp] theorem State.setRecess_regs (x : Recess) : (s.setRecess x).regs = s.regs := rfl
@[simp] theorem State.setRecess_raw (x : Recess) : (s.setRecess x).raw = s.raw := rfl
@[simp] theorem State.setRecess_mem (x : Recess) : (s.setRecess x).mem = s.mem := rfl
@[simp] theorem State.setRecess_gran (x : Recess) : (s.setRecess x).gran = s.gran := rfl
@[simp] theorem State.setRecess_wbq (x : Recess) : (s.setRecess x).wbq = s.wbq := rfl
@[simp] theorem State.setRecess_atm (x : Recess) : (s.setRecess x).atm = s.atm := rfl
@[simp] theorem State.setRecess_aord (x : Recess) : (s.setRecess x).aord = s.aord := rfl
@[simp] theorem State.setRecess_hostMem (x : Recess) : (s.setRecess x).hostMem = s.hostMem := rfl
@[simp] theorem State.setRecess_hostPoison (x : Recess) : (s.setRecess x).hostPoison = s.hostPoison := rfl
@[simp] theorem State.setRecess_tim (x : Recess) : (s.setRecess x).tim = s.tim := rfl
@[simp] theorem State.setRecess_stk (x : Recess) : (s.setRecess x).stk = s.stk := rfl
@[simp] theorem State.setRecess_pow (x : Recess) : (s.setRecess x).pow = s.pow := rfl
@[simp] theorem State.setRecess_pins (x : Recess) : (s.setRecess x).pins = s.pins := rfl
@[simp] theorem State.setRecess_fuseMem (x : Recess) : (s.setRecess x).fuseMem = s.fuseMem := rfl
@[simp] theorem State.setRecess_fuseSites (x : Recess) : (s.setRecess x).fuseSites = s.fuseSites := rfl
@[simp] theorem State.setRecess_recess (x : Recess) : (s.setRecess x).recess = x := rfl
@[simp] theorem State.setRecess_queues (x : Recess) : (s.setRecess x).queues = s.queues := rfl
@[simp] theorem State.setRecess_lastServed (x : Recess) : (s.setRecess x).lastServed = s.lastServed := rfl
@[simp] theorem State.setRecess_taken (x : Recess) : (s.setRecess x).taken = s.taken := rfl
@[simp] theorem State.setRecess_nextAccept (x : Recess) : (s.setRecess x).nextAccept = s.nextAccept := rfl
@[simp] theorem State.setRecess_hostTal (x : Recess) : (s.setRecess x).hostTal = s.hostTal := rfl
@[simp] theorem State.setRecess_tabSets (x : Recess) : (s.setRecess x).tabSets = s.tabSets := rfl
@[simp] theorem State.setRecess_tallies (x : Recess) : (s.setRecess x).tallies = s.tallies := rfl
@[simp] theorem State.setRecess_ctxs (x : Recess) : (s.setRecess x).ctxs = s.ctxs := rfl
@[simp] theorem State.setRecess_crews (x : Recess) : (s.setRecess x).crews = s.crews := rfl
@[simp] theorem State.setRecess_cores (x : Recess) : (s.setRecess x).cores = s.cores := rfl
@[simp] theorem State.setRecess_links (x : Recess) : (s.setRecess x).links = s.links := rfl
@[simp] theorem State.setRecess_flt (x : Recess) : (s.setRecess x).flt = s.flt := rfl
@[simp] theorem State.setRecess_cox (x : Recess) : (s.setRecess x).cox = s.cox := rfl
@[simp] theorem State.setRecess_nv (x : Recess) : (s.setRecess x).nv = s.nv := rfl
@[simp] theorem State.setRecess_rig (x : Recess) : (s.setRecess x).rig = s.rig := rfl
@[simp] theorem State.setRecess_conv (x : Recess) : (s.setRecess x).conv = s.conv := rfl
@[simp] theorem State.setRecess_pmc (x : Recess) : (s.setRecess x).pmc = s.pmc := rfl
@[simp] theorem State.setRecess_out (x : Recess) : (s.setRecess x).out = s.out := rfl
@[simp] theorem State.setRecess_hostData (x : Recess) : (s.setRecess x).hostData = s.hostData := rfl
@[simp] theorem State.setRecess_hostEP (x : Recess) : (s.setRecess x).hostEP = s.hostEP := rfl
@[simp] theorem State.setRecess_free (x : Recess) : (s.setRecess x).free = s.free := rfl
@[simp] theorem State.setRecess_images (x : Recess) : (s.setRecess x).images = s.images := rfl

@[simp] theorem State.setQueues_pending (x : List (Nat × Queue)) : (s.setQueues x).pending = s.pending := rfl
@[simp] theorem State.setQueues_regs (x : List (Nat × Queue)) : (s.setQueues x).regs = s.regs := rfl
@[simp] theorem State.setQueues_raw (x : List (Nat × Queue)) : (s.setQueues x).raw = s.raw := rfl
@[simp] theorem State.setQueues_mem (x : List (Nat × Queue)) : (s.setQueues x).mem = s.mem := rfl
@[simp] theorem State.setQueues_gran (x : List (Nat × Queue)) : (s.setQueues x).gran = s.gran := rfl
@[simp] theorem State.setQueues_wbq (x : List (Nat × Queue)) : (s.setQueues x).wbq = s.wbq := rfl
@[simp] theorem State.setQueues_atm (x : List (Nat × Queue)) : (s.setQueues x).atm = s.atm := rfl
@[simp] theorem State.setQueues_aord (x : List (Nat × Queue)) : (s.setQueues x).aord = s.aord := rfl
@[simp] theorem State.setQueues_hostMem (x : List (Nat × Queue)) : (s.setQueues x).hostMem = s.hostMem := rfl
@[simp] theorem State.setQueues_hostPoison (x : List (Nat × Queue)) : (s.setQueues x).hostPoison = s.hostPoison := rfl
@[simp] theorem State.setQueues_tim (x : List (Nat × Queue)) : (s.setQueues x).tim = s.tim := rfl
@[simp] theorem State.setQueues_stk (x : List (Nat × Queue)) : (s.setQueues x).stk = s.stk := rfl
@[simp] theorem State.setQueues_pow (x : List (Nat × Queue)) : (s.setQueues x).pow = s.pow := rfl
@[simp] theorem State.setQueues_pins (x : List (Nat × Queue)) : (s.setQueues x).pins = s.pins := rfl
@[simp] theorem State.setQueues_fuseMem (x : List (Nat × Queue)) : (s.setQueues x).fuseMem = s.fuseMem := rfl
@[simp] theorem State.setQueues_fuseSites (x : List (Nat × Queue)) : (s.setQueues x).fuseSites = s.fuseSites := rfl
@[simp] theorem State.setQueues_recess (x : List (Nat × Queue)) : (s.setQueues x).recess = s.recess := rfl
@[simp] theorem State.setQueues_queues (x : List (Nat × Queue)) : (s.setQueues x).queues = x := rfl
@[simp] theorem State.setQueues_lastServed (x : List (Nat × Queue)) : (s.setQueues x).lastServed = s.lastServed := rfl
@[simp] theorem State.setQueues_taken (x : List (Nat × Queue)) : (s.setQueues x).taken = s.taken := rfl
@[simp] theorem State.setQueues_nextAccept (x : List (Nat × Queue)) : (s.setQueues x).nextAccept = s.nextAccept := rfl
@[simp] theorem State.setQueues_hostTal (x : List (Nat × Queue)) : (s.setQueues x).hostTal = s.hostTal := rfl
@[simp] theorem State.setQueues_tabSets (x : List (Nat × Queue)) : (s.setQueues x).tabSets = s.tabSets := rfl
@[simp] theorem State.setQueues_tallies (x : List (Nat × Queue)) : (s.setQueues x).tallies = s.tallies := rfl
@[simp] theorem State.setQueues_ctxs (x : List (Nat × Queue)) : (s.setQueues x).ctxs = s.ctxs := rfl
@[simp] theorem State.setQueues_crews (x : List (Nat × Queue)) : (s.setQueues x).crews = s.crews := rfl
@[simp] theorem State.setQueues_cores (x : List (Nat × Queue)) : (s.setQueues x).cores = s.cores := rfl
@[simp] theorem State.setQueues_links (x : List (Nat × Queue)) : (s.setQueues x).links = s.links := rfl
@[simp] theorem State.setQueues_flt (x : List (Nat × Queue)) : (s.setQueues x).flt = s.flt := rfl
@[simp] theorem State.setQueues_cox (x : List (Nat × Queue)) : (s.setQueues x).cox = s.cox := rfl
@[simp] theorem State.setQueues_nv (x : List (Nat × Queue)) : (s.setQueues x).nv = s.nv := rfl
@[simp] theorem State.setQueues_rig (x : List (Nat × Queue)) : (s.setQueues x).rig = s.rig := rfl
@[simp] theorem State.setQueues_conv (x : List (Nat × Queue)) : (s.setQueues x).conv = s.conv := rfl
@[simp] theorem State.setQueues_pmc (x : List (Nat × Queue)) : (s.setQueues x).pmc = s.pmc := rfl
@[simp] theorem State.setQueues_out (x : List (Nat × Queue)) : (s.setQueues x).out = s.out := rfl
@[simp] theorem State.setQueues_hostData (x : List (Nat × Queue)) : (s.setQueues x).hostData = s.hostData := rfl
@[simp] theorem State.setQueues_hostEP (x : List (Nat × Queue)) : (s.setQueues x).hostEP = s.hostEP := rfl
@[simp] theorem State.setQueues_free (x : List (Nat × Queue)) : (s.setQueues x).free = s.free := rfl
@[simp] theorem State.setQueues_images (x : List (Nat × Queue)) : (s.setQueues x).images = s.images := rfl

@[simp] theorem State.setLastServed_pending (x : Nat) : (s.setLastServed x).pending = s.pending := rfl
@[simp] theorem State.setLastServed_regs (x : Nat) : (s.setLastServed x).regs = s.regs := rfl
@[simp] theorem State.setLastServed_raw (x : Nat) : (s.setLastServed x).raw = s.raw := rfl
@[simp] theorem State.setLastServed_mem (x : Nat) : (s.setLastServed x).mem = s.mem := rfl
@[simp] theorem State.setLastServed_gran (x : Nat) : (s.setLastServed x).gran = s.gran := rfl
@[simp] theorem State.setLastServed_wbq (x : Nat) : (s.setLastServed x).wbq = s.wbq := rfl
@[simp] theorem State.setLastServed_atm (x : Nat) : (s.setLastServed x).atm = s.atm := rfl
@[simp] theorem State.setLastServed_aord (x : Nat) : (s.setLastServed x).aord = s.aord := rfl
@[simp] theorem State.setLastServed_hostMem (x : Nat) : (s.setLastServed x).hostMem = s.hostMem := rfl
@[simp] theorem State.setLastServed_hostPoison (x : Nat) : (s.setLastServed x).hostPoison = s.hostPoison := rfl
@[simp] theorem State.setLastServed_tim (x : Nat) : (s.setLastServed x).tim = s.tim := rfl
@[simp] theorem State.setLastServed_stk (x : Nat) : (s.setLastServed x).stk = s.stk := rfl
@[simp] theorem State.setLastServed_pow (x : Nat) : (s.setLastServed x).pow = s.pow := rfl
@[simp] theorem State.setLastServed_pins (x : Nat) : (s.setLastServed x).pins = s.pins := rfl
@[simp] theorem State.setLastServed_fuseMem (x : Nat) : (s.setLastServed x).fuseMem = s.fuseMem := rfl
@[simp] theorem State.setLastServed_fuseSites (x : Nat) : (s.setLastServed x).fuseSites = s.fuseSites := rfl
@[simp] theorem State.setLastServed_recess (x : Nat) : (s.setLastServed x).recess = s.recess := rfl
@[simp] theorem State.setLastServed_queues (x : Nat) : (s.setLastServed x).queues = s.queues := rfl
@[simp] theorem State.setLastServed_lastServed (x : Nat) : (s.setLastServed x).lastServed = x := rfl
@[simp] theorem State.setLastServed_taken (x : Nat) : (s.setLastServed x).taken = s.taken := rfl
@[simp] theorem State.setLastServed_nextAccept (x : Nat) : (s.setLastServed x).nextAccept = s.nextAccept := rfl
@[simp] theorem State.setLastServed_hostTal (x : Nat) : (s.setLastServed x).hostTal = s.hostTal := rfl
@[simp] theorem State.setLastServed_tabSets (x : Nat) : (s.setLastServed x).tabSets = s.tabSets := rfl
@[simp] theorem State.setLastServed_tallies (x : Nat) : (s.setLastServed x).tallies = s.tallies := rfl
@[simp] theorem State.setLastServed_ctxs (x : Nat) : (s.setLastServed x).ctxs = s.ctxs := rfl
@[simp] theorem State.setLastServed_crews (x : Nat) : (s.setLastServed x).crews = s.crews := rfl
@[simp] theorem State.setLastServed_cores (x : Nat) : (s.setLastServed x).cores = s.cores := rfl
@[simp] theorem State.setLastServed_links (x : Nat) : (s.setLastServed x).links = s.links := rfl
@[simp] theorem State.setLastServed_flt (x : Nat) : (s.setLastServed x).flt = s.flt := rfl
@[simp] theorem State.setLastServed_cox (x : Nat) : (s.setLastServed x).cox = s.cox := rfl
@[simp] theorem State.setLastServed_nv (x : Nat) : (s.setLastServed x).nv = s.nv := rfl
@[simp] theorem State.setLastServed_rig (x : Nat) : (s.setLastServed x).rig = s.rig := rfl
@[simp] theorem State.setLastServed_conv (x : Nat) : (s.setLastServed x).conv = s.conv := rfl
@[simp] theorem State.setLastServed_pmc (x : Nat) : (s.setLastServed x).pmc = s.pmc := rfl
@[simp] theorem State.setLastServed_out (x : Nat) : (s.setLastServed x).out = s.out := rfl
@[simp] theorem State.setLastServed_hostData (x : Nat) : (s.setLastServed x).hostData = s.hostData := rfl
@[simp] theorem State.setLastServed_hostEP (x : Nat) : (s.setLastServed x).hostEP = s.hostEP := rfl
@[simp] theorem State.setLastServed_free (x : Nat) : (s.setLastServed x).free = s.free := rfl
@[simp] theorem State.setLastServed_images (x : Nat) : (s.setLastServed x).images = s.images := rfl

@[simp] theorem State.setTaken_pending (x : Nat) : (s.setTaken x).pending = s.pending := rfl
@[simp] theorem State.setTaken_regs (x : Nat) : (s.setTaken x).regs = s.regs := rfl
@[simp] theorem State.setTaken_raw (x : Nat) : (s.setTaken x).raw = s.raw := rfl
@[simp] theorem State.setTaken_mem (x : Nat) : (s.setTaken x).mem = s.mem := rfl
@[simp] theorem State.setTaken_gran (x : Nat) : (s.setTaken x).gran = s.gran := rfl
@[simp] theorem State.setTaken_wbq (x : Nat) : (s.setTaken x).wbq = s.wbq := rfl
@[simp] theorem State.setTaken_atm (x : Nat) : (s.setTaken x).atm = s.atm := rfl
@[simp] theorem State.setTaken_aord (x : Nat) : (s.setTaken x).aord = s.aord := rfl
@[simp] theorem State.setTaken_hostMem (x : Nat) : (s.setTaken x).hostMem = s.hostMem := rfl
@[simp] theorem State.setTaken_hostPoison (x : Nat) : (s.setTaken x).hostPoison = s.hostPoison := rfl
@[simp] theorem State.setTaken_tim (x : Nat) : (s.setTaken x).tim = s.tim := rfl
@[simp] theorem State.setTaken_stk (x : Nat) : (s.setTaken x).stk = s.stk := rfl
@[simp] theorem State.setTaken_pow (x : Nat) : (s.setTaken x).pow = s.pow := rfl
@[simp] theorem State.setTaken_pins (x : Nat) : (s.setTaken x).pins = s.pins := rfl
@[simp] theorem State.setTaken_fuseMem (x : Nat) : (s.setTaken x).fuseMem = s.fuseMem := rfl
@[simp] theorem State.setTaken_fuseSites (x : Nat) : (s.setTaken x).fuseSites = s.fuseSites := rfl
@[simp] theorem State.setTaken_recess (x : Nat) : (s.setTaken x).recess = s.recess := rfl
@[simp] theorem State.setTaken_queues (x : Nat) : (s.setTaken x).queues = s.queues := rfl
@[simp] theorem State.setTaken_lastServed (x : Nat) : (s.setTaken x).lastServed = s.lastServed := rfl
@[simp] theorem State.setTaken_taken (x : Nat) : (s.setTaken x).taken = x := rfl
@[simp] theorem State.setTaken_nextAccept (x : Nat) : (s.setTaken x).nextAccept = s.nextAccept := rfl
@[simp] theorem State.setTaken_hostTal (x : Nat) : (s.setTaken x).hostTal = s.hostTal := rfl
@[simp] theorem State.setTaken_tabSets (x : Nat) : (s.setTaken x).tabSets = s.tabSets := rfl
@[simp] theorem State.setTaken_tallies (x : Nat) : (s.setTaken x).tallies = s.tallies := rfl
@[simp] theorem State.setTaken_ctxs (x : Nat) : (s.setTaken x).ctxs = s.ctxs := rfl
@[simp] theorem State.setTaken_crews (x : Nat) : (s.setTaken x).crews = s.crews := rfl
@[simp] theorem State.setTaken_cores (x : Nat) : (s.setTaken x).cores = s.cores := rfl
@[simp] theorem State.setTaken_links (x : Nat) : (s.setTaken x).links = s.links := rfl
@[simp] theorem State.setTaken_flt (x : Nat) : (s.setTaken x).flt = s.flt := rfl
@[simp] theorem State.setTaken_cox (x : Nat) : (s.setTaken x).cox = s.cox := rfl
@[simp] theorem State.setTaken_nv (x : Nat) : (s.setTaken x).nv = s.nv := rfl
@[simp] theorem State.setTaken_rig (x : Nat) : (s.setTaken x).rig = s.rig := rfl
@[simp] theorem State.setTaken_conv (x : Nat) : (s.setTaken x).conv = s.conv := rfl
@[simp] theorem State.setTaken_pmc (x : Nat) : (s.setTaken x).pmc = s.pmc := rfl
@[simp] theorem State.setTaken_out (x : Nat) : (s.setTaken x).out = s.out := rfl
@[simp] theorem State.setTaken_hostData (x : Nat) : (s.setTaken x).hostData = s.hostData := rfl
@[simp] theorem State.setTaken_hostEP (x : Nat) : (s.setTaken x).hostEP = s.hostEP := rfl
@[simp] theorem State.setTaken_free (x : Nat) : (s.setTaken x).free = s.free := rfl
@[simp] theorem State.setTaken_images (x : Nat) : (s.setTaken x).images = s.images := rfl

@[simp] theorem State.setNextAccept_pending (x : Nat) : (s.setNextAccept x).pending = s.pending := rfl
@[simp] theorem State.setNextAccept_regs (x : Nat) : (s.setNextAccept x).regs = s.regs := rfl
@[simp] theorem State.setNextAccept_raw (x : Nat) : (s.setNextAccept x).raw = s.raw := rfl
@[simp] theorem State.setNextAccept_mem (x : Nat) : (s.setNextAccept x).mem = s.mem := rfl
@[simp] theorem State.setNextAccept_gran (x : Nat) : (s.setNextAccept x).gran = s.gran := rfl
@[simp] theorem State.setNextAccept_wbq (x : Nat) : (s.setNextAccept x).wbq = s.wbq := rfl
@[simp] theorem State.setNextAccept_atm (x : Nat) : (s.setNextAccept x).atm = s.atm := rfl
@[simp] theorem State.setNextAccept_aord (x : Nat) : (s.setNextAccept x).aord = s.aord := rfl
@[simp] theorem State.setNextAccept_hostMem (x : Nat) : (s.setNextAccept x).hostMem = s.hostMem := rfl
@[simp] theorem State.setNextAccept_hostPoison (x : Nat) : (s.setNextAccept x).hostPoison = s.hostPoison := rfl
@[simp] theorem State.setNextAccept_tim (x : Nat) : (s.setNextAccept x).tim = s.tim := rfl
@[simp] theorem State.setNextAccept_stk (x : Nat) : (s.setNextAccept x).stk = s.stk := rfl
@[simp] theorem State.setNextAccept_pow (x : Nat) : (s.setNextAccept x).pow = s.pow := rfl
@[simp] theorem State.setNextAccept_pins (x : Nat) : (s.setNextAccept x).pins = s.pins := rfl
@[simp] theorem State.setNextAccept_fuseMem (x : Nat) : (s.setNextAccept x).fuseMem = s.fuseMem := rfl
@[simp] theorem State.setNextAccept_fuseSites (x : Nat) : (s.setNextAccept x).fuseSites = s.fuseSites := rfl
@[simp] theorem State.setNextAccept_recess (x : Nat) : (s.setNextAccept x).recess = s.recess := rfl
@[simp] theorem State.setNextAccept_queues (x : Nat) : (s.setNextAccept x).queues = s.queues := rfl
@[simp] theorem State.setNextAccept_lastServed (x : Nat) : (s.setNextAccept x).lastServed = s.lastServed := rfl
@[simp] theorem State.setNextAccept_taken (x : Nat) : (s.setNextAccept x).taken = s.taken := rfl
@[simp] theorem State.setNextAccept_nextAccept (x : Nat) : (s.setNextAccept x).nextAccept = x := rfl
@[simp] theorem State.setNextAccept_hostTal (x : Nat) : (s.setNextAccept x).hostTal = s.hostTal := rfl
@[simp] theorem State.setNextAccept_tabSets (x : Nat) : (s.setNextAccept x).tabSets = s.tabSets := rfl
@[simp] theorem State.setNextAccept_tallies (x : Nat) : (s.setNextAccept x).tallies = s.tallies := rfl
@[simp] theorem State.setNextAccept_ctxs (x : Nat) : (s.setNextAccept x).ctxs = s.ctxs := rfl
@[simp] theorem State.setNextAccept_crews (x : Nat) : (s.setNextAccept x).crews = s.crews := rfl
@[simp] theorem State.setNextAccept_cores (x : Nat) : (s.setNextAccept x).cores = s.cores := rfl
@[simp] theorem State.setNextAccept_links (x : Nat) : (s.setNextAccept x).links = s.links := rfl
@[simp] theorem State.setNextAccept_flt (x : Nat) : (s.setNextAccept x).flt = s.flt := rfl
@[simp] theorem State.setNextAccept_cox (x : Nat) : (s.setNextAccept x).cox = s.cox := rfl
@[simp] theorem State.setNextAccept_nv (x : Nat) : (s.setNextAccept x).nv = s.nv := rfl
@[simp] theorem State.setNextAccept_rig (x : Nat) : (s.setNextAccept x).rig = s.rig := rfl
@[simp] theorem State.setNextAccept_conv (x : Nat) : (s.setNextAccept x).conv = s.conv := rfl
@[simp] theorem State.setNextAccept_pmc (x : Nat) : (s.setNextAccept x).pmc = s.pmc := rfl
@[simp] theorem State.setNextAccept_out (x : Nat) : (s.setNextAccept x).out = s.out := rfl
@[simp] theorem State.setNextAccept_hostData (x : Nat) : (s.setNextAccept x).hostData = s.hostData := rfl
@[simp] theorem State.setNextAccept_hostEP (x : Nat) : (s.setNextAccept x).hostEP = s.hostEP := rfl
@[simp] theorem State.setNextAccept_free (x : Nat) : (s.setNextAccept x).free = s.free := rfl
@[simp] theorem State.setNextAccept_images (x : Nat) : (s.setNextAccept x).images = s.images := rfl

@[simp] theorem State.setHostTal_pending (x : List TalWrite) : (s.setHostTal x).pending = s.pending := rfl
@[simp] theorem State.setHostTal_regs (x : List TalWrite) : (s.setHostTal x).regs = s.regs := rfl
@[simp] theorem State.setHostTal_raw (x : List TalWrite) : (s.setHostTal x).raw = s.raw := rfl
@[simp] theorem State.setHostTal_mem (x : List TalWrite) : (s.setHostTal x).mem = s.mem := rfl
@[simp] theorem State.setHostTal_gran (x : List TalWrite) : (s.setHostTal x).gran = s.gran := rfl
@[simp] theorem State.setHostTal_wbq (x : List TalWrite) : (s.setHostTal x).wbq = s.wbq := rfl
@[simp] theorem State.setHostTal_atm (x : List TalWrite) : (s.setHostTal x).atm = s.atm := rfl
@[simp] theorem State.setHostTal_aord (x : List TalWrite) : (s.setHostTal x).aord = s.aord := rfl
@[simp] theorem State.setHostTal_hostMem (x : List TalWrite) : (s.setHostTal x).hostMem = s.hostMem := rfl
@[simp] theorem State.setHostTal_hostPoison (x : List TalWrite) : (s.setHostTal x).hostPoison = s.hostPoison := rfl
@[simp] theorem State.setHostTal_tim (x : List TalWrite) : (s.setHostTal x).tim = s.tim := rfl
@[simp] theorem State.setHostTal_stk (x : List TalWrite) : (s.setHostTal x).stk = s.stk := rfl
@[simp] theorem State.setHostTal_pow (x : List TalWrite) : (s.setHostTal x).pow = s.pow := rfl
@[simp] theorem State.setHostTal_pins (x : List TalWrite) : (s.setHostTal x).pins = s.pins := rfl
@[simp] theorem State.setHostTal_fuseMem (x : List TalWrite) : (s.setHostTal x).fuseMem = s.fuseMem := rfl
@[simp] theorem State.setHostTal_fuseSites (x : List TalWrite) : (s.setHostTal x).fuseSites = s.fuseSites := rfl
@[simp] theorem State.setHostTal_recess (x : List TalWrite) : (s.setHostTal x).recess = s.recess := rfl
@[simp] theorem State.setHostTal_queues (x : List TalWrite) : (s.setHostTal x).queues = s.queues := rfl
@[simp] theorem State.setHostTal_lastServed (x : List TalWrite) : (s.setHostTal x).lastServed = s.lastServed := rfl
@[simp] theorem State.setHostTal_taken (x : List TalWrite) : (s.setHostTal x).taken = s.taken := rfl
@[simp] theorem State.setHostTal_nextAccept (x : List TalWrite) : (s.setHostTal x).nextAccept = s.nextAccept := rfl
@[simp] theorem State.setHostTal_hostTal (x : List TalWrite) : (s.setHostTal x).hostTal = x := rfl
@[simp] theorem State.setHostTal_tabSets (x : List TalWrite) : (s.setHostTal x).tabSets = s.tabSets := rfl
@[simp] theorem State.setHostTal_tallies (x : List TalWrite) : (s.setHostTal x).tallies = s.tallies := rfl
@[simp] theorem State.setHostTal_ctxs (x : List TalWrite) : (s.setHostTal x).ctxs = s.ctxs := rfl
@[simp] theorem State.setHostTal_crews (x : List TalWrite) : (s.setHostTal x).crews = s.crews := rfl
@[simp] theorem State.setHostTal_cores (x : List TalWrite) : (s.setHostTal x).cores = s.cores := rfl
@[simp] theorem State.setHostTal_links (x : List TalWrite) : (s.setHostTal x).links = s.links := rfl
@[simp] theorem State.setHostTal_flt (x : List TalWrite) : (s.setHostTal x).flt = s.flt := rfl
@[simp] theorem State.setHostTal_cox (x : List TalWrite) : (s.setHostTal x).cox = s.cox := rfl
@[simp] theorem State.setHostTal_nv (x : List TalWrite) : (s.setHostTal x).nv = s.nv := rfl
@[simp] theorem State.setHostTal_rig (x : List TalWrite) : (s.setHostTal x).rig = s.rig := rfl
@[simp] theorem State.setHostTal_conv (x : List TalWrite) : (s.setHostTal x).conv = s.conv := rfl
@[simp] theorem State.setHostTal_pmc (x : List TalWrite) : (s.setHostTal x).pmc = s.pmc := rfl
@[simp] theorem State.setHostTal_out (x : List TalWrite) : (s.setHostTal x).out = s.out := rfl
@[simp] theorem State.setHostTal_hostData (x : List TalWrite) : (s.setHostTal x).hostData = s.hostData := rfl
@[simp] theorem State.setHostTal_hostEP (x : List TalWrite) : (s.setHostTal x).hostEP = s.hostEP := rfl
@[simp] theorem State.setHostTal_free (x : List TalWrite) : (s.setHostTal x).free = s.free := rfl
@[simp] theorem State.setHostTal_images (x : List TalWrite) : (s.setHostTal x).images = s.images := rfl

@[simp] theorem State.setTabSets_pending (x : List TalWrite) : (s.setTabSets x).pending = s.pending := rfl
@[simp] theorem State.setTabSets_regs (x : List TalWrite) : (s.setTabSets x).regs = s.regs := rfl
@[simp] theorem State.setTabSets_raw (x : List TalWrite) : (s.setTabSets x).raw = s.raw := rfl
@[simp] theorem State.setTabSets_mem (x : List TalWrite) : (s.setTabSets x).mem = s.mem := rfl
@[simp] theorem State.setTabSets_gran (x : List TalWrite) : (s.setTabSets x).gran = s.gran := rfl
@[simp] theorem State.setTabSets_wbq (x : List TalWrite) : (s.setTabSets x).wbq = s.wbq := rfl
@[simp] theorem State.setTabSets_atm (x : List TalWrite) : (s.setTabSets x).atm = s.atm := rfl
@[simp] theorem State.setTabSets_aord (x : List TalWrite) : (s.setTabSets x).aord = s.aord := rfl
@[simp] theorem State.setTabSets_hostMem (x : List TalWrite) : (s.setTabSets x).hostMem = s.hostMem := rfl
@[simp] theorem State.setTabSets_hostPoison (x : List TalWrite) : (s.setTabSets x).hostPoison = s.hostPoison := rfl
@[simp] theorem State.setTabSets_tim (x : List TalWrite) : (s.setTabSets x).tim = s.tim := rfl
@[simp] theorem State.setTabSets_stk (x : List TalWrite) : (s.setTabSets x).stk = s.stk := rfl
@[simp] theorem State.setTabSets_pow (x : List TalWrite) : (s.setTabSets x).pow = s.pow := rfl
@[simp] theorem State.setTabSets_pins (x : List TalWrite) : (s.setTabSets x).pins = s.pins := rfl
@[simp] theorem State.setTabSets_fuseMem (x : List TalWrite) : (s.setTabSets x).fuseMem = s.fuseMem := rfl
@[simp] theorem State.setTabSets_fuseSites (x : List TalWrite) : (s.setTabSets x).fuseSites = s.fuseSites := rfl
@[simp] theorem State.setTabSets_recess (x : List TalWrite) : (s.setTabSets x).recess = s.recess := rfl
@[simp] theorem State.setTabSets_queues (x : List TalWrite) : (s.setTabSets x).queues = s.queues := rfl
@[simp] theorem State.setTabSets_lastServed (x : List TalWrite) : (s.setTabSets x).lastServed = s.lastServed := rfl
@[simp] theorem State.setTabSets_taken (x : List TalWrite) : (s.setTabSets x).taken = s.taken := rfl
@[simp] theorem State.setTabSets_nextAccept (x : List TalWrite) : (s.setTabSets x).nextAccept = s.nextAccept := rfl
@[simp] theorem State.setTabSets_hostTal (x : List TalWrite) : (s.setTabSets x).hostTal = s.hostTal := rfl
@[simp] theorem State.setTabSets_tabSets (x : List TalWrite) : (s.setTabSets x).tabSets = x := rfl
@[simp] theorem State.setTabSets_tallies (x : List TalWrite) : (s.setTabSets x).tallies = s.tallies := rfl
@[simp] theorem State.setTabSets_ctxs (x : List TalWrite) : (s.setTabSets x).ctxs = s.ctxs := rfl
@[simp] theorem State.setTabSets_crews (x : List TalWrite) : (s.setTabSets x).crews = s.crews := rfl
@[simp] theorem State.setTabSets_cores (x : List TalWrite) : (s.setTabSets x).cores = s.cores := rfl
@[simp] theorem State.setTabSets_links (x : List TalWrite) : (s.setTabSets x).links = s.links := rfl
@[simp] theorem State.setTabSets_flt (x : List TalWrite) : (s.setTabSets x).flt = s.flt := rfl
@[simp] theorem State.setTabSets_cox (x : List TalWrite) : (s.setTabSets x).cox = s.cox := rfl
@[simp] theorem State.setTabSets_nv (x : List TalWrite) : (s.setTabSets x).nv = s.nv := rfl
@[simp] theorem State.setTabSets_rig (x : List TalWrite) : (s.setTabSets x).rig = s.rig := rfl
@[simp] theorem State.setTabSets_conv (x : List TalWrite) : (s.setTabSets x).conv = s.conv := rfl
@[simp] theorem State.setTabSets_pmc (x : List TalWrite) : (s.setTabSets x).pmc = s.pmc := rfl
@[simp] theorem State.setTabSets_out (x : List TalWrite) : (s.setTabSets x).out = s.out := rfl
@[simp] theorem State.setTabSets_hostData (x : List TalWrite) : (s.setTabSets x).hostData = s.hostData := rfl
@[simp] theorem State.setTabSets_hostEP (x : List TalWrite) : (s.setTabSets x).hostEP = s.hostEP := rfl
@[simp] theorem State.setTabSets_free (x : List TalWrite) : (s.setTabSets x).free = s.free := rfl
@[simp] theorem State.setTabSets_images (x : List TalWrite) : (s.setTabSets x).images = s.images := rfl

@[simp] theorem State.setTallies_pending (x : List (Nat × Tally)) : (s.setTallies x).pending = s.pending := rfl
@[simp] theorem State.setTallies_regs (x : List (Nat × Tally)) : (s.setTallies x).regs = s.regs := rfl
@[simp] theorem State.setTallies_raw (x : List (Nat × Tally)) : (s.setTallies x).raw = s.raw := rfl
@[simp] theorem State.setTallies_mem (x : List (Nat × Tally)) : (s.setTallies x).mem = s.mem := rfl
@[simp] theorem State.setTallies_gran (x : List (Nat × Tally)) : (s.setTallies x).gran = s.gran := rfl
@[simp] theorem State.setTallies_wbq (x : List (Nat × Tally)) : (s.setTallies x).wbq = s.wbq := rfl
@[simp] theorem State.setTallies_atm (x : List (Nat × Tally)) : (s.setTallies x).atm = s.atm := rfl
@[simp] theorem State.setTallies_aord (x : List (Nat × Tally)) : (s.setTallies x).aord = s.aord := rfl
@[simp] theorem State.setTallies_hostMem (x : List (Nat × Tally)) : (s.setTallies x).hostMem = s.hostMem := rfl
@[simp] theorem State.setTallies_hostPoison (x : List (Nat × Tally)) : (s.setTallies x).hostPoison = s.hostPoison := rfl
@[simp] theorem State.setTallies_tim (x : List (Nat × Tally)) : (s.setTallies x).tim = s.tim := rfl
@[simp] theorem State.setTallies_stk (x : List (Nat × Tally)) : (s.setTallies x).stk = s.stk := rfl
@[simp] theorem State.setTallies_pow (x : List (Nat × Tally)) : (s.setTallies x).pow = s.pow := rfl
@[simp] theorem State.setTallies_pins (x : List (Nat × Tally)) : (s.setTallies x).pins = s.pins := rfl
@[simp] theorem State.setTallies_fuseMem (x : List (Nat × Tally)) : (s.setTallies x).fuseMem = s.fuseMem := rfl
@[simp] theorem State.setTallies_fuseSites (x : List (Nat × Tally)) : (s.setTallies x).fuseSites = s.fuseSites := rfl
@[simp] theorem State.setTallies_recess (x : List (Nat × Tally)) : (s.setTallies x).recess = s.recess := rfl
@[simp] theorem State.setTallies_queues (x : List (Nat × Tally)) : (s.setTallies x).queues = s.queues := rfl
@[simp] theorem State.setTallies_lastServed (x : List (Nat × Tally)) : (s.setTallies x).lastServed = s.lastServed := rfl
@[simp] theorem State.setTallies_taken (x : List (Nat × Tally)) : (s.setTallies x).taken = s.taken := rfl
@[simp] theorem State.setTallies_nextAccept (x : List (Nat × Tally)) : (s.setTallies x).nextAccept = s.nextAccept := rfl
@[simp] theorem State.setTallies_hostTal (x : List (Nat × Tally)) : (s.setTallies x).hostTal = s.hostTal := rfl
@[simp] theorem State.setTallies_tabSets (x : List (Nat × Tally)) : (s.setTallies x).tabSets = s.tabSets := rfl
@[simp] theorem State.setTallies_tallies (x : List (Nat × Tally)) : (s.setTallies x).tallies = x := rfl
@[simp] theorem State.setTallies_ctxs (x : List (Nat × Tally)) : (s.setTallies x).ctxs = s.ctxs := rfl
@[simp] theorem State.setTallies_crews (x : List (Nat × Tally)) : (s.setTallies x).crews = s.crews := rfl
@[simp] theorem State.setTallies_cores (x : List (Nat × Tally)) : (s.setTallies x).cores = s.cores := rfl
@[simp] theorem State.setTallies_links (x : List (Nat × Tally)) : (s.setTallies x).links = s.links := rfl
@[simp] theorem State.setTallies_flt (x : List (Nat × Tally)) : (s.setTallies x).flt = s.flt := rfl
@[simp] theorem State.setTallies_cox (x : List (Nat × Tally)) : (s.setTallies x).cox = s.cox := rfl
@[simp] theorem State.setTallies_nv (x : List (Nat × Tally)) : (s.setTallies x).nv = s.nv := rfl
@[simp] theorem State.setTallies_rig (x : List (Nat × Tally)) : (s.setTallies x).rig = s.rig := rfl
@[simp] theorem State.setTallies_conv (x : List (Nat × Tally)) : (s.setTallies x).conv = s.conv := rfl
@[simp] theorem State.setTallies_pmc (x : List (Nat × Tally)) : (s.setTallies x).pmc = s.pmc := rfl
@[simp] theorem State.setTallies_out (x : List (Nat × Tally)) : (s.setTallies x).out = s.out := rfl
@[simp] theorem State.setTallies_hostData (x : List (Nat × Tally)) : (s.setTallies x).hostData = s.hostData := rfl
@[simp] theorem State.setTallies_hostEP (x : List (Nat × Tally)) : (s.setTallies x).hostEP = s.hostEP := rfl
@[simp] theorem State.setTallies_free (x : List (Nat × Tally)) : (s.setTallies x).free = s.free := rfl
@[simp] theorem State.setTallies_images (x : List (Nat × Tally)) : (s.setTallies x).images = s.images := rfl

@[simp] theorem State.setCtxs_pending (x : List (Nat × Ctx)) : (s.setCtxs x).pending = s.pending := rfl
@[simp] theorem State.setCtxs_regs (x : List (Nat × Ctx)) : (s.setCtxs x).regs = s.regs := rfl
@[simp] theorem State.setCtxs_raw (x : List (Nat × Ctx)) : (s.setCtxs x).raw = s.raw := rfl
@[simp] theorem State.setCtxs_mem (x : List (Nat × Ctx)) : (s.setCtxs x).mem = s.mem := rfl
@[simp] theorem State.setCtxs_gran (x : List (Nat × Ctx)) : (s.setCtxs x).gran = s.gran := rfl
@[simp] theorem State.setCtxs_wbq (x : List (Nat × Ctx)) : (s.setCtxs x).wbq = s.wbq := rfl
@[simp] theorem State.setCtxs_atm (x : List (Nat × Ctx)) : (s.setCtxs x).atm = s.atm := rfl
@[simp] theorem State.setCtxs_aord (x : List (Nat × Ctx)) : (s.setCtxs x).aord = s.aord := rfl
@[simp] theorem State.setCtxs_hostMem (x : List (Nat × Ctx)) : (s.setCtxs x).hostMem = s.hostMem := rfl
@[simp] theorem State.setCtxs_hostPoison (x : List (Nat × Ctx)) : (s.setCtxs x).hostPoison = s.hostPoison := rfl
@[simp] theorem State.setCtxs_tim (x : List (Nat × Ctx)) : (s.setCtxs x).tim = s.tim := rfl
@[simp] theorem State.setCtxs_stk (x : List (Nat × Ctx)) : (s.setCtxs x).stk = s.stk := rfl
@[simp] theorem State.setCtxs_pow (x : List (Nat × Ctx)) : (s.setCtxs x).pow = s.pow := rfl
@[simp] theorem State.setCtxs_pins (x : List (Nat × Ctx)) : (s.setCtxs x).pins = s.pins := rfl
@[simp] theorem State.setCtxs_fuseMem (x : List (Nat × Ctx)) : (s.setCtxs x).fuseMem = s.fuseMem := rfl
@[simp] theorem State.setCtxs_fuseSites (x : List (Nat × Ctx)) : (s.setCtxs x).fuseSites = s.fuseSites := rfl
@[simp] theorem State.setCtxs_recess (x : List (Nat × Ctx)) : (s.setCtxs x).recess = s.recess := rfl
@[simp] theorem State.setCtxs_queues (x : List (Nat × Ctx)) : (s.setCtxs x).queues = s.queues := rfl
@[simp] theorem State.setCtxs_lastServed (x : List (Nat × Ctx)) : (s.setCtxs x).lastServed = s.lastServed := rfl
@[simp] theorem State.setCtxs_taken (x : List (Nat × Ctx)) : (s.setCtxs x).taken = s.taken := rfl
@[simp] theorem State.setCtxs_nextAccept (x : List (Nat × Ctx)) : (s.setCtxs x).nextAccept = s.nextAccept := rfl
@[simp] theorem State.setCtxs_hostTal (x : List (Nat × Ctx)) : (s.setCtxs x).hostTal = s.hostTal := rfl
@[simp] theorem State.setCtxs_tabSets (x : List (Nat × Ctx)) : (s.setCtxs x).tabSets = s.tabSets := rfl
@[simp] theorem State.setCtxs_tallies (x : List (Nat × Ctx)) : (s.setCtxs x).tallies = s.tallies := rfl
@[simp] theorem State.setCtxs_ctxs (x : List (Nat × Ctx)) : (s.setCtxs x).ctxs = x := rfl
@[simp] theorem State.setCtxs_crews (x : List (Nat × Ctx)) : (s.setCtxs x).crews = s.crews := rfl
@[simp] theorem State.setCtxs_cores (x : List (Nat × Ctx)) : (s.setCtxs x).cores = s.cores := rfl
@[simp] theorem State.setCtxs_links (x : List (Nat × Ctx)) : (s.setCtxs x).links = s.links := rfl
@[simp] theorem State.setCtxs_flt (x : List (Nat × Ctx)) : (s.setCtxs x).flt = s.flt := rfl
@[simp] theorem State.setCtxs_cox (x : List (Nat × Ctx)) : (s.setCtxs x).cox = s.cox := rfl
@[simp] theorem State.setCtxs_nv (x : List (Nat × Ctx)) : (s.setCtxs x).nv = s.nv := rfl
@[simp] theorem State.setCtxs_rig (x : List (Nat × Ctx)) : (s.setCtxs x).rig = s.rig := rfl
@[simp] theorem State.setCtxs_conv (x : List (Nat × Ctx)) : (s.setCtxs x).conv = s.conv := rfl
@[simp] theorem State.setCtxs_pmc (x : List (Nat × Ctx)) : (s.setCtxs x).pmc = s.pmc := rfl
@[simp] theorem State.setCtxs_out (x : List (Nat × Ctx)) : (s.setCtxs x).out = s.out := rfl
@[simp] theorem State.setCtxs_hostData (x : List (Nat × Ctx)) : (s.setCtxs x).hostData = s.hostData := rfl
@[simp] theorem State.setCtxs_hostEP (x : List (Nat × Ctx)) : (s.setCtxs x).hostEP = s.hostEP := rfl
@[simp] theorem State.setCtxs_free (x : List (Nat × Ctx)) : (s.setCtxs x).free = s.free := rfl
@[simp] theorem State.setCtxs_images (x : List (Nat × Ctx)) : (s.setCtxs x).images = s.images := rfl

@[simp] theorem State.setCrews_pending (x : List (Nat × Crew)) : (s.setCrews x).pending = s.pending := rfl
@[simp] theorem State.setCrews_regs (x : List (Nat × Crew)) : (s.setCrews x).regs = s.regs := rfl
@[simp] theorem State.setCrews_raw (x : List (Nat × Crew)) : (s.setCrews x).raw = s.raw := rfl
@[simp] theorem State.setCrews_mem (x : List (Nat × Crew)) : (s.setCrews x).mem = s.mem := rfl
@[simp] theorem State.setCrews_gran (x : List (Nat × Crew)) : (s.setCrews x).gran = s.gran := rfl
@[simp] theorem State.setCrews_wbq (x : List (Nat × Crew)) : (s.setCrews x).wbq = s.wbq := rfl
@[simp] theorem State.setCrews_atm (x : List (Nat × Crew)) : (s.setCrews x).atm = s.atm := rfl
@[simp] theorem State.setCrews_aord (x : List (Nat × Crew)) : (s.setCrews x).aord = s.aord := rfl
@[simp] theorem State.setCrews_hostMem (x : List (Nat × Crew)) : (s.setCrews x).hostMem = s.hostMem := rfl
@[simp] theorem State.setCrews_hostPoison (x : List (Nat × Crew)) : (s.setCrews x).hostPoison = s.hostPoison := rfl
@[simp] theorem State.setCrews_tim (x : List (Nat × Crew)) : (s.setCrews x).tim = s.tim := rfl
@[simp] theorem State.setCrews_stk (x : List (Nat × Crew)) : (s.setCrews x).stk = s.stk := rfl
@[simp] theorem State.setCrews_pow (x : List (Nat × Crew)) : (s.setCrews x).pow = s.pow := rfl
@[simp] theorem State.setCrews_pins (x : List (Nat × Crew)) : (s.setCrews x).pins = s.pins := rfl
@[simp] theorem State.setCrews_fuseMem (x : List (Nat × Crew)) : (s.setCrews x).fuseMem = s.fuseMem := rfl
@[simp] theorem State.setCrews_fuseSites (x : List (Nat × Crew)) : (s.setCrews x).fuseSites = s.fuseSites := rfl
@[simp] theorem State.setCrews_recess (x : List (Nat × Crew)) : (s.setCrews x).recess = s.recess := rfl
@[simp] theorem State.setCrews_queues (x : List (Nat × Crew)) : (s.setCrews x).queues = s.queues := rfl
@[simp] theorem State.setCrews_lastServed (x : List (Nat × Crew)) : (s.setCrews x).lastServed = s.lastServed := rfl
@[simp] theorem State.setCrews_taken (x : List (Nat × Crew)) : (s.setCrews x).taken = s.taken := rfl
@[simp] theorem State.setCrews_nextAccept (x : List (Nat × Crew)) : (s.setCrews x).nextAccept = s.nextAccept := rfl
@[simp] theorem State.setCrews_hostTal (x : List (Nat × Crew)) : (s.setCrews x).hostTal = s.hostTal := rfl
@[simp] theorem State.setCrews_tabSets (x : List (Nat × Crew)) : (s.setCrews x).tabSets = s.tabSets := rfl
@[simp] theorem State.setCrews_tallies (x : List (Nat × Crew)) : (s.setCrews x).tallies = s.tallies := rfl
@[simp] theorem State.setCrews_ctxs (x : List (Nat × Crew)) : (s.setCrews x).ctxs = s.ctxs := rfl
@[simp] theorem State.setCrews_crews (x : List (Nat × Crew)) : (s.setCrews x).crews = x := rfl
@[simp] theorem State.setCrews_cores (x : List (Nat × Crew)) : (s.setCrews x).cores = s.cores := rfl
@[simp] theorem State.setCrews_links (x : List (Nat × Crew)) : (s.setCrews x).links = s.links := rfl
@[simp] theorem State.setCrews_flt (x : List (Nat × Crew)) : (s.setCrews x).flt = s.flt := rfl
@[simp] theorem State.setCrews_cox (x : List (Nat × Crew)) : (s.setCrews x).cox = s.cox := rfl
@[simp] theorem State.setCrews_nv (x : List (Nat × Crew)) : (s.setCrews x).nv = s.nv := rfl
@[simp] theorem State.setCrews_rig (x : List (Nat × Crew)) : (s.setCrews x).rig = s.rig := rfl
@[simp] theorem State.setCrews_conv (x : List (Nat × Crew)) : (s.setCrews x).conv = s.conv := rfl
@[simp] theorem State.setCrews_pmc (x : List (Nat × Crew)) : (s.setCrews x).pmc = s.pmc := rfl
@[simp] theorem State.setCrews_out (x : List (Nat × Crew)) : (s.setCrews x).out = s.out := rfl
@[simp] theorem State.setCrews_hostData (x : List (Nat × Crew)) : (s.setCrews x).hostData = s.hostData := rfl
@[simp] theorem State.setCrews_hostEP (x : List (Nat × Crew)) : (s.setCrews x).hostEP = s.hostEP := rfl
@[simp] theorem State.setCrews_free (x : List (Nat × Crew)) : (s.setCrews x).free = s.free := rfl
@[simp] theorem State.setCrews_images (x : List (Nat × Crew)) : (s.setCrews x).images = s.images := rfl

@[simp] theorem State.setCores_pending (x : List (Nat × Core)) : (s.setCores x).pending = s.pending := rfl
@[simp] theorem State.setCores_regs (x : List (Nat × Core)) : (s.setCores x).regs = s.regs := rfl
@[simp] theorem State.setCores_raw (x : List (Nat × Core)) : (s.setCores x).raw = s.raw := rfl
@[simp] theorem State.setCores_mem (x : List (Nat × Core)) : (s.setCores x).mem = s.mem := rfl
@[simp] theorem State.setCores_gran (x : List (Nat × Core)) : (s.setCores x).gran = s.gran := rfl
@[simp] theorem State.setCores_wbq (x : List (Nat × Core)) : (s.setCores x).wbq = s.wbq := rfl
@[simp] theorem State.setCores_atm (x : List (Nat × Core)) : (s.setCores x).atm = s.atm := rfl
@[simp] theorem State.setCores_aord (x : List (Nat × Core)) : (s.setCores x).aord = s.aord := rfl
@[simp] theorem State.setCores_hostMem (x : List (Nat × Core)) : (s.setCores x).hostMem = s.hostMem := rfl
@[simp] theorem State.setCores_hostPoison (x : List (Nat × Core)) : (s.setCores x).hostPoison = s.hostPoison := rfl
@[simp] theorem State.setCores_tim (x : List (Nat × Core)) : (s.setCores x).tim = s.tim := rfl
@[simp] theorem State.setCores_stk (x : List (Nat × Core)) : (s.setCores x).stk = s.stk := rfl
@[simp] theorem State.setCores_pow (x : List (Nat × Core)) : (s.setCores x).pow = s.pow := rfl
@[simp] theorem State.setCores_pins (x : List (Nat × Core)) : (s.setCores x).pins = s.pins := rfl
@[simp] theorem State.setCores_fuseMem (x : List (Nat × Core)) : (s.setCores x).fuseMem = s.fuseMem := rfl
@[simp] theorem State.setCores_fuseSites (x : List (Nat × Core)) : (s.setCores x).fuseSites = s.fuseSites := rfl
@[simp] theorem State.setCores_recess (x : List (Nat × Core)) : (s.setCores x).recess = s.recess := rfl
@[simp] theorem State.setCores_queues (x : List (Nat × Core)) : (s.setCores x).queues = s.queues := rfl
@[simp] theorem State.setCores_lastServed (x : List (Nat × Core)) : (s.setCores x).lastServed = s.lastServed := rfl
@[simp] theorem State.setCores_taken (x : List (Nat × Core)) : (s.setCores x).taken = s.taken := rfl
@[simp] theorem State.setCores_nextAccept (x : List (Nat × Core)) : (s.setCores x).nextAccept = s.nextAccept := rfl
@[simp] theorem State.setCores_hostTal (x : List (Nat × Core)) : (s.setCores x).hostTal = s.hostTal := rfl
@[simp] theorem State.setCores_tabSets (x : List (Nat × Core)) : (s.setCores x).tabSets = s.tabSets := rfl
@[simp] theorem State.setCores_tallies (x : List (Nat × Core)) : (s.setCores x).tallies = s.tallies := rfl
@[simp] theorem State.setCores_ctxs (x : List (Nat × Core)) : (s.setCores x).ctxs = s.ctxs := rfl
@[simp] theorem State.setCores_crews (x : List (Nat × Core)) : (s.setCores x).crews = s.crews := rfl
@[simp] theorem State.setCores_cores (x : List (Nat × Core)) : (s.setCores x).cores = x := rfl
@[simp] theorem State.setCores_links (x : List (Nat × Core)) : (s.setCores x).links = s.links := rfl
@[simp] theorem State.setCores_flt (x : List (Nat × Core)) : (s.setCores x).flt = s.flt := rfl
@[simp] theorem State.setCores_cox (x : List (Nat × Core)) : (s.setCores x).cox = s.cox := rfl
@[simp] theorem State.setCores_nv (x : List (Nat × Core)) : (s.setCores x).nv = s.nv := rfl
@[simp] theorem State.setCores_rig (x : List (Nat × Core)) : (s.setCores x).rig = s.rig := rfl
@[simp] theorem State.setCores_conv (x : List (Nat × Core)) : (s.setCores x).conv = s.conv := rfl
@[simp] theorem State.setCores_pmc (x : List (Nat × Core)) : (s.setCores x).pmc = s.pmc := rfl
@[simp] theorem State.setCores_out (x : List (Nat × Core)) : (s.setCores x).out = s.out := rfl
@[simp] theorem State.setCores_hostData (x : List (Nat × Core)) : (s.setCores x).hostData = s.hostData := rfl
@[simp] theorem State.setCores_hostEP (x : List (Nat × Core)) : (s.setCores x).hostEP = s.hostEP := rfl
@[simp] theorem State.setCores_free (x : List (Nat × Core)) : (s.setCores x).free = s.free := rfl
@[simp] theorem State.setCores_images (x : List (Nat × Core)) : (s.setCores x).images = s.images := rfl

@[simp] theorem State.setLinks_pending (x : List (Nat × Link)) : (s.setLinks x).pending = s.pending := rfl
@[simp] theorem State.setLinks_regs (x : List (Nat × Link)) : (s.setLinks x).regs = s.regs := rfl
@[simp] theorem State.setLinks_raw (x : List (Nat × Link)) : (s.setLinks x).raw = s.raw := rfl
@[simp] theorem State.setLinks_mem (x : List (Nat × Link)) : (s.setLinks x).mem = s.mem := rfl
@[simp] theorem State.setLinks_gran (x : List (Nat × Link)) : (s.setLinks x).gran = s.gran := rfl
@[simp] theorem State.setLinks_wbq (x : List (Nat × Link)) : (s.setLinks x).wbq = s.wbq := rfl
@[simp] theorem State.setLinks_atm (x : List (Nat × Link)) : (s.setLinks x).atm = s.atm := rfl
@[simp] theorem State.setLinks_aord (x : List (Nat × Link)) : (s.setLinks x).aord = s.aord := rfl
@[simp] theorem State.setLinks_hostMem (x : List (Nat × Link)) : (s.setLinks x).hostMem = s.hostMem := rfl
@[simp] theorem State.setLinks_hostPoison (x : List (Nat × Link)) : (s.setLinks x).hostPoison = s.hostPoison := rfl
@[simp] theorem State.setLinks_tim (x : List (Nat × Link)) : (s.setLinks x).tim = s.tim := rfl
@[simp] theorem State.setLinks_stk (x : List (Nat × Link)) : (s.setLinks x).stk = s.stk := rfl
@[simp] theorem State.setLinks_pow (x : List (Nat × Link)) : (s.setLinks x).pow = s.pow := rfl
@[simp] theorem State.setLinks_pins (x : List (Nat × Link)) : (s.setLinks x).pins = s.pins := rfl
@[simp] theorem State.setLinks_fuseMem (x : List (Nat × Link)) : (s.setLinks x).fuseMem = s.fuseMem := rfl
@[simp] theorem State.setLinks_fuseSites (x : List (Nat × Link)) : (s.setLinks x).fuseSites = s.fuseSites := rfl
@[simp] theorem State.setLinks_recess (x : List (Nat × Link)) : (s.setLinks x).recess = s.recess := rfl
@[simp] theorem State.setLinks_queues (x : List (Nat × Link)) : (s.setLinks x).queues = s.queues := rfl
@[simp] theorem State.setLinks_lastServed (x : List (Nat × Link)) : (s.setLinks x).lastServed = s.lastServed := rfl
@[simp] theorem State.setLinks_taken (x : List (Nat × Link)) : (s.setLinks x).taken = s.taken := rfl
@[simp] theorem State.setLinks_nextAccept (x : List (Nat × Link)) : (s.setLinks x).nextAccept = s.nextAccept := rfl
@[simp] theorem State.setLinks_hostTal (x : List (Nat × Link)) : (s.setLinks x).hostTal = s.hostTal := rfl
@[simp] theorem State.setLinks_tabSets (x : List (Nat × Link)) : (s.setLinks x).tabSets = s.tabSets := rfl
@[simp] theorem State.setLinks_tallies (x : List (Nat × Link)) : (s.setLinks x).tallies = s.tallies := rfl
@[simp] theorem State.setLinks_ctxs (x : List (Nat × Link)) : (s.setLinks x).ctxs = s.ctxs := rfl
@[simp] theorem State.setLinks_crews (x : List (Nat × Link)) : (s.setLinks x).crews = s.crews := rfl
@[simp] theorem State.setLinks_cores (x : List (Nat × Link)) : (s.setLinks x).cores = s.cores := rfl
@[simp] theorem State.setLinks_links (x : List (Nat × Link)) : (s.setLinks x).links = x := rfl
@[simp] theorem State.setLinks_flt (x : List (Nat × Link)) : (s.setLinks x).flt = s.flt := rfl
@[simp] theorem State.setLinks_cox (x : List (Nat × Link)) : (s.setLinks x).cox = s.cox := rfl
@[simp] theorem State.setLinks_nv (x : List (Nat × Link)) : (s.setLinks x).nv = s.nv := rfl
@[simp] theorem State.setLinks_rig (x : List (Nat × Link)) : (s.setLinks x).rig = s.rig := rfl
@[simp] theorem State.setLinks_conv (x : List (Nat × Link)) : (s.setLinks x).conv = s.conv := rfl
@[simp] theorem State.setLinks_pmc (x : List (Nat × Link)) : (s.setLinks x).pmc = s.pmc := rfl
@[simp] theorem State.setLinks_out (x : List (Nat × Link)) : (s.setLinks x).out = s.out := rfl
@[simp] theorem State.setLinks_hostData (x : List (Nat × Link)) : (s.setLinks x).hostData = s.hostData := rfl
@[simp] theorem State.setLinks_hostEP (x : List (Nat × Link)) : (s.setLinks x).hostEP = s.hostEP := rfl
@[simp] theorem State.setLinks_free (x : List (Nat × Link)) : (s.setLinks x).free = s.free := rfl
@[simp] theorem State.setLinks_images (x : List (Nat × Link)) : (s.setLinks x).images = s.images := rfl

@[simp] theorem State.setFlt_pending (x : Flt) : (s.setFlt x).pending = s.pending := rfl
@[simp] theorem State.setFlt_regs (x : Flt) : (s.setFlt x).regs = s.regs := rfl
@[simp] theorem State.setFlt_raw (x : Flt) : (s.setFlt x).raw = s.raw := rfl
@[simp] theorem State.setFlt_mem (x : Flt) : (s.setFlt x).mem = s.mem := rfl
@[simp] theorem State.setFlt_gran (x : Flt) : (s.setFlt x).gran = s.gran := rfl
@[simp] theorem State.setFlt_wbq (x : Flt) : (s.setFlt x).wbq = s.wbq := rfl
@[simp] theorem State.setFlt_atm (x : Flt) : (s.setFlt x).atm = s.atm := rfl
@[simp] theorem State.setFlt_aord (x : Flt) : (s.setFlt x).aord = s.aord := rfl
@[simp] theorem State.setFlt_hostMem (x : Flt) : (s.setFlt x).hostMem = s.hostMem := rfl
@[simp] theorem State.setFlt_hostPoison (x : Flt) : (s.setFlt x).hostPoison = s.hostPoison := rfl
@[simp] theorem State.setFlt_tim (x : Flt) : (s.setFlt x).tim = s.tim := rfl
@[simp] theorem State.setFlt_stk (x : Flt) : (s.setFlt x).stk = s.stk := rfl
@[simp] theorem State.setFlt_pow (x : Flt) : (s.setFlt x).pow = s.pow := rfl
@[simp] theorem State.setFlt_pins (x : Flt) : (s.setFlt x).pins = s.pins := rfl
@[simp] theorem State.setFlt_fuseMem (x : Flt) : (s.setFlt x).fuseMem = s.fuseMem := rfl
@[simp] theorem State.setFlt_fuseSites (x : Flt) : (s.setFlt x).fuseSites = s.fuseSites := rfl
@[simp] theorem State.setFlt_recess (x : Flt) : (s.setFlt x).recess = s.recess := rfl
@[simp] theorem State.setFlt_queues (x : Flt) : (s.setFlt x).queues = s.queues := rfl
@[simp] theorem State.setFlt_lastServed (x : Flt) : (s.setFlt x).lastServed = s.lastServed := rfl
@[simp] theorem State.setFlt_taken (x : Flt) : (s.setFlt x).taken = s.taken := rfl
@[simp] theorem State.setFlt_nextAccept (x : Flt) : (s.setFlt x).nextAccept = s.nextAccept := rfl
@[simp] theorem State.setFlt_hostTal (x : Flt) : (s.setFlt x).hostTal = s.hostTal := rfl
@[simp] theorem State.setFlt_tabSets (x : Flt) : (s.setFlt x).tabSets = s.tabSets := rfl
@[simp] theorem State.setFlt_tallies (x : Flt) : (s.setFlt x).tallies = s.tallies := rfl
@[simp] theorem State.setFlt_ctxs (x : Flt) : (s.setFlt x).ctxs = s.ctxs := rfl
@[simp] theorem State.setFlt_crews (x : Flt) : (s.setFlt x).crews = s.crews := rfl
@[simp] theorem State.setFlt_cores (x : Flt) : (s.setFlt x).cores = s.cores := rfl
@[simp] theorem State.setFlt_links (x : Flt) : (s.setFlt x).links = s.links := rfl
@[simp] theorem State.setFlt_flt (x : Flt) : (s.setFlt x).flt = x := rfl
@[simp] theorem State.setFlt_cox (x : Flt) : (s.setFlt x).cox = s.cox := rfl
@[simp] theorem State.setFlt_nv (x : Flt) : (s.setFlt x).nv = s.nv := rfl
@[simp] theorem State.setFlt_rig (x : Flt) : (s.setFlt x).rig = s.rig := rfl
@[simp] theorem State.setFlt_conv (x : Flt) : (s.setFlt x).conv = s.conv := rfl
@[simp] theorem State.setFlt_pmc (x : Flt) : (s.setFlt x).pmc = s.pmc := rfl
@[simp] theorem State.setFlt_out (x : Flt) : (s.setFlt x).out = s.out := rfl
@[simp] theorem State.setFlt_hostData (x : Flt) : (s.setFlt x).hostData = s.hostData := rfl
@[simp] theorem State.setFlt_hostEP (x : Flt) : (s.setFlt x).hostEP = s.hostEP := rfl
@[simp] theorem State.setFlt_free (x : Flt) : (s.setFlt x).free = s.free := rfl
@[simp] theorem State.setFlt_images (x : Flt) : (s.setFlt x).images = s.images := rfl

@[simp] theorem State.setCox_pending (x : Cox) : (s.setCox x).pending = s.pending := rfl
@[simp] theorem State.setCox_regs (x : Cox) : (s.setCox x).regs = s.regs := rfl
@[simp] theorem State.setCox_raw (x : Cox) : (s.setCox x).raw = s.raw := rfl
@[simp] theorem State.setCox_mem (x : Cox) : (s.setCox x).mem = s.mem := rfl
@[simp] theorem State.setCox_gran (x : Cox) : (s.setCox x).gran = s.gran := rfl
@[simp] theorem State.setCox_wbq (x : Cox) : (s.setCox x).wbq = s.wbq := rfl
@[simp] theorem State.setCox_atm (x : Cox) : (s.setCox x).atm = s.atm := rfl
@[simp] theorem State.setCox_aord (x : Cox) : (s.setCox x).aord = s.aord := rfl
@[simp] theorem State.setCox_hostMem (x : Cox) : (s.setCox x).hostMem = s.hostMem := rfl
@[simp] theorem State.setCox_hostPoison (x : Cox) : (s.setCox x).hostPoison = s.hostPoison := rfl
@[simp] theorem State.setCox_tim (x : Cox) : (s.setCox x).tim = s.tim := rfl
@[simp] theorem State.setCox_stk (x : Cox) : (s.setCox x).stk = s.stk := rfl
@[simp] theorem State.setCox_pow (x : Cox) : (s.setCox x).pow = s.pow := rfl
@[simp] theorem State.setCox_pins (x : Cox) : (s.setCox x).pins = s.pins := rfl
@[simp] theorem State.setCox_fuseMem (x : Cox) : (s.setCox x).fuseMem = s.fuseMem := rfl
@[simp] theorem State.setCox_fuseSites (x : Cox) : (s.setCox x).fuseSites = s.fuseSites := rfl
@[simp] theorem State.setCox_recess (x : Cox) : (s.setCox x).recess = s.recess := rfl
@[simp] theorem State.setCox_queues (x : Cox) : (s.setCox x).queues = s.queues := rfl
@[simp] theorem State.setCox_lastServed (x : Cox) : (s.setCox x).lastServed = s.lastServed := rfl
@[simp] theorem State.setCox_taken (x : Cox) : (s.setCox x).taken = s.taken := rfl
@[simp] theorem State.setCox_nextAccept (x : Cox) : (s.setCox x).nextAccept = s.nextAccept := rfl
@[simp] theorem State.setCox_hostTal (x : Cox) : (s.setCox x).hostTal = s.hostTal := rfl
@[simp] theorem State.setCox_tabSets (x : Cox) : (s.setCox x).tabSets = s.tabSets := rfl
@[simp] theorem State.setCox_tallies (x : Cox) : (s.setCox x).tallies = s.tallies := rfl
@[simp] theorem State.setCox_ctxs (x : Cox) : (s.setCox x).ctxs = s.ctxs := rfl
@[simp] theorem State.setCox_crews (x : Cox) : (s.setCox x).crews = s.crews := rfl
@[simp] theorem State.setCox_cores (x : Cox) : (s.setCox x).cores = s.cores := rfl
@[simp] theorem State.setCox_links (x : Cox) : (s.setCox x).links = s.links := rfl
@[simp] theorem State.setCox_flt (x : Cox) : (s.setCox x).flt = s.flt := rfl
@[simp] theorem State.setCox_cox (x : Cox) : (s.setCox x).cox = x := rfl
@[simp] theorem State.setCox_nv (x : Cox) : (s.setCox x).nv = s.nv := rfl
@[simp] theorem State.setCox_rig (x : Cox) : (s.setCox x).rig = s.rig := rfl
@[simp] theorem State.setCox_conv (x : Cox) : (s.setCox x).conv = s.conv := rfl
@[simp] theorem State.setCox_pmc (x : Cox) : (s.setCox x).pmc = s.pmc := rfl
@[simp] theorem State.setCox_out (x : Cox) : (s.setCox x).out = s.out := rfl
@[simp] theorem State.setCox_hostData (x : Cox) : (s.setCox x).hostData = s.hostData := rfl
@[simp] theorem State.setCox_hostEP (x : Cox) : (s.setCox x).hostEP = s.hostEP := rfl
@[simp] theorem State.setCox_free (x : Cox) : (s.setCox x).free = s.free := rfl
@[simp] theorem State.setCox_images (x : Cox) : (s.setCox x).images = s.images := rfl

@[simp] theorem State.setNv_pending (x : Nv) : (s.setNv x).pending = s.pending := rfl
@[simp] theorem State.setNv_regs (x : Nv) : (s.setNv x).regs = s.regs := rfl
@[simp] theorem State.setNv_raw (x : Nv) : (s.setNv x).raw = s.raw := rfl
@[simp] theorem State.setNv_mem (x : Nv) : (s.setNv x).mem = s.mem := rfl
@[simp] theorem State.setNv_gran (x : Nv) : (s.setNv x).gran = s.gran := rfl
@[simp] theorem State.setNv_wbq (x : Nv) : (s.setNv x).wbq = s.wbq := rfl
@[simp] theorem State.setNv_atm (x : Nv) : (s.setNv x).atm = s.atm := rfl
@[simp] theorem State.setNv_aord (x : Nv) : (s.setNv x).aord = s.aord := rfl
@[simp] theorem State.setNv_hostMem (x : Nv) : (s.setNv x).hostMem = s.hostMem := rfl
@[simp] theorem State.setNv_hostPoison (x : Nv) : (s.setNv x).hostPoison = s.hostPoison := rfl
@[simp] theorem State.setNv_tim (x : Nv) : (s.setNv x).tim = s.tim := rfl
@[simp] theorem State.setNv_stk (x : Nv) : (s.setNv x).stk = s.stk := rfl
@[simp] theorem State.setNv_pow (x : Nv) : (s.setNv x).pow = s.pow := rfl
@[simp] theorem State.setNv_pins (x : Nv) : (s.setNv x).pins = s.pins := rfl
@[simp] theorem State.setNv_fuseMem (x : Nv) : (s.setNv x).fuseMem = s.fuseMem := rfl
@[simp] theorem State.setNv_fuseSites (x : Nv) : (s.setNv x).fuseSites = s.fuseSites := rfl
@[simp] theorem State.setNv_recess (x : Nv) : (s.setNv x).recess = s.recess := rfl
@[simp] theorem State.setNv_queues (x : Nv) : (s.setNv x).queues = s.queues := rfl
@[simp] theorem State.setNv_lastServed (x : Nv) : (s.setNv x).lastServed = s.lastServed := rfl
@[simp] theorem State.setNv_taken (x : Nv) : (s.setNv x).taken = s.taken := rfl
@[simp] theorem State.setNv_nextAccept (x : Nv) : (s.setNv x).nextAccept = s.nextAccept := rfl
@[simp] theorem State.setNv_hostTal (x : Nv) : (s.setNv x).hostTal = s.hostTal := rfl
@[simp] theorem State.setNv_tabSets (x : Nv) : (s.setNv x).tabSets = s.tabSets := rfl
@[simp] theorem State.setNv_tallies (x : Nv) : (s.setNv x).tallies = s.tallies := rfl
@[simp] theorem State.setNv_ctxs (x : Nv) : (s.setNv x).ctxs = s.ctxs := rfl
@[simp] theorem State.setNv_crews (x : Nv) : (s.setNv x).crews = s.crews := rfl
@[simp] theorem State.setNv_cores (x : Nv) : (s.setNv x).cores = s.cores := rfl
@[simp] theorem State.setNv_links (x : Nv) : (s.setNv x).links = s.links := rfl
@[simp] theorem State.setNv_flt (x : Nv) : (s.setNv x).flt = s.flt := rfl
@[simp] theorem State.setNv_cox (x : Nv) : (s.setNv x).cox = s.cox := rfl
@[simp] theorem State.setNv_nv (x : Nv) : (s.setNv x).nv = x := rfl
@[simp] theorem State.setNv_rig (x : Nv) : (s.setNv x).rig = s.rig := rfl
@[simp] theorem State.setNv_conv (x : Nv) : (s.setNv x).conv = s.conv := rfl
@[simp] theorem State.setNv_pmc (x : Nv) : (s.setNv x).pmc = s.pmc := rfl
@[simp] theorem State.setNv_out (x : Nv) : (s.setNv x).out = s.out := rfl
@[simp] theorem State.setNv_hostData (x : Nv) : (s.setNv x).hostData = s.hostData := rfl
@[simp] theorem State.setNv_hostEP (x : Nv) : (s.setNv x).hostEP = s.hostEP := rfl
@[simp] theorem State.setNv_free (x : Nv) : (s.setNv x).free = s.free := rfl
@[simp] theorem State.setNv_images (x : Nv) : (s.setNv x).images = s.images := rfl

@[simp] theorem State.setRig_pending (x : RigSt) : (s.setRig x).pending = s.pending := rfl
@[simp] theorem State.setRig_regs (x : RigSt) : (s.setRig x).regs = s.regs := rfl
@[simp] theorem State.setRig_raw (x : RigSt) : (s.setRig x).raw = s.raw := rfl
@[simp] theorem State.setRig_mem (x : RigSt) : (s.setRig x).mem = s.mem := rfl
@[simp] theorem State.setRig_gran (x : RigSt) : (s.setRig x).gran = s.gran := rfl
@[simp] theorem State.setRig_wbq (x : RigSt) : (s.setRig x).wbq = s.wbq := rfl
@[simp] theorem State.setRig_atm (x : RigSt) : (s.setRig x).atm = s.atm := rfl
@[simp] theorem State.setRig_aord (x : RigSt) : (s.setRig x).aord = s.aord := rfl
@[simp] theorem State.setRig_hostMem (x : RigSt) : (s.setRig x).hostMem = s.hostMem := rfl
@[simp] theorem State.setRig_hostPoison (x : RigSt) : (s.setRig x).hostPoison = s.hostPoison := rfl
@[simp] theorem State.setRig_tim (x : RigSt) : (s.setRig x).tim = s.tim := rfl
@[simp] theorem State.setRig_stk (x : RigSt) : (s.setRig x).stk = s.stk := rfl
@[simp] theorem State.setRig_pow (x : RigSt) : (s.setRig x).pow = s.pow := rfl
@[simp] theorem State.setRig_pins (x : RigSt) : (s.setRig x).pins = s.pins := rfl
@[simp] theorem State.setRig_fuseMem (x : RigSt) : (s.setRig x).fuseMem = s.fuseMem := rfl
@[simp] theorem State.setRig_fuseSites (x : RigSt) : (s.setRig x).fuseSites = s.fuseSites := rfl
@[simp] theorem State.setRig_recess (x : RigSt) : (s.setRig x).recess = s.recess := rfl
@[simp] theorem State.setRig_queues (x : RigSt) : (s.setRig x).queues = s.queues := rfl
@[simp] theorem State.setRig_lastServed (x : RigSt) : (s.setRig x).lastServed = s.lastServed := rfl
@[simp] theorem State.setRig_taken (x : RigSt) : (s.setRig x).taken = s.taken := rfl
@[simp] theorem State.setRig_nextAccept (x : RigSt) : (s.setRig x).nextAccept = s.nextAccept := rfl
@[simp] theorem State.setRig_hostTal (x : RigSt) : (s.setRig x).hostTal = s.hostTal := rfl
@[simp] theorem State.setRig_tabSets (x : RigSt) : (s.setRig x).tabSets = s.tabSets := rfl
@[simp] theorem State.setRig_tallies (x : RigSt) : (s.setRig x).tallies = s.tallies := rfl
@[simp] theorem State.setRig_ctxs (x : RigSt) : (s.setRig x).ctxs = s.ctxs := rfl
@[simp] theorem State.setRig_crews (x : RigSt) : (s.setRig x).crews = s.crews := rfl
@[simp] theorem State.setRig_cores (x : RigSt) : (s.setRig x).cores = s.cores := rfl
@[simp] theorem State.setRig_links (x : RigSt) : (s.setRig x).links = s.links := rfl
@[simp] theorem State.setRig_flt (x : RigSt) : (s.setRig x).flt = s.flt := rfl
@[simp] theorem State.setRig_cox (x : RigSt) : (s.setRig x).cox = s.cox := rfl
@[simp] theorem State.setRig_nv (x : RigSt) : (s.setRig x).nv = s.nv := rfl
@[simp] theorem State.setRig_rig (x : RigSt) : (s.setRig x).rig = x := rfl
@[simp] theorem State.setRig_conv (x : RigSt) : (s.setRig x).conv = s.conv := rfl
@[simp] theorem State.setRig_pmc (x : RigSt) : (s.setRig x).pmc = s.pmc := rfl
@[simp] theorem State.setRig_out (x : RigSt) : (s.setRig x).out = s.out := rfl
@[simp] theorem State.setRig_hostData (x : RigSt) : (s.setRig x).hostData = s.hostData := rfl
@[simp] theorem State.setRig_hostEP (x : RigSt) : (s.setRig x).hostEP = s.hostEP := rfl
@[simp] theorem State.setRig_free (x : RigSt) : (s.setRig x).free = s.free := rfl
@[simp] theorem State.setRig_images (x : RigSt) : (s.setRig x).images = s.images := rfl

@[simp] theorem State.setConv_pending (x : Conv) : (s.setConv x).pending = s.pending := rfl
@[simp] theorem State.setConv_regs (x : Conv) : (s.setConv x).regs = s.regs := rfl
@[simp] theorem State.setConv_raw (x : Conv) : (s.setConv x).raw = s.raw := rfl
@[simp] theorem State.setConv_mem (x : Conv) : (s.setConv x).mem = s.mem := rfl
@[simp] theorem State.setConv_gran (x : Conv) : (s.setConv x).gran = s.gran := rfl
@[simp] theorem State.setConv_wbq (x : Conv) : (s.setConv x).wbq = s.wbq := rfl
@[simp] theorem State.setConv_atm (x : Conv) : (s.setConv x).atm = s.atm := rfl
@[simp] theorem State.setConv_aord (x : Conv) : (s.setConv x).aord = s.aord := rfl
@[simp] theorem State.setConv_hostMem (x : Conv) : (s.setConv x).hostMem = s.hostMem := rfl
@[simp] theorem State.setConv_hostPoison (x : Conv) : (s.setConv x).hostPoison = s.hostPoison := rfl
@[simp] theorem State.setConv_tim (x : Conv) : (s.setConv x).tim = s.tim := rfl
@[simp] theorem State.setConv_stk (x : Conv) : (s.setConv x).stk = s.stk := rfl
@[simp] theorem State.setConv_pow (x : Conv) : (s.setConv x).pow = s.pow := rfl
@[simp] theorem State.setConv_pins (x : Conv) : (s.setConv x).pins = s.pins := rfl
@[simp] theorem State.setConv_fuseMem (x : Conv) : (s.setConv x).fuseMem = s.fuseMem := rfl
@[simp] theorem State.setConv_fuseSites (x : Conv) : (s.setConv x).fuseSites = s.fuseSites := rfl
@[simp] theorem State.setConv_recess (x : Conv) : (s.setConv x).recess = s.recess := rfl
@[simp] theorem State.setConv_queues (x : Conv) : (s.setConv x).queues = s.queues := rfl
@[simp] theorem State.setConv_lastServed (x : Conv) : (s.setConv x).lastServed = s.lastServed := rfl
@[simp] theorem State.setConv_taken (x : Conv) : (s.setConv x).taken = s.taken := rfl
@[simp] theorem State.setConv_nextAccept (x : Conv) : (s.setConv x).nextAccept = s.nextAccept := rfl
@[simp] theorem State.setConv_hostTal (x : Conv) : (s.setConv x).hostTal = s.hostTal := rfl
@[simp] theorem State.setConv_tabSets (x : Conv) : (s.setConv x).tabSets = s.tabSets := rfl
@[simp] theorem State.setConv_tallies (x : Conv) : (s.setConv x).tallies = s.tallies := rfl
@[simp] theorem State.setConv_ctxs (x : Conv) : (s.setConv x).ctxs = s.ctxs := rfl
@[simp] theorem State.setConv_crews (x : Conv) : (s.setConv x).crews = s.crews := rfl
@[simp] theorem State.setConv_cores (x : Conv) : (s.setConv x).cores = s.cores := rfl
@[simp] theorem State.setConv_links (x : Conv) : (s.setConv x).links = s.links := rfl
@[simp] theorem State.setConv_flt (x : Conv) : (s.setConv x).flt = s.flt := rfl
@[simp] theorem State.setConv_cox (x : Conv) : (s.setConv x).cox = s.cox := rfl
@[simp] theorem State.setConv_nv (x : Conv) : (s.setConv x).nv = s.nv := rfl
@[simp] theorem State.setConv_rig (x : Conv) : (s.setConv x).rig = s.rig := rfl
@[simp] theorem State.setConv_conv (x : Conv) : (s.setConv x).conv = x := rfl
@[simp] theorem State.setConv_pmc (x : Conv) : (s.setConv x).pmc = s.pmc := rfl
@[simp] theorem State.setConv_out (x : Conv) : (s.setConv x).out = s.out := rfl
@[simp] theorem State.setConv_hostData (x : Conv) : (s.setConv x).hostData = s.hostData := rfl
@[simp] theorem State.setConv_hostEP (x : Conv) : (s.setConv x).hostEP = s.hostEP := rfl
@[simp] theorem State.setConv_free (x : Conv) : (s.setConv x).free = s.free := rfl
@[simp] theorem State.setConv_images (x : Conv) : (s.setConv x).images = s.images := rfl

@[simp] theorem State.setPmc_pending (x : Pmc) : (s.setPmc x).pending = s.pending := rfl
@[simp] theorem State.setPmc_regs (x : Pmc) : (s.setPmc x).regs = s.regs := rfl
@[simp] theorem State.setPmc_raw (x : Pmc) : (s.setPmc x).raw = s.raw := rfl
@[simp] theorem State.setPmc_mem (x : Pmc) : (s.setPmc x).mem = s.mem := rfl
@[simp] theorem State.setPmc_gran (x : Pmc) : (s.setPmc x).gran = s.gran := rfl
@[simp] theorem State.setPmc_wbq (x : Pmc) : (s.setPmc x).wbq = s.wbq := rfl
@[simp] theorem State.setPmc_atm (x : Pmc) : (s.setPmc x).atm = s.atm := rfl
@[simp] theorem State.setPmc_aord (x : Pmc) : (s.setPmc x).aord = s.aord := rfl
@[simp] theorem State.setPmc_hostMem (x : Pmc) : (s.setPmc x).hostMem = s.hostMem := rfl
@[simp] theorem State.setPmc_hostPoison (x : Pmc) : (s.setPmc x).hostPoison = s.hostPoison := rfl
@[simp] theorem State.setPmc_tim (x : Pmc) : (s.setPmc x).tim = s.tim := rfl
@[simp] theorem State.setPmc_stk (x : Pmc) : (s.setPmc x).stk = s.stk := rfl
@[simp] theorem State.setPmc_pow (x : Pmc) : (s.setPmc x).pow = s.pow := rfl
@[simp] theorem State.setPmc_pins (x : Pmc) : (s.setPmc x).pins = s.pins := rfl
@[simp] theorem State.setPmc_fuseMem (x : Pmc) : (s.setPmc x).fuseMem = s.fuseMem := rfl
@[simp] theorem State.setPmc_fuseSites (x : Pmc) : (s.setPmc x).fuseSites = s.fuseSites := rfl
@[simp] theorem State.setPmc_recess (x : Pmc) : (s.setPmc x).recess = s.recess := rfl
@[simp] theorem State.setPmc_queues (x : Pmc) : (s.setPmc x).queues = s.queues := rfl
@[simp] theorem State.setPmc_lastServed (x : Pmc) : (s.setPmc x).lastServed = s.lastServed := rfl
@[simp] theorem State.setPmc_taken (x : Pmc) : (s.setPmc x).taken = s.taken := rfl
@[simp] theorem State.setPmc_nextAccept (x : Pmc) : (s.setPmc x).nextAccept = s.nextAccept := rfl
@[simp] theorem State.setPmc_hostTal (x : Pmc) : (s.setPmc x).hostTal = s.hostTal := rfl
@[simp] theorem State.setPmc_tabSets (x : Pmc) : (s.setPmc x).tabSets = s.tabSets := rfl
@[simp] theorem State.setPmc_tallies (x : Pmc) : (s.setPmc x).tallies = s.tallies := rfl
@[simp] theorem State.setPmc_ctxs (x : Pmc) : (s.setPmc x).ctxs = s.ctxs := rfl
@[simp] theorem State.setPmc_crews (x : Pmc) : (s.setPmc x).crews = s.crews := rfl
@[simp] theorem State.setPmc_cores (x : Pmc) : (s.setPmc x).cores = s.cores := rfl
@[simp] theorem State.setPmc_links (x : Pmc) : (s.setPmc x).links = s.links := rfl
@[simp] theorem State.setPmc_flt (x : Pmc) : (s.setPmc x).flt = s.flt := rfl
@[simp] theorem State.setPmc_cox (x : Pmc) : (s.setPmc x).cox = s.cox := rfl
@[simp] theorem State.setPmc_nv (x : Pmc) : (s.setPmc x).nv = s.nv := rfl
@[simp] theorem State.setPmc_rig (x : Pmc) : (s.setPmc x).rig = s.rig := rfl
@[simp] theorem State.setPmc_conv (x : Pmc) : (s.setPmc x).conv = s.conv := rfl
@[simp] theorem State.setPmc_pmc (x : Pmc) : (s.setPmc x).pmc = x := rfl
@[simp] theorem State.setPmc_out (x : Pmc) : (s.setPmc x).out = s.out := rfl
@[simp] theorem State.setPmc_hostData (x : Pmc) : (s.setPmc x).hostData = s.hostData := rfl
@[simp] theorem State.setPmc_hostEP (x : Pmc) : (s.setPmc x).hostEP = s.hostEP := rfl
@[simp] theorem State.setPmc_free (x : Pmc) : (s.setPmc x).free = s.free := rfl
@[simp] theorem State.setPmc_images (x : Pmc) : (s.setPmc x).images = s.images := rfl

@[simp] theorem State.setOut_pending (x : List Msg) : (s.setOut x).pending = s.pending := rfl
@[simp] theorem State.setOut_regs (x : List Msg) : (s.setOut x).regs = s.regs := rfl
@[simp] theorem State.setOut_raw (x : List Msg) : (s.setOut x).raw = s.raw := rfl
@[simp] theorem State.setOut_mem (x : List Msg) : (s.setOut x).mem = s.mem := rfl
@[simp] theorem State.setOut_gran (x : List Msg) : (s.setOut x).gran = s.gran := rfl
@[simp] theorem State.setOut_wbq (x : List Msg) : (s.setOut x).wbq = s.wbq := rfl
@[simp] theorem State.setOut_atm (x : List Msg) : (s.setOut x).atm = s.atm := rfl
@[simp] theorem State.setOut_aord (x : List Msg) : (s.setOut x).aord = s.aord := rfl
@[simp] theorem State.setOut_hostMem (x : List Msg) : (s.setOut x).hostMem = s.hostMem := rfl
@[simp] theorem State.setOut_hostPoison (x : List Msg) : (s.setOut x).hostPoison = s.hostPoison := rfl
@[simp] theorem State.setOut_tim (x : List Msg) : (s.setOut x).tim = s.tim := rfl
@[simp] theorem State.setOut_stk (x : List Msg) : (s.setOut x).stk = s.stk := rfl
@[simp] theorem State.setOut_pow (x : List Msg) : (s.setOut x).pow = s.pow := rfl
@[simp] theorem State.setOut_pins (x : List Msg) : (s.setOut x).pins = s.pins := rfl
@[simp] theorem State.setOut_fuseMem (x : List Msg) : (s.setOut x).fuseMem = s.fuseMem := rfl
@[simp] theorem State.setOut_fuseSites (x : List Msg) : (s.setOut x).fuseSites = s.fuseSites := rfl
@[simp] theorem State.setOut_recess (x : List Msg) : (s.setOut x).recess = s.recess := rfl
@[simp] theorem State.setOut_queues (x : List Msg) : (s.setOut x).queues = s.queues := rfl
@[simp] theorem State.setOut_lastServed (x : List Msg) : (s.setOut x).lastServed = s.lastServed := rfl
@[simp] theorem State.setOut_taken (x : List Msg) : (s.setOut x).taken = s.taken := rfl
@[simp] theorem State.setOut_nextAccept (x : List Msg) : (s.setOut x).nextAccept = s.nextAccept := rfl
@[simp] theorem State.setOut_hostTal (x : List Msg) : (s.setOut x).hostTal = s.hostTal := rfl
@[simp] theorem State.setOut_tabSets (x : List Msg) : (s.setOut x).tabSets = s.tabSets := rfl
@[simp] theorem State.setOut_tallies (x : List Msg) : (s.setOut x).tallies = s.tallies := rfl
@[simp] theorem State.setOut_ctxs (x : List Msg) : (s.setOut x).ctxs = s.ctxs := rfl
@[simp] theorem State.setOut_crews (x : List Msg) : (s.setOut x).crews = s.crews := rfl
@[simp] theorem State.setOut_cores (x : List Msg) : (s.setOut x).cores = s.cores := rfl
@[simp] theorem State.setOut_links (x : List Msg) : (s.setOut x).links = s.links := rfl
@[simp] theorem State.setOut_flt (x : List Msg) : (s.setOut x).flt = s.flt := rfl
@[simp] theorem State.setOut_cox (x : List Msg) : (s.setOut x).cox = s.cox := rfl
@[simp] theorem State.setOut_nv (x : List Msg) : (s.setOut x).nv = s.nv := rfl
@[simp] theorem State.setOut_rig (x : List Msg) : (s.setOut x).rig = s.rig := rfl
@[simp] theorem State.setOut_conv (x : List Msg) : (s.setOut x).conv = s.conv := rfl
@[simp] theorem State.setOut_pmc (x : List Msg) : (s.setOut x).pmc = s.pmc := rfl
@[simp] theorem State.setOut_out (x : List Msg) : (s.setOut x).out = x := rfl
@[simp] theorem State.setOut_hostData (x : List Msg) : (s.setOut x).hostData = s.hostData := rfl
@[simp] theorem State.setOut_hostEP (x : List Msg) : (s.setOut x).hostEP = s.hostEP := rfl
@[simp] theorem State.setOut_free (x : List Msg) : (s.setOut x).free = s.free := rfl
@[simp] theorem State.setOut_images (x : List Msg) : (s.setOut x).images = s.images := rfl

@[simp] theorem State.setHostData_pending (x : Bytes) : (s.setHostData x).pending = s.pending := rfl
@[simp] theorem State.setHostData_regs (x : Bytes) : (s.setHostData x).regs = s.regs := rfl
@[simp] theorem State.setHostData_raw (x : Bytes) : (s.setHostData x).raw = s.raw := rfl
@[simp] theorem State.setHostData_mem (x : Bytes) : (s.setHostData x).mem = s.mem := rfl
@[simp] theorem State.setHostData_gran (x : Bytes) : (s.setHostData x).gran = s.gran := rfl
@[simp] theorem State.setHostData_wbq (x : Bytes) : (s.setHostData x).wbq = s.wbq := rfl
@[simp] theorem State.setHostData_atm (x : Bytes) : (s.setHostData x).atm = s.atm := rfl
@[simp] theorem State.setHostData_aord (x : Bytes) : (s.setHostData x).aord = s.aord := rfl
@[simp] theorem State.setHostData_hostMem (x : Bytes) : (s.setHostData x).hostMem = s.hostMem := rfl
@[simp] theorem State.setHostData_hostPoison (x : Bytes) : (s.setHostData x).hostPoison = s.hostPoison := rfl
@[simp] theorem State.setHostData_tim (x : Bytes) : (s.setHostData x).tim = s.tim := rfl
@[simp] theorem State.setHostData_stk (x : Bytes) : (s.setHostData x).stk = s.stk := rfl
@[simp] theorem State.setHostData_pow (x : Bytes) : (s.setHostData x).pow = s.pow := rfl
@[simp] theorem State.setHostData_pins (x : Bytes) : (s.setHostData x).pins = s.pins := rfl
@[simp] theorem State.setHostData_fuseMem (x : Bytes) : (s.setHostData x).fuseMem = s.fuseMem := rfl
@[simp] theorem State.setHostData_fuseSites (x : Bytes) : (s.setHostData x).fuseSites = s.fuseSites := rfl
@[simp] theorem State.setHostData_recess (x : Bytes) : (s.setHostData x).recess = s.recess := rfl
@[simp] theorem State.setHostData_queues (x : Bytes) : (s.setHostData x).queues = s.queues := rfl
@[simp] theorem State.setHostData_lastServed (x : Bytes) : (s.setHostData x).lastServed = s.lastServed := rfl
@[simp] theorem State.setHostData_taken (x : Bytes) : (s.setHostData x).taken = s.taken := rfl
@[simp] theorem State.setHostData_nextAccept (x : Bytes) : (s.setHostData x).nextAccept = s.nextAccept := rfl
@[simp] theorem State.setHostData_hostTal (x : Bytes) : (s.setHostData x).hostTal = s.hostTal := rfl
@[simp] theorem State.setHostData_tabSets (x : Bytes) : (s.setHostData x).tabSets = s.tabSets := rfl
@[simp] theorem State.setHostData_tallies (x : Bytes) : (s.setHostData x).tallies = s.tallies := rfl
@[simp] theorem State.setHostData_ctxs (x : Bytes) : (s.setHostData x).ctxs = s.ctxs := rfl
@[simp] theorem State.setHostData_crews (x : Bytes) : (s.setHostData x).crews = s.crews := rfl
@[simp] theorem State.setHostData_cores (x : Bytes) : (s.setHostData x).cores = s.cores := rfl
@[simp] theorem State.setHostData_links (x : Bytes) : (s.setHostData x).links = s.links := rfl
@[simp] theorem State.setHostData_flt (x : Bytes) : (s.setHostData x).flt = s.flt := rfl
@[simp] theorem State.setHostData_cox (x : Bytes) : (s.setHostData x).cox = s.cox := rfl
@[simp] theorem State.setHostData_nv (x : Bytes) : (s.setHostData x).nv = s.nv := rfl
@[simp] theorem State.setHostData_rig (x : Bytes) : (s.setHostData x).rig = s.rig := rfl
@[simp] theorem State.setHostData_conv (x : Bytes) : (s.setHostData x).conv = s.conv := rfl
@[simp] theorem State.setHostData_pmc (x : Bytes) : (s.setHostData x).pmc = s.pmc := rfl
@[simp] theorem State.setHostData_out (x : Bytes) : (s.setHostData x).out = s.out := rfl
@[simp] theorem State.setHostData_hostData (x : Bytes) : (s.setHostData x).hostData = x := rfl
@[simp] theorem State.setHostData_hostEP (x : Bytes) : (s.setHostData x).hostEP = s.hostEP := rfl
@[simp] theorem State.setHostData_free (x : Bytes) : (s.setHostData x).free = s.free := rfl
@[simp] theorem State.setHostData_images (x : Bytes) : (s.setHostData x).images = s.images := rfl

@[simp] theorem State.setHostEP_pending (x : Bool) : (s.setHostEP x).pending = s.pending := rfl
@[simp] theorem State.setHostEP_regs (x : Bool) : (s.setHostEP x).regs = s.regs := rfl
@[simp] theorem State.setHostEP_raw (x : Bool) : (s.setHostEP x).raw = s.raw := rfl
@[simp] theorem State.setHostEP_mem (x : Bool) : (s.setHostEP x).mem = s.mem := rfl
@[simp] theorem State.setHostEP_gran (x : Bool) : (s.setHostEP x).gran = s.gran := rfl
@[simp] theorem State.setHostEP_wbq (x : Bool) : (s.setHostEP x).wbq = s.wbq := rfl
@[simp] theorem State.setHostEP_atm (x : Bool) : (s.setHostEP x).atm = s.atm := rfl
@[simp] theorem State.setHostEP_aord (x : Bool) : (s.setHostEP x).aord = s.aord := rfl
@[simp] theorem State.setHostEP_hostMem (x : Bool) : (s.setHostEP x).hostMem = s.hostMem := rfl
@[simp] theorem State.setHostEP_hostPoison (x : Bool) : (s.setHostEP x).hostPoison = s.hostPoison := rfl
@[simp] theorem State.setHostEP_tim (x : Bool) : (s.setHostEP x).tim = s.tim := rfl
@[simp] theorem State.setHostEP_stk (x : Bool) : (s.setHostEP x).stk = s.stk := rfl
@[simp] theorem State.setHostEP_pow (x : Bool) : (s.setHostEP x).pow = s.pow := rfl
@[simp] theorem State.setHostEP_pins (x : Bool) : (s.setHostEP x).pins = s.pins := rfl
@[simp] theorem State.setHostEP_fuseMem (x : Bool) : (s.setHostEP x).fuseMem = s.fuseMem := rfl
@[simp] theorem State.setHostEP_fuseSites (x : Bool) : (s.setHostEP x).fuseSites = s.fuseSites := rfl
@[simp] theorem State.setHostEP_recess (x : Bool) : (s.setHostEP x).recess = s.recess := rfl
@[simp] theorem State.setHostEP_queues (x : Bool) : (s.setHostEP x).queues = s.queues := rfl
@[simp] theorem State.setHostEP_lastServed (x : Bool) : (s.setHostEP x).lastServed = s.lastServed := rfl
@[simp] theorem State.setHostEP_taken (x : Bool) : (s.setHostEP x).taken = s.taken := rfl
@[simp] theorem State.setHostEP_nextAccept (x : Bool) : (s.setHostEP x).nextAccept = s.nextAccept := rfl
@[simp] theorem State.setHostEP_hostTal (x : Bool) : (s.setHostEP x).hostTal = s.hostTal := rfl
@[simp] theorem State.setHostEP_tabSets (x : Bool) : (s.setHostEP x).tabSets = s.tabSets := rfl
@[simp] theorem State.setHostEP_tallies (x : Bool) : (s.setHostEP x).tallies = s.tallies := rfl
@[simp] theorem State.setHostEP_ctxs (x : Bool) : (s.setHostEP x).ctxs = s.ctxs := rfl
@[simp] theorem State.setHostEP_crews (x : Bool) : (s.setHostEP x).crews = s.crews := rfl
@[simp] theorem State.setHostEP_cores (x : Bool) : (s.setHostEP x).cores = s.cores := rfl
@[simp] theorem State.setHostEP_links (x : Bool) : (s.setHostEP x).links = s.links := rfl
@[simp] theorem State.setHostEP_flt (x : Bool) : (s.setHostEP x).flt = s.flt := rfl
@[simp] theorem State.setHostEP_cox (x : Bool) : (s.setHostEP x).cox = s.cox := rfl
@[simp] theorem State.setHostEP_nv (x : Bool) : (s.setHostEP x).nv = s.nv := rfl
@[simp] theorem State.setHostEP_rig (x : Bool) : (s.setHostEP x).rig = s.rig := rfl
@[simp] theorem State.setHostEP_conv (x : Bool) : (s.setHostEP x).conv = s.conv := rfl
@[simp] theorem State.setHostEP_pmc (x : Bool) : (s.setHostEP x).pmc = s.pmc := rfl
@[simp] theorem State.setHostEP_out (x : Bool) : (s.setHostEP x).out = s.out := rfl
@[simp] theorem State.setHostEP_hostData (x : Bool) : (s.setHostEP x).hostData = s.hostData := rfl
@[simp] theorem State.setHostEP_hostEP (x : Bool) : (s.setHostEP x).hostEP = x := rfl
@[simp] theorem State.setHostEP_free (x : Bool) : (s.setHostEP x).free = s.free := rfl
@[simp] theorem State.setHostEP_images (x : Bool) : (s.setHostEP x).images = s.images := rfl

@[simp] theorem State.setFree_pending (x : Nat) : (s.setFree x).pending = s.pending := rfl
@[simp] theorem State.setFree_regs (x : Nat) : (s.setFree x).regs = s.regs := rfl
@[simp] theorem State.setFree_raw (x : Nat) : (s.setFree x).raw = s.raw := rfl
@[simp] theorem State.setFree_mem (x : Nat) : (s.setFree x).mem = s.mem := rfl
@[simp] theorem State.setFree_gran (x : Nat) : (s.setFree x).gran = s.gran := rfl
@[simp] theorem State.setFree_wbq (x : Nat) : (s.setFree x).wbq = s.wbq := rfl
@[simp] theorem State.setFree_atm (x : Nat) : (s.setFree x).atm = s.atm := rfl
@[simp] theorem State.setFree_aord (x : Nat) : (s.setFree x).aord = s.aord := rfl
@[simp] theorem State.setFree_hostMem (x : Nat) : (s.setFree x).hostMem = s.hostMem := rfl
@[simp] theorem State.setFree_hostPoison (x : Nat) : (s.setFree x).hostPoison = s.hostPoison := rfl
@[simp] theorem State.setFree_tim (x : Nat) : (s.setFree x).tim = s.tim := rfl
@[simp] theorem State.setFree_stk (x : Nat) : (s.setFree x).stk = s.stk := rfl
@[simp] theorem State.setFree_pow (x : Nat) : (s.setFree x).pow = s.pow := rfl
@[simp] theorem State.setFree_pins (x : Nat) : (s.setFree x).pins = s.pins := rfl
@[simp] theorem State.setFree_fuseMem (x : Nat) : (s.setFree x).fuseMem = s.fuseMem := rfl
@[simp] theorem State.setFree_fuseSites (x : Nat) : (s.setFree x).fuseSites = s.fuseSites := rfl
@[simp] theorem State.setFree_recess (x : Nat) : (s.setFree x).recess = s.recess := rfl
@[simp] theorem State.setFree_queues (x : Nat) : (s.setFree x).queues = s.queues := rfl
@[simp] theorem State.setFree_lastServed (x : Nat) : (s.setFree x).lastServed = s.lastServed := rfl
@[simp] theorem State.setFree_taken (x : Nat) : (s.setFree x).taken = s.taken := rfl
@[simp] theorem State.setFree_nextAccept (x : Nat) : (s.setFree x).nextAccept = s.nextAccept := rfl
@[simp] theorem State.setFree_hostTal (x : Nat) : (s.setFree x).hostTal = s.hostTal := rfl
@[simp] theorem State.setFree_tabSets (x : Nat) : (s.setFree x).tabSets = s.tabSets := rfl
@[simp] theorem State.setFree_tallies (x : Nat) : (s.setFree x).tallies = s.tallies := rfl
@[simp] theorem State.setFree_ctxs (x : Nat) : (s.setFree x).ctxs = s.ctxs := rfl
@[simp] theorem State.setFree_crews (x : Nat) : (s.setFree x).crews = s.crews := rfl
@[simp] theorem State.setFree_cores (x : Nat) : (s.setFree x).cores = s.cores := rfl
@[simp] theorem State.setFree_links (x : Nat) : (s.setFree x).links = s.links := rfl
@[simp] theorem State.setFree_flt (x : Nat) : (s.setFree x).flt = s.flt := rfl
@[simp] theorem State.setFree_cox (x : Nat) : (s.setFree x).cox = s.cox := rfl
@[simp] theorem State.setFree_nv (x : Nat) : (s.setFree x).nv = s.nv := rfl
@[simp] theorem State.setFree_rig (x : Nat) : (s.setFree x).rig = s.rig := rfl
@[simp] theorem State.setFree_conv (x : Nat) : (s.setFree x).conv = s.conv := rfl
@[simp] theorem State.setFree_pmc (x : Nat) : (s.setFree x).pmc = s.pmc := rfl
@[simp] theorem State.setFree_out (x : Nat) : (s.setFree x).out = s.out := rfl
@[simp] theorem State.setFree_hostData (x : Nat) : (s.setFree x).hostData = s.hostData := rfl
@[simp] theorem State.setFree_hostEP (x : Nat) : (s.setFree x).hostEP = s.hostEP := rfl
@[simp] theorem State.setFree_free (x : Nat) : (s.setFree x).free = x := rfl
@[simp] theorem State.setFree_images (x : Nat) : (s.setFree x).images = s.images := rfl

@[simp] theorem State.setImages_pending (x : List (Bytes × Snap)) : (s.setImages x).pending = s.pending := rfl
@[simp] theorem State.setImages_regs (x : List (Bytes × Snap)) : (s.setImages x).regs = s.regs := rfl
@[simp] theorem State.setImages_raw (x : List (Bytes × Snap)) : (s.setImages x).raw = s.raw := rfl
@[simp] theorem State.setImages_mem (x : List (Bytes × Snap)) : (s.setImages x).mem = s.mem := rfl
@[simp] theorem State.setImages_gran (x : List (Bytes × Snap)) : (s.setImages x).gran = s.gran := rfl
@[simp] theorem State.setImages_wbq (x : List (Bytes × Snap)) : (s.setImages x).wbq = s.wbq := rfl
@[simp] theorem State.setImages_atm (x : List (Bytes × Snap)) : (s.setImages x).atm = s.atm := rfl
@[simp] theorem State.setImages_aord (x : List (Bytes × Snap)) : (s.setImages x).aord = s.aord := rfl
@[simp] theorem State.setImages_hostMem (x : List (Bytes × Snap)) : (s.setImages x).hostMem = s.hostMem := rfl
@[simp] theorem State.setImages_hostPoison (x : List (Bytes × Snap)) : (s.setImages x).hostPoison = s.hostPoison := rfl
@[simp] theorem State.setImages_tim (x : List (Bytes × Snap)) : (s.setImages x).tim = s.tim := rfl
@[simp] theorem State.setImages_stk (x : List (Bytes × Snap)) : (s.setImages x).stk = s.stk := rfl
@[simp] theorem State.setImages_pow (x : List (Bytes × Snap)) : (s.setImages x).pow = s.pow := rfl
@[simp] theorem State.setImages_pins (x : List (Bytes × Snap)) : (s.setImages x).pins = s.pins := rfl
@[simp] theorem State.setImages_fuseMem (x : List (Bytes × Snap)) : (s.setImages x).fuseMem = s.fuseMem := rfl
@[simp] theorem State.setImages_fuseSites (x : List (Bytes × Snap)) : (s.setImages x).fuseSites = s.fuseSites := rfl
@[simp] theorem State.setImages_recess (x : List (Bytes × Snap)) : (s.setImages x).recess = s.recess := rfl
@[simp] theorem State.setImages_queues (x : List (Bytes × Snap)) : (s.setImages x).queues = s.queues := rfl
@[simp] theorem State.setImages_lastServed (x : List (Bytes × Snap)) : (s.setImages x).lastServed = s.lastServed := rfl
@[simp] theorem State.setImages_taken (x : List (Bytes × Snap)) : (s.setImages x).taken = s.taken := rfl
@[simp] theorem State.setImages_nextAccept (x : List (Bytes × Snap)) : (s.setImages x).nextAccept = s.nextAccept := rfl
@[simp] theorem State.setImages_hostTal (x : List (Bytes × Snap)) : (s.setImages x).hostTal = s.hostTal := rfl
@[simp] theorem State.setImages_tabSets (x : List (Bytes × Snap)) : (s.setImages x).tabSets = s.tabSets := rfl
@[simp] theorem State.setImages_tallies (x : List (Bytes × Snap)) : (s.setImages x).tallies = s.tallies := rfl
@[simp] theorem State.setImages_ctxs (x : List (Bytes × Snap)) : (s.setImages x).ctxs = s.ctxs := rfl
@[simp] theorem State.setImages_crews (x : List (Bytes × Snap)) : (s.setImages x).crews = s.crews := rfl
@[simp] theorem State.setImages_cores (x : List (Bytes × Snap)) : (s.setImages x).cores = s.cores := rfl
@[simp] theorem State.setImages_links (x : List (Bytes × Snap)) : (s.setImages x).links = s.links := rfl
@[simp] theorem State.setImages_flt (x : List (Bytes × Snap)) : (s.setImages x).flt = s.flt := rfl
@[simp] theorem State.setImages_cox (x : List (Bytes × Snap)) : (s.setImages x).cox = s.cox := rfl
@[simp] theorem State.setImages_nv (x : List (Bytes × Snap)) : (s.setImages x).nv = s.nv := rfl
@[simp] theorem State.setImages_rig (x : List (Bytes × Snap)) : (s.setImages x).rig = s.rig := rfl
@[simp] theorem State.setImages_conv (x : List (Bytes × Snap)) : (s.setImages x).conv = s.conv := rfl
@[simp] theorem State.setImages_pmc (x : List (Bytes × Snap)) : (s.setImages x).pmc = s.pmc := rfl
@[simp] theorem State.setImages_out (x : List (Bytes × Snap)) : (s.setImages x).out = s.out := rfl
@[simp] theorem State.setImages_hostData (x : List (Bytes × Snap)) : (s.setImages x).hostData = s.hostData := rfl
@[simp] theorem State.setImages_hostEP (x : List (Bytes × Snap)) : (s.setImages x).hostEP = s.hostEP := rfl
@[simp] theorem State.setImages_free (x : List (Bytes × Snap)) : (s.setImages x).free = s.free := rfl
@[simp] theorem State.setImages_images (x : List (Bytes × Snap)) : (s.setImages x).images = x := rfl

end Sys2Proof.Machine
end

