-- ==== Sys2Proof/Laws/Ops.lean ====
section
/-!
SUPPORT. What each shared operation can change, said once: what the setters it uses leave alone, it leaves alone.
-/
namespace Sys2Proof.Machine

variable (s : State) {β : Type}

/-- Doing something for each member of a list keeps what each doing keeps. -/
theorem State.each_keeps {α : Type} (p : State → β) (l : List α) (f : State → α → State)
    (h : ∀ s x, p (f s x) = p s) : p (s.each l f) = p s := by
  induction l generalizing s with
  | nil => rfl
  | cons x r ih => exact (ih (f s x)).trans (h s x)

/-- The same, with a value carried along. -/
theorem State.eachWith_keeps {α γ : Type} (p : State → β) (b : γ) (l : List α) (f : γ → State → α → γ × State)
    (h : ∀ b s x, p (f b s x).2 = p s) : p (s.eachWith b l f).2 = p s := by
  unfold State.eachWith
  induction l generalizing s b with
  | nil => rfl
  | cons x r ih =>
    have := ih (f b s x).2 (f b s x).1
    exact this.trans (h b s x)

theorem State.setReg_keeps (p : State → β) (hregs : ∀ s x, p (State.setRegs s x) = p s) (r : RegDef) (ix : List Nat) (v : Word) :
    p (s.setReg r ix v) = p s := by
  exact hregs _ _

theorem State.setFld_keeps (p : State → β) (hregs : ∀ s x, p (State.setRegs s x) = p s) (f : Fld) (ix : List Nat) (v : Nat) :
    p (s.setFld f ix v) = p s := by
  exact hregs _ _

theorem State.bump_keeps (p : State → β) (hregs : ∀ s x, p (State.setRegs s x) = p s) (f : Fld) (ix : List Nat) (d : Nat) :
    p (s.bump f ix d) = p s := by
  exact hregs _ _

theorem State.wrap_keeps (p : State → β) (hregs : ∀ s x, p (State.setRegs s x) = p s) (f : Fld) (ix : List Nat) (d : Nat) :
    p (s.wrap f ix d) = p s := by
  exact hregs _ _

theorem State.lower_keeps (p : State → β) (hregs : ∀ s x, p (State.setRegs s x) = p s) (f : Fld) (ix : List Nat) (d : Nat) :
    p (s.lower f ix d) = p s := by
  exact hregs _ _

theorem State.setPair_keeps (p : State → β) (hregs : ∀ s x, p (State.setRegs s x) = p s) (lo hi : RegDef) (ix : List Nat) (v : Nat) :
    p (s.setPair lo hi ix v) = p s := by
  exact (hregs _ _).trans (hregs _ _)

theorem State.dropBit_keeps (p : State → β) (hregs : ∀ s x, p (State.setRegs s x) = p s) (f : Fld) (ix : List Nat) :
    p (s.dropBit f ix) = p s := by
  exact hregs _ _

theorem State.noteNf6_keeps (p : State → β) (hconv : ∀ s x, p (State.setConv s x) = p s) (f : Fld) (ix : List Nat) :
    p (s.noteNf6 f ix) = p s := by
  unfold State.noteNf6; split; exact hconv _ _; rfl

theorem State.raiseBit_keeps (p : State → β) (hregs : ∀ s x, p (State.setRegs s x) = p s) (hconv : ∀ s x, p (State.setConv s x) = p s) (f : Fld) (ix : List Nat) :
    p (s.raiseBit f ix) = p s := by
  exact (State.noteNf6_keeps _ p hconv f ix).trans (hregs _ _)

theorem State.liveBit_keeps (p : State → β) (hregs : ∀ s x, p (State.setRegs s x) = p s) (hconv : ∀ s x, p (State.setConv s x) = p s) (f : Fld) (ix : List Nat) (on : Bool) :
    p (s.liveBit f ix on) = p s := by
  unfold State.liveBit; split
  · split
    · rfl
    · exact State.raiseBit_keeps s p hregs hconv f ix
  · exact hregs _ _

theorem State.modCore_keeps (p : State → β) (hcores : ∀ s x, p (State.setCores s x) = p s) (c : Nat) (f : Core → Core) :
    p (s.modCore c f) = p s := by
  exact hcores _ _

theorem State.modEng_keeps (p : State → β) (hcores : ∀ s x, p (State.setCores s x) = p s) (c e : Nat) (f : Engine → Engine) :
    p (s.modEng c e f) = p s := by
  exact hcores _ _

theorem State.modSeq_keeps (p : State → β) (hcores : ∀ s x, p (State.setCores s x) = p s) (c : Nat) (f : Seq → Seq) :
    p (s.modSeq c f) = p s := by
  exact hcores _ _

theorem State.modCrew_keeps (p : State → β) (hcrews : ∀ s x, p (State.setCrews s x) = p s) (n : Nat) (f : Crew → Crew) :
    p (s.modCrew n f) = p s := by
  exact hcrews _ _

theorem State.modLaunch_keeps (p : State → β) (hcrews : ∀ s x, p (State.setCrews s x) = p s) (n accept : Nat) (f : Launch → Launch) :
    p (s.modLaunch n accept f) = p s := by
  exact hcrews _ _

theorem State.launchStatus_keeps (p : State → β) (hcrews : ∀ s x, p (State.setCrews s x) = p s) (n accept status : Nat) :
    p (s.launchStatus n accept status) = p s := by
  exact hcrews _ _

theorem State.modLink_keeps (p : State → β) (hlinks : ∀ s x, p (State.setLinks s x) = p s) (l : Nat) (f : Link → Link) :
    p (s.modLink l f) = p s := by
  exact hlinks _ _

theorem State.modQueue_keeps (p : State → β) (hqueues : ∀ s x, p (State.setQueues s x) = p s) (q : Nat) (f : Queue → Queue) :
    p (s.modQueue q f) = p s := by
  exact hqueues _ _

theorem State.modTally_keeps (p : State → β) (htallies : ∀ s x, p (State.setTallies s x) = p s) (t : Nat) (f : Tally → Tally) :
    p (s.modTally t f) = p s := by
  exact htallies _ _

theorem State.advance_keeps (p : State → β) (hraw : ∀ s x, p (State.setRaw s x) = p s) (t : Nat) :
    p (s.advance t) = p s := by
  exact hraw _ _

theorem State.setRate_keeps (p : State → β) (hregs : ∀ s x, p (State.setRegs s x) = p s) (htim : ∀ s x, p (State.setTim s x) = p s) (rate : Int) :
    p (s.setRate rate) = p s := by
  exact (htim _ _).trans (hregs _ _)

theorem State.count_keeps (p : State → β) (hpmc : ∀ s x, p (State.setPmc s x) = p s) (lo : RegDef) (ix : List Nat) (n : Nat) :
    p (s.count lo ix n) = p s := by
  exact hpmc _ _

theorem State.pmcTick_keeps (p : State → β) (hregs : ∀ s x, p (State.setRegs s x) = p s) (hpmc : ∀ s x, p (State.setPmc s x) = p s) (cnt sel ovf : RegDef) (ix : List Nat) (n code : Nat) (sub : Option Nat) :
    p (s.pmcTick cnt sel ovf ix n code sub) = p s := by
  refine State.each_keeps s p _ _ fun s k => ?_
  split
  · dsimp only; split
    · exact (hregs _ _).trans (hpmc _ _)
    · exact hpmc _ _
  · rfl

theorem State.pmcCore_keeps (p : State → β) (hregs : ∀ s x, p (State.setRegs s x) = p s) (hpmc : ∀ s x, p (State.setPmc s x) = p s) (c code : Nat) (sub : Option Nat) :
    p (s.pmcCore c code sub) = p s := by
  exact State.pmcTick_keeps s p hregs hpmc _ _ _ _ _ _ _

theorem State.pmcDie_keeps (p : State → β) (hregs : ∀ s x, p (State.setRegs s x) = p s) (hpmc : ∀ s x, p (State.setPmc s x) = p s) (die code : Nat) (sub : Option Nat) :
    p (s.pmcDie die code sub) = p s := by
  exact State.pmcTick_keeps s p hregs hpmc _ _ _ _ _ _ _

theorem State.nocIn_keeps (p : State → β) (hpmc : ∀ s x, p (State.setPmc s x) = p s) (c die n : Nat) :
    p (s.nocIn c die n) = p s := by
  exact (hpmc _ _).trans (hpmc _ _)

theorem State.nocOut_keeps (p : State → β) (hpmc : ∀ s x, p (State.setPmc s x) = p s) (c die n : Nat) :
    p (s.nocOut c die n) = p s := by
  exact (hpmc _ _).trans (hpmc _ _)

theorem State.fromHost_keeps (p : State → β) (hpmc : ∀ s x, p (State.setPmc s x) = p s) (n : Nat) :
    p (s.fromHost n) = p s := by
  exact hpmc _ _

theorem State.stageTrace_keeps (p : State → β) (hregs : ∀ s x, p (State.setRegs s x) = p s) (hcores : ∀ s x, p (State.setCores s x) = p s) (c n : Nat) (r : Trc) :
    p (s.stageTrace c n r) = p s := by
  unfold State.stageTrace; dsimp only; split
  · exact (hregs _ _).trans (hcores _ _)
  · exact hcores _ _

theorem State.trace_keeps (p : State → β) (hregs : ∀ s x, p (State.setRegs s x) = p s) (hcores : ∀ s x, p (State.setCores s x) = p s) (c kind how : Nat) (word : CmdWord) (entry accept detail : Nat) :
    p (s.trace c kind how word entry accept detail) = p s := by
  unfold State.trace; split
  · rfl
  · split
    · exact State.stageTrace_keeps s p hregs hcores _ _ _
    · rfl

theorem State.traceBegin_keeps (p : State → β) (hregs : ∀ s x, p (State.setRegs s x) = p s) (hcores : ∀ s x, p (State.setCores s x) = p s) (c : Nat) (q : QCmd) :
    p (s.traceBegin c q) = p s := by
  exact State.trace_keeps s p hregs hcores _ _ _ _ _ _ _

theorem State.traceEnd_keeps (p : State → β) (hregs : ∀ s x, p (State.setRegs s x) = p s) (hcores : ∀ s x, p (State.setCores s x) = p s) (c how detail : Nat) (q : QCmd) :
    p (s.traceEnd c how detail q) = p s := by
  exact State.trace_keeps s p hregs hcores _ _ _ _ _ _ _

theorem State.send_keeps (p : State → β) (hout : ∀ s x, p (State.setOut s x) = p s) (m : Msg) :
    p (s.send m) = p s := by
  exact hout _ _

theorem State.trigger_keeps (p : State → β) (hcox : ∀ s x, p (State.setCox s x) = p s) (t : Trigger) :
    p (s.trigger t) = p s := by
  exact hcox _ _

theorem State.stopCrew_keeps (p : State → β) (hcrews : ∀ s x, p (State.setCrews s x) = p s) (n : Nat) (st : Stop) :
    p (s.stopCrew n st) = p s := by
  exact hcrews _ _

theorem State.stopAll_keeps (p : State → β) (hcrews : ∀ s x, p (State.setCrews s x) = p s) :
    p (s.stopAll) = p s := by
  exact State.each_keeps s p _ _ fun s n => hcrews _ _

theorem State.raiseFault_keeps (p : State → β) (hcrews : ∀ s x, p (State.setCrews s x) = p s) (hflt : ∀ s x, p (State.setFlt s x) = p s) (hfree : ∀ s x, p (State.setFree s x) = p s) (f : Fault0) :
    p (s.raiseFault f) = p s := by
  have h : ∀ (s : State) (v : Nat) (f : Fault0), p (let f := { f with syndrome := v % 2 ^ 32 }
      let s := s.setFlt { s.flt with queue := s.flt.queue ++ [f] }
      if f.sev = 3 then (if f.event % 256 = 0xFF then s else s.stopAll)
      else if f.sev = 2 then
        match f.crew with
        | some n => s.stopCrew n { bStop := s.nextStroke, cause := if f.cls = 6 then 1 else 2 }
        | none => s
      else s) = p s := by
    intro s v f
    dsimp only
    split
    · split
      · exact hflt _ _
      · exact (State.stopAll_keeps _ p hcrews).trans (hflt _ _)
    · split
      · split
        · exact (hcrews _ _).trans (hflt _ _)
        · exact hflt _ _
      · exact hflt _ _
  unfold State.raiseFault State.fresh
  by_cases hd : f.hasDetail = true
  · rw [if_pos hd]; exact (h _ _ _).trans (hfree _ _)
  · rw [if_neg hd]; exact h _ _ _

theorem State.crab_keeps (p : State → β) (hregs : ∀ s x, p (State.setRegs s x) = p s) (hcrews : ∀ s x, p (State.setCrews s x) = p s) (hflt : ∀ s x, p (State.setFlt s x) = p s) (hconv : ∀ s x, p (State.setConv s x) = p s) (hfree : ∀ s x, p (State.setFree s x) = p s) (n event detail : Nat) :
    p (s.crab n event detail) = p s := by
  unfold State.crab; dsimp only; split
  · exact (State.raiseFault_keeps _ p hcrews hflt hfree _).trans
      ((State.raiseBit_keeps _ p hregs hconv _ _).trans (hregs _ _))
  · exact (State.raiseBit_keeps _ p hregs hconv _ _).trans (hregs _ _)

theorem State.crewFault_keeps (p : State → β) (hcrews : ∀ s x, p (State.setCrews s x) = p s) (hflt : ∀ s x, p (State.setFlt s x) = p s) (hfree : ∀ s x, p (State.setFree s x) = p s) (n cls event detail : Nat) :
    p (s.crewFault n cls event detail) = p s := by
  exact State.raiseFault_keeps _ p hcrews hflt hfree _

theorem State.poisonFault_keeps (p : State → β) (hcrews : ∀ s x, p (State.setCrews s x) = p s) (hflt : ∀ s x, p (State.setFlt s x) = p s) (hfree : ∀ s x, p (State.setFree s x) = p s) (n : Nat) (f : Fault0) :
    p (s.poisonFault n f) = p s := by
  unfold State.poisonFault; split
  · exact (hcrews _ _).trans ((State.raiseFault_keeps _ p hcrews hflt hfree _).trans (hcrews _ _))
  · exact State.raiseFault_keeps _ p hcrews hflt hfree _

theorem State.formatError_keeps (p : State → β) (hcrews : ∀ s x, p (State.setCrews s x) = p s) (hcores : ∀ s x, p (State.setCores s x) = p s) (c accept : Nat) :
    p (s.formatError c accept) = p s := by
  unfold State.formatError; dsimp only; split
  · exact (hcrews _ _).trans ((hcrews _ _).trans (hcores _ _))
  · exact hcores _ _

theorem State.hardFault_keeps (p : State → β) (hcrews : ∀ s x, p (State.setCrews s x) = p s) (hflt : ∀ s x, p (State.setFlt s x) = p s) (c cls : Nat) :
    p (s.hardFault c cls) = p s := by
  unfold State.hardFault; split
  · rfl
  · dsimp only; split
    · exact (hcrews _ _).trans (hflt _ _)
    · exact hflt _ _

theorem State.stray_keeps (p : State → β) (hregs : ∀ s x, p (State.setRegs s x) = p s) (hconv : ∀ s x, p (State.setConv s x) = p s) :
    p (s.stray) = p s := by
  exact State.raiseBit_keeps s p hregs hconv _ _

theorem State.giveHost_keeps (p : State → β) (hpmc : ∀ s x, p (State.setPmc s x) = p s) (hhostData : ∀ s x, p (State.setHostData s x) = p s) (hhostEP : ∀ s x, p (State.setHostEP s x) = p s) (b : Bytes) (ep : Bool) :
    p (s.giveHost b ep) = p s := by
  exact (hhostEP _ _).trans ((hhostData _ _).trans (hpmc _ _))

theorem State.giveWord_keeps (p : State → β) (hpmc : ∀ s x, p (State.setPmc s x) = p s) (hhostData : ∀ s x, p (State.setHostData s x) = p s) (hhostEP : ∀ s x, p (State.setHostEP s x) = p s) (w : Word) :
    p (s.giveWord w) = p s := by
  exact State.giveHost_keeps s p hpmc hhostData hhostEP _ _

end Sys2Proof.Machine
end

