-- ==== Sys2Proof/Laws/Registers.lean ====
section
/-!
SUPPORT. Registers and their fields: a read after a write of the same register or field, and of another one (00 R6).
-/
namespace Sys2Proof.Machine

variable (s : State)

/-! ### Bit fields of a word -/

theorem mul_add_lt {a A b B : Nat} (ha : a < A) (hb : b < B) : a * B + b < A * B :=
  calc a * B + b < a * B + B := by omega
    _ = (a + 1) * B := by ring
    _ ≤ A * B := Nat.mul_le_mul_right B ha

theorem putBits_toNat (w : Word) {hi lo : Nat} (v : Nat) (h : lo ≤ hi ∧ hi < 32) :
    (putBits w hi lo v).toNat =
      w.toNat / 2 ^ (hi + 1) * 2 ^ (hi + 1) + v % 2 ^ (hi + 1 - lo) * 2 ^ lo + w.toNat % 2 ^ lo := by
  obtain ⟨h1, h2⟩ := h
  have e1 : (2 : Nat) ^ (hi + 1) = 2 ^ (hi + 1 - lo) * 2 ^ lo := by
    rw [← Nat.pow_add]; congr 1; omega
  have e2 : (2 : Nat) ^ 32 = 2 ^ (32 - (hi + 1)) * 2 ^ (hi + 1) := by
    rw [← Nat.pow_add]; congr 1; omega
  have b1 : v % 2 ^ (hi + 1 - lo) * 2 ^ lo + w.toNat % 2 ^ lo < 2 ^ (hi + 1) := by
    have a1 : v % 2 ^ (hi + 1 - lo) < 2 ^ (hi + 1 - lo) := Nat.mod_lt _ (Nat.two_pow_pos _)
    have a2 : w.toNat % 2 ^ lo < 2 ^ lo := Nat.mod_lt _ (Nat.two_pow_pos _)
    rw [e1]; exact mul_add_lt a1 a2
  have b2 : w.toNat / 2 ^ (hi + 1) < 2 ^ (32 - (hi + 1)) := by
    apply Nat.div_lt_of_lt_mul
    rw [Nat.mul_comm, ← e2]; exact w.isLt
  have b3 : w.toNat / 2 ^ (hi + 1) * 2 ^ (hi + 1) + v % 2 ^ (hi + 1 - lo) * 2 ^ lo + w.toNat % 2 ^ lo < 2 ^ 32 := by
    rw [e2, Nat.add_assoc]; exact mul_add_lt b2 b1
  unfold putBits
  rw [BitVec.toNat_ofNat, Nat.mod_eq_of_lt b3]

/-- A field reads as what was put into it, cut to its width. -/
theorem bits_putBits_same (w : Word) {hi lo : Nat} (v : Nat) (h : lo ≤ hi ∧ hi < 32) :
    bits (putBits w hi lo v).toNat hi lo = v % 2 ^ (hi + 1 - lo) := by
  rw [putBits_toNat w v h]
  unfold bits
  have e1 : (2 : Nat) ^ (hi + 1) = 2 ^ (hi + 1 - lo) * 2 ^ lo := by
    rw [← Nat.pow_add]; congr 1; omega
  have a2 : w.toNat % 2 ^ lo < 2 ^ lo := Nat.mod_lt _ (Nat.two_pow_pos _)
  have : (w.toNat / 2 ^ (hi + 1) * 2 ^ (hi + 1) + v % 2 ^ (hi + 1 - lo) * 2 ^ lo + w.toNat % 2 ^ lo) / 2 ^ lo
      = w.toNat / 2 ^ (hi + 1) * 2 ^ (hi + 1 - lo) + v % 2 ^ (hi + 1 - lo) := by
    rw [e1, ← Nat.mul_assoc, ← Nat.add_mul, Nat.add_comm, Nat.add_mul_div_right _ _ (Nat.two_pow_pos _),
      Nat.div_eq_of_lt a2, Nat.zero_add]
  rw [this, Nat.add_comm, Nat.add_mul_mod_self_right, Nat.mod_mod]

/-- A field above the one that was written is unchanged. -/
theorem bits_putBits_above (w : Word) {hi lo hi' lo' : Nat} (v : Nat) (h : lo ≤ hi ∧ hi < 32) (hd : hi < lo') :
    bits (putBits w hi lo v).toNat hi' lo' = bits w.toNat hi' lo' := by
  rw [putBits_toNat w v h]
  unfold bits
  congr 1
  have e1 : (2 : Nat) ^ (hi + 1) = 2 ^ (hi + 1 - lo) * 2 ^ lo := by
    rw [← Nat.pow_add]; congr 1; omega
  have e3 : (2 : Nat) ^ lo' = 2 ^ (hi + 1) * 2 ^ (lo' - (hi + 1)) := by
    rw [← Nat.pow_add]; congr 1; omega
  have b1 : v % 2 ^ (hi + 1 - lo) * 2 ^ lo + w.toNat % 2 ^ lo < 2 ^ (hi + 1) := by
    have a1 : v % 2 ^ (hi + 1 - lo) < 2 ^ (hi + 1 - lo) := Nat.mod_lt _ (Nat.two_pow_pos _)
    have a2 : w.toNat % 2 ^ lo < 2 ^ lo := Nat.mod_lt _ (Nat.two_pow_pos _)
    rw [e1]; exact mul_add_lt a1 a2
  rw [e3, ← Nat.div_div_eq_div_mul, ← Nat.div_div_eq_div_mul, Nat.add_assoc,
    Nat.add_comm (w.toNat / 2 ^ (hi + 1) * 2 ^ (hi + 1)), Nat.add_mul_div_right _ _ (Nat.two_pow_pos _),
    Nat.div_eq_of_lt b1, Nat.zero_add]

/-- A field below the one that was written is unchanged. -/
theorem bits_putBits_below (w : Word) {hi lo hi' lo' : Nat} (v : Nat) (h : lo ≤ hi ∧ hi < 32) (hd : hi' < lo)
    (h' : lo' ≤ hi') : bits (putBits w hi lo v).toNat hi' lo' = bits w.toNat hi' lo' := by
  rw [putBits_toNat w v h]
  unfold bits
  have key : ∀ x y : Nat, x % 2 ^ (hi' + 1) = y % 2 ^ (hi' + 1) →
      x / 2 ^ lo' % 2 ^ (hi' + 1 - lo') = y / 2 ^ lo' % 2 ^ (hi' + 1 - lo') := by
    intro x y hxy
    have e : (2 : Nat) ^ (hi' + 1) = 2 ^ lo' * 2 ^ (hi' + 1 - lo') := by
      rw [← Nat.pow_add]; congr 1; omega
    rw [e] at hxy
    rw [← Nat.mod_mul_right_div_self x, ← Nat.mod_mul_right_div_self y, hxy]
  apply key
  have e1 : (2 : Nat) ^ (hi + 1) = 2 ^ (hi - hi') * 2 ^ (hi' + 1) := by
    rw [← Nat.pow_add]; congr 1; omega
  have e2 : (2 : Nat) ^ lo = 2 ^ (lo - (hi' + 1)) * 2 ^ (hi' + 1) := by
    rw [← Nat.pow_add]; congr 1; omega
  rw [e1, ← Nat.mul_assoc, Nat.add_assoc, Nat.add_comm, Nat.add_mul_mod_self_right]
  conv_lhs => rw [show v % 2 ^ (hi + 1 - lo) * 2 ^ lo = v % 2 ^ (hi + 1 - lo) * 2 ^ (lo - (hi' + 1)) * 2 ^ (hi' + 1) by
    rw [e2, Nat.mul_assoc]]
  rw [Nat.add_comm, Nat.add_mul_mod_self_right, e2, Nat.mod_mul_left_mod]

/-! ### Registers -/

@[simp] theorem State.reg_setReg_same (r : RegDef) (ix : List Nat) (v : Word) : (s.setReg r ix v).reg r ix = v := by
  simp [State.reg, State.setReg]

theorem State.reg_setReg_ne {r r' : RegDef} {ix ix' : List Nat} (h : r'.addr ix' ≠ r.addr ix) (v : Word) :
    (s.setReg r ix v).reg r' ix' = s.reg r' ix' := by
  simp only [State.reg, State.setReg, State.setRegs_regs]
  rw [Map.getD_setD_ne _ _ _ h]

/-- A register reads as before where the registers are the same. -/
theorem State.reg_congr {s t : State} (h : t.regs = s.regs) (r : RegDef) (ix : List Nat) : t.reg r ix = s.reg r ix := by
  simp [State.reg, h]

/-- A field reads as before where the registers are the same. -/
theorem State.fld_congr {s t : State} (h : t.regs = s.regs) (f : Fld) (ix : List Nat) : t.fld f ix = s.fld f ix := by
  simp [State.fld, State.reg_congr h]

/-- The field that was written reads as written, cut to its width. -/
theorem State.fld_setFld_same (f : Fld) (ix : List Nat) (v : Nat) (h : f.lo ≤ f.hi ∧ f.hi < 32) :
    (s.setFld f ix v).fld f ix = v % 2 ^ (f.hi + 1 - f.lo) := by
  simp only [State.fld, State.setFld, State.reg_setReg_same]
  exact bits_putBits_same _ _ h

/-- A field of another register is unchanged. -/
theorem State.fld_setFld_reg {f g : Fld} {ix jx : List Nat} (h : g.reg.addr jx ≠ f.reg.addr ix) (v : Nat) :
    (s.setFld f ix v).fld g jx = s.fld g jx := by
  simp only [State.fld, State.setFld]
  rw [State.reg_setReg_ne _ h]

/-- Another field of the same register is unchanged. -/
theorem State.fld_setFld_other {f g : Fld} {ix : List Nat} (hr : g.reg = f.reg) (h : f.lo ≤ f.hi ∧ f.hi < 32)
    (hg : g.lo ≤ g.hi) (hd : f.hi < g.lo ∨ g.hi < f.lo) (v : Nat) : (s.setFld f ix v).fld g ix = s.fld g ix := by
  simp only [State.fld, State.setFld, hr, State.reg_setReg_same]
  rcases hd with hd | hd
  · exact bits_putBits_above _ _ h hd
  · exact bits_putBits_below _ _ h hd hg

/-- The event note of the NF6 personality changes no register. -/
@[simp] theorem State.noteNf6_regs (f : Fld) (ix : List Nat) : (s.noteNf6 f ix).regs = s.regs := by
  unfold State.noteNf6; split <;> simp

theorem State.fld_raiseBit (f g : Fld) (ix jx : List Nat) : (s.raiseBit f ix).fld g jx = (s.setFld f ix 1).fld g jx :=
  State.fld_congr (by simp [State.raiseBit]) g jx

theorem State.fld_dropBit (f g : Fld) (ix jx : List Nat) : (s.dropBit f ix).fld g jx = (s.setFld f ix 0).fld g jx := rfl

/-- A status bit whose cause occurs reads 1. -/
theorem State.fld_raiseBit_same (f : Fld) (ix : List Nat) (h : f.lo = f.hi ∧ f.hi < 32) : (s.raiseBit f ix).fld f ix = 1 := by
  rw [State.fld_raiseBit, State.fld_setFld_same _ _ _ _ ⟨by omega, h.2⟩, show f.hi + 1 - f.lo = 1 by omega]
  rfl

/-- A live bit reads as its cause says. -/
theorem State.fld_liveBit_same (f : Fld) (ix : List Nat) (on : Bool) (h : f.lo = f.hi ∧ f.hi < 32) :
    (s.liveBit f ix on).fld f ix = if on then 1 else 0 := by
  cases on with
  | true =>
    simp only [State.liveBit, if_true]
    split
    · next h1 => simpa [State.isSet] using h1
    · exact State.fld_raiseBit_same s f ix h
  | false =>
    simp only [State.liveBit, Bool.false_eq_true, if_false]
    rw [State.fld_dropBit, State.fld_setFld_same _ _ _ _ ⟨by omega, h.2⟩, show f.hi + 1 - f.lo = 1 by omega]
    rfl

/-- A live bit of another place leaves a field unchanged. -/
theorem State.fld_liveBit_reg {f g : Fld} {ix jx : List Nat} (h : g.reg.addr jx ≠ f.reg.addr ix) (on : Bool) :
    (s.liveBit f ix on).fld g jx = s.fld g jx := by
  cases on with
  | true =>
    simp only [State.liveBit, if_true]
    split
    · rfl
    · rw [State.fld_raiseBit, State.fld_setFld_reg _ h]
  | false => simp only [State.liveBit, Bool.false_eq_true, if_false]; rw [State.fld_dropBit, State.fld_setFld_reg _ h]

theorem State.fld_liveBit_other {f g : Fld} {ix : List Nat} (hr : g.reg = f.reg) (h : f.lo ≤ f.hi ∧ f.hi < 32)
    (hg : g.lo ≤ g.hi) (hd : f.hi < g.lo ∨ g.hi < f.lo) (on : Bool) : (s.liveBit f ix on).fld g ix = s.fld g ix := by
  cases on with
  | true =>
    simp only [State.liveBit, if_true]
    split
    · rfl
    · rw [State.fld_raiseBit, State.fld_setFld_other _ hr h hg hd]
  | false =>
    simp only [State.liveBit, Bool.false_eq_true, if_false]
    rw [State.fld_dropBit, State.fld_setFld_other _ hr h hg hd]

end Sys2Proof.Machine
end

