-- ==== Sys2Proof/Tests/Slice0.lean ====
section
/-!
SUPPORT. Tests on small states: ill-formed commands are refused by the check, single steps give what the spec says, and
for every statement with hypotheses a state and operands that meet them together, clause by clause.
-/
namespace Sys2Proof.Tests
open Sys2Proof Sys2Proof.Machine
set_option Elab.async false

/-! ### Small states -/

/-- A command word with values at bit positions. -/
def wd (l : List (Nat × Nat)) : CmdWord := BitVec.ofNat 256 (l.foldl (fun n p => n + p.1 * 2 ^ p.2) 0)

/-- Powered up, core A of the cox die active. -/
def booted : State := (State.reset.setPow { State.reset.pow with step := 11 }).setFld F.COX_STAT_state [] 1

/-- A rig with crew 0 of cores 0 and 1, and a 64 GiB range; the drive of stroke 100, whose boundary is now. -/
def crewed : State :=
  (((((booted.setFld F.RIG_CREW_valid [0] 1).setFld F.RIG_CREW_size_gib [0] 64).setFld F.SEQ_CREW_member [0] 1).setFld
    F.SEQ_CREW_member [1] 1).setStk { booted.stk with num := 100, drive := true })

/-- The same in the recovery of the stroke. -/
def resting : State := crewed.setStk { crewed.stk with drive := false }

/-- A launch that runs since stroke 90. -/
def launch7 : Launch :=
  { accept := 7, queue := 3, slot := 0, seq := 0, cookie := 0, ctx := 2, named := false, start := 90, planned := 90
    directory := 64, args := 0, argsLen := 0, argsInHbm := true, since := 0, checked := true, running := true }

/-- Crew 0 runs the launch on core 0, with the sequencer in the entry at 0. -/
def running : State :=
  (crewed.modCrew 0 fun k => { k with launches := [launch7] }).modSeq 0 fun q => { q with
    accept := some 7, ended := false, table := ⟨true, 0x2C0000, 8⟩, start := 90 }

/-- The running crew with words held by the sequencer of core 0. -/
def holding (l : List CmdWord) : State := running.modSeq 0 fun q => { q with held := l }

/-- A command of launch 7. -/
def cmd (w : CmdWord) : QCmd := { word := w, accept := 7, stroke := 95 }

/-! ### Witnesses: power and stroke -/

/-- A sensor at its levels, from reset. -/
theorem witness_thermal :
    (3 < 27 ∧ 95 ≤ 95 ∧ State.reset.fld F.COX_TEMP_warn [3] = 0 ∧ State.reset.fld F.COX_TEMP_throttle [3] = 0
      ∧ State.reset.pow.critical = false) ∧ (20 < 27 ∧ 105 ≤ 255 ∧ State.reset.fld F.COX_TEMP_warn [20] = 0) := by decide +kernel

/-- An idle block, and one that is not. -/
theorem witness_block_idle : crewed.blockFree (.engine 0 3) = true ∧ Block.engine 0 3 ∉ crewed.pow.idle := by decide +kernel

/-- A powered package with one armed clock monitor and one to be armed again. -/
theorem witness_supply :
    let s := (crewed.setPow { crewed.pow with armed := [4], rearm := [(5, 0)] }).setPins { crewed.pins with enHbm := true }
    1100 < (1101 : BitVec 32).toNat ∧ s.pow.tripped = false ∧ 1 ≤ s.pow.step ∧ s.enabledRail .hbm = true ∧ s.pow.warn = none
      ∧ 4 ∈ s.pow.armed ∧ Map.find 5 s.pow.rearm = some 0 ∧ 0 + 1000 ≤ 1000 ∧ s.raw ≤ 1000 ∧ s.pow.step ≠ 0
      ∧ s.monitorHeld 5 = false := by decide +kernel

/-- A go written to GLB_MODE: refused, null, taken at once, taken for a named stroke; a change that settles. -/
theorem witness_mode :
    let s := crewed.setPow { crewed.pow with mode := some { target := 1, start := none, b0 := some 0, settle := 2000000 } }
    let n := crewed.setReg R.GLB_MODE_AT_LO [] 102
    ((0x03000001 : BitVec 32).toNat % 2 = 1 ∧ bits (0x03000001 : BitVec 32).toNat 25 24 = 3) ∧
    crewed.fld F.GLB_MODE_current [] = bits (0x00000001 : BitVec 32).toNat 25 24 ∧
    bits (0x02000001 : BitVec 32).toNat 25 24 ≠ crewed.fld F.GLB_MODE_current [] ∧
    (bits (0x02000003 : BitVec 32).toNat 1 1 = 1 ∧ ¬ n.pair R.GLB_MODE_AT_LO R.GLB_MODE_AT_HI [] < n.stk.num + 2
      ∧ crewed.pow.mode.isSome = false ∧ crewed.inEasy = false) ∧
    (∃ m, s.pow.mode = some m ∧ m.b0.isSome = true ∧ m.settled = false ∧ m.settle ≤ (s.advance 2000000).ns) := by
  refine ⟨by decide +kernel, by decide +kernel, by decide +kernel, by decide +kernel, ⟨_, rfl, ?_⟩⟩
  decide +kernel

/-- The phases of Easy. -/
theorem witness_easy :
    let s := fun e : EasyPhase => crewed.setPow { crewed.pow with easy := e }
    let w := ((s .asleep).setReg R.GLB_WAKE_AT_LO [] 15).setFld F.GLB_EASY_wake_at_valid [] 1
    let r := crewed.setPow { crewed.pow with easy := .asleep, wakeReq := true }
    ((s .awake).pow.easy = .awake ∧ (1 : BitVec 32).toNat % 2 = 1 ∧ bits (1 : BitVec 32).toNat 1 1 = 0
      ∧ bits (1 : BitVec 32).toNat 3 3 = 0) ∧
    ((s .entering).pow.easy = .entering ∧ (s .entering).pow.wakeReq = false) ∧
    ((s .asleep).pow.easy = .asleep ∧ (s .asleep).pow.wakeReq = false ∧ (2 : BitVec 32).toNat % 2 = 0
      ∧ bits (2 : BitVec 32).toNat 1 1 = 1) ∧
    (bits (8 : BitVec 32).toNat 1 1 = 0 ∧ bits (8 : BitVec 32).toNat 3 3 = 1
      ∧ (s .asleep).boundaryOf (s .asleep).wakeStroke < Int.ofNat (s .asleep).ns + 60000) ∧
    (w.pow.easy = .asleep ∧ w.pow.wakeReq = false ∧ w.isSet F.GLB_EASY_wake_at_valid [] = true
      ∧ (w.advance 1440).boundaryOf (w.advance 1440).wakeStroke - 60000 ≤ Int.ofNat (w.advance 1440).ns
      ∧ Int.ofNat w.pow.entry ≤ (w.advance 1440).boundaryOf (w.advance 1440).wakeStroke - 60000) ∧
    (r.pow.easy = .asleep ∧ r.pow.wakeReq = true ∧ r.pow.wakeW ≤ (r.advance 0).ns) ∧
    ((s .waking).pow.easy = .waking ∧ (s .waking).pow.tFirst ≤ (s .waking).stk.bound ∧ (s .waking).stk.drive = true
      ∧ ((s .waking).advance 0).ns ≤ (s .waking).stk.bound + 1) ∧
    (s .asleep).strayAt 0x01000000 = true := by decide +kernel

/-- A boundary risen, by the silent dies and by running ones; a drive that is over; a rig whose stroke has come. -/
theorem witness_stroke_boundary :
    let s := ((State.reset.setPow { State.reset.pow with step := 2 }).setFld F.STK_CTL_running [] 1)
    let g : RigImg := { id := 5, package := 0, sections := [], bytes := [] }
    let r := (crewed.setRig { crewed.rig with staged := some g, effect := some 100 })
    ((s.advance 4096).risen = some 1 ∧ s.isSet F.STK_CTL_running [] = true ∧ s.diesRun = false ∧ s.flt.resets = []) ∧
    (crewed.stk.drive = true ∧ (crewed.advance 500000).driveEndAt ≤ (crewed.advance 500000).ns ∧ crewed.rigDue = false) ∧
    (r.rigDue = true ∧ r.rig.staged = some g ∧ r.flt.chipReload = false ∧ r.rigRefused g = none ∧ r.flt.resets = []) := by
  decide +kernel

/-- A receiver in LOCKED at its boundary, after it, and in a run of missed marks. -/
theorem witness_flywheel :
    let s := fun f : Flywheel => (crewed.setFld F.STK_RX_state [1] 0).modRx 1 fun _ => f
    let a := s { count := 9, pred := 1000, adopt := false }
    let b := s { count := 9, pred := 1000, adopt := false, emitted := true, missRun := 3 }
    let d := s { count := 9, pred := 1000, adopt := false, emitted := true, missRun := 15 }
    (a.rxRuns 1 = true ∧ (a.rx 1).adopt = false ∧ 4 ≤ a.period ∧ (a.rx 1).next = none ∧ a.fld F.STK_RX_state [1] = 0
      ∧ (a.advance 1002).ns ≤ (a.rx 1).pred + 2 ∧ (a.rx 1).pred ≤ (a.advance 1002).ns + 2
      ∧ (9 : BitVec 16) = BitVec.ofNat 16 (a.rx 1).count) ∧
    ((a.rx 1).emitted = false ∧ (a.rx 1).pred ≤ (a.advance 1000).ns) ∧
    (b.rxRuns 1 = true ∧ (b.rx 1).adopt = false ∧ (b.rx 1).emitted = true
      ∧ (b.rx 1).pred + b.period / 2 < (b.advance 3049).ns ∧ (b.rx 1).missRun ≠ 15) ∧
    (d.rxRuns 1 = true ∧ (d.rx 1).adopt = false ∧ (d.rx 1).emitted = true
      ∧ (d.rx 1).pred + d.period / 2 < (d.advance 3049).ns ∧ (d.rx 1).missRun = 15 ∧ d.fld F.STK_RX_state [1] ≠ 2) := by
  decide +kernel

/-! ### Witnesses: queues, sequencer, tallies -/

/-- The 64 bytes of a host command: op, sequence number, tally number and value. -/
def hostBytes (op seq tally value directory : Nat) : Bytes :=
  natLe 4 op ++ natLe 4 seq ++ natLe 8 0 ++ natLe 8 directory ++ natLe 8 0 ++ natLe 4 0 ++ natLe 4 tally ++ natLe 8 value
    ++ natLe 16 0

/-- A queue 3 of a privileged context of crew 0, with a command fetched 100 ns ago at its head; tally 9 is the crew's. -/
def queued (b : Bytes) : State :=
  let s := ((crewed.setRaw 100).setStk { crewed.stk with num := 100, drive := true, bound := 100 })
  let s := s.setCtxs [(2, { bound := true, privileged := true, crew := 0 })]
  (s.modTally 9 fun _ => { value := 5, allocated := true, remote := true, crew := 0 }).modQueue 3 fun k => { k with
    enable := true, context := 2, tail := 1, expected := 40, fetched := [{ slot := 0, data := b, since := 0 }] }

/-- Each host command at the head of an eligible queue, at the instant of a boundary; and one that leaves a gap. -/
theorem witness_accept :
    ∀ x ∈ [(1, 40, 0), (2, 40, 7), (3, 40, 7), (4, 40, 5), (5, 40, 0), (1, 41, 0)],
      let b := hostBytes x.1 x.2.1 9 x.2.2 64
      let s := queued b
      (s.queue 3).headCmd = some b ∧ s.atBoundary = true ∧ s.canTake 3 = true ∧ s.flt.drain = none ∧ (hostCmd b).bad = false
        ∧ (hostCmd b).op = x.1 ∧ (hostCmd b).named = false
        ∧ ((hostCmd b).seq = (s.queue 3).expected ∨ 0 < serial32 (hostCmd b).seq (s.queue 3).expected)
        ∧ (s.ctx (s.queue 3).context).privileged = true ∧ s.tallyOf (s.queueCrew 3) (hostCmd b).tally = true
        ∧ s.halted (s.queueCrew 3) = false ∧ s.shift (s.queueCrew 3) = 0 := by decide +kernel

/-- A queue 3 without fetched entries, and one below its tail. -/
def ringed : State := (queued []).modQueue 3 fun k => { k with fetched := [] }

/-- A queue to be rung and fetched for. -/
theorem witness_ring :
    (ringed.inEasy = false ∧ ringed.inReset = false ∧ (ringed.queue 3).enable = true
      ∧ (1 : BitVec 32).toNat < (ringed.queue 3).size ∧ (ringed.queue 3).size ≤ (16 : BitVec 32).toNat) ∧
    (ringed.frontEnd = true ∧ (ringed.queue 3).stopped = false ∧ (ringed.queue 3).ringInHbm = false ∧ ringed.pow.perst = false
      ∧ (ringed.queue 3).fetched = [] ∧ (ringed.queue 3).covers (ringed.queue 3).head = true
      ∧ (ringed.queue 3).head < (ringed.queue 3).size ∧ 2 ≤ (ringed.queue 3).size ∧ ringed.hostPoison = []) := by decide +kernel

/-- A queue to be configured; the tally windows. -/
theorem witness_queue_config :
    let d := crewed.setCtxs [(2, { bound := true, crew := 0 })]
    d.strayAt R.SEQ_QCFG.base = false ∧ d.writeHeld R.SEQ_QCFG.base = false ∧ (d.queue (d.fld F.SEQ_QSEL_queue [])).enable = false
      ∧ bits (0x80000002 : BitVec 32).toNat 31 31 = 1 ∧ (d.ctx (bits (0x80000002 : BitVec 32).toNat 11 0)).bound = true
      ∧ d.strayAt (R.TAL_ADD.addr [9]) = false ∧ d.strayAt (R.TAL_SET.addr [9]) = false := by decide +kernel

/-- A launch with a misaligned directory, and one with an empty one. -/
theorem witness_directory :
    let m := crewed.modCrew 0 fun k => { k with launches := [{ launch7 with checked := false, directory := 65 }] }
    let l := crewed.modCrew 0 fun k => { k with launches := [{ launch7 with checked := false }] }
    (m.launchOf 7 = some (0, { launch7 with checked := false, directory := 65 }) ∧ m.inReset = false ∧ m.inEasy = false) ∧
    (l.launchOf 7 = some (0, { launch7 with checked := false }) ∧ l.inReset = false ∧ l.inEasy = false
      ∧ l.inRange 0 64 2304 = true ∧ anyPoison (l.hbmBytes 64 2304).1 = false
      ∧ (l.hbmBytes 64 2304).2.dirBad 0 (l.hbmBytes 64 2304).1 = false) := by decide +kernel

/-- An argument block to land. -/
theorem witness_arguments :
    let a := running.modSeq 0 fun q => { q with argLanded := false }
    a.runningOf 0 = some (0, launch7) ∧ (a.core 0).seq.argLanded = false ∧ a.coreWorks 0 = true ∧ a.dumpFrozen 0 0xD = false
      ∧ (a.core 0).seq.accept = some launch7.accept ∧ launch7.argsInHbm = true
      ∧ (a.core 0).seq.stopped = false
      ∧ (((launch7.members.find? fun m => decide (m.1 = 0)).map fun m => m.2.2).getD 0) + launch7.argsLen ≤ storeEnd := by decide +kernel

/-- A header of one word, due at the start. -/
def header1 : CmdWord := wd [(15, 252), (1, 218)]

/-- The running crew, with a table of a header and a NOP in the table area. -/
def tabled : State := running.modCore 0 fun k => { k with
  store := Map.store unlisted (Map.store unlisted [] 0x2C0000 (natLe 32 header1.toNat)) 0x2C0020 (natLe 32 (wd [(5, 252)]).toNat) }

/-- An entry to issue. -/
theorem witness_entry_issue :
    let s := tabled.modSeq 0 fun q => { q with waits := some [] }
    s.crewOf 0 = some 0 ∧ (s.core 0).seq.accept = some 7 ∧ (s.core 0).seq.waits = some [] ∧ (s.core 0).seq.stopped = false
      ∧ (s.core 0).seq.ended = false ∧ (s.core 0).seq.argLanded = true ∧ s.coreWorks 0 = true ∧ s.dumpFrozen 0 0xE = false
      ∧ s.peekWord 0 0 (s.core 0).seq.table (s.core 0).seq.pos = some header1 ∧ hdrCond header1 = false
      ∧ (s.tableWords 0 0 (s.core 0).seq.table 1 (hdrWords header1)).1 = some [(wd [(5, 252)], false)] := by decide +kernel

/-- A word in error, and a word for each unit. -/
theorem witness_dispatch :
    ∀ y ∈ [(0, 0, true), (1, 0, false), (2, 12, false), (3, 13, false), (4, 0, false)],
      let w := wd [(y.1, 252), (y.2.1, 236)]
      let h := holding [w]
      (h.core 0).seq.held = [w] ∧ h.wordReady 0 = true ∧ h.wordBad 0 w = y.2.2 ∧ (h.core 0).seq.accept = some 7
        ∧ (h.eng 0 (unitOf w)).q.length < 4 ∧ (h.core 0).vecq.length < 4 ∧ (h.core 0).dmaq.length < 8 ∧ talOp w ≠ 1
        ∧ (h.core 0).tq = [] := by
  decide +kernel

/-- An entry ahead. -/
theorem witness_run_ahead :
    tabled.crewOf 0 = some 0 ∧ (tabled.core 0).seq.accept = some 7 ∧ (tabled.core 0).seq.ended = false
      ∧ (tabled.core 0).seq.stopped = false ∧ (tabled.core 0).seq.loops = [] ∧ tabled.inEasy = false ∧ tabled.inReset = false
      ∧ tabled.dumpFrozen 0 0xE = false ∧ (tabled.core 0).seq.pos ≤ (tabled.core 0).seq.aheadPos
      ∧ tabled.peekWord 0 0 (tabled.core 0).seq.table (tabled.core 0).seq.aheadPos = some header1 ∧ hdrCond header1 = false
      ∧ hdrBad header1 (tabled.core 0).seq.aheadPos (tabled.core 0).seq.table.len = false
      ∧ (tabled.core 0).seq.start + hdrOffset header1 + tabled.slipOf 0 ≤ tabled.stk.num + 4 := by decide +kernel

/-- A launch to complete. -/
theorem witness_launch_complete :
    let x := crewed.modCrew 0 fun k => { k with launches := [launch7] }
    (x.crew 0).runningLaunch = some launch7 ∧ x.crewValid 0 = true ∧ x.halted 0 = false ∧ x.inReset = false
      ∧ launch7.poisoned = false ∧ (∀ d ∈ x.members 0, x.corePerformed d 7 = true) ∧ x.flitsDone 0 7 = true ∧ x.aord = [] := by
  decide +kernel

/-- A WAIT_GE that has begun in stroke 90 with a timeout of 5. -/
def wait90 : UWait := { unit := 0, cmd := cmd 0, wait := { tally := 9, value := 1, timeout := 5, w := 90, since := 0 } }

/-- A wait to expire. -/
theorem witness_wait_timeout :
    let t := (running.modCore 0 fun k => { k with waits := [wait90] }).setStk { running.stk with drive := false }
    t.driveOver = true ∧ t.halted 0 = false ∧ (t.core 0).seq.accept = some 7 ∧ (t.core 0).seq.waits = none
      ∧ wait90 ∈ (t.core 0).waits ∧ wait90.wait.begun = true ∧ wait90.wait.sat = false ∧ wait90.wait.expired = false
      ∧ 0 < wait90.wait.timeout ∧ wait90.wait.w + wait90.wait.timeout ≤ t.stk.num + 1 := by decide +kernel

/-- Core 0 with a tally word as its oldest tally operation; tally 9 is the crew's. -/
def tallied (w : CmdWord) (fixed : Nat) : State :=
  ((((running.modCore 0 fun k => { k with tq := [cmd w] }).modTally 9 fun _ =>
    { value := 5, allocated := true, remote := true, crew := 0 }).setCtxs [(2, { bound := true, privileged := true })]).setFld
      F.GLB_DET_fixed [] fixed)

/-- The oldest tally operation: an ADD, a SET at once and under FIXED, a READ; and a WAIT_GE that is not satisfied. -/
theorem witness_tallies :
    (∀ x ∈ [(0, 0), (2, 0), (2, 1), (3, 0)],
      let w := wd [(4, 252), (2, 240), (x.1, 232), (9, 199), (7, 159), (0x100, 137)]
      let s := tallied w x.2
      s.crewOf 0 = some 0 ∧ s.coreWorks 0 = true ∧ (s.core 0).tq = [cmd w] ∧ s.tallyOf 0 (talNum w) = true ∧ talOp w = x.1
        ∧ wbits w 231 231 = 0 ∧ (cmd w).started = false ∧ (s.core 0).released (unitOf w) (cmd w).tag = true
        ∧ (s.ctx (ctxOf w)).privileged = true ∧ s.fixed = decide (x.2 = 1) ∧ s.mustWait 0 (talNum w) = false) ∧
    (let w := wd [(4, 252), (1, 232), (9, 199), (6, 159)]
     let s := (tallied 0 0).modSeq 0 fun q => { q with held := [w] }
     (s.core 0).seq.held = [w] ∧ wbits w 255 252 = 4 ∧ talOp w = 1 ∧ s.wordReady 0 = true ∧ s.wordBad 0 w = false
       ∧ (s.core 0).waits = [] ∧ s.tallyOf 0 (talNum w) = true ∧ serial32 (s.tally (talNum w)).value (talValue w) < 0) := by
  decide +kernel

/-- Each control word as the next word of a core, with one more behind it; a loop over one entry; a pool with an item. -/
theorem witness_control :
    (∀ op ∈ [0, 1, 3, 4, 5, 6, 7],
      let w := wd [(5, 252), (op, 232), (0x100, 160)]
      let s := holding [w, wd [(5, 252)]]
      s.crewOf 0 = some 0 ∧ s.ctlWord 0 op = some w ∧ 2 ≤ (s.core 0).seq.held.length
        ∧ (s.core 0).seq.caller = none ∧ (s.core 0).fences = [] ∧ wbits w 186 183 ≤ 3 ∧ inData (wbits w 181 160) 32 = true
        ∧ s.nextItem 0 0 ((s.crew 0).pool (wbits w 186 183)) = none) ∧
    (let s := (holding [wd [(5, 252), (1, 232)]]).modCore 0 fun k => { k with vecq := [cmd 0], nextTag := 1 }
     s.ctlWord 0 1 = some (wd [(5, 252), (1, 232)]) ∧ (s.core 0).fencePast (s.core 0).nextTag = false) ∧
    (let w := wd [(5, 252), (2, 232), (3, 216), (1, 203), (2, 187)]
     let s := (holding [w]).modSeq 0 fun q => { q with starts := [0], entry := 2, pos := 4 }
     s.ctlWord 0 2 = some w ∧ 0 < wbits w 215 203 ∧ wbits w 215 203 ≤ ((s.core 0).seq.starts.filter fun y => decide (y < 2)).length
       ∧ 0 < wbits w 231 216 ∧ (((s.core 0).seq.starts.filter fun y => decide (y < 2)).drop (1 - 1)).head? = some 0) ∧
    (let s := (holding [wd [(5, 252), (7, 232)]]).setFld F.TRC_CTL_enable [0] 1
     s.ctlWord 0 7 = some (wd [(5, 252), (7, 232)]) ∧ s.isSet F.TRC_CTL_enable [0] = true ∧ (s.core 0).trc.length < 250 ∧ (s.core 0).trcReset = false ∧ (s.core 0).trcLoss = none) ∧
    (∀ op ∈ [5, 6],
      let w := wd [(5, 252), (op, 232), (0x100, 160)]
      let x : PoolItem := { ord := 0, stroke := 99, core := 0, num := some 0 }
      let s := (holding [w]).modCrew 0 fun k => { k with pools := [{ base := 0x1000, cap := 4, nput := 1, next := 1, items := [x] }] }
      s.ctlWord 0 op = some w ∧ s.nextItem 0 0 ((s.crew 0).pool 0) = some x ∧ ((s.crew 0).pool 0).full = false) := by
  decide +kernel

/-! ### Witnesses: core store, engines, DMA -/

/-- No crew has pages: no address lies in a STATE page. -/
theorem no_state_pages (s : State) (h : s.crews = []) (a : Nat) : s.isState a = false := by
  unfold State.isState State.pageAt
  split <;> simp [State.crew, h, Map.getD, Map.find]

/-- One core listed, whose words have no errors: no word of any core has. -/
theorem clean_words (s : State) (x : Core) (h : s.cores = [(0, x)]) (hx : x.words = []) (k i : Nat) : s.wordSt k i = {} := by
  simp only [State.wordSt, State.core, h, Map.getD, Map.find]
  split
  · simp [hx, Map.find]
  · simp [Map.find]

/-- No collective port. -/
theorem no_port (s : State) (n : Nat) (h : s.fld F.LNK_COLL_port [n] = 0) (a : Nat) : s.inPort n a = false := by
  simp [State.inPort, h]

/-- A word with one flipped bit, its write-back queued; a bank to be read in the recovery, the first and the last of its row. -/
theorem witness_core_store :
    let s := resting.modCore 0 fun k => { k with ceWb := [5], words := [(5, { flips := [9] })] }
    let l := (s.modCore 0 fun k => { k with patrolled := (iota 0 24).filter fun b => decide (b ≠ 5) }).setFld F.CST_PATROL_row [0] 2047
    (41 / 8 ∈ (s.core 0).ceWb ∧ s.wordSt 0 (41 / 8) = { poison := false, flips := [9] } ∧ s.inEasy = false ∧ s.inReset = false) ∧
    (s.patrolDue 0 5 = true ∧ (s.core 0).patrolled.length + 1 < 24) ∧
    (∃ x ∈ rowWords 0 (s.fld F.CST_PATROL_row [0]), s.wordSt 0 x = { poison := false, flips := [9] }) ∧
    (l.patrolDue 0 5 = true ∧ 24 ≤ (l.core 0).patrolled.length + 1 ∧ l.fld F.CST_PATROL_row [0] = 2047) := by decide +kernel

/-- A matrix command of a shape: k_len 1, emit, FP8 streams at 0x1000 and 0x2000, FP32 results at 0x4000. -/
def matrixWord (shape group : Nat) : CmdWord :=
  if shape = 1 then wd [(1, 252), (3, 236), (1, 234), (group, 221), (1, 219), (0x8000, 155)]
  else wd [(1, 252), (3, 236), (shape, 234), (group, 221), (1, 219), (1, 177), (0x1000, 155), (0x2000, 133), (0x4000, 67)]

/-- Core 0 with a matrix command on engine 3; a QUAD's descriptor has four absent problems. -/
def multiplying (shape group : Nat) : State :=
  ((crewed.modCore 0 fun k => { k with
    eng := [(3, { q := [cmd (matrixWord shape group)] })]
    store := Map.store unlisted [] 0x8000 ((iota 0 4).flatMap fun _ => [0xFF, 0xFF, 0x3F] ++ List.replicate 29 0) }).setFld F.ENG_PRESET_quad_ok [0] 8).setFld
      F.ENG_PRESET_wide_ok [0] 8

/-- Each shape in order, and in error by its group code. -/
theorem witness_matrix :
    ∀ shape ∈ [0, 1, 2], ∀ x ∈ [(0, false), (3, true)],
      let w := matrixWord shape x.1
      let s := multiplying shape x.1
      let m := mcmd w
      let desc := if m.shape = 1 ∧ m.aAddr % 128 = 0 ∧ inData m.aAddr 128 = true then
        Map.bytes unlisted (s.core 0).store m.aAddr 128 else []
      (s.eng 0 3).q = [cmd w] ∧ (cmd w).started = false ∧ (cmd w).done = 0 ∧ s.unitRuns 0 3 0 = true ∧ (s.eng 0 3).frozen = false ∧ (s.core 0).words = []
        ∧ (mcmd w).shape = shape ∧ (s.eng 0 3).out.length < 2 ∧ s.matrixBad 0 3 (cmd w) (wbits w 251 240) desc = x.2
        ∧ (∀ p ∈ problems (mcmd w) desc, ringName p.a = none ∧ ringName p.b = none ∧ ringName p.aScale = none
            ∧ ringName p.bScale = none)
        ∧ (mcmd w).keep = false ∧ (mcmd w).emit = true ∧ (inFmt (mcmd w).aFmt).isSome = true := by decide +kernel

/-- The word states of the multiplying core. -/
theorem witness_matrix_words : ∀ i, (multiplying 0 0).wordSt 0 i = {} :=
  clean_words _ ((multiplying 0 0).core 0) (by decide +kernel) (by decide +kernel) 0

/-- A buffer with one cell of row 0, and its check accumulator: of equal sum, or not. -/
def emitted (sum : Word) : OutBuf :=
  { cmd := cmd 0, ctx := 0, shape := 0, group := 0, outFmt := 0, watch := none, sampled := false, index := 0, k := [1]
    tiles := [⟨0, 0, 1, 1, 0x4000, 64⟩], cells := [⟨0, 0, 0x3F800000, 0, 0, false⟩], chk := [⟨0, 32, sum, 0, 0x3F800000, false⟩] }

/-- Core 0 with the buffer waiting on engine 3. -/
def committing (sum : Word) : State := crewed.modCore 0 fun k => { k with eng := [(3, { out := [emitted sum] })] }

/-- A buffer whose rows agree, one with a row that does not. -/
theorem witness_commit :
    ∀ x ∈ [(0x3F800000, true), (0x40000000, false)],
      let s := committing (BitVec.ofNat 32 x.1)
      let b := emitted (BitVec.ofNat 32 x.1)
      s.crewOf 0 = some 0 ∧ (s.eng 0 3).out = [b] ∧ s.coreWorks 0 = true ∧ (s.eng 0 3).frozen = false ∧ s.shadowed 0 3 = none ∧ b.sampled = false
        ∧ (s.core 0).words = [] ∧ decide (firstMismatch 0 (s.checkRows 0 b b.cells b.chk) = none) = x.2 ∧ b.watch = none
        ∧ (∀ d ∈ b.cells, d.poison = false) ∧ (∀ r ∈ tileRows b ⟨0, 0, 1, 1, 0x4000, 64⟩ b.cells, r.length ≤ 64) := by
  decide +kernel

/-- The accumulators open and not. -/
theorem witness_accumulators :
    let s := crewed.setFld F.GLB_PERS_debug [] 1
    (s.accOpen 0 3 = true ∧ s.fld F.ENG_ACC_SEL_col [0, 3] < 32 ∧ s.fld F.ENG_ACC_SEL_word [0, 3] = 0
      ∧ s.strayAt (R.ENG_ACC_DATA.addr [0, 3]) = false) ∧
      crewed.accOpen 0 3 = false ∧ crewed.strayAt (R.ENG_ACC_DATA.addr [0, 3]) = false := by decide +kernel

/-- A vector command: FP32, 2 elements in 1 row, a at 0x1000, b scalar, c scalar, d at 0x3000. -/
def vectorWord (op out cMode n : Nat) : CmdWord :=
  wd [(2, 252), (12, 236), (op, 230), (out, 224), (if op = 0x28 then 0 else 1, 222), (cMode, 220), (0x1000, 198), (0x2000, 176), (0x3000, 132), (n, 112), (1, 100)]

/-- Core 0 with a vector command. -/
def vectoring (w : CmdWord) : State := crewed.modCore 0 fun k => { k with vecq := [cmd w] }

/-- Every vector operation in order, and in error by n = 0. -/
theorem witness_vector :
    ∀ op ∈ iota 0 0x18 ++ iota 0x20 5 ++ [0x28, 0x29], ∀ x ∈ [(2, false), (0, true)],
      let w := vectorWord op (if vCompares op then 6 else 0) 1 x.1
      let s := vectoring w
      s.crewOf 0 = some 0 ∧ (s.core 0).vecq = [cmd w] ∧ s.unitRuns 0 0xC (cmd w).tag = true ∧ (s.core 0).words = []
        ∧ (vcmd w).bad = x.2 ∧ (vcmd w).op = op ∧ (vSrc (vcmd w).fmt).isSome = true ∧ (vOut (vcmd w).out).isSome = true
        ∧ (vcmd w).half = false ∧ (vcmd w).cMode = 1 := by decide +kernel

/-- A DMA command of one row of 64 bytes from 0x1000 to an address. -/
def dmaWord (op src dst rowBytes : Nat) (more : List (Nat × Nat)) : CmdWord :=
  wd ([(3, 252), (13, 236), (op, 232), (src, 229), (dst, 226), (0x1000, 178), (rowBytes, 101), (1, 85)] ++ more)

/-- Core 0 with a DMA command, ring 2 of 4 KiB at 0x10000, an aperture of a page. -/
def moving (w : CmdWord) : State :=
  ((((crewed.modCore 0 fun k => { k with dmaq := [cmd w] }).setFld F.ENG_RING_enable [0, 2] 1).setFld F.ENG_RING_log2_size [0, 2] 12
    ).setFld F.ENG_RING_base [0, 2] 16).setReg R.PCI_APER_SZ [0] 1

/-- Rows in core store: COPY, GATHER, SCATTER and FILL in order, and each operation in error by row_bytes = 0. -/
theorem witness_dma_rows :
    (∀ op ∈ [0, 1, 2, 4],
      let w := dmaWord op 0 0 64 [(0x3000, 139), (0x2000, 6)]
      (moving w).dmaReady 0 0 = some (0, cmd w, dcmd w) ∧ (cmd w).started = false ∧ (moving w).dmaBad 0 0 (dcmd w) = false
        ∧ (∀ p ∈ ((moving w).core 0).pre, p.entry ≠ (cmd w).entry)
        ∧ (dcmd w).codec = 0 ∧ (dcmd w).dst = 0 ∧ (dcmd w).src = 0 ∧ (dcmd w).op = op ∧ (dcmd w).rows = 1 ∧ (dcmd w).aux = 0x2000
        ∧ (moving w).extOk 0 0 0 0x1000 64 = true ∧ (moving w).extOk 0 0 0 0x3000 64 = true
        ∧ leNat (Map.bytes unlisted ((moving w).core 0).store 0x2000 8) = 0) ∧
    (∀ op ∈ [0, 1, 2, 3, 4, 5],
      let w := dmaWord op 0 0 0 []
      (moving w).dmaReady 0 0 = some (0, cmd w, dcmd w) ∧ (moving w).dmaBad 0 0 (dcmd w) = true ∧ (dcmd w).op = op) := by
  decide +kernel

/-- A COPY between core store and each other space. -/
theorem witness_dma_spaces :
    ∀ x ∈ [(0, 1, 0x3000), (0, 3, 0x40), (0, 2, 0x400040), (1, 0, 0x3000), (3, 0, 0x3000)],
      let w := dmaWord 0 x.1 x.2.1 16 [(x.2.2, 139)]
      let s := (moving w).setFld F.PCI_APER_SZ_pages [0] 8
      s.dmaReady 0 0 = some (0, cmd w, dcmd w) ∧ (∀ p ∈ (s.core 0).pre, p.entry ≠ (cmd w).entry) ∧ (cmd w).started = false
        ∧ s.dmaBad 0 0 (dcmd w) = false ∧ s.toPort 0 (dcmd w) = false ∧ (dcmd w).codec = 0
        ∧ (dcmd w).op = 0 ∧ (dcmd w).rows = 1 ∧ s.gran = [] ∧ s.hostPoison = [] ∧ s.crews = []
        ∧ (∀ k ∈ iota 0 64, s.isSet F.ATM_WIN_LO_valid [k] = false) ∧ (∀ k ∈ iota 0 16, s.isSet F.PMC_CREW_permit [k] = false)
        ∧ s.fld F.LNK_COLL_port [0] = 0 ∧ (dcmd w).src = x.1 ∧ (dcmd w).dst = x.2.1 ∧ (x.2.1 = 2 → bits (dcmd w).dstA 29 22 ≠ 0) := by
  decide +kernel

/-- A RING_APPEND with room, without, and in progress. -/
theorem witness_ring_append :
    let w := dmaWord 3 0 0 64 [(2, 3)]
    let s := moving w
    let f := s.setReg R.ENG_RFILL [0, 2] 4096
    let p := s.modCore 0 fun k => { k with dmaq := [{ cmd w with started := true }] }
    (s.dmaReady 0 0 = some (0, cmd w, dcmd w) ∧ (dcmd w).op = 3 ∧ s.dmaBad 0 0 (dcmd w) = false ∧ (dcmd w).codec = 0
      ∧ (∀ p ∈ (s.core 0).pre, p.entry ≠ (cmd w).entry)
      ∧ (dcmd w).src = 0 ∧ (dcmd w).ring < 8 ∧ 0 < (dcmd w).rows * (dcmd w).rowBytes ∧ 64 ≤ s.ringSize 0 (dcmd w).ring
      ∧ (s.reg R.ENG_RFILL [0, 2]).toNat % 64 = 0 ∧ 0x1000 + 64 ≤ s.ringBase 0 (dcmd w).ring ∧ (cmd w).done = 0
      ∧ s.ringFill 0 (dcmd w).ring + 64 ≤ s.ringSize 0 (dcmd w).ring) ∧
    (f.dmaReady 0 0 = some (0, cmd w, dcmd w) ∧ f.dmaBad 0 0 (dcmd w) = false ∧ f.ringRoom 0 (dcmd w).ring = false) ∧
    (p.dmaReady 0 0 = some (0, { cmd w with started := true }, dcmd w) ∧ p.dmaBad 0 0 (dcmd w) = false
      ∧ p.ringRoom 0 (dcmd w).ring = true ∧ (∀ x ∈ (p.core 0).pre, x.entry ≠ (cmd w).entry)) := by decide +kernel

/-- A COPY that quantises a row of 32 FP32 elements to E4M3, its scale at 0x2000. -/
theorem witness_quantise :
    let w := dmaWord 0 0 0 128 [(0x3000, 139), (1, 224), (1, 223), (0x2000, 6)]
    (moving w).dmaReady 0 0 = some (0, cmd w, dcmd w) ∧ (moving w).dmaBad 0 0 (dcmd w) = false ∧ (dcmd w).codec = 1
      ∧ (∀ p ∈ ((moving w).core 0).pre, p.entry ≠ (cmd w).entry) ∧ (cmd w).started = false ∧ (dcmd w).op = 0 ∧ (dcmd w).src = 0 ∧ (dcmd w).dst = 0
      ∧ (dcmd w).wide = true ∧ (dcmd w).axis = 0 ∧ (dcmd w).rows = 1 ∧ (dcmd w).rowBytes = 128 ∧ mxFmt (dcmd w).mx = some (fE4M3, 8, 8)
      ∧ (dcmd w).aux < (dcmd w).dstA := by decide +kernel

/-! ### Witnesses: HBM, links, collectives -/

/-- Crews without pages: no address lies in a STATE page. -/
theorem no_pages (s : State) (h : ∀ n, (s.crew n).pages = []) (a : Nat) : s.isState a = false := by
  unfold State.isState State.pageAt
  split <;> simp [h, Map.find]

/-- One crew listed, without pages: none has. -/
theorem one_crew_no_pages (s : State) (x : Crew) (h : s.crews = [(0, x)]) (hx : x.pages = []) (n : Nat) :
    (s.crew n).pages = [] := by
  simp only [State.crew, h, Map.getD, Map.find]
  split
  · simp [hx]
  · simp

/-- Granule 0 with one symbol error and its write-back queued, in the recovery. -/
def healing (stale : Bool) : State :=
  { resting with gran := [(0, { errs := [(3, 5)] })], wbq := [(0, [{ gran := 0, poisoning := false, stale := stale }])] }

/-- Reads, write-backs and scrubs of HBM: the floor line, and a further one on the client's turn. -/
theorem witness_hbm_reads :
    let f := resting.setRecess { resting.recess with floor := [3] }
    (1 ≤ 2 ∧ crewed.populated (crewed.readPa 0) 1 = true ∧ crewed.extentUp (crewed.readPa 0) 1 = true
      ∧ crewed.granSt (crewed.readPa 0) = {}) ∧
    ((healing false).populated ((healing false).readPa 0) 1 = true ∧ (healing false).extentUp ((healing false).readPa 0) 1 = true
      ∧ (healing false).granSt ((healing false).readPa 0) = { poison := false, errs := [(3, 5)] } ∧ 3 < 4) ∧
    (∀ b ∈ [true, false], Map.getD [] (healing b).wbq 0 = [{ gran := 0, poisoning := false, stale := b }]
      ∧ (healing b).turn 0 .scrub = true ∧ (healing b).granSt (32 * 0) = { poison := false, errs := [(3, 5)] }) ∧
    resting.floorDue 3 = true ∧ (f.floorDue 3 = false ∧ f.turn 3 .scrub = true ∧ Map.getD [] f.wbq 3 = []) := by decide +kernel

/-- Writes: populated addresses, the grain path, BAR4 at populated and unpopulated addresses, in Easy. -/
theorem witness_hbm_writes :
    let e := crewed.setPow { crewed.pow with easy := .asleep }
    crewed.crews = [] ∧ crewed.gran = [] ∧ (crewed.populated 0x40 2 = true ∧ crewed.extentUp 0x40 2 = true) ∧
    (crewed.coreWorks 0 = true ∧ crewed.crewOf 0 = some 0 ∧ 0x40 % 32 + 2 ≤ 32 ∧ crewed.silentIn 0x40 2 = false
      ∧ crewed.windowAt 0x40 = none ∧ crewed.windowsOf 0x40 2 = [] ∧ crewed.remoteHolds (0x40 / 32 * 32) 32 = false) ∧
    (crewed.inEasy = false ∧ crewed.inReset = false ∧ crewed.populated (crewed.bar4Addr 0x40) 2 = true
      ∧ crewed.extentUp (crewed.bar4Addr 0x40) 2 = true ∧ crewed.silentIn (crewed.bar4Addr 0x40) 2 = false
      ∧ crewed.populated (crewed.bar4Addr (2 ^ 40)) 2 = false) ∧ e.inEasy = true := by decide +kernel

/-- Window 2 of crew 0 over the first 2 MiB, of an operation. -/
def windowed (op fixed : Nat) : State :=
  ((((crewed.setFld F.ATM_WIN_LO_valid [2] 1).setFld F.ATM_WIN_HI_size [2] 1).setFld F.ATM_WIN_HI_op [2] op).setFld
    F.GLB_DET_fixed [] fixed).setCores (if fixed = 1 then [(0, { posts := [(true, 2, 1)] }), (1, { posts := [(true, 2, 1)] })] else [])

/-- A request held by an ordered window whose turn has come. -/
def heldReq : AReq := { crew := 0, core := 0, pkg := none, stroke := 99, addr := 0x40, poisoned := false, data := [1, 0, 0, 0] }

/-- Requests to a window that is not ordered, to an ordered one out of turn, and one held whose turn has come. -/
theorem witness_atomics :
    (∀ x ∈ [(2, 0, [1, 0, 0, 0]), (0, 1, [1, 0, 0, 0])],
      let s := windowed x.1 x.2.1
      s.crews = [] ∧ s.gran = [] ∧ s.winOp 2 ≤ 0xB ∧ s.windowAt 0x40 = some 2 ∧ s.crewOf 1 = some 0 ∧ s.coreWorks 1 = true
        ∧ s.inRange 0 0x40 1 = true ∧ s.fld F.ATM_WIN_HI_crew [2] = 0 ∧ 0x40 % atomWidth (s.winOp 2) = 0
        ∧ (x.2.2 : Bytes).length = (if isCas (s.winOp 2) then 2 * atomWidth (s.winOp 2) else atomWidth (s.winOp 2))
        ∧ s.winOrdered 2 = decide (x.2.1 = 1)
        ∧ (x.2.1 = 1 → s.ownPost 1 true 2 = true ∧ s.lowerPosts 1 true 2 = true ∧ s.aord.length < 4096)) ∧
    (let s := { windowed 0 1 with aord := [heldReq] }
     s.winOp 2 ≤ 0xB ∧ s.windowAt heldReq.addr = some 2 ∧ s.works heldReq.crew = true ∧ heldReq.poisoned = false
       ∧ heldReq.addr % atomWidth (s.winOp 2) = 0 ∧ isCas (s.winOp 2) = false ∧ heldReq.data.length = atomWidth (s.winOp 2)
       ∧ heldReq.pkg = none ∧ s.lowerPosts heldReq.core true 2 = false) := by decide +kernel

/-- A stack whose interface may be tested, one that may not, one in its test. -/
theorem witness_hbm_loop :
    let g := crewed.setRig { crewed.rig with inForce := some { id := 1, package := 0, sections := [], bytes := [] } }
    let b := crewed.setFld F.HBM_LOOP_busy (stk4 3) 1
    crewed.strayAt (R.HBM_LOOP.addr (stk4 3)) = false ∧ crewed.rig.inForce = none ∧ crewed.isSet F.HBM_LOOP_busy (stk4 3) = false
      ∧ (1 : Word).toNat % 2 = 1 ∧ g.rig.inForce.isSome = true ∧ g.strayAt (R.HBM_LOOP.addr (stk4 3)) = false
      ∧ b.isSet F.HBM_LOOP_busy (stk4 3) = true := by decide +kernel

/-- Link 5 in service at x2, with credits, a window of 8 for crew 0, a route to every package, a gate entry for crew 0. -/
def linked : State :=
  let s := (crewed.setFld F.LNK_STAT_state [0, 5] 2).setReg R.LNK_CREDIT [0, 5] 0xFFFFFFFF
  let s := (s.setFld F.LNK_CREW2_window [0] 8).setFld F.LNK_ROUTE_LO_valid [0, 0] 1
  ((s.setFld F.LNK_ROUTE_LO_bulk [0, 0] 1).setReg R.LNK_GROUP [0, 0] 32).setReg R.GATE_TABLE [0, 5, 0, 7] 0x0100

/-- A flit of crew 0. -/
def flit (vc : Vc) : Flit := { body := .data [1, 2, 3], vc := vc, cls := 0, crew := some 0, dst := 1 }

/-- Channels ready with a flit, a gate slot, a SEND. -/
theorem witness_flits :
    let s := linked.modLink 5 fun k => { k with timedQ := [flit .timed], bulkQ := [flit .bulk], ctlQ := [flit .control], mgmtQ := [flit .management] }
    let w := dmaWord 5 0 4 64 [(1, 121)]
    let m := linked.modCore 0 fun k => { k with dmaq := [cmd w] }
    (∀ v ∈ [Vc.timed, .bulk, .control, .management], s.linkReady 5 v = true) ∧
    firstFlit (s.mayLaunch 5) [] (s.link 5).bulkQ = some (flit .bulk, []) ∧
    (s.stk.drive = true ∧ bits (s.reg R.GATE_TABLE (lnk48 5 ++ [s.linkState 5 - 2, 7])).toNat 15 8 = 1
      ∧ bits (s.reg R.GATE_TABLE (lnk48 5 ++ [s.linkState 5 - 2, 7])).toNat 7 4 = 0 
      ∧ firstFlit (fun f => decide (f.crew = some 0) && s.mayLaunch 5 f) [] (s.link 5).timedQ = some (flit .timed, [])) ∧
    resting.stk.drive = false ∧
    (m.dmaReady 0 0 = some (0, cmd w, dcmd w) ∧ (cmd w).started = false ∧ (∀ p ∈ (m.core 0).pre, p.entry ≠ (cmd w).entry)
      ∧ (m.core 0).words = [] ∧ m.dmaBad 0 0 (dcmd w) = false ∧ (dcmd w).op = 5 ∧ (dcmd w).src = 0 ∧ (dcmd w).dst = 4
      ∧ (dcmd w).codec = 0 ∧ (dcmd w).rows = 1 ∧ (dcmd w).rowBytes ≤ 96 ∧ m.route 0 0 (dcmd w).pkg = some (5, .bulk)) := by
  decide +kernel

/-- An unacknowledged BULK flit of crew 0. -/
def unacked : Unacked :=
  { bulk := true, crew := 0, core := 0, unit := 13, dst := 1, msg := 4, cmd := 0, accept := 7, launched := 0, isAdd := false }

/-- A link with flits to be acknowledged and sent again, silent for 1 µs, and one with an overdue acknowledgement. -/
theorem witness_acknowledge :
    let s := linked.modLink 5 fun k => { k with 
      replay := [flit .bulk, { flit .bulk with seq := 1 }], unacked := [unacked], hdrs := [(3, 0, 100)] }
    (s.linkState 5 ≠ 0 ∧ s.linkState 5 ≠ 5) ∧
    (s.linkUp 5 = true ∧ s.linkFrozen 5 = false ∧ (s.link 5).replay = [flit .bulk] ++ { flit .bulk with seq := 1 } :: []
      ∧ (1 : BitVec 12).toNat = 1 ∧ (∀ g ∈ [flit .bulk], g.seq ≠ (1 : BitVec 12).toNat) ∧ (flit .bulk).replays < 8) ∧
    (takeHeader 3 none (s.link 5).hdrs = some ((0, 100), [])
      ∧ (s.link 5).unacked.find? (fun u => u.bulk && !u.lost && decide (u.crew = 0 ∧ u.msg = 4)) = some unacked
      ∧ takeHeader 3 none (linked.link 5).hdrs = none) ∧
    (s.inEasy = false ∧ (s.link 5).lastLinkTx + 1000 ≤ (s.advance 1000).raw) ∧
    ((s.link 5).unacked = [unacked] ∧ unacked.bulk = true ∧ unacked.crew = 0
      ∧ unacked.launched + 1000 * s.fld F.LNK_CREW_ack_timeout_us [0] ≤ (s.advance (10 ^ 9)).ns ∧ s.halted 0 = false
      ∧ (s.crew 0).stop = none) := by decide +kernel

/-- Links in each state of a lane change, and one that is silent; crew 0 is on link 5. -/
theorem witness_lanes :
    let d := (linked.setFld F.LNK_STAT_state [0, 5] 4).modLink 5 fun k => { k with degSent := true, degRecv := true, restripeDue := true }
    let z := resting.setFld F.LNK_STAT_state [0, 5] 0
    let r := (resting.setFld F.LNK_STAT_state [0, 5] 1).modLink 5 fun k => { k with rejoin := true }
    (linked.linkState 5 = 2 ∧ (linked.link 5).usable = [true, true] ∧ linked.onLink 5 0 = true ∧ linked.crewValid 0 = true) ∧
    (d.linkState 5 = 4 ∧ (d.link 5).degSent = true ∧ (d.link 5).restripeDue = true ∧ (d.link 5).restriped = false
      ∧ (d.setStk { d.stk with drive := false }).stk.drive = false) ∧
    (linked.linkUp 5 = true ∧ linked.inEasy = false ∧ (linked.link 5).lastLinkRx + 10000 ≤ (linked.advance 10000).raw) ∧
    (z.linkState 5 = 0 ∧ z.stk.drive = false ∧ r.linkState 5 = 1 ∧ (r.link 5).rejoin = true) := by decide +kernel

/-- The first 120 bytes of a WRITE of one byte to core 1 of crew 0, numbered 0, in BULK, with its CRC. -/
def wire124 (crc : Bool) : Bytes :=
  let m := natLe 8 (1 * 2 ^ 62 + 3 * 2 ^ 46 + 9 * 2 ^ 28 + 100 * 2 ^ 4) ++ natLe 5 (2 ^ 22 + 0x40) ++ natLe 1 1 ++ natLe 106 0
  m ++ natLe 4 (if crc then (crc32 m).toNat else (crc32 m).toNat + 1)

/-- The same with its code by the key 0. -/
def wire128 : Bytes := wire124 true ++ cmac4 0 (natLe 8 (field (wire124 true) 0 8) ++ ((wire124 true).drop 8).take 112)

/-- Link 5, this package 9, crew 0 with the job tag 3. -/
def addressed : State :=
  ((linked.setFld F.LNK_SELF_valid [] 1).setFld F.LNK_SELF_package [] 9).setFld F.LNK_CREW_job_tag [0] 3

/-- A flit whose CRC fails. -/
theorem witness_bad_crc :
    2 ≤ linked.linkState 5 ∧ linked.linkState 5 ≠ 5 ∧ (wire124 false ++ [0, 0, 0, 0]).length = 128
      ∧ bits (field (wire124 false) 0 8) 14 12 ≤ 1
      ∧ leNat (((wire124 false).drop 120).take 4) ≠ (crc32 ((wire124 false).take 120)).toNat := by decide +kernel

/-- A flit that passes every check. -/
theorem witness_good_flit :
    let s := addressed
    let f := wire124 true
    let h := field f 0 8
    2 ≤ s.linkState 5 ∧ s.linkState 5 ≠ 5 ∧ f.length = 124 ∧ bits h 14 12 ≤ 1
      ∧ leNat ((f.drop 120).take 4) = (crc32 (f.take 120)).toNat ∧ bits h 27 16 = (s.link 5).rxSeq ∧ bits h 63 62 ≤ 1
      ∧ (bits h 15 15 = 1 ↔ field ((f.drop 8).take 112) 6 2 ≠ 0) ∧ s.fld F.LNK_SELF_valid [] = 1
      ∧ bits h 45 28 = s.fld F.LNK_SELF_package [] ∧ s.crewOfTag (bits h 61 46) = some 0 ∧ (s.crew 0).key = 0
      ∧ natLe 8 (h - bits h 27 16 * 2 ^ 16) = natLe 8 h ∧ s.deaf 0 = false
      ∧ s.drivePast (s.strokeOf (bits h 11 4)) = false := by
  decide +kernel

/-- Its code is that of its header without the sequence number and its body. -/
theorem witness_good_code :
    cmac4 0 (natLe 8 (field (wire124 true) 0 8) ++ ((wire124 true).drop 8).take 112) = (wire128.drop 124).take 4 := by
  have h : (wire124 true).length = 124 := by decide +kernel
  rw [wire128, ← h, List.drop_left]
  rfl

/-- A held TALLY_ADD of a crew's remote tally, and a held WRITE. -/
theorem witness_deliver :
    ∀ cls ∈ [0, 1],
      let b := natLe 5 (if cls = 1 then 9 else 2 ^ 22 + 0x40) ++ natLe 1 4 ++ natLe 106 0
      let f : Flit := { flit .bulk with body := .data b, cls := cls }
      let s := (linked.modLink 5 fun k => { k with rxHeld := [f] }).modTally 9 fun _ => { value := 5, allocated := true, remote := true }
      (s.link 5).rxHeld = [f] ∧ f.crew = some 0 ∧ s.works 0 = true ∧ 1 ≤ field b 5 1 ∧ field b 5 1 ≤ 96 ∧ field b 6 2 = 0
        ∧ b.length = 112 ∧ s.fixed = false ∧ s.tallyOf 0 9 = true ∧ (s.tally 9).remote = true ∧ s.cores = []
        ∧ (cls = 1 → field b 0 5 % 2 ^ 14 = 9)
        ∧ (cls = 0 → field b 0 5 / 2 ^ 39 = 0 ∧ s.crewOf (bits (field b 0 5) 29 22) = some 0 ∧ bits (field b 0 5) 29 22 < 144
            ∧ bits (field b 0 5) 21 0 + field b 5 1 ≤ storeEnd) := by decide +kernel

/-- The descriptor of a collective of one rank. -/
def collDesc (op : Nat) : Bytes :=
  natLe 1 op ++ natLe 2 0 ++ natLe 1 1 ++ natLe 4 77 ++ natLe 16 0 ++ natLe 8 1 ++ natLe 4 0 ++ natLe 4 1 ++ natLe 2 1 ++ natLe 22 0

/-- Core 0 with the descriptor at 0x1000 and its write to the port of crew 0 at 0x4000. -/
def opening (op : Nat) : State :=
  (crewed.modCore 0 fun k => { k with
    dmaq := [cmd (dmaWord 0 0 1 64 [(0x4000, 139)])], store := Map.store unlisted [] 0x1000 (collDesc op) }).setFld F.LNK_COLL_port [0] 4

/-- A descriptor of each collective. -/
theorem witness_collective_open :
    ∀ op ∈ [1, 2, 3],
      let s := opening op
      let q := cmd (dmaWord 0 0 1 64 [(0x4000, 139)])
      let desc := Map.bytes unlisted (s.core 0).store 0x1000 64
      s.dmaReady 0 0 = some (0, q, dcmd q.word) ∧ q.started = false ∧ (∀ p ∈ (s.core 0).pre, p.entry ≠ q.entry) ∧ s.toPort 0 (dcmd q.word) = true ∧ (dcmd q.word).op = 0
        ∧ s.dmaBad 0 0 (dcmd q.word) = false ∧ 0 < (dcmd q.word).rows ∧ (dcmd q.word).src = 0 ∧ (s.core 0).words = []
        ∧ s.collBad 0 desc (collOf desc q.accept s.raw) = false ∧ (collOf desc q.accept s.raw).op = op := by decide +kernel

/-- An open collective of crew 0. -/
def coll77 (op : Nat) : Coll :=
  { id := 77, op := op, fmt := 0, red := 0, outFmt := 0, fan := [1], src := 0, dst := 0x1000, count := 1, rank := 0, n := 1
    rankTable := 0, tally := 9, group := 0, since := 0, accept := 7, results := if op = 1 then [0] else [] }

/-- Crew 0 with the collective; tally 9 is the crew's. -/
def collecting (op : Nat) : State :=
  (crewed.modCrew 0 fun k => { k with colls := [coll77 op], aborted := [78] }).modTally 9 fun _ => { allocated := true }

/-- A COLL flit of an aborted collective, of one not open, a result of an ALL_GATHER; a collective to complete; a notice. -/
theorem witness_collective_end :
    let f : CollFlit := { collId := 77, isResult := true, level := 0, first := 0, vals := [(5, 0, false)] }
    let s := collecting 3
    let a : AbortNotice := { authentic := true, jobTag := 3, allOpen := true, collId := 0, x := none, y := none }
    let h := [(2, 0, 100)]
    takeHeader 2 (some 0) h = some ((0, 100), []) ∧ ((s.modLink 5 fun k => { k with hdrs := h }).link 5).hdrs = h ∧ (s.link 5).rxColl = [] ∧ (s.crew 0).aborted.elem 78 = true
      ∧ ((s.crew 0).aborted.elem 79 = false ∧ (s.crew 0).coll 79 = none)
      ∧ ((s.crew 0).aborted.elem f.collId = false ∧ (s.crew 0).coll f.collId = some (coll77 3) ∧ s.works 0 = true
          ∧ f.first < (coll77 3).count ∧ s.gran = [] ∧ s.crews = [(0, s.crew 0)] ∧ (s.crew 0).pages = []
          ∧ s.silentIn ((coll77 3).dst + f.first * (coll77 3).outBytes) (coll77 3).outBytes = false)
      ∧ (let t := collecting 1
         (t.crew 0).coll 77 = some (coll77 1) ∧ t.works 0 = true ∧ (coll77 1).results.length = (coll77 1).needed
           ∧ t.tallyOf 0 (coll77 1).tally = true)
      ∧ addressed.crewOfTag a.jobTag.toNat = some 0 := by decide +kernel

/-! ### Witnesses: time -/

/-- Link 5 as primary source of a locking servo, with an exchange open since instant 0. -/
def child : State :=
  let s := (linked.setFld F.TIM_SRC_primary [] 5).setFld F.TIM_STAT_state [] 1
  s.setTim { s.tim with exch := [(5, 3, 0, true)], width := [(5, true)] }

/-- The answer to the exchange. -/
def answer (locked : Bool) : TimeBody :=
  { locked := locked, exchId := 3, domain := 0, hops := 0, t1 := 0, t2 := 100 * 2 ^ 32, t3 := 200 * 2 ^ 32, x2 := true }

/-- A request to send; answers of an unlocked and a locked parent, while d_min is rebuilt and after; a PTP source. -/
theorem witness_exchanges :
    let s := child.setTim { child.tim with exch := [] }
    let r := child.setTim { child.tim with rebuilt := [(5, 4)] }
    let p := crewed.setFld F.TIM_SRC_primary [] 0x60
    (s.sourceCode false = 5 ∧ s.linkUp 5 = true ∧ s.tim.exch = [] ∧ s.servo ≠ 0) ∧
    (child.tim.exch = [(5, (answer true).exchId.toNat, 0, true)] ∧ child.sourceOf 5 = some false ∧ (answer false).locked = false
      ∧ (answer true).locked = true ∧ (child.advance 300).fabric + 2 ^ 32 ≤ 0 + 10000 * 2 ^ 32
      ∧ (answer true).domain.toNat = child.fld F.TIM_SRC_domain [] ∧ (answer true).x2 = true ∧ Map.find 5 child.tim.width = some true
      ∧ Map.getD 0 child.tim.rebuilt 5 < 4) ∧
    (r.tim.exch = [(5, 3, 0, true)] ∧ 4 ≤ Map.getD 0 r.tim.rebuilt 5 ∧ minOf (Map.getD [] r.tim.dHist 5) = none) ∧
    (p.coxActive = true ∧ p.sourceCode false = 0x60) := by decide +kernel

/-- Servos whose source is silent, one in HOLDOVER past its limit; TIM_SET taken and refused. -/
theorem witness_servo :
    let s := ((crewed.setFld F.TIM_STAT_state [] 2).setFld F.TIM_STAT_locked [] 1).setFld F.TIM_SRC_secondary [] 7
    let a := s.setTim { s.tim with lastAcc2 := some (10 ^ 9) }
    let h := s.setFld F.TIM_STAT_state [] 3
    let f := booted.setFld F.TIM_STAT_state [] 0
    (a.isSet F.TIM_STAT_on_secondary [] = false ∧ a.servo ≠ 0 ∧ a.tim.lastAcc1 = none
      ∧ a.tim.lastAny + 8 * a.sourceInterval false ≤ (a.advance (10 ^ 9)).raw ∧ a.tim.lastAcc2 = some (10 ^ 9)
      ∧ (a.advance (10 ^ 9)).raw < 10 ^ 9 + 8 * a.sourceInterval true ∧ a.sourceCode true ≠ 0x7F) ∧
    (s.tim.lastAcc2 = none ∧ s.servo = 2 ∧ s.tim.lastAcc1 = none ∧ s.isSet F.TIM_STAT_on_secondary [] = false
      ∧ s.tim.lastAny + 8 * s.sourceInterval false ≤ (s.advance (10 ^ 9)).raw) ∧
    (h.servo = 3 ∧ h.isSet F.TIM_STAT_locked [] = true
      ∧ h.tim.lastAny + 1000000 * h.fld F.TIM_SRC_holdover_ms [] ≤ (h.advance (10 ^ 12)).raw) ∧
    (f.servo = 0 ∧ f.rig.inForce = none ∧ f.fabric < ((f.reg R.TIM_SET_LO []).toNat + 2 ^ 32 * 1) * 2 ^ 32) ∧
    ((booted.reg R.TIM_SET_LO []).toNat + 2 ^ 32 * 0) * 2 ^ 32 ≤ booted.fabric := by decide +kernel

/-- A descriptor of port 0. -/
def txDesc (hold stamp : Bool) (time : Nat) : TxDesc :=
  { buffer := 0, length := 60, tsId := 8, stamp := stamp, hold := hold, port := 0, link := 0, launchTime := time }

/-- Timestamps to read, descriptors to post and to launch, captures. -/
theorem witness_timestamps :
    let e : TsEntry := { id := 1, late := false, refused := false, unlocked := false, time := 5 }
    let s := crewed.setTim { crewed.tim with ts := [(2, [e])] }
    let q := fun d => crewed.setTim { crewed.tim with txq := [(0, [(d, 0)])] }
    let c := (crewed.setFld F.TIM_CAP_src [1] 8).setFld F.TIM_CAP_src [2] 1
    let b := (crewed.setFld F.TIM_CAP_src [3] 5).setTim { crewed.tim with capDue := [(3, 77, false)] }
    let m := linked.setTim { linked.tim with txq := [(2, [({ txDesc true false 100 with port := 2, link := 5 }, 0)])] }
    (Map.getD [] s.tim.ts 2 = [e] ∧ Map.getD [] s.tim.ts 3 = []) ∧
    (crewed.coxActive = true ∧ txDescOk (txDesc true true 100) = true ∧ 100 ≤ crewed.ns + 2 ^ 32
      ∧ crewed.ns + 2 ^ 32 < (txDesc true true (2 ^ 33)).launchTime ∧ txDescOk (txDesc true true (2 ^ 33)) = true) ∧
    (∀ stamp ∈ [true, false], Map.getD [] (q (txDesc true stamp 100)).tim.txq 0 = [(txDesc true stamp 100, 0)]
      ∧ 100 * 2 ^ 32 ≤ ((q (txDesc true stamp 100)).advance 100).fabric ∧ (Map.getD [] (q (txDesc true stamp 100)).tim.ts 0).length < 16) ∧
    (c.fld F.TIM_CAP_src [1] = 8 ∧ c.fld F.TIM_CAP_link [1] = 0 ∧ c.fld F.TIM_CAP_launch_class [1] = 0
      ∧ c.fld F.TIM_CAP_src [2] = 1 ∧ (Map.getD [] c.tim.ts (2 + 1)).length < 8) ∧
    (b.fld F.TIM_CAP_src [3] = 5 ∧ b.tim.capDue = [(3, 77, false)] ∧ (Map.getD [] b.tim.ts (2 + 3)).length < 8) ∧
    (Map.getD [] m.tim.txq 2 = [({ txDesc true false 100 with port := 2, link := 5 }, 0)] ∧ m.linkReady 5 .management = true
      ∧ 100 * 2 ^ 32 ≤ (m.advance 100).fabric) ∧
    (c.strayAt (R.TIM_CAP.addr [1]) = false ∧ c.writeHeld (R.TIM_CAP.addr [1]) = false) := by decide +kernel

/-! ### Witnesses: verification, faults, recovery -/

/-- A comparison of launch 7. -/
def cmp7 (umpire : Nat) : UmpCmp :=
  { eng := 3, accept := 7, index := 0, stroke := 99, row := 0, worker := 5, umpire := umpire, poison := false, umpFail := false }

/-- A diagnostic replay of engine 3 of core 0, with what it saw. -/
def diag7 (shadows eDiff sDiff : Bool) : Diag :=
  { core := 0, eng := 3, byUmpire := false, offset := 0, shadows := shadows, running := true
    obs := [{ eDiff := eDiff, uDiff := false, sDiff := sDiff, eFail := false, uFail := false, s0Fail := false, s1Fail := false }] }

/-- Comparisons that agree and differ, a frozen engine, replays with each kind of verdict, a window to close, slots. -/
theorem witness_verification :
    (∀ u ∈ [5, 6],
      let s := resting.modCore 0 fun k => { k with ump := { k.ump with pend := [cmp7 u] } }
      s.background = true ∧ (s.core 0).ump.pend = [cmp7 u] ∧ (cmp7 u).poison = false ∧ (cmp7 u).shadow = false ∧ s.crewOf 0 = some 0) ∧
    (let s := running.modEng 0 3 fun e => { e with frozen := true }
     ((s.core 0).eng.find? (fun p => p.2.frozen)).isSome = true ∧ s.crewOf 0 = some 0 ∧ (s.crew 0).stop = none ∧ s.halted 0 = false) ∧
    (∀ x ∈ [(false, false, false, 7), (true, true, false, 5), (true, false, true, 1)],
      let d := diag7 x.1 x.2.1 x.2.2.1
      let s := resting.modCrew 0 fun k => { k with diag := some d }
      (s.crew 0).diag = some d ∧ d.running = true ∧ s.background = true
        ∧ (s.crew 0).stepStart + (s.crew 0).delta + d.offset ≤ s.stk.num ∧ verdictOf d = x.2.2.2
        ∧ (s.core d.core).transOpen = none) ∧
    (let s := (crewed.setStk { crewed.stk with num := 2 ^ 24 + 5 }).modCore 0 fun k => { k with transOpen := some 5, trans := 2 }
     (s.core 0).transOpen = some 5 ∧ 5 + 2 ^ 24 ≤ s.stk.num) ∧
    (let s := crewed.modCrew 0 fun k => { k with slots := [(0, { active := true, requested := true, merging := some 3 })] }
     s.strayAt R.WCH_CTL.base = false ∧ bits (0x10000000 : BitVec 32).toNat 28 28 = 1
       ∧ ((s.crew (s.fld F.WCH_SEL_crew [])).slot (s.fld F.WCH_SEL_slot [])).active = true ∧ s.stk.drive = true ∧ s.ns = s.stk.bound
       ∧ s.crewIdle 0 = true ∧ ((s.crew 0).slot 0).requested = true ∧ ((s.crew 0).slot 0).merging.isSome = true) := by decide +kernel

/-- A Domain fault that waits, with the ring enabled; GLB_FLT_CTL written; poison consumed with and without a launch. -/
theorem witness_fault_ring :
    let f : Fault0 := { cls := 6, sev := 2, event := 0x0608 }
    let s := (crewed.setFld F.GLB_FLT_CTL_enable [] 1).setFlt { crewed.flt with queue := [f] }
    (s.flt.queue = [f] ∧ 1 ≤ f.sev ∧ f.sev ≤ 2 ∧ s.isSet F.GLB_FLT_CTL_in_hbm [] = false ∧ s.isSet F.GLB_FLT_CTL_cper [] = false
      ∧ s.pow.perst = false ∧ s.ringTakes = true ∧ s.flt.ringWait = []) ∧
    (∀ w ∈ [none, some 99],
      let a := crewed.modCore 0 fun k => { k with uefWin := w }
      a.flt.queue = [] ∧ a.crewOf 0 = some 0 ∧ (a.core 0).uefWin = w ∧ (w = some 99 → a.stk.num < 99 + 2 ^ 24)) ∧
    (crewed.writeHeld R.GLB_FLT_CTL.base = false ∧ bits (0x80000003 : BitVec 32).toNat 31 31 = 1
      ∧ crewed.isSet F.GLB_FLT_CTL_enable [] = false ∧ s.isSet F.GLB_FLT_CTL_enable [] = true ∧ s.writeHeld R.GLB_FLT_CTL.base = false) ∧
    (running.crewValid 0 = true ∧ (running.crew 0).runningLaunch = some launch7 ∧ crewed.crewValid 0 = true
      ∧ (crewed.crew 0).runningLaunch = none) := by decide +kernel

/-- A core to be switched, with a spare and with none; drains that wait; a drain past its limit, one to complete. -/
theorem witness_drains :
    (∀ spare ∈ [0, 1],
      let s := (crewed.setFld F.GLB_REMAP_HI_spare_avail [0] spare).setFlt { crewed.flt with switches := [(0, 2)] }
      Map.find 0 s.flt.switches = some 2 ∧ s.boundaryNow = true ∧ s.isSet F.GLB_REMAP_HI_spare_avail [0 / 9] = decide (spare = 1)
        ∧ s.flt.pendingDrain = none ∧ s.crewOf 0 = some 0 ∧ s.rcvState 0 = 0) ∧
    (∀ b ∈ [true, false],
      let s := crewed.setFlt { crewed.flt with pendingDrain := some (b, 4) }
      s.flt.pendingDrain = some (b, (4 : BitVec 8).toNat) ∧ s.flt.drain = none ∧ s.crewValid 0 = true ∧ (s.crew 0).drainStop = false) ∧
    (let s := (crewed.setStk { crewed.stk with num := 2 ^ 20 + 3 }).setFlt { crewed.flt with drain := some { suspect := false, since := 3 } }
     s.flt.drain = some { suspect := false, since := 3 } ∧ 3 + 2 ^ 20 ≤ s.stk.num ∧ s.crewValid 0 = true ∧ (s.crew 0).drainStop = false
       ∧ s.rcvState 0 = 0 ∧ (s.crew 0).stop = none) ∧
    (let s := (crewed.modCrew 0 fun k => { k with drainStop := true }).setFlt { crewed.flt with drain := some { suspect := true, since := 3 } }
     s.flt.drain.isSome = true ∧ s.isSet F.GLB_HEALTH_drained [] = false
       ∧ ∀ n ∈ iota 0 16, s.crewValid n = true → (s.crew n).drainStop = true ∨ s.rcvState n = 4) := by decide +kernel

/-- A point of crew 0 at the boundary of stroke 80. -/
def point80 : Point :=
  Point.mk 80 80 0 { slot := 0, cores := [], tallies := [], pools := [], launches := [], remAdds := [], aord := [], watch := [] }

/-- Crew 0 in a state of recovery, with a stop and points. -/
def recovering (state : Nat) (points : List Point) (k0 : Crew) : State :=
  (crewed.modCrew 0 fun _ => { k0 with points := points }).setFld F.GLB_RCV_state [0] state

/-- A crew to stop, one to be rolled back with a point and without, one to be restored. -/
theorem witness_recovery :
    let st : Stop := { bStop := 100 }
    let a := recovering 0 [] { stop := some st }
    let b := recovering 1 [point80] { stop := some st }
    let c := recovering 1 [] { stop := some { st with target := some 70 } }
    let d := recovering 2 [point80] {}
    (a.crewValid 0 = true ∧ (a.crew 0).stop = some st ∧ st.bStop ≤ a.stk.num ∧ a.rcvState 0 = 0 ∧ a.freezePast 0 = true
      ∧ a.inReset = false) ∧
    (b.crewValid 0 = true ∧ (b.crew 0).stop = some st ∧ b.rcvState 0 = 1 ∧ b.dumpWaits (.crew 0) = false ∧ b.inReset = false
      ∧ (b.crew 0).points.head? = some point80) ∧
    ((c.crew 0).stop = some { st with target := some 70 } ∧ c.rcvState 0 = 1
      ∧ ((c.crew 0).points.find? fun p => decide (p.stroke ≤ 70)) = none) ∧
    ((d.crew 0).points = [point80] ∧ d.rcvState 0 = 2 ∧ (d.crew 0).bRestore = none ∧ (d.crew 0).restart = false
      ∧ (d.crew 0).restore = none ∧ d.flt.switches = [] ∧ d.stk.drive = true ∧ d.stalled = false ∧ d.inReset = false
      ∧ d.inEasy = false ∧ d.emptyStroke = false ∧ d.reloading 0 = false ∧ d.unusable 0 point80.snap.slot = false) := by decide +kernel

/-- A wait of core 0 without a timeout. -/
def waitForever : UWait := { unit := 0, cmd := cmd 0, wait := { tally := 9, value := 1, timeout := 0, w := 90, since := 0 } }

/-- Every watchdog past its limit. -/
theorem witness_watchdogs :
    let u := 10 ^ 12
    (let s := ((running.setFld F.GLB_WDOG_A_queue_ms [] 1).modQueue 3 fun k => { k with enable := true, context := 2 }).setCtxs [(2, { bound := true })]
     ((s.crew (s.queueCrew 3)).launches.filter fun l => l.finished.isNone && decide (l.queue = 3)).head? = some launch7
       ∧ (s.queue 3).enable = true ∧ s.watched (s.queueCrew 3) = true
       ∧ (s.advance u).elapsed launch7.since (s.fld F.GLB_WDOG_A_queue_ms []) = true) ∧
    (let s := (running.setFld F.GLB_WDOG_A_tally_ms [] 1).modCore 0 fun k => { k with waits := [waitForever] }
     s.crewOf 0 = some 0 ∧ s.watched 0 = true
       ∧ ((((s.core 0).seq.waits.getD []) ++ (s.core 0).waits.map fun x => x.wait).find? fun w =>
          w.begun && !w.sat && decide (w.timeout = 0) && (s.advance u).elapsed w.since (s.fld F.GLB_WDOG_A_tally_ms [])) = some waitForever.wait) ∧
    (∀ first ∈ [none, some 100, some 0],
      let s := (running.setFld F.GLB_WDOG_B_engine_strokes [] 4).modEng 0 3 fun e => { e with noProgress := 4 }
      let s := (s.setStk { s.stk with num := 2 ^ 24 + 5 }).modCore 0 fun k => { k with progFault := first }
      s.crewOf 0 = some 0 ∧ s.watched 0 = true ∧ s.fld F.GLB_WDOG_B_engine_strokes [] ≠ 0
        ∧ s.fld F.GLB_WDOG_B_engine_strokes [] ≤ s.idleDrives 0 3 ∧ (s.core 0).progFault = first
        ∧ (first = some 100 → s.stk.num < 100 + 2 ^ 24) ∧ (first = some 0 → 0 + 2 ^ 24 ≤ s.stk.num)) ∧
    (let s := (collecting 1).setFld F.GLB_WDOG_B_coll_ms [] 1
     (s.crew 0).coll 77 = some (coll77 1) ∧ s.watched 0 = true
       ∧ (s.advance u).elapsed (coll77 1).since (s.fld F.GLB_WDOG_B_coll_ms []) = true) ∧
    (let s := ((running.setFld F.STK_CREW_timed [0] 0).setFld F.GLB_WDOG_B_slip_limit [] 4).setFld F.STK_CREW_slip_run [0] 4
     s.watched 0 = true ∧ s.timed 0 = false ∧ s.fld F.GLB_WDOG_B_slip_limit [] ≠ 0
       ∧ s.fld F.GLB_WDOG_B_slip_limit [] ≤ s.fld F.STK_CREW_slip_run [0]) := by decide +kernel

/-- Requests of GLB_RCV_CMD: of a running crew, of a held one (at once, at a named stroke, at one too near), refused. -/
theorem witness_requests :
    let h := (recovering 4 [point80] {}).setReg R.GLB_RCV_ARG2_LO [] 102
    let x := (recovering 4 [point80] {}).setReg R.GLB_RCV_ARG2_LO [] 101
    (bits (1 : BitVec 32).toNat 0 0 = 1 ∧ rcvCrew 1 = 0 ∧ bits (1 : BitVec 32).toNat 1 1 = 0 ∧ bits (3 : BitVec 32).toNat 0 0 = 1
      ∧ bits (3 : BitVec 32).toNat 1 1 = 1) ∧
    (crewed.isSet F.GLB_RCV_CMD_busy [] = false ∧ crewed.crewValid 0 = true ∧ crewed.rcvState 0 = 0) ∧
    (h.isSet F.GLB_RCV_CMD_busy [] = false ∧ h.crewValid 0 = true ∧ h.rcvState 0 = 4 ∧ h.isSet F.GLB_RCV_no_point [0] = false
      ∧ h.stk.num + 2 ≤ h.rcvArg2 ∧ x.rcvArg2 < x.stk.num + 2 ∧ x.rcvState 0 = 4) ∧
    (crewed.setFld F.GLB_RCV_CMD_busy [] 1).isSet F.GLB_RCV_CMD_busy [] = true ∧ crewed.crewValid (rcvCrew 0x00100001) = false := by
  decide +kernel

/-- Dumps to be frozen, skipped and written. -/
theorem witness_dumps :
    let s := fun w => crewed.setFlt { crewed.flt with dumps := [{ dom := .crew 0, cause := 1, writing := w }] }
    let e := (s false).setFld F.HBM_LOOP_busy [0, 0] 1
    ((s false).flt.dumps = [{ dom := .crew 0, cause := 1, writing := false }] ∧ (s false).flt.resets = [] ∧ (s false).boundaryNow = true
      ∧ (s false).dumpBlocked = false ∧ e.dumpBlocked = true) ∧
    ((s true).flt.dumps = [{ dom := .crew 0, cause := 1, writing := true }] ∧ (s true).dumpBlocked = false ∧ (s true).crews = []
      ∧ ((s true).dumpBase + 0 * 2 ^ 23) % 2 ^ 23 = 0) := by decide +kernel

/-- Reset requests of a parked core and of crew 0, a request refused; PKG_RST_N; a crew's and a package's reset that end. -/
theorem witness_resets :
    (booted.flt.resets = [] ∧ bits (1 : BitVec 32).toNat 0 0 = 1 ∧ booted.isSet F.GLB_RCV_CMD_busy [] = false
      ∧ booted.resetOpen (rcvCore 1) = true ∧ rcvUnit 1 ≤ 0xD ∧ crewed.crewValid (rcvCrew 1) = true ∧ booted.pow.tripped = false
      ∧ crewed.resetOpen (rcvCore 1) = false) ∧
    (1000 ≤ 1000 ∧ 1 ≤ crewed.pow.step ∧ crewed.flt.resetting = none ∧ crewed.cox.programs = [] ∧ crewed.pow.critical = false) ∧
    (crewed.setFlt { crewed.flt with resetting := some (.crew 0) }).flt.resets = [] ∧
    ((booted.setPow { booted.pow with step := 10 }).setFlt { booted.flt with resetting := some .package }).pow.step = 10 := by decide +kernel

/-- A freeze to end with a point; a timer's boundary; a page with a line to copy. -/
theorem witness_freezes :
    (let s := crewed.modCrew 0 fun k => { k with freezeEnd := some 100, freezeSnap := some point80.snap, freezePoint := true, stepStart := 99 }
     (s.crew 0).freezeEnd = some 100 ∧ (s.crew 0).freezeSnap = some point80.snap ∧ 100 ≤ s.stk.num ∧ s.inReset = false ∧ s.inEasy = false
       ∧ (s.crew 0).stop = none ∧ (s.crew 0).freezePoint = true ∧ (s.crew 0).ckpt = none ∧ (s.crew 0).cpls = []
       ∧ (s.crew 0).talCmds = [] ∧ (s.crew 0).launches = [] ∧ (∀ c ∈ s.members 0, (s.core c).seq.accept = none)) ∧
    (let s := ((crewed.setFld F.CHK_TIMER_strokes [0] 50).setFld F.CHK_CFG_timer_kind [0] 1).setFld F.CHK_CKSZ_size [0] 100
     s.stk.drive = true ∧ s.ns = s.stk.bound ∧ s.crewValid 0 = true ∧ s.fld F.CHK_TIMER_strokes [0] ≠ 0
       ∧ s.fld F.CHK_CFG_timer_kind [0] = 1 ∧ s.stk.num ≠ 0 ∧ s.stk.num % s.fld F.CHK_TIMER_strokes [0] = 0
       ∧ (s.crew 0).lastTimer ≠ some s.stk.num ∧ (s.crew 0).ckReq = [] ∧ s.halted 0 = false
       ∧ s.isSet F.STK_CREW_carrying [0] = false ∧ (s.crew 0).ckpt = none ∧ s.fld F.CHK_STAT_seq [0] = s.fld F.CHK_ACK_seq [0]
       ∧ 4096 + s.snapSize 0 + (s.crew 0).statePages.length * 2 ^ 21 ≤ s.ckptSize 0) ∧
    (let p : PageSt := { live := { page := 6, fill := some [] }, copies := [{ page := 3 }] }
     let s := resting.modCrew 0 fun k => { k with pages := [(3, p)] }
     Map.find 3 (s.crew 0).pages = some p ∧ unfilled 0 (p.live :: p.copies) = some (0, 0, 3, 6) ∧ s.turn (stackOf (3 * 2 ^ 21 + 256 * 0)) .cow = true ∧ s.gran = []) := by decide +kernel

/-- Checkpoints whose pages are all copied, with a line to copy, and with a page of which the image takes nothing. -/
theorem witness_copies :
    (let c : Ckpt := { tensor := false, stroke := 90, eid := 0, freezing := false, left := [] }
     let s := resting.modCrew 0 fun k => { k with ckpt := some c }
     (s.crew 0).ckpt = some c ∧ c.freezing = false ∧ s.copyServed = true ∧ c.left = []) ∧
    (let c : Ckpt := { tensor := false, stroke := 90, eid := 1, freezing := false, left := [3] }
     let s := (resting.modCrew 0 fun k => { k with ckpt := some c, pages := [(3, { live := { page := 3 } })] }).setFld F.CHK_CKPT_base [0] 16
     (s.crew 0).ckpt = some c ∧ c.freezing = false ∧ s.copyServed = true ∧ s.nextCopy 0 = some (3, 0, [{ page := 3 }])
       ∧ s.turn (stackOf (epochPa [{ page := 3 }] (3 * 2 ^ 21 + 256 * 0))) .cow = true
       ∧ ((linePieces 3 0 (s.pieces 0 c 3)).all fun x => (iota 0 x.2.1).all fun j => !s.isState (x.2.2 + j)) = true) ∧
    (let c : Ckpt := { tensor := true, stroke := 90, eid := 1, freezing := false, left := [3] }
     let s := resting.modCrew 0 fun k => { k with ckpt := some c }
     (s.crew 0).ckpt = some c ∧ c.freezing = false ∧ s.copyServed = true ∧ c.left = [3] ∧ s.nextCopy 0 = none) := by decide +kernel

/-- The header of an image of crew 0. -/
def imageHead : Bytes :=
  natLe 4 0x4E464350 ++ natLe 2 0 ++ natLe 22 1 ++ natLe 4 (crewed.reg R.GLB_ID []).toNat ++ natLe 32 0 ++ natLe 22 (crewed.coreMap 0)

/-- Requests of CHK_CMD: taken at the next boundary and at a named one, an abandon, restores that fit and do not, busy. -/
theorem witness_checkpoints :
    let s := (crewed.setFld F.CHK_CKSZ_size [0] 100).setReg R.CHK_ARG_LO [] 102
    let k : Ckpt := { tensor := false, stroke := 90, eid := 0, freezing := false, left := [] }
    let a := crewed.modCrew 0 fun x => { x with ckpt := some k }
    let z := crewed.modCrew 0 fun x => { x with everLaunch := true }
    let r := crewed.modCrew 0 fun x => { x with restore := some { tensor := true, addr := 0, count := 1 } }
    (bits (1 : BitVec 32).toNat 0 0 = 1 ∧ s.strayAt R.CHK_CMD.base = false ∧ chkCrew 1 = 0 ∧ s.isSet F.CHK_CMD_busy [] = false
      ∧ s.crewValid 0 = true ∧ bits (1 : BitVec 32).toNat 1 1 = 0 ∧ s.stk.num + 2 ≤ s.chkArg ∧ s.ckptSize 0 ≠ 0) ∧
    ((a.crew 0).ckpt.isSome = true ∧ a.isSet F.CHK_CMD_busy [] = false) ∧
    (z.restoreOpen 0 = false ∧ z.crewIdle 0 = true) ∧
    (s.setFld F.CHK_CMD_busy [] 1).isSet F.CHK_CMD_busy [] = true ∧
    (r.crew 0).restore = some { tensor := true, addr := 0, count := 1 } ∧ r.stk.drive = true ∧ r.stalled = false ∧ r.inReset = false
      ∧ r.inEasy = false ∧ r.emptyStroke = false := by decide +kernel

/-- Restores that fit and do not. -/
theorem witness_shapes :
    let y := { crewed with mem := Map.store unlisted [] 0 imageHead }
    y.restoreOpen 0 = true ∧ y.shapeOk 0 (plain (y.hbmBytes y.chkArg 86).1) = true ∧ crewed.restoreOpen 0 = true
      ∧ crewed.shapeOk 0 (plain (crewed.hbmBytes crewed.chkArg 86).1) = false := by decide +kernel

/-! ### Witnesses: management and registers -/

/-- A takeover that runs since instant 0, with its claim presented or not, and with starts of takeovers before. -/
def taking (presented : Bool) (starts : List Nat) : State :=
  let s := booted.setFld F.COX_STAT_state [] 2
  s.setCox { s.cox with core := 1, presented := presented, takeoverAt := some 0, starts := starts }

/-- A beating core, one that becomes active at its bound, an expired heartbeat, a running core; takeovers past their bound. -/
theorem witness_takeovers :
    (booted.pow.warn = none ∧ booted.cox.waiting = false ∧ booted.coxActive = true ∧ booted.coreRuns = true
      ∧ booted.cox.beat + 20000000 ≤ (booted.advance 20000000).raw) ∧
    ((taking true []).pow.warn = none ∧ (taking true []).cox.waiting = false ∧ (taking true []).fld F.COX_STAT_state [] = 2
      ∧ (taking true []).cox.halted = false ∧ (taking true []).cox.takeoverAt = some 0
      ∧ ((taking true []).advance takeoverBound).raw ≤ 0 + takeoverBound) ∧
    ((taking false []).cox.presented = false ∧ (taking false []).nv.epoch + 1 ≤ 0x0FFFFFFE ∧ (true && false) = false) ∧
    (∀ l ∈ [[0], [0, 1, 2]], (taking true l).cox.takeoverAt = some 0 ∧ 0 + takeoverBound ≤ ((taking true l).advance takeoverBound).raw
      ∧ ((taking true l).cox.starts.filter fun x => decide (((taking true l).advance takeoverBound).raw < x + 10000000000)).length
        = l.length) := by decide +kernel

/-- Gates that hold claim 5, one in its gap at its bound; the tray's controller and one that is silent; power-fail warnings. -/
theorem witness_gates :
    let h := (booted.setReg R.COX_HOLD [0] 5).setReg R.COX_HOLD [4] 5
    let p := fun g => (((booted.raiseBit F.COX_GATE_in_gap [g]).setFld F.COX_GATE_bounded [g] 1).raiseBit F.COX_STAT_tray_ctl [])
    let c := (booted.raiseBit F.COX_STAT_tray_ctl []).setCox { booted.cox with lastClaim := 3 }
    let w := booted.setPow { booted.pow with warn := some 0 }
    (∀ g ∈ [0, 4], g < 6 ∧ (4 : BitVec 32) < h.reg R.COX_HOLD [g] ∧ ¬(5 : BitVec 32) < h.reg R.COX_HOLD [g] ∧ h.flt.resets = []
      ∧ h.pow.tripped = false) ∧
    (∀ g ∈ [0, 1, 2, 3, 4, 5], (p g).isSet F.COX_GATE_in_gap [g] = true ∧ (p g).isSet F.COX_GATE_bounded [g] = true
      ∧ (p g).isSet F.COX_GATE_safe [g] = false ∧ (p g).trayCtl = true
      ∧ (Map.getD ({} : Gate) (p g).cox.gates g).gapAt + 10 * (p g).fld F.COX_GATE_bound [g] ≤ ((p g).advance (10 ^ 9)).raw) ∧
    (c.trayCtl = true ∧ c.fld F.COX_STAT_state [] ≠ 3 ∧ c.cox.lastClaim ≠ 0 ∧ c.cox.lastClaim < 4 ∧ ¬ c.cox.lastClaim < 3) ∧
    (booted.trayCtl = false ∧ booted.fld F.COX_STAT_state [] ≠ 3 ∧ 1 ≤ booted.pow.step
      ∧ booted.cox.trayAt + (50 + 20 * booted.pins.slot.toNat) * 1000000 ≤ (booted.advance (2 ^ 30)).raw) ∧
    (1000 ≤ 1000 ∧ booted.pow.warn = none ∧ booted.pow.warnFlush = false ∧ booted.pow.step ≠ 0) ∧
    (w.pow.warn = some 0 ∧ 100000 ≤ 100000 ∧ w.pow.step ≠ 0 ∧ w.flt.resets = []
      ∧ (w.setPow { w.pow with warnFlush := true }).cox.programs = []) := by decide +kernel

/-- An entry of the journal. -/
def entry (n : Nat) : JnlEntry :=
  { num := n, kind := 1, status := 0, op := 0, flags := 0, queue := 3, ctx := 2, seq := 0, accept := 7, stroke := 90, cookie := 0, time := 5 }

/-- A record of number n. -/
def rec160 (n : Nat) : LogRec := { seq := n, cls := 10, first := 1, last := 1, body := fit 64 [1], snapshot := [] }

/-- A message that is the next, messages that are not, records that are held and gone, both image slots. -/
theorem witness_messages :
    let m : ServiceMsg := { counter := BitVec.ofNat 64 (booted.nv.serviceCounter + 1), data := [1], sig := [] }
    let s := booted.setCox { booted.cox with log := [rec160 3], jnl := [entry 4] }
    (booted.coxActive = true ∧ m.counter.toNat = booted.nv.serviceCounter + 1
      ∧ { m with counter := 0 }.counter.toNat ≠ booted.nv.serviceCounter + 1) ∧
    (booted.setPow { booted.pow with easy := .entering }).pow.easy = .entering ∧
    (s.coxActive = true ∧ s.findLog (3 : BitVec 32).toNat = some (rec160 3) ∧ s.findLog (4 : BitVec 32).toNat = none
      ∧ s.cox.jnl.find? (fun j => decide (j.num = (4 : BitVec 64).toNat)) = some (entry 4)
      ∧ booted.heldJnl (5 : BitVec 64).toNat = false) ∧
    (booted.cox.fwSlot = 0 ∧ (booted.setCox { booted.cox with fwSlot := 1 }).coxActive = true) := by decide +kernel

/-- Triggers that repeat and that do not, flushes, a sector being programmed, windows and the journal's mirror. -/
theorem witness_logbook :
    let x : Trigger := { cls := 10, body := [1] }
    let s := booted.setCox { booted.cox with triggers := [x] }
    let r := s.setCox { s.cox with log := [rec160 0] }
    let p : Program := { sector := { journal := false, order := 0, recs := [rec160 0], entries := [] }, powerFail := false }
    let q := booted.setCox { booted.cox with programs := [p] }
    let f := r.setCox { r.cox with flush := true }
    let j := resting.setCox { resting.cox with jnl := [entry 4], mirrored := 4 }
    (s.cox.triggers = [x] ∧ s.isRepeat x.cls x.body = false ∧ r.isRepeat x.cls x.body = true
      ∧ r.cox.log.getLast? = some (rec160 0)) ∧
    (f.nv.ro = false ∧ f.cox.flush = true ∧ f.unflushed = [rec160 0]) ∧
    (let b := r.setCox { r.cox with threshold := 1 }
     b.cox.flush = false ∧ b.cox.threshold ≤ b.unflushed.length ∧ b.unflushed ≠ []) ∧
    (q.cox.programs = [p] ∧ q.nv.ro = false ∧ q.nv.spares ≠ 0 ∧ p.attempts = 0) ∧
    (r.findLog (r.reg R.LOG_CURSOR []).toNat = some (rec160 0)) ∧
    (let k := booted.setCox { booted.cox with jnl := [entry 0] }
     (k.cox.jnl.find? fun j => decide (j.num = k.pair R.JNL_CURSOR_LO R.JNL_CURSOR_HI [])).isSome = true) ∧
    (j.cox.jnl.find? (fun y => decide (y.num = j.cox.mirrored)) = some (entry 4) ∧ j.turn (stackOf (j.jnlRing + 4 % 65536 * 64)) .log = true
      ∧ ∀ i ∈ iota 0 64, j.isState (j.jnlRing + 4 % 65536 * 64 + i) = false) := by decide +kernel

/-- A trace record of an engine. -/
def traceRec : Trc :=
  { time := 5, kind := 1, unit := 3, core := 0, flags := 0, ctx := 2, entry := 0, accept := 7, stroke := 100, detail := 0 }

/-- Crew 0 traced from core 0, in a recovery. -/
def tracing : State :=
  (resting.setFld F.TRC_CTL_enable [0] 1).modCore 0 fun k => { k with trc := [traceRec] }

/-- A pair of registers, a clear, a selection, a window, a trace record with room and without. -/
theorem witness_counters :
    let w := crewed.setFld F.PMC_CREW_permit [0] 1
    let full := tracing.setReg R.TRC_TAIL [0] (BitVec.ofNat 32 (tracing.traceSize 0))
    (crewed.strayAt R.STK_NUM_LO.base = false ∧ latchedBy R.STK_NUM_LO.base ≠ []) ∧
    (crewed.strayAt R.PMC_CTL.base = false ∧ crewed.writeHeld R.PMC_CTL.base = false ∧ bits (0x40000000 : BitVec 32).toNat 30 30 = 1) ∧
    (isSel (R.PMC_SEL_CORE.addr [0, 0]) = true ∧ crewed.strayAt (R.PMC_SEL_CORE.addr [0, 0]) = false
      ∧ crewed.writeHeld (R.PMC_SEL_CORE.addr [0, 0]) = false) ∧
    (w.isSet F.PMC_CREW_permit [0] = true ∧ w.works 0 = true ∧ 32760 + 8 ≤ 32768) ∧
    (tracing.turn (stackOf (tracing.traceAddr 0)) .trace = true ∧ tracing.isSet F.TRC_CTL_enable [0] = true ∧ tracing.traceCore 0 = some 0
      ∧ (tracing.core 0).trc = [traceRec] ∧ Map.find 0 tracing.pmc.trcRun = none ∧ tracing.traceFull 0 = false) ∧
    (full.traceCore 0 = some 0 ∧ full.traceFull 0 = true ∧ full.hbmServed = true) := by decide +kernel

/-- A set of counters to write in a recovery, with its first record and with its last. -/
theorem witness_counter_set :
    let b := List.replicate 19008 (0 : BitVec 8)
    ∀ i ∈ [0, 146],
      let s := (resting.setFld F.PMC_RING_LO_log2_size [] 20).setPmc { resting.pmc with set := some b, done := i }
      s.pmc.set = some b ∧ s.turn (stackOf s.pmcAddr) .pmc = true ∧ b.length = 19008 ∧ s.pmc.done ≤ 146 ∧ s.pmc.done = i :=
  fun i hi => ⟨rfl, by revert i; decide +kernel, List.length_replicate .., by revert i; decide +kernel, rfl⟩

/-- A machine with no crew's pages has no byte of STATE. -/
theorem witness_no_state (s : State) (h : s.crews = []) (a : Nat) : s.isState a = false := by
  have k (n : Nat) : (s.crew n).pages = [] := by simp [State.crew, h, Map.getD, Map.find]
  unfold State.isState State.pageAt
  split <;> simp [k, Map.find]

/-- A register of RW fields, one of W1C and one of RWB fields; a bad access; PCI_BAR4; NF6 with a status register. -/
theorem witness_register_writes :
    let n6 := crewed.setFld F.GLB_PERS_nf6 [] 1
    let sel := fun r : RegDef => BitVec.ofNat 32 (r.base / 4)
    (∀ i ∈ [0, 1, 2],
      let r := [R.GLB_RCV_ARG_LO, R.GLB_DUMP, R.GLB_FLT_HEAD].getD i R.GLB_MODE
      (regAt r.base).isSome = true ∧ crewed.strayAt r.base = false ∧ crewed.writeHeld r.base = false ∧ ¬(0x408 ≤ r.base ∧ r.base ≤ 0x418)
        ∧ ∀ x ∈ (ownWrites ++ coreWrites ++ [R.GLB_NF6_SEL, R.TIM_SET_LO, R.LOG_CURSOR, R.LOG_CTL, R.JNL_CURSOR_LO,
          R.JNL_CURSOR_HI, R.JNL_STAT]), x.base ≠ r.base) ∧
    ¬((8 = 4 ∧ 4 % 4 = 0) ∨ (8 = 8 ∧ 4 % 8 = 0)) ∧
    (crewed.strayAt R.PCI_BAR4.base = false ∧ crewed.writeHeld R.PCI_BAR4.base = false) ∧ (n6.nf6 = true ∧ crewed.nf6 = false) ∧
    ((regAt (4 * bits (sel R.GLB_MODE).toNat 23 0)).isSome = true ∧ isStatus R.GLB_MODE = true ∧ (n6.special R.GLB_MODE []).isNone = true) := by
  decide +kernel

/-- A configuration register in reach, of a rig with a crew, failed by a scan and by a read, for the first time and again. -/
theorem witness_parity :
    let o := R.GLB_WDOG_A.base
    let b := crewed.setConv { crewed.conv with badPar := [o] }
    let again := b.setConv { b.conv with counted := [(o, 100)] }
    let x := crewed.setConv { crewed.conv with failed := [(o, 0)] }
    ((regAt o).isSome = true ∧ isConfig R.GLB_WDOG_A = true ∧ crewed.unscanned o = false ∧ crewed.conv.badPar.elem o = false) ∧
    ((b.conv.failed.any fun p => decide (p.1 = o)) = false ∧ b.conv.badPar.elem o = true ∧ b.flt.resets = [] ∧ b.unscanned o = false
      ∧ Map.find o b.conv.counted = none ∧ Map.find o again.conv.counted = some 100 ∧ again.stk.num ≤ 100 + 2 ^ 24) ∧
    (x.conv.failed.find? (fun p => decide (p.1 = o)) = some (o, 0) ∧ x.fld F.RIG_STAT_state [] ≠ 4 ∧ x.conv.heldWrites = []
      ∧ ¬(0x404 ≤ o ∧ o ≤ 0x414) ∧ R.GLB_WDOG_A.base ≠ R.GLB_CFGPAR.base) := by decide +kernel

/-- Loads that start, end as unavailable and do nothing, a load to abort, to stage (its bytes poisoned), a shadow. -/
theorem witness_rig_loads :
    let l : RigLoad := { addr := 0, inHbm := true, at_ := none, goStroke := 100, goNs := 0 }
    let s := ((booted.setRig { booted.rig with load := some l }).setMem [(8, 160)]).setGran [(3, { poison := true })]
    let g : RigImg := { id := 1, package := 0, sections := [], bytes := [] }
    let f := (booted.setRig { booted.rig with inForce := some g }).setFld F.RIG_STAT_state [] 4
    let r1 := (s.advance 0).rigBytes l 64
    let r2 := r1.2.rigBytes l (field (plain r1.1) 8 4)
    (bits (1 : BitVec 32).toNat 0 0 = 1 ∧ bits (1 : BitVec 32).toNat 4 4 = 0 ∧ booted.isSet F.RIG_CTL_busy [] = false
      ∧ booted.pow.testMode = false ∧ booted.rigUnavailable = false ∧ State.reset.isSet F.RIG_CTL_busy [] = false
      ∧ State.reset.pow.testMode = false ∧ State.reset.rigUnavailable = true) ∧
    (bits (16 : BitVec 32).toNat 0 0 = 0 ∧ bits (16 : BitVec 32).toNat 4 4 = 1 ∧ s.rig.load.isSome = true) ∧
    (s.rig.load = some l ∧ l.staged = false ∧ l.inHbm = true ∧ anyPoison r2.1 = true) ∧
    (f.rig.inForce = some g ∧ f.fld F.RIG_STAT_state [] = 4) := by decide +kernel

/-- The rise of PWROK_AON, and the steps of the power-up with and without a warning. -/
theorem witness_power_up :
    let s := fun n : Nat => (State.reset.setPow { State.reset.pow with step := n }).setFlt { State.reset.flt with resetting := some .cold }
    State.reset.pow.step = 0 ∧
    (∀ n ∈ [1, 3, 4, 5, 6, 8], (s n).inReset = true ∧ (s n).pow.stuck = false ∧ (s n).pow.tripped = false ∧ 1 ≤ (s n).pow.step
      ∧ (s n).pow.step ≤ 9 ∧ (s n).pow.testMode = false ∧ (s n).pow.step ≠ 9 ∧ (s n).fld F.COX_STAT_state [] = 0
      ∧ (s n).pow.warn = none ∧ (s n).nv.epoch + 1 ≤ 0x0FFFFFFE) ∧
    (let w := (s 4).setPow { (s 4).pow with warn := some 0 }
     w.inReset = true ∧ w.pow.warn.isSome = true) ∧
    (let r := (((s 9).setFld F.TIM_STAT_locked [] 1).setFld F.STK_RX_state [0] 0).setFld F.STK_RX_state [1] 0
     (r.setFld F.STK_RX_state [2] 0).timeReady = true) ∧
    (crewed.setFld F.GLB_FLT_CTL_enable [] 1).isSet F.GLB_FLT_CTL_enable [] = true := by decide +kernel

/-- Loop tests that start, are refused while busy and with a rig, end with errors at the limit and past it, and are put off. -/
theorem witness_link_loops :
    let b := (booted.setFld F.LNK_LOOP_busy (lnk48 95) 1).setFld F.LNK_LOOP_mode (lnk48 95) 2
    let d := b.setFld F.LNK_LOOP_mode (lnk48 95) 1
    (booted.strayAt (R.LNK_LOOP.addr (lnk48 95)) = false ∧ booted.rig.inForce = none ∧ booted.isSet F.LNK_LOOP_busy (lnk48 95) = false
      ∧ bits (0x01000001 : BitVec 32).toNat 0 0 = 1) ∧
    (b.strayAt (R.LNK_LOOP.addr (lnk48 95)) = false ∧ b.isSet F.LNK_LOOP_busy (lnk48 95) = true
      ∧ b.fld F.LNK_LOOP_mode (lnk48 95) = 2 ∧ b.fld F.LNK_LOOP_mode (lnk48 95) ≠ 0) ∧
    (d.isSet F.LNK_LOOP_busy (lnk48 95) = true ∧ d.fld F.LNK_LOOP_mode (lnk48 95) = 1) := by decide +kernel

/-- A machine with a command in front, whose step goes on and whose memories list a byte each. -/
theorem witness_canonical_step :
    let s := { crewed with mem := [(5, 1)], hostMem := [(7, 2)], pending := [.driveEnd 0] }
    Memory.wf s.mem = true ∧ Memory.wf s.hostMem = true ∧ (∃ t, step s = .next t) ∧ crewed.pending = [] :=
  ⟨by decide +kernel, by decide +kernel, ⟨_, rfl⟩, by decide +kernel⟩

/-- A rig that defines crew 0 while the replacement flag is set, and a message that is the next. -/
theorem witness_replacement :
    let s := booted.setNv { booted.nv with replace := true }
    let g : RigImg := { id := 1, package := 0, sections := [(1, 1 :: List.replicate 511 0)], bytes := [] }
    (s.nv.replace = true ∧ g.defines 0 = true ∧ s.coxActive = true
      ∧ (BitVec.ofNat 64 (s.nv.serviceCounter + 1)).toNat = s.nv.serviceCounter + 1) ∧
    (∃ t, exec (.driveEnd 0) s = .next t ∧ t.nv.replace = true) := by
  exact ⟨by decide +kernel, ⟨_, rfl, by decide +kernel⟩⟩

/-! ### Well-formedness: one ill-formed command for each check -/

/-- Operands for the commands below. -/
def abort0 : AbortNotice := { authentic := true, jobTag := 0, allOpen := true, collId := 0, x := none, y := none }

/-- A flit of a collective with no values. -/
def coll0 : CollFlit := { collId := 0, isResult := false, level := 0, first := 0, vals := [] }

/-- No slots. -/
def credits0 : Credits := { timed := 0, bulk := 0, control := 0, mgmt := 0 }

/-- An index out of range, one check at a time, is refused (part 1). -/
theorem test_wf_refuses_1 :
    ([
      .strokeMark 3 0 0, .flywheelBoundary 3 0, .missedMark 3 0, .waitTimeout 144, .clockMonitorTrip 100,
      .monitorRearm 100 0, .doorbell 65536 0, .ringEntryFetch 65536 false, .hostLaunch 65536, .hostTallyAdd 65536,
      .hostTallySet 65536, .queueWait 65536, .hostNop 65536, .argumentBlockLanded 144, .launchComplete 16,
      .entryIssue 144, .commandWordDispatch 144, .runAheadFetch 144, .tallyAddCmd 144, .waitGe 144, .tallySetCmd 144,
      .tallyReadCmd 144, .ctlNop 144, .fenceCmd 144
    ] : List Instr).all (fun i => !i.wf) = true := by decide +kernel

/-- An index out of range, one check at a time, is refused (part 2). -/
theorem test_wf_refuses_2 :
    ([
      .loopCmd 144, .endTable 144, .stepCmd 144, .poolTake 144, .poolPut 144, .markCmd 144, .talAddWrite 16384 0,
      .talSetWrite 16384 0, .matrixFull 144 0, .matrixFull 0 12, .matrixQuad 144 0, .matrixQuad 0 12, .matrixWide 144 0,
      .matrixWide 0 12, .emitCommit 144 0 [], .emitCommit 0 12 [], .engAccDataWrite 144 0 0, .engAccDataWrite 0 12 0,
      .ceWriteback 144 0, .ceWriteback 0 0x300000, .patrolRead 144 0 [], .patrolRead 0 24 [], .vecAdd 144, .vecSub 144
    ] : List Instr).all (fun i => !i.wf) = true := by decide +kernel

/-- An index out of range, one check at a time, is refused (part 3). -/
theorem test_wf_refuses_3 :
    ([
      .vecMul 144, .vecFma 144, .vecDiv 144, .vecMin 144, .vecMax 144, .vecSqrt 144, .vecRecip 144, .vecRsqrt 144,
      .vecExp2 144, .vecExp 144, .vecLog2 144, .vecLn 144, .vecSin 144, .vecCos 144, .vecTanh 144, .vecSigmoid 144,
      .vecErf 144, .vecCvt 144, .vecCmplt 144, .vecCmple 144, .vecCmpeq 144, .vecSelect 144, .vecRsum 144, .vecRmax 144
    ] : List Instr).all (fun i => !i.wf) = true := by decide +kernel

/-- An index out of range, one check at a time, is refused (part 4). -/
theorem test_wf_refuses_4 :
    ([
      .vecRmin 144, .vecRsumsq 144, .vecRsumc 144, .vecRope 144, .vecMask 144, .dmaCopy 144 0, .dmaCopy 0 4,
      .dmaGather 144 0, .dmaGather 0 4, .dmaScatter 144 0, .dmaScatter 0 4, .dmaRingAppend 144 0, .dmaRingAppend 0 4,
      .ringAppendLine 144 0, .ringAppendLine 0 4, .dmaFill 144 0, .dmaFill 0 4, .dmaSend 144 0, .dmaSend 0 4,
      .hbmRead (2 ^ 39) 0 0 [], .hbmWrite (2 ^ 39) 0 false [], .hbmWriteback 8, .scrubLine 8 [], .hbmRefresh 512
    ] : List Instr).all (fun i => !i.wf) = true := by decide +kernel

/-- An index out of range, one check at a time, is refused (part 5). -/
theorem test_wf_refuses_5 :
    ([
      .hbmTempChange 8 0, .grainRead 144 0, .grainRead 0 (2 ^ 39), .grainWrite 144 0 false [],
      .grainWrite 0 (2 ^ 39) false [], .atomicRequest 144 0 false [], .atomicRequest 0 (2 ^ 39) false [],
      .orderedAtomicApply 64, .hbmLoopNearDigital 8 0, .hbmLoopPhyAnalogue 8 0, .hbmLoopBaseDie 8 0, .hbmLoopDone 8 0,
      .hbmLoopOff 8 0, .gateSlot 96 0, .gateSlot 0 1024, .flitLaunch 96 .timed,
      .flitReceive 96 none (List.replicate 128 0), .flitReceive 0 none (List.replicate 127 0), .flitDeliver 96,
      .linkFlit 96 0 credits0, .linkFlitSend 96 0, .linkRetry 96 0, .creditSync 96 0 credits0, .landAck 96 []
    ] : List Instr).all (fun i => !i.wf) = true := by decide +kernel

/-- An index out of range, one check at a time, is refused (part 6). -/
theorem test_wf_refuses_6 :
    ([
      .ackTimeout 96 0, .laneUnusable 96 0 .fecLock, .laneUnusable 0 2 .fecLock, .laneDegrade 96 0, .laneDegrade 0 2,
      .laneAck 96, .restripe 96, .linkDown 96, .linkSilenceTimeout 96 0, .linkRetrain 96 false, .allReduce 144 0,
      .allReduce 0 4, .reduceScatter 144 0, .reduceScatter 0 4, .allGather 144 0, .allGather 0 4, .collPartial 96 0 coll0,
      .collPartial 0 16 coll0, .collectiveComplete 16 0, .timeReq 96 0 (answer true), .timeResp 96 0 (answer true),
      .exchangeAbandon 96 0, .timTsStatRead 6, .timedLaunch 3 0
    ] : List Instr).all (fun i => !i.wf) = true := by decide +kernel

/-- An index out of range, one check at a time, is refused (part 7). -/
theorem test_wf_refuses_7 :
    ([
      .frameReceive 2 0 [], .captureEdge 4 0 0 0 0, .captureEdge 0 0 96 0 0, .timCapWrite 4 0,
      .pairLoRead .host 0x4000000, .umpireCompare 144, .mismatchFault 144, .mismatchVerdict 16, .transientWindowClose 144,
      .watchClose 16 0, .watchClose 0 256, .watchMergeComplete 16 0, .watchMergeComplete 0 256, .spareSwitchIn 144,
      .drainStepLimit 16, .hardFaultWindowClose 144, .crewStop 16, .rollbackRun 16, .restorationComplete 16,
      .queueWatchdog 65536 0, .tallyWaitWatchdog 144 0, .engineProgressWatchdog 144 0, .engineProgressWatchdog 0 14,
      .collectiveWatchdog 16 0 0
    ] : List Instr).all (fun i => !i.wf) = true := by decide +kernel

/-- An index out of range, one check at a time, is refused (part 8). -/
theorem test_wf_refuses_8 :
    ([
      .slipWatchdog 16, .freezeEnd 16 0, .cowLineCopy 16 0, .checkpointTimer 16, .checkpointPageCopy 16,
      .checkpointComplete 16, .gateCommand 6 0 0, .gapBoundExpiry 6 0, .logWinRead 40, .jnlWinRead 16,
      .pmcSelWrite 0x4000000 0, .counterWindowRead 16 0 0, .traceDrain 16, .registerWrite 0x4000000 0,
      .parityScan 0x4000000 false, .parityFailure 0x4000000 false, .parityReloadDone 0x4000000, .thermalWarn 27 0,
      .throttleEnter 27 0, .throttleExit 27 0, .criticalTrip 27 0, .loopNearDigital 96 0, .loopNearAnalogue 96 0,
      .loopEcho 96 0
    ] : List Instr).all (fun i => !i.wf) = true := by decide +kernel

/-- An index out of range, one check at a time, is refused (part 9). -/
theorem test_wf_refuses_9 :
    ([
      .loopLineCheck 96 0, .linkLoopDone 96 0 0, .linkLoopOff 96 0, .timedAcknowledgement 96 0, .restoreComplete 16,
      .thermalWarnClear 27 0, .poisonConsumed (.error (.accumulator 144 0 0 0)),
      .poisonConsumed (.error (.accumulator 0 12 0 0)), .poisonConsumed (.error (.accumulator 0 0 256 0)),
      .poisonConsumed (.error (.accumulator 0 0 0 256)), .poisonConsumed (.error (.operand 144 0 0 0)),
      .poisonConsumed (.error (.operand 0 12 0 0)), .poisonConsumed (.error (.operand 0 0 256 0)),
      .poisonConsumed (.error (.operand 0 0 0 256)), .poisonConsumed (.error (.vectorLane 144 0)),
      .poisonConsumed (.error (.dmaAddress 144 0)), .poisonConsumed (.error (.adder 16 0)),
      .poisonConsumed (.error (.sequencer 144 false)), .poisonConsumed (.error (.queueState 65536 false)),
      .poisonConsumed (.error (.tallyValue 16384 false)), .poisonConsumed (.error (.heldGranule (2 ^ 39) false)),
      .poisonConsumed (.error (.prefetchLine 144)), .poisonConsumed (.error (.noc 4 0))
    ] : List Instr).all (fun i => !i.wf) = true := by decide +kernel

/-- The same commands with every index at its last value are well-formed (part 1). -/
theorem test_wf_accepts_1 :
    ([
      .strokeMark 2 0 0, .flywheelBoundary 2 0, .missedMark 2 0, .waitTimeout 143, .clockMonitorTrip 99,
      .monitorRearm 99 0, .doorbell 65535 0, .ringEntryFetch 65535 false, .hostLaunch 65535, .hostTallyAdd 65535,
      .hostTallySet 65535, .queueWait 65535, .hostNop 65535, .argumentBlockLanded 143, .launchComplete 15,
      .entryIssue 143, .commandWordDispatch 143, .runAheadFetch 143, .tallyAddCmd 143, .waitGe 143, .tallySetCmd 143,
      .tallyReadCmd 143, .ctlNop 143, .fenceCmd 143
    ] : List Instr).all (fun i => i.wf) = true := by decide +kernel

/-- The same commands with every index at its last value are well-formed (part 2). -/
theorem test_wf_accepts_2 :
    ([
      .loopCmd 143, .endTable 143, .stepCmd 143, .poolTake 143, .poolPut 143, .markCmd 143, .talAddWrite 16383 0,
      .talSetWrite 16383 0, .matrixFull 143 11, .matrixQuad 143 11, .matrixWide 143 11, .emitCommit 143 11 [],
      .engAccDataWrite 143 11 0, .ceWriteback 143 0x2fffff, .patrolRead 143 23 [], .vecAdd 143, .vecSub 143, .vecMul 143,
      .vecFma 143, .vecDiv 143, .vecMin 143, .vecMax 143, .vecSqrt 143, .vecRecip 143
    ] : List Instr).all (fun i => i.wf) = true := by decide +kernel

/-- The same commands with every index at its last value are well-formed (part 3). -/
theorem test_wf_accepts_3 :
    ([
      .vecRsqrt 143, .vecExp2 143, .vecExp 143, .vecLog2 143, .vecLn 143, .vecSin 143, .vecCos 143, .vecTanh 143,
      .vecSigmoid 143, .vecErf 143, .vecCvt 143, .vecCmplt 143, .vecCmple 143, .vecCmpeq 143, .vecSelect 143,
      .vecRsum 143, .vecRmax 143, .vecRmin 143, .vecRsumsq 143, .vecRsumc 143, .vecRope 143, .vecMask 143, .dmaCopy 143 3,
      .dmaGather 143 3
    ] : List Instr).all (fun i => i.wf) = true := by decide +kernel

/-- The same commands with every index at its last value are well-formed (part 4). -/
theorem test_wf_accepts_4 :
    ([
      .dmaScatter 143 3, .dmaRingAppend 143 3, .ringAppendLine 143 3, .dmaFill 143 3, .dmaSend 143 3,
      .hbmRead (2 ^ 39 - 1) 0 0 [], .hbmWrite (2 ^ 39 - 1) 0 false [], .hbmWriteback 7, .scrubLine 7 [], .hbmRefresh 511,
      .hbmTempChange 7 0, .grainRead 143 (2 ^ 39 - 1), .grainWrite 143 (2 ^ 39 - 1) false [],
      .atomicRequest 143 (2 ^ 39 - 1) false [], .orderedAtomicApply 63, .hbmLoopNearDigital 7 0, .hbmLoopPhyAnalogue 7 0,
      .hbmLoopBaseDie 7 0, .hbmLoopDone 7 0, .hbmLoopOff 7 0, .gateSlot 95 1023, .flitLaunch 95 .timed,
      .flitReceive 95 none (List.replicate 128 0), .flitDeliver 95
    ] : List Instr).all (fun i => i.wf) = true := by decide +kernel

/-- The same commands with every index at its last value are well-formed (part 5). -/
theorem test_wf_accepts_5 :
    ([
      .linkFlit 95 0 credits0, .linkFlitSend 95 0, .linkRetry 95 0, .creditSync 95 0 credits0, .landAck 95 [],
      .ackTimeout 95 0, .laneUnusable 95 1 .fecLock, .laneDegrade 95 1, .laneAck 95, .restripe 95, .linkDown 95,
      .linkSilenceTimeout 95 0, .linkRetrain 95 false, .allReduce 143 3, .reduceScatter 143 3, .allGather 143 3,
      .collPartial 95 15 coll0, .collectiveComplete 15 0, .timeReq 95 0 (answer true), .timeResp 95 0 (answer true),
      .exchangeAbandon 95 0, .timTsStatRead 5, .timedLaunch 2 0, .frameReceive 1 0 []
    ] : List Instr).all (fun i => i.wf) = true := by decide +kernel

/-- The same commands with every index at its last value are well-formed (part 6). -/
theorem test_wf_accepts_6 :
    ([
      .captureEdge 3 0 95 0 0, .timCapWrite 3 0, .pairLoRead .host 0x3ffffff, .umpireCompare 143, .mismatchFault 143,
      .mismatchVerdict 15, .transientWindowClose 143, .watchClose 15 255, .watchMergeComplete 15 255, .spareSwitchIn 143,
      .drainStepLimit 15, .hardFaultWindowClose 143, .crewStop 15, .rollbackRun 15, .restorationComplete 15,
      .queueWatchdog 65535 0, .tallyWaitWatchdog 143 0, .engineProgressWatchdog 143 13, .collectiveWatchdog 15 0 0,
      .slipWatchdog 15, .freezeEnd 15 0, .cowLineCopy 15 0, .checkpointTimer 15, .checkpointPageCopy 15
    ] : List Instr).all (fun i => i.wf) = true := by decide +kernel

/-- The same commands with every index at its last value are well-formed (part 7). -/
theorem test_wf_accepts_7 :
    ([
      .checkpointComplete 15, .gateCommand 5 0 0, .gapBoundExpiry 5 0, .logWinRead 39, .jnlWinRead 15,
      .pmcSelWrite 0x3ffffff 0, .counterWindowRead 15 0 0, .traceDrain 15, .registerWrite 0x3ffffff 0,
      .parityScan 0x3ffffff false, .parityFailure 0x3ffffff false, .parityReloadDone 0x3ffffff, .thermalWarn 26 0,
      .throttleEnter 26 0, .throttleExit 26 0, .criticalTrip 26 0, .loopNearDigital 95 0, .loopNearAnalogue 95 0,
      .loopEcho 95 0, .loopLineCheck 95 0, .linkLoopDone 95 0 0, .linkLoopOff 95 0, .timedAcknowledgement 95 0,
      .restoreComplete 15
    ] : List Instr).all (fun i => i.wf) = true := by decide +kernel

/-- The same commands with every index at its last value are well-formed (part 8). -/
theorem test_wf_accepts_8 :
    ([
      .thermalWarnClear 26 0, .poisonConsumed (.error (.accumulator 143 11 255 255)),
      .poisonConsumed (.error (.operand 143 11 255 255)), .poisonConsumed (.error (.vectorLane 143 0)),
      .poisonConsumed (.error (.dmaAddress 143 0)), .poisonConsumed (.error (.adder 15 0)),
      .poisonConsumed (.error (.sequencer 143 false)), .poisonConsumed (.error (.queueState 65535 false)),
      .poisonConsumed (.error (.tallyValue 16383 false)), .poisonConsumed (.error (.heldGranule (2 ^ 39 - 1) false)),
      .poisonConsumed (.error (.prefetchLine 143)), .poisonConsumed (.error (.noc 3 0))
    ] : List Instr).all (fun i => i.wf) = true := by decide +kernel

/-! ### Worked examples and check values of the spec -/

/-- The state that an outcome goes on in, or one with a raw counter that no test here expects. -/
def after (o : Host.Outcome State Fault Refusal) : State :=
  match o with
  | .next t => t
  | _ => State.reset.setRaw 999

/-- The check value of the digest's CRC (10 R250). -/
theorem test_crc64_check_value :
    crc64 [0x31, 0x32, 0x33, 0x34, 0x35, 0x36, 0x37, 0x38, 0x39] = 0x6C40DF5F0B497347 := by decide +kernel

/-- Worked example: locating an address (07). -/
theorem test_locating_an_address :
    let a := 0x5234567840
    sidOf a = 2 ∧ pcOf a = 0x0DE ∧ stackOf a = 3 ∧ colOf a = 3 ∧ bgOf a = 1 ∧ bankInGroup a = 0 ∧ rowOf a = 0x1234
      ∧ pcOf 0x5234567940 = 0x0DF := by decide +kernel

/-- Worked example: a group in which truncation matters (05). -/
theorem test_group_truncates :
    groupValue ([(0x7E, 0x78), (0x0B, 0x15), (0x8B, 0x15), (0x3C, 0x04)].map fun p =>
      scaledProduct (fE4M3.decode p.1) (fE4M3.decode p.2) (some 0) (some 0)) = 0x47E00001 := by decide +kernel

/-- Worked example: an MXFP4 group with block scales 2^-3 and 2^6 (05). -/
theorem test_mx_group :
    groupValue ([(0x7, 0x6), (0x1, 0x7), (0xA, 0x3), (0x3, 0xE), (0x0, 0x5), (0x5, 0x2), (0xC, 0x9), (0x2, 0x4)].map fun p =>
      scaledProduct (fE2M1.decode p.1) (fE2M1.decode p.2) (some (-3)) (some 6)) = 0x434C0000 := by decide +kernel

/-- Worked example: what the error term keeps (05). -/
theorem test_error_term :
    let a := accumulate 0x4B800000 0 0x3F800000
    let b := accumulate a.1 a.2 0x3F800000
    a = (0x4B800000, 0x3F800000) ∧ b = (0x4B800000, 0x40000000) ∧ emitWord fFP32 b = 0x4B800001 := by decide +kernel

/-- Worked example: quantising a block to E4M3 with scale 2^1 (06): a saturated, an exact, a tied and a vanishing element. -/
theorem test_quantising :
    ([0x447A0000, 0xBF300000, 0x3BC00000, 0xB9800000].map fun w : Nat => fE4M3.rne ((f32 (BitVec.ofNat 32 w)).scale (-1)))
      = [0x7E, 0xAB, 0x02, 0x80] := by decide +kernel

/-- Worked example: one exchange and its correction (09), its instants counted from t1. -/
theorem test_exchange_correction :
    let s := ((crewed.setFld F.TIM_SRC_primary [] 0).setFld F.TIM_STAT_state [] 2).setFld F.TIM_STAT_locked [] 1
    let s := s.setTim { s.tim with integ := -10995116 }
    let t := s.accept false (exchangeOf 0 57982058496 2634962436096 (620 * 2 ^ 32) 0).1 (Int.ofNat s.interval) none
    t.tim.integ = -12874165 ∧ t.reg R.TIM_RATE [] = 42938937 := by decide +kernel

/-! ### Single steps -/

/-- With nothing waiting a machine that has begun its power-up ticks, and one at rest stays. -/
theorem test_idle_step :
    (after (step booted)).raw = booted.raw + 1 ∧ (after (step State.reset)).raw = 0 := by decide +kernel

/-- A step takes the front command, and the commands behind it wait. -/
theorem test_step_takes_the_front :
    let s := crewed.setPending [.pciPerstN, .pciPerstNRelease]
    (after (step s)).pow.perst = true ∧ (after (step s)).pending.length = 1 := by decide +kernel

/-- No word spells a command: the table gives no row bits. -/
theorem test_no_word : decodeTableWord 32 0 = none := rfl

end Sys2Proof.Tests
end

section
/-!
PROOFS. The state after reset (O58): its register file and its memories list nothing, so a register reads the reset
value of its field map (00 R6), a field the bits of that value, and a byte of memory what an unlisted address reads as.
-/
namespace Sys2Proof.Machine

@[simp] theorem Map.getD_nil {α : Type} (d : α) (k : Nat) : Map.getD d [] k = d := rfl

@[simp] theorem Map.wf_nil {α : Type} [DecidableEq α] (d : α) : Map.wf d [] = true := rfl

@[simp] theorem State.reset_regs : State.reset.regs = [] := rfl
@[simp] theorem State.reset_mem : State.reset.mem = [] := rfl
@[simp] theorem State.reset_hostMem : State.reset.hostMem = [] := rfl

/-- No register is stored at reset, so each one reads the value of its field map. -/
@[simp] theorem State.reg_reset (r : RegDef) (ix : List Nat) : State.reset.reg r ix = r.reset := by
  simp [State.reg]

/-- The value of a field at reset can be read off its field map. -/
@[simp] theorem State.fld_reset (f : Fld) (ix : List Nat) :
    State.reset.fld f ix = bits f.reg.reset.toNat f.hi f.lo := by
  simp [State.fld]

theorem State.period_reset : State.reset.period = 4096 :=
  (State.fld_reset F.STK_CTL_period_ns []).trans (by decide)

/-- rec_frac stands at its code 1, a sixteenth of the period (02 R36). -/
theorem State.recovery_reset : State.reset.recovery = 256 := by
  have hfrac : bits R.STK_CTL.reset.toNat F.STK_CTL_rec_frac.hi F.STK_CTL_rec_frac.lo = 1 := by decide
  rw [State.recovery, State.period_reset, State.fld_reset]
  exact congrArg (4096 / recDiv ·) hfrac

theorem State.isSet_reset (f : Fld) (ix : List Nat) :
    State.reset.isSet f ix = decide (bits f.reg.reset.toNat f.hi f.lo = 1) := by
  rw [State.isSet, State.fld_reset]

@[simp] theorem State.hbmAt_reset (a : Nat) : State.reset.hbmAt a = 0 := by
  simp [State.hbmAt, unlisted]

@[simp] theorem State.hostAt_reset (a : Nat) : State.reset.hostAt a = 0 := by
  simp [State.hostAt, unlisted]

theorem State.memories_canonical_reset :
    Memory.wf State.reset.mem = true ∧ Memory.wf State.reset.hostMem = true := by
  simp [Memory.wf]

end Sys2Proof.Machine

namespace Sys2Proof.Proofs
open Sys2Proof.Machine

/-- Settles O58: the queues, crews and units are the empty defaults of the state, and what it reads as comes from the
lemmas on its empty register file and memories. The instant, the empty lists and the fused values it rests on are
those of assumption logs 2, 3 and 5, beside log 4. -/
theorem resetHoldsTheSpecValues : Obligations.ResetHoldsTheSpecValues := by
  obtain ⟨hmem, hhost⟩ := State.memories_canonical_reset
  have hentries : State.reset.fld F.GLB_FLT_CTL_log2_entries [] = 8 := (State.fld_reset _ _).trans (by decide)
  have hstride : State.reset.fld F.GLB_FLT_CTL_ce_stride [] = 10 := (State.fld_reset _ _).trans (by decide)
  have henable : State.reset.isSet F.GLB_FLT_CTL_enable [] = false := (State.isSet_reset _ _).trans (by decide)
  exact ⟨rfl, rfl, rfl, rfl, rfl, rfl, rfl, rfl, rfl, hmem, hhost, State.reg_reset, State.period_reset,
    State.recovery_reset, hentries, hstride, henable, fun a => ⟨State.hbmAt_reset a, State.hostAt_reset a⟩⟩

end Sys2Proof.Proofs
end

section
/-!
PROOFS. What the host's write of a register leaves (16 R386), and what a raised fault does (11 R258, R275): the laws on
which the statements about power modes, supply and clock trips rest.
-/
namespace Sys2Proof.Machine

variable (s : State)

/-! ### What the frames of the statements rest on -/

/-- The parts of the state of which `State.sameMemory` and `State.sameJobs` speak. -/
def State.memoryAndJobs (s : State) :=
  (s.mem, s.gran, s.hostMem, s.hostPoison, s.cores, s.tallies, s.queues, s.ctxs, s.nextAccept, s.hostTal, s.tabSets)

theorem State.sameMemory_sameJobs_of_eq {s t : State} (h : t.memoryAndJobs = s.memoryAndJobs) :
    s.sameMemory t ∧ s.sameJobs t := by
  simp only [State.memoryAndJobs, Prod.mk.injEq] at h
  obtain ⟨hmem, hgran, hhost, hpoison, hcores, htallies, hqueues, hctxs, haccept, htal, hsets⟩ := h
  refine ⟨⟨fun a => ?_, fun a => ?_, fun a => ?_, hpoison⟩,
    hcores, htallies, hqueues, hctxs, haccept, htal, hsets⟩
  · rw [State.hbmAt, hmem, State.hbmAt]
  · rw [State.granSt, hgran, State.granSt]
  · rw [State.hostAt, hhost, State.hostAt]

theorem State.regsBut_of_regs_eq {s t : State} (h : t.regs = s.regs) (offs : List Nat) : s.regsBut offs t :=
  fun o d _ => congrArg (Map.getD d · o) h

/-! ### The host's write of a register -/

/-- A field lies apart from bits [hi:lo] of its register. -/
def FieldDef.apart (g : FieldDef) (hi lo : Nat) : Bool := decide (g.lo ≤ g.hi ∧ g.hi < 32 ∧ (g.hi < lo ∨ hi < g.lo))

/-- The access codes of the fields that a host write can change (00 R6; 16 R386). -/
def Acc.hostWritable : Acc → Bool
  | .rw | .rwb | .w1c => true
  | _ => false

/-- A mask over fields that all lie apart from some bits has none of these bits. -/
theorem RegDef.bits_maskOf_apart {r : RegDef} {p : Acc → Bool} {hi lo : Nat} (hle : lo ≤ hi)
    (h : ∀ g ∈ r.fields, p g.acc = true → g.apart hi lo = true) : bits (r.maskOf p).toNat hi lo = 0 := by
  refine List.foldlRecOn (motive := fun m : Word => bits m.toNat hi lo = 0) r.fields _ (by simp [bits])
    fun m hm g hg => ?_
  split
  · next hp =>
    obtain ⟨hwf, hlt, hbelow | habove⟩ := of_decide_eq_true (h g hg hp)
    · rw [bits_putBits_above _ _ ⟨hwf, hlt⟩ hbelow, hm]
    · rw [bits_putBits_below _ _ ⟨hwf, hlt⟩ habove hle, hm]
  · exact hm

theorem testBit_bits (x hi lo i : Nat) : (bits x hi lo).testBit i = (decide (i < hi + 1 - lo) && x.testBit (lo + i)) := by
  rw [bits, Nat.testBit_mod_two_pow, Nat.testBit_div_two_pow, Nat.add_comm lo]

theorem getLsbD_of_bits_eq_zero {w : Word} {hi lo i : Nat} (h : bits w.toNat hi lo = 0) (hlt : i < hi + 1 - lo) :
    w.getLsbD (lo + i) = false := by
  have hbit := testBit_bits w.toNat hi lo i
  rw [h, Nat.zero_testBit, decide_eq_true hlt, Bool.true_and, BitVec.testBit_toNat] at hbit
  exact hbit.symm

/-- Bits that a write neither takes nor clears stay. -/
theorem bits_merge_of_unmasked {old v take clear : Word} {hi lo : Nat} (ht : bits take.toNat hi lo = 0)
    (hc : bits clear.toNat hi lo = 0) :
    bits ((old &&& ~~~take &&& ~~~clear) ||| (v &&& take)).toNat hi lo = bits old.toNat hi lo := by
  refine Nat.eq_of_testBit_eq fun i => ?_
  rw [testBit_bits, testBit_bits]
  by_cases hlt : i < hi + 1 - lo
  · have htake := getLsbD_of_bits_eq_zero ht hlt
    have hclear := getLsbD_of_bits_eq_zero hc hlt
    have hin : old.getLsbD (lo + i) = true → lo + i < 32 := BitVec.lt_of_getLsbD
    simp only [BitVec.testBit_toNat, BitVec.getLsbD_or, BitVec.getLsbD_and, BitVec.getLsbD_not, htake, hclear]
    cases hold : old.getLsbD (lo + i) with
    | false => simp
    | true => simp [hin hold]
  · simp [hlt]

theorem bits_and_of_mask {mask v : Word} {hi lo : Nat} (h : bits mask.toNat hi lo = 0) :
    bits (mask &&& v).toNat hi lo = 0 := by
  refine Nat.eq_of_testBit_eq fun i => ?_
  rw [testBit_bits, Nat.zero_testBit]
  by_cases hlt : i < hi + 1 - lo
  · rw [BitVec.testBit_toNat, BitVec.getLsbD_and, getLsbD_of_bits_eq_zero h hlt, Bool.false_and, Bool.and_false]
  · simp [hlt]

theorem State.hostPut_keeps {β : Type} (p : State → β) (hregs : ∀ s x, p (State.setRegs s x) = p s)
    (hconv : ∀ s x, p (State.setConv s x) = p s) (r : RegDef) (ix : List Nat) (v : Word) : p (s.hostPut r ix v) = p s := by
  unfold State.hostPut
  dsimp only
  split
  · exact (State.raiseBit_keeps _ p hregs hconv _ _).trans ((hconv _ _).trans (hregs _ _))
  · exact (hconv _ _).trans (hregs _ _)

theorem State.reg_raiseBit_ne {f : Fld} {ix : List Nat} {r : RegDef} {jx : List Nat} (h : r.addr jx ≠ f.reg.addr ix) :
    (s.raiseBit f ix).reg r jx = s.reg r jx :=
  (State.reg_congr (s := s.setFld f ix 1) (State.noteNf6_regs _ _ _) r jx).trans (State.reg_setReg_ne _ h _)

/-- The note of a write to reserved bits (16 R386) changes no register but GLB_CFGPAR. -/
theorem State.reg_rwbNote {r : RegDef} {ix : List Nat} (hpar : r.addr ix ≠ R.GLB_CFGPAR.addr []) (noted : Prop)
    [Decidable noted] : (if noted then s.raiseBit F.GLB_CFGPAR_rwb_hist [] else s).reg r ix = s.reg r ix := by
  split
  · exact State.reg_raiseBit_ne s hpar
  · rfl

/-- A host write changes its own register and, for a reserved bit, GLB_CFGPAR. -/
theorem State.reg_hostPut_ne {r r' : RegDef} {ix jx : List Nat} (h : r'.addr jx ≠ r.addr ix)
    (hpar : r'.addr jx ≠ R.GLB_CFGPAR.addr []) (v : Word) : (s.hostPut r ix v).reg r' jx = s.reg r' jx :=
  (State.reg_rwbNote _ hpar _).trans (State.reg_setReg_ne s h _)

/-- A field apart from all that the host can write reads as before a host write of its register. -/
theorem State.fld_hostPut_apart {f : Fld} {ix : List Nat} (hle : f.lo ≤ f.hi) (hpar : f.reg.addr ix ≠ R.GLB_CFGPAR.addr [])
    (h : ∀ g ∈ f.reg.fields, g.acc.hostWritable = true → g.apart f.hi f.lo = true) (v : Word) :
    (s.hostPut f.reg ix v).fld f ix = s.fld f ix := by
  have hmask : ∀ p : Acc → Bool, (∀ a, p a = true → a.hostWritable = true) →
      bits (f.reg.maskOf p).toNat f.hi f.lo = 0 :=
    fun p hp => RegDef.bits_maskOf_apart hle fun g hg hacc => h g hg (hp _ hacc)
  simp only [State.fld, State.hostPut]
  rw [State.reg_rwbNote _ hpar, State.reg_congr (State.setConv_regs _ _), State.reg_setReg_same]
  refine bits_merge_of_unmasked (hmask _ ?_) ?_
  · intro a ha
    revert ha
    cases a <;> simp [Acc.hostWritable]
  · split
    · simp [bits]
    · refine bits_and_of_mask (hmask _ fun a ha => ?_)
      revert ha
      cases a <;> simp [Acc.hostWritable]

/-! ### A raised fault -/

theorem mem_iota {m : Nat} : ∀ {k n : Nat}, m ∈ iota n k ↔ n ≤ m ∧ m < n + k
  | 0, n => by simp [iota]
  | k + 1, n => by
    rw [iota, List.mem_cons, mem_iota]
    omega

theorem State.mem_crewList {n : Nat} : n ∈ s.crewList ↔ n < 16 ∧ s.crewValid n = true := by
  simp [State.crewList, mem_iota]

@[simp] theorem State.crew_modCrew_same (n : Nat) (f : Crew → Crew) : (s.modCrew n f).crew n = f (s.crew n) :=
  Map.getD_setD_same _ _ _ _

theorem State.crew_modCrew_ne {m n : Nat} (h : m ≠ n) (f : Crew → Crew) : (s.modCrew n f).crew m = s.crew m :=
  Map.getD_setD_ne _ _ _ h _

/-- A crew that is told to stop is to stop, and so is one that was to stop before. -/
theorem State.stopCrew_stop_isSome {m n : Nat} (st : Stop) (h : m = n ∨ (s.crew m).stop.isSome = true) :
    ((s.stopCrew n st).crew m).stop.isSome = true := by
  by_cases hmn : m = n
  · subst hmn
    simp [State.stopCrew]
  · rw [State.stopCrew, State.crew_modCrew_ne _ hmn]
    exact h.resolve_left hmn

theorem State.each_stopCrew_stop_isSome (st : State → Stop) {m : Nat} (l : List Nat)
    (h : m ∈ l ∨ (s.crew m).stop.isSome = true) :
    ((s.each l fun s n => s.stopCrew n (st s)).crew m).stop.isSome = true := by
  induction l generalizing s with
  | nil => exact h.resolve_left List.not_mem_nil
  | cons n r ih =>
    refine ih _ ?_
    rcases h with hmem | hsome
    · rcases List.mem_cons.mp hmem with rfl | hr
      · exact .inr (State.stopCrew_stop_isSome s _ (.inl rfl))
      · exact .inl hr
    · exact .inr (State.stopCrew_stop_isSome s _ (.inr hsome))

theorem State.allStop_stopAll : s.allStop s.stopAll := fun _ hlt hvalid =>
  State.each_stopCrew_stop_isSome s _ _ (.inl ((State.mem_crewList s).mpr ⟨hlt, hvalid⟩))

@[simp] theorem State.stopAll_flt : s.stopAll.flt = s.flt := State.stopAll_keeps s State.flt fun _ _ => rfl

@[simp] theorem State.stopCrew_flt (n : Nat) (st : Stop) : (s.stopCrew n st).flt = s.flt := rfl

@[simp] theorem State.stampFault_cls (f : Fault0) : (s.stampFault f).cls = f.cls := by
  unfold State.stampFault; split <;> rfl
@[simp] theorem State.stampFault_sev (f : Fault0) : (s.stampFault f).sev = f.sev := by
  unfold State.stampFault; split <;> rfl
@[simp] theorem State.stampFault_event (f : Fault0) : (s.stampFault f).event = f.event := by
  unfold State.stampFault; split <;> rfl

/-- A state in which a fault waits for its record, behind those raised before it; the check value of the record may have
taken a free value. -/
def State.withFault (s : State) (free : Nat) (g : Fault0) : State :=
  (s.setFree free).setFlt { s.flt with queue := s.flt.queue ++ [g] }

/-- What raising a fault does: its record is to come, and then nothing, one crew or all crews are to stop; all of them
by a fault of Package severity that is no drain notice (11 R258). -/
theorem State.raiseFault_cases (f : Fault0) :
    ∃ free g, (g.cls = f.cls ∧ g.sev = f.sev ∧ g.event = f.event) ∧
      (s.raiseFault f = s.withFault free g ∨ s.raiseFault f = (s.withFault free g).stopAll
        ∨ ∃ n st, s.raiseFault f = (s.withFault free g).stopCrew n st) ∧
      (f.sev = 3 → f.event % 256 ≠ 0xFF → s.raiseFault f = (s.withFault free g).stopAll) := by
  have hsyndrome : ∃ v free, (if f.hasDetail then s.fresh else (f.syndrome, s)) = (v, s.setFree free) := by
    split
    · exact ⟨_, _, rfl⟩
    · exact ⟨_, s.free, rfl⟩
  obtain ⟨v, free, hv⟩ := hsyndrome
  refine ⟨free, { (s.setFree free).stampFault f with syndrome := v % 2 ^ 32 }, ⟨by simp, by simp, by simp⟩, ?_, ?_⟩
  · simp only [State.raiseFault, hv]
    split
    · split
      · exact .inl rfl
      · exact .inr (.inl rfl)
    · split
      · split
        · exact .inr (.inr ⟨_, _, rfl⟩)
        · exact .inl rfl
      · exact .inl rfl
  · intro hsev hevent
    simp only [State.raiseFault, hv, State.stampFault_sev, State.stampFault_event, if_pos hsev, if_neg hevent]
    rfl

theorem State.raiseFault_flt (f : Fault0) : ∃ g : Fault0,
    (g.cls = f.cls ∧ g.sev = f.sev ∧ g.event = f.event) ∧
      (s.raiseFault f).flt = { s.flt with queue := s.flt.queue ++ [g] } := by
  obtain ⟨free, g, hg, h | h | ⟨n, st, h⟩, -⟩ := s.raiseFault_cases f
  · exact ⟨g, hg, by rw [h]; rfl⟩
  · exact ⟨g, hg, by rw [h, State.stopAll_flt]; rfl⟩
  · exact ⟨g, hg, by rw [h, State.stopCrew_flt]; rfl⟩

theorem State.records_raiseFault {f : Fault0} {cls sev event : Nat} (hcls : f.cls = cls) (hsev : f.sev = sev)
    (hevent : f.event = event) : s.records (s.raiseFault f) cls sev event := by
  obtain ⟨g, ⟨hc, hs, he⟩, hflt⟩ := s.raiseFault_flt f
  exact ⟨g, by rw [hflt], hc.trans hcls, hs.trans hsev, he.trans hevent⟩

@[simp] theorem State.raiseFault_ucie (f : Fault0) : (s.raiseFault f).flt.ucie = s.flt.ucie := by
  obtain ⟨g, -, hflt⟩ := s.raiseFault_flt f
  rw [hflt]

theorem State.allStop_raiseFault {f : Fault0} (hsev : f.sev = 3) (hevent : f.event % 256 ≠ 0xFF) :
    s.allStop (s.raiseFault f) := by
  obtain ⟨free, g, -, -, h⟩ := s.raiseFault_cases f
  rw [h hsev hevent]
  exact (s.withFault free g).allStop_stopAll

/-- Memory, jobs, the cox die and the registers stay: the frame of what happens to supplies and clocks. -/
def State.keepsWork (s t : State) : Prop := s.sameMemory t ∧ s.sameJobs t ∧ s.sameCox t ∧ s.regsBut [] t

section
/-! A state with other supplies or pins records, stops and keeps the same. -/
variable (t : State)

@[simp] theorem State.records_setPow (x : Pow) (cls sev event : Nat) :
    s.records (t.setPow x) cls sev event ↔ s.records t cls sev event := Iff.rfl
@[simp] theorem State.records_setPins (x : Pins) (cls sev event : Nat) :
    s.records (t.setPins x) cls sev event ↔ s.records t cls sev event := Iff.rfl
@[simp] theorem State.allStop_setPow (x : Pow) : s.allStop (t.setPow x) ↔ s.allStop t := Iff.rfl
@[simp] theorem State.allStop_setPins (x : Pins) : s.allStop (t.setPins x) ↔ s.allStop t := Iff.rfl
@[simp] theorem State.keepsWork_setPow (x : Pow) : s.keepsWork (t.setPow x) ↔ s.keepsWork t := Iff.rfl
@[simp] theorem State.keepsWork_setPins (x : Pins) : s.keepsWork (t.setPins x) ↔ s.keepsWork t := Iff.rfl

end

theorem State.keepsWork_of_eq {s t : State} (h : t.memoryAndJobs = s.memoryAndJobs) (hcox : t.cox = s.cox)
    (hnv : t.nv = s.nv) (hregs : t.regs = s.regs) : s.keepsWork t := by
  obtain ⟨hmem, hjobs⟩ := State.sameMemory_sameJobs_of_eq h
  exact ⟨hmem, hjobs, ⟨hcox, hnv⟩, State.regsBut_of_regs_eq hregs []⟩

theorem State.keepsWork_raiseFault (f : Fault0) : s.keepsWork (s.raiseFault f) := by
  have hkeeps := State.raiseFault_keeps s (fun t => (t.memoryAndJobs, t.cox, t.nv, t.regs))
    (fun _ _ => rfl) (fun _ _ => rfl) (fun _ _ => rfl) f
  simp only [Prod.mk.injEq] at hkeeps
  obtain ⟨hwork, hcox, hnv, hregs⟩ := hkeeps
  exact State.keepsWork_of_eq hwork hcox hnv hregs

@[simp] theorem State.raiseFault_pow (f : Fault0) : (s.raiseFault f).pow = s.pow :=
  State.raiseFault_keeps s State.pow (fun _ _ => rfl) (fun _ _ => rfl) (fun _ _ => rfl) f

@[simp] theorem State.raiseFault_pins (f : Fault0) : (s.raiseFault f).pins = s.pins :=
  State.raiseFault_keeps s State.pins (fun _ _ => rfl) (fun _ _ => rfl) (fun _ _ => rfl) f

/-- A fault of Package severity that is no drain notice is recorded and stops every crew; it leaves supplies, memory,
jobs and registers alone. -/
theorem State.raiseFault_stops {f : Fault0} {cls event : Nat} (hcls : f.cls = cls) (hsev : f.sev = 3)
    (hevent : f.event = event) (hnotice : event % 256 ≠ 0xFF) :
    s.records (s.raiseFault f) cls 3 event ∧ s.allStop (s.raiseFault f) ∧ s.samePower (s.raiseFault f)
      ∧ s.keepsWork (s.raiseFault f) :=
  ⟨s.records_raiseFault hcls hsev hevent, s.allStop_raiseFault hsev (hevent ▸ hnotice),
    ⟨s.raiseFault_pow f, s.raiseFault_pins f⟩, s.keepsWork_raiseFault f⟩

end Sys2Proof.Machine
end

section
/-!
PROOFS. Block idle states, supply and clock trips (01 R10, R20, R26, R28; 17 R406).
-/
namespace Sys2Proof.Machine

variable (s : State)

/-! ### Association lists without a key, and with one more -/

theorem Map.find_filter_ne {α : Type} (k : Nat) (m : List (Nat × α)) :
    Map.find k (m.filter fun p => decide (p.1 ≠ k)) = none := by
  induction m with
  | nil => rfl
  | cons p r ih =>
    obtain ⟨j, x⟩ := p
    by_cases hj : j = k
    · rw [List.filter_cons_of_neg (by simpa using hj), ih]
    · rw [List.filter_cons_of_pos (by simpa using hj), Map.find, if_neg hj, ih]

theorem Map.mem_of_find {α : Type} {k : Nat} {v : α} : ∀ {m : List (Nat × α)}, Map.find k m = some v → (k, v) ∈ m
  | (j, x) :: r, h => by
    rw [Map.find] at h
    split at h
    · next hj =>
      obtain rfl := Option.some.inj h
      exact hj ▸ List.mem_cons_self
    · exact List.mem_cons_of_mem _ (Map.mem_of_find h)

theorem Map.mem_keys_insert {α : Type} (k : Nat) (v : α) (m : List (Nat × α)) :
    k ∈ (Map.insert k v m).map fun p => p.1 :=
  List.mem_map_of_mem (f := fun p : Nat × α => p.1) (Map.mem_of_find (Map.find_insert_same k v m))

/-! ### Block idle states -/

theorem execBlockIdleEnter_of_free {b : Block} (hfree : s.blockFree b = true) (hidle : b ∉ s.pow.idle) :
    execBlockIdleEnter b s = .next (s.setPow { s.pow with idle := s.pow.idle ++ [b] }) := by
  simp [execBlockIdleEnter, hfree, hidle]

/-! ### Supply trips -/

/-- The fault of a supply trip. -/
def State.tripFault (s : State) (watts : Nat) : Fault0 := { s.fault0 0xA 3 0x0A01 with die := 3, detail := watts }

theorem State.tripPower_eq (watts : Nat) :
    s.tripPower watts = ((s.raiseFault (s.tripFault watts)).setPow { s.pow with tripped := true }).setPins
      { s.pins with enArr := false, enCmp := false, enIod := false } := by
  rw [State.tripPower, ← State.raiseFault_pow s (s.tripFault watts), ← State.raiseFault_pins s (s.tripFault watts)]
  rfl

/-- What a supply trip does (01 R28; 17 R406). -/
theorem State.tripPower_trips (watts : Nat) :
    (s.tripPower watts).pins = { s.pins with enArr := false, enCmp := false, enIod := false } ∧
      (s.tripPower watts).pow = { s.pow with tripped := true } ∧ s.records (s.tripPower watts) 0xA 3 0x0A01 ∧
      s.allStop (s.tripPower watts) ∧ s.keepsWork (s.tripPower watts) := by
  obtain ⟨hrecords, hstop, -, hkeeps⟩ :=
    s.raiseFault_stops (f := s.tripFault watts) (cls := 0xA) (event := 0x0A01) rfl rfl rfl (by decide)
  rw [State.tripPower_eq]
  exact ⟨rfl, rfl, by simpa using hrecords, by simpa using hstop, by simpa using hkeeps⟩

theorem execOverCurrentTrip_of_trip {w : BitVec 32} (hw : 1100 < w.toNat) (htripped : s.pow.tripped = false)
    (hstep : 1 ≤ s.pow.step) : execOverCurrentTrip w s = .next (s.tripPower w.toNat) := by
  simp [execOverCurrentTrip, hw, htripped, hstep]

theorem execPowerGoodFall_of_trip {r : Rail} (w : BitVec 32) (hr : s.enabledRail r = true) (hwarn : s.pow.warn = none) :
    execPowerGoodFall r w s = .next (s.tripPower w.toNat) := by
  simp [execPowerGoodFall, hr, hwarn]

/-! ### Clock monitors and UCIe modules -/

theorem execClockMonitorTrip_of_armed {d : Nat} (h : d ∈ s.pow.armed) :
    execClockMonitorTrip d s = .next (s.raiseFault { s.fault0 3 3 0x0313 with die := dieOfDomain d, detail := d }) := by
  simp [execClockMonitorTrip, h]

/-- The state in which a UCIe module is noted as failed. -/
def State.noteUcie (s : State) (m : Nat) : State :=
  s.setFlt { s.flt with ucie := if s.flt.ucie.elem m then s.flt.ucie else s.flt.ucie ++ [m] }

theorem execUcieModuleFailure_eq (m : Nat) :
    execUcieModuleFailure m s = .next ((s.noteUcie m).raiseFault { (s.noteUcie m).fault0 3 3 0x0311 with detail := m }) :=
  rfl

theorem State.mem_noteUcie_ucie (m : Nat) : m ∈ (s.noteUcie m).flt.ucie := by
  simp only [State.noteUcie, State.setFlt_flt]
  split
  · next h => exact List.elem_iff.mp h
  · simp

/-- Noting a UCIe module changes nothing that the frames, the records or the crews to stop speak of. -/
theorem State.noteUcie_iff (m : Nat) (t : State) :
    ((s.noteUcie m).keepsWork t ↔ s.keepsWork t) ∧ ((s.noteUcie m).samePower t ↔ s.samePower t) ∧
      ((s.noteUcie m).allStop t ↔ s.allStop t) ∧
      ∀ cls sev event, (s.noteUcie m).records t cls sev event ↔ s.records t cls sev event :=
  ⟨Iff.rfl, Iff.rfl, Iff.rfl, fun _ _ _ => Iff.rfl⟩

/-- The state in which the monitor of a domain is armed again. -/
def State.rearmed (s : State) (d : Nat) : State :=
  s.setPow { s.pow with
    armed := Map.insert d () (s.pow.armed.map fun d => (d, ())) |>.map fun p => p.1
    rearm := s.pow.rearm.filter fun p => decide (p.1 ≠ d) }

theorem State.advance_raw_of_le {x : Nat} (hx : s.raw ≤ x) (hstep : s.pow.step ≠ 0) : (s.advance x).raw = x := by
  simp [State.advance, hx, hstep]

theorem execMonitorRearm_of_due {d at0 x : Nat} (hrearm : Map.find d s.pow.rearm = some at0)
    (hdue : at0 + 1000 ≤ (s.advance x).raw) (hheld : s.monitorHeld d = false) :
    execMonitorRearm d x s = .next ((s.advance x).rearmed d) := by
  have hfind : Map.find d (s.advance x).pow.rearm = some at0 := hrearm
  have hfree : (s.advance x).monitorHeld d = false := hheld
  simp only [execMonitorRearm, hfind]
  rw [if_pos ⟨hdue, hfree⟩]
  rfl

theorem State.keepsWork_rearmed (d x : Nat) : s.keepsWork ((s.advance x).rearmed d) :=
  State.keepsWork_of_eq rfl rfl rfl rfl

end Sys2Proof.Machine

namespace Sys2Proof.Proofs
open Sys2Proof.Machine

/-- Settles O2: a block's idle state is its place in the list of idle blocks. -/
theorem blockIdleChangesOnlyPower : Obligations.BlockIdleChangesOnlyPower := by
  intro s b
  refine ⟨execBlockIdleEnter_of_free s, _, rfl, ?_, fun x hx => ?_, rfl⟩
  · simp
  · simp [hx]

/-- Settles O3: each trip raises one fault of Package severity, which stops every crew and keeps memory, jobs and
registers (`State.raiseFault_stops`); a supply trip then lowers the enables. A monitor that is armed again raises none. -/
theorem supplyAndClockTripsStopEveryCrew : Obligations.SupplyAndClockTripsStopEveryCrew := by
  intro s keeps
  refine ⟨fun w hw htripped hstep => ⟨_, execOverCurrentTrip_of_trip s hw htripped hstep, s.tripPower_trips _⟩,
    fun r w hr hwarn => ⟨_, execPowerGoodFall_of_trip s w hr hwarn, s.tripPower_trips _⟩, fun d hd => ?_, fun m => ?_,
    fun d at0 x hrearm hdue hx hstep hheld => ?_⟩
  · obtain ⟨hrecords, hstop, hpower, hkeeps⟩ := s.raiseFault_stops (cls := 3) (event := 0x0313)
      (f := { s.fault0 3 3 0x0313 with die := dieOfDomain d, detail := d }) rfl rfl rfl (by decide)
    exact ⟨_, execClockMonitorTrip_of_armed s hd, hrecords, hstop, hpower, hkeeps⟩
  · obtain ⟨hrecords, hstop, hpower, hkeeps⟩ := (s.noteUcie m).raiseFault_stops (cls := 3) (event := 0x0311)
      (f := { (s.noteUcie m).fault0 3 3 0x0311 with detail := m }) rfl rfl rfl (by decide)
    obtain ⟨hiffKeeps, hiffPower, hiffStop, hiffRecords⟩ := s.noteUcie_iff m
      ((s.noteUcie m).raiseFault { (s.noteUcie m).fault0 3 3 0x0311 with detail := m })
    refine ⟨_, execUcieModuleFailure_eq s m, (hiffRecords _ _ _).mp hrecords, ?_, hiffStop.mp hstop, hiffPower.mp hpower,
      hiffKeeps.mp hkeeps⟩
    rw [State.raiseFault_ucie]
    exact s.mem_noteUcie_ucie m
  · have hraw := s.advance_raw_of_le hx hstep
    exact ⟨_, execMonitorRearm_of_due s hrearm (by rwa [hraw]) hheld, hraw, Map.mem_keys_insert _ _ _,
      Map.find_filter_ne _ _, s.keepsWork_rearmed d x⟩

end Sys2Proof.Proofs
end

section
/-!
PROOFS. Power modes (01 R21 to R25).
-/
namespace Sys2Proof.Machine

variable (s : State)

/-- The parts of the state of which `State.samePower`, `State.sameMemory` and `State.sameJobs` speak. -/
def State.powerAndWork (s : State) := (s.pow, s.pins, s.memoryAndJobs)

theorem State.samePower_work_of_eq {s t : State} (h : t.powerAndWork = s.powerAndWork) :
    s.samePower t ∧ s.sameMemory t ∧ s.sameJobs t := by
  simp only [State.powerAndWork, Prod.mk.injEq] at h
  obtain ⟨hpow, hpins, hwork⟩ := h
  exact ⟨⟨hpow, hpins⟩, State.sameMemory_sameJobs_of_eq hwork⟩

/-- The state in which a written GLB_MODE is stored. -/
def State.modeWritten (s : State) (v : BitVec 32) : State := (s.fromHost 4).hostPut R.GLB_MODE [] v

/-- The stroke that GLB_MODE_AT names. -/
def State.modeStroke (s : State) : Nat := s.pair R.GLB_MODE_AT_LO R.GLB_MODE_AT_HI []

/-- When a written go is refused (R22, R25). -/
def State.goRefused (s : State) (v : BitVec 32) : Prop :=
  bits v.toNat 25 24 = 3 ∨ (bits v.toNat 1 1 = 1 ∧ s.modeStroke < s.stk.num + 2) ∨ s.pow.mode.isSome = true
    ∨ s.inEasy = true

/-- The mode change that a written go asks for. -/
def State.askedMode (s : State) (v : BitVec 32) : ModeChange :=
  { target := bits v.toNat 25 24, start := if bits v.toNat 1 1 = 1 then some s.modeStroke else none }

theorem State.modeWritten_keeps {β : Type} (p : State → β) (hregs : ∀ s x, p (State.setRegs s x) = p s)
    (hconv : ∀ s x, p (State.setConv s x) = p s) (hpmc : ∀ s x, p (State.setPmc s x) = p s) (v : BitVec 32) :
    p (s.modeWritten v) = p s :=
  (State.hostPut_keeps _ p hregs hconv _ _ _).trans (State.fromHost_keeps s p hpmc 4)

theorem State.powerAndWork_modeWritten (v : BitVec 32) : (s.modeWritten v).powerAndWork = s.powerAndWork :=
  s.modeWritten_keeps State.powerAndWork (fun _ _ => rfl) (fun _ _ => rfl) (fun _ _ => rfl) v

theorem State.pow_modeWritten (v : BitVec 32) : (s.modeWritten v).pow = s.pow :=
  congrArg Prod.fst (s.powerAndWork_modeWritten v)

/-- A field of GLB_MODE that is the hardware's to write reads as before. -/
theorem State.fld_modeWritten {f : Fld} (hreg : f.reg = R.GLB_MODE) (hle : f.lo ≤ f.hi)
    (h : ∀ g ∈ R.GLB_MODE.fields, g.acc.hostWritable = true → g.apart f.hi f.lo = true) (v : BitVec 32) :
    (s.modeWritten v).fld f [] = s.fld f [] := by
  rw [← hreg] at h
  have hpar : f.reg.addr [] ≠ R.GLB_CFGPAR.addr [] := by rw [hreg]; decide
  have hput := State.fld_hostPut_apart (s.fromHost 4) (ix := []) hle hpar h v
  rw [hreg] at hput
  exact hput.trans (State.fld_congr rfl f [])

theorem State.current_modeWritten (v : BitVec 32) :
    (s.modeWritten v).fld F.GLB_MODE_current [] = s.fld F.GLB_MODE_current [] :=
  s.fld_modeWritten rfl (by decide) (by decide) v

theorem State.busy_modeWritten (v : BitVec 32) :
    (s.modeWritten v).fld F.GLB_MODE_busy [] = s.fld F.GLB_MODE_busy [] :=
  s.fld_modeWritten rfl (by decide) (by decide) v

theorem State.modeStroke_modeWritten (v : BitVec 32) : (s.modeWritten v).modeStroke = s.modeStroke := by
  have hlo : (s.modeWritten v).reg R.GLB_MODE_AT_LO [] = s.reg R.GLB_MODE_AT_LO [] :=
    State.reg_hostPut_ne _ (by decide) (by decide) v
  have hhi : (s.modeWritten v).reg R.GLB_MODE_AT_HI [] = s.reg R.GLB_MODE_AT_HI [] :=
    State.reg_hostPut_ne _ (by decide) (by decide) v
  rw [State.modeStroke, State.pair, hlo, hhi]
  rfl

/-- The model's test of a written go, after the write, is the refusal of R22 and R25 in the state before it. -/
theorem State.goRefused_iff (v : BitVec 32) :
    (decide (bits v.toNat 25 24 = 3) || (decide (bits v.toNat 1 1 = 1)
        && decide ((s.modeWritten v).modeStroke < (s.modeWritten v).stk.num + 2))
      || (s.modeWritten v).pow.mode.isSome || (s.modeWritten v).inEasy) = true ↔ s.goRefused v := by
  have hstk : (s.modeWritten v).stk = s.stk :=
    s.modeWritten_keeps State.stk (fun _ _ => rfl) (fun _ _ => rfl) (fun _ _ => rfl) v
  have hpow := s.pow_modeWritten v
  have heasy : (s.modeWritten v).inEasy = s.inEasy := by rw [State.inEasy, hpow, State.inEasy]
  rw [heasy, hpow, hstk, State.modeStroke_modeWritten]
  simp [State.goRefused, or_assoc]

/-- The state in which a mode change is taken and waits for its start. -/
def State.modeTaken (s : State) (v : BitVec 32) : State :=
  ((s.modeWritten v).liveBit F.GLB_MODE_busy [] true).setPow { s.pow with mode := some (s.askedMode v) }

/-- A written go is refused, passed over or taken (R22, R25), as the state before the write says. -/
theorem execModeChangeRequest_of_go {v : BitVec 32} [Decidable (s.goRefused v)] (hgo : v.toNat % 2 = 1) :
    execModeChangeRequest v s = .next
      (if s.goRefused v then (s.modeWritten v).raiseBit F.GLB_MODE_refused []
        else if bits v.toNat 25 24 = s.fld F.GLB_MODE_current [] then s.modeWritten v
        else s.modeTaken v) := by
  unfold execModeChangeRequest
  dsimp only
  rw [if_neg (by omega)]
  by_cases hbad : s.goRefused v
  · rw [if_pos hbad]
    exact if_pos ((s.goRefused_iff v).mpr hbad)
  · rw [if_neg hbad, ← s.current_modeWritten v]
    refine (if_neg (mt (s.goRefused_iff v).mp hbad)).trans ?_
    by_cases hsame : bits v.toNat 25 24 = (s.modeWritten v).fld F.GLB_MODE_current []
    · rw [if_pos hsame]
      exact if_pos hsame
    · rw [if_neg hsame]
      refine (if_neg hsame).trans ?_
      rw [State.modeTaken, ← s.pow_modeWritten v, State.askedMode, ← s.modeStroke_modeWritten v]
      simp only [decide_eq_true_eq]
      rfl

/-- The state in which a settling interval is over (R22; 17 R405). -/
def State.modeSettled (s : State) (m : ModeChange) : State :=
  ((s.setPow { s.pow with mode := some { m with settled := true } }).setPins
    { s.pins with vid := vidOf m.target }).clocksUp modeDomains

theorem execModeSettleEnd_of_due {x : Nat} {m : ModeChange} (hmode : s.pow.mode = some m) (hb0 : m.b0.isSome = true)
    (hopen : m.settled = false) (hdue : m.settle ≤ (s.advance x).ns) :
    execModeSettleEnd x s = .next ((s.advance x).modeSettled m) := by
  have hmode' : (s.advance x).pow.mode = some m := hmode
  simp only [execModeSettleEnd, hmode']
  rw [if_pos (by simp [hb0, hopen, hdue])]
  rfl

end Sys2Proof.Machine

namespace Sys2Proof.Proofs
open Sys2Proof.Machine

/-- Settles O4: the outcomes of a written go follow from the test of R22 and R25 on the state before the write, since
the write of GLB_MODE reaches neither the mode in force nor the stroke that GLB_MODE_AT names. -/
theorem modeChangeIsTakenRefusedOrNull : Obligations.ModeChangeIsTakenRefusedOrNull := by
  intro s v hgo target named start bad
  classical
  have hwritten := s.powerAndWork_modeWritten v
  have hexec := execModeChangeRequest_of_go s hgo
  refine ⟨fun (hbad : s.goRefused v) => ?_,
    fun (hok : ¬ s.goRefused v) (hsame : bits v.toNat 25 24 = s.fld F.GLB_MODE_current []) => ?_,
    fun (hok : ¬ s.goRefused v) (hother : bits v.toNat 25 24 ≠ s.fld F.GLB_MODE_current []) => ?_,
    fun x m hmode hb0 hopen hdue => ?_⟩
  · have hrefused := (State.raiseBit_keeps (s.modeWritten v) State.powerAndWork (fun _ _ => rfl) (fun _ _ => rfl)
      F.GLB_MODE_refused []).trans hwritten
    rw [if_pos hbad] at hexec
    exact ⟨_, hexec, State.fld_raiseBit_same _ _ _ (by decide),
      State.samePower_work_of_eq hrefused⟩
  · obtain ⟨hpower, hmem, hjobs⟩ := State.samePower_work_of_eq hwritten
    rw [if_neg hok, if_pos hsame] at hexec
    exact ⟨_, hexec, hpower, s.busy_modeWritten v, hmem, hjobs⟩
  · have htaken := (State.liveBit_keeps (s.modeWritten v) State.powerAndWork (fun _ _ => rfl) (fun _ _ => rfl)
      F.GLB_MODE_busy [] true).trans hwritten
    obtain ⟨⟨-, hpins⟩, hmem, hjobs⟩ := State.samePower_work_of_eq htaken
    have hbusy := State.fld_liveBit_same (s.modeWritten v) F.GLB_MODE_busy [] true (by decide)
    rw [if_neg hok, if_neg hother] at hexec
    refine ⟨_, hexec, hbusy, fun m hm => ?_, rfl, hpins, hmem, hjobs⟩
    obtain rfl := Option.some.inj hm
    exact ⟨rfl, fun hnamed => if_pos hnamed, fun hnamed => if_neg hnamed, rfl⟩
  · have hframe : s.keepsWork ((s.advance x).modeSettled m) := State.keepsWork_of_eq rfl rfl rfl rfl
    obtain ⟨hmem, hjobs, -, hregs⟩ := hframe
    exact ⟨_, execModeSettleEnd_of_due s hmode hb0 hopen hdue, rfl, rfl, hmem, hjobs, hregs⟩

end Sys2Proof.Proofs
end

section
/-!
PROOFS. The stroke receivers' flywheels (O7): marks, boundaries and missed marks of a die that runs (02 R47, R49; 09 R220).
-/
namespace Sys2Proof.Machine

variable (s : State)

/-! ### Registers under the counters' overflow bits -/

theorem le_addrFrom : ∀ (ds : List (Nat × Nat)) (ix : List Nat) (b : Nat), b ≤ addrFrom b ds ix
  | [], _, b => Nat.le_refl b
  | _ :: _, [], b => Nat.le_refl b
  | (_, st) :: ds, i :: ix, b => (Nat.le_add_right b (st * i)).trans (le_addrFrom ds ix (b + st * i))

theorem RegDef.base_le_addr (r : RegDef) (ix : List Nat) : r.base ≤ r.addr ix := le_addrFrom r.dims ix r.base

/-- An event of the performance counters can change overflow bits and no register below them (15 R372). -/
theorem State.reg_pmcTick_of_lt {cnt sel ovf r : RegDef} {jx : List Nat} (h : r.addr jx < ovf.base) (ix : List Nat)
    (n code : Nat) (sub : Option Nat) : (s.pmcTick cnt sel ovf ix n code sub).reg r jx = s.reg r jx := by
  have hne : r.addr jx ≠ ovf.addr ix := Nat.ne_of_lt (h.trans_le (ovf.base_le_addr ix))
  refine State.each_keeps s (fun s => s.reg r jx) _ _ fun s k => ?_
  split
  · dsimp only
    split
    · exact State.reg_setReg_ne _ hne _
    · rfl
  · rfl

/-- A receiver event reaches no register below the performance counters. -/
theorem State.reg_pmcRx_of_lt {r : RegDef} {jx : List Nat} (h : r.addr jx < R.PMC_OVF_CORE.base) (rx event : Nat) :
    (s.pmcRx rx event).reg r jx = s.reg r jx := by
  unfold State.pmcRx
  split
  · exact State.each_keeps s (fun s => s.reg r jx) _ _ fun s c => State.reg_pmcTick_of_lt s h _ _ _ _
  · exact State.reg_pmcTick_of_lt s (h.trans (by decide)) _ _ _ _

theorem State.pmcRx_keeps {β : Type} (p : State → β) (hregs : ∀ s x, p (State.setRegs s x) = p s)
    (hpmc : ∀ s x, p (State.setPmc s x) = p s) (rx event : Nat) : p (s.pmcRx rx event) = p s := by
  unfold State.pmcRx
  split
  · exact State.each_keeps s p _ _ fun s c => State.pmcCore_keeps s p hregs hpmc _ _ _
  · exact State.pmcDie_keeps s p hregs hpmc _ _ _

theorem STK_RX_addr_lt {rx : Nat} (h : rx < 3) : R.STK_RX.addr [rx] < R.PMC_OVF_CORE.base := by
  show 0x00100040 + 4 * rx < 0x010030C0
  omega

theorem RIG_CREW_addr_lt {n : Nat} (h : n < 16) : R.RIG_CREW.addr [n] < R.STK_RX.base := by
  show 0x00000840 + 4 * n < 0x00100040
  omega

/-! ### A flywheel and its marks -/

@[simp] theorem State.rx_modRx_same (n : Nat) (f : Flywheel → Flywheel) : (s.modRx n f).rx n = f (s.rx n) :=
  Map.getD_setD_same _ _ _ _

theorem State.noteCapture_keeps {β : Type} (p : State → β) (htim : ∀ s x, p (State.setTim s x) = p s)
    (src link cls die : Nat) : p (s.noteCapture src link cls die) = p s :=
  State.each_keeps s p _ _ fun _ _ => htim _ _

theorem State.rxRuns_lt {rx : Nat} (h : s.rxRuns rx = true) : rx < 3 := by
  simp only [State.rxRuns, Bool.and_eq_true, decide_eq_true_eq] at h
  obtain ⟨⟨⟨hlt, -⟩, -⟩, -⟩ := h
  exact hlt

/-- The state in which an accepted mark has anchored the replica of its die and fixed the next prediction (R47; 09 R220). -/
def State.markAccepted (s : State) (rx : Nat) : State :=
  (s.anchorReplica rx (s.rx rx).count).modRx rx fun f => ({ f with run := 0, missRun := 0 }).settle (s.ns + s.period)

theorem execStrokeMark_of_accepted {rx x : Nat} {num : BitVec 16} (hruns : s.rxRuns rx = true)
    (hadopt : (s.rx rx).adopt = false) (hperiod : 4 ≤ s.period) (hnext : (s.rx rx).next = none)
    (hlocked : s.fld F.STK_RX_state [rx] = 0) (hearly : (s.advance x).ns ≤ (s.rx rx).pred + 2)
    (hlate : (s.rx rx).pred ≤ (s.advance x).ns + 2) (hnum : num = BitVec.ofNat 16 (s.rx rx).count) :
    execStrokeMark rx x num s = .next ((s.advance x).markAccepted rx) := by
  have hruns' : (s.advance x).rxRuns rx = true := hruns
  have hrx : (s.advance x).rx rx = s.rx rx := rfl
  have hfld : (s.advance x).fld F.STK_RX_state [rx] = 0 := hlocked
  have hper : (s.advance x).period = s.period := rfl
  have hoff : (if (s.advance x).ns ≤ (s.rx rx).pred then (s.rx rx).pred - (s.advance x).ns
      else (s.advance x).ns - (s.rx rx).pred) ≤ 2 := by
    split <;> omega
  have hwindow : ¬ s.period / 2 < (if (s.advance x).ns ≤ (s.rx rx).pred then (s.rx rx).pred - (s.advance x).ns
      else (s.advance x).ns - (s.rx rx).pred) := by
    omega
  simp only [execStrokeMark, hruns', hrx, hfld, hper, hadopt, hnext]
  rw [if_neg (by simp), if_neg (by simp), if_neg (by simpa using hwindow), if_pos trivial, if_pos ⟨hoff, hnum⟩]
  rfl

/-- A flywheel that has given its blocks the boundary: a mark that came before it fixes the next one (R47). -/
def Flywheel.emit (f : Flywheel) : Flywheel :=
  match f.next with
  | some p => { f with count := f.count + 1, pred := p, next := none }
  | none => { f with emitted := true }

/-- The state in which the flywheel has given its die the boundary at its predicted instant (R47). -/
def State.boundaryEmitted (s : State) (rx : Nat) : State :=
  (s.noteCapture (5 + rx) 0 0 rx).modRx rx Flywheel.emit

theorem execFlywheelBoundary_of_due {rx x : Nat} (hruns : s.rxRuns rx = true) (hadopt : (s.rx rx).adopt = false)
    (hopen : (s.rx rx).emitted = false) (hdue : (s.rx rx).pred ≤ (s.advance x).ns) :
    execFlywheelBoundary rx x s = .next ((s.advance x).boundaryEmitted rx) := by
  have hruns' : (s.advance x).rxRuns rx = true := hruns
  have hrx : (s.advance x).rx rx = s.rx rx := rfl
  simp only [execFlywheelBoundary, hruns', hrx, hadopt, hopen]
  rw [if_neg (by simpa using hdue)]
  rfl

/-- The state in which a mark has been missed (R47): it is counted, and the next prediction is one period on. -/
def State.markMissed (s : State) (rx : Nat) : State :=
  let u := (s.bump F.STK_RX_missed [rx] 1).pmcRx rx 0
  u.modRx rx fun f => ({ f with missRun := f.missRun + 1 }).settle (f.pred + u.period)

/-- The state in which a receiver has entered DEAD (R47, R49). -/
def State.enterDead (s : State) (rx : Nat) : State :=
  (s.setFld F.STK_RX_state [rx] 2).raiseBit F.STK_RX_dead_hist [rx]

/-- The state in which a receiver has entered DEAD and its fault has been raised (R49). -/
def State.diedRx (s : State) (rx : Nat) : State :=
  (s.enterDead rx).raiseFault { (s.enterDead rx).fault0 6 3 0x0609 with die := rx }

theorem execMissedMark_of_late {rx x : Nat} (hruns : s.rxRuns rx = true) (hadopt : (s.rx rx).adopt = false)
    (hemitted : (s.rx rx).emitted = true) (hlate : (s.rx rx).pred + s.period / 2 < (s.advance x).ns) :
    execMissedMark rx x s = .next
      (if (s.rx rx).missRun = 15 ∧ ((s.advance x).markMissed rx).fld F.STK_RX_state [rx] ≠ 2 then
        ((s.advance x).markMissed rx).diedRx rx
      else (s.advance x).markMissed rx) := by
  have hruns' : (s.advance x).rxRuns rx = true := hruns
  have hrx : (s.advance x).rx rx = s.rx rx := rfl
  have hper : (s.advance x).period = s.period := rfl
  simp only [execMissedMark, hruns', hrx, hper, hadopt, hemitted]
  rw [if_neg (by simpa using hlate)]
  exact (apply_ite Host.Outcome.next _ _ _).symm

/-! ### What the flywheels change -/

theorem State.rx_markAccepted (rx : Nat) (hnext : (s.rx rx).next = none) :
    (s.markAccepted rx).rx rx =
      let g := { s.rx rx with
        repBase := (s.boundaryOf (s.rx rx).count).toNat * 2 ^ 32, repRaw := s.raw, repRate := s.rate }
      if (s.rx rx).emitted then
        { g with count := (s.rx rx).count + 1, pred := s.ns + s.period, run := 0, missRun := 0, emitted := false }
      else { g with run := 0, missRun := 0, next := some (s.ns + s.period) } := by
  simp only [State.markAccepted, State.anchorReplica, State.rx_modRx_same]
  cases hemitted : (s.rx rx).emitted with
  | true => simp [Flywheel.settle, hnext]
  | false => simp [Flywheel.settle]

theorem State.rx_boundaryEmitted (rx : Nat) : (s.boundaryEmitted rx).rx rx = (s.rx rx).emit := by
  have hnote : (s.noteCapture (5 + rx) 0 0 rx).rx rx = s.rx rx :=
    s.noteCapture_keeps (fun t => t.rx rx) (fun _ _ => rfl) _ _ _ _
  rw [State.boundaryEmitted, State.rx_modRx_same, hnote]

theorem State.boundaryEmitted_keeps {β : Type} (p : State → β) (htim : ∀ s x, p (State.setTim s x) = p s)
    (hstk : ∀ s x, p (State.setStk s x) = p s) (rx : Nat) : p (s.boundaryEmitted rx) = p s :=
  (hstk _ _).trans (s.noteCapture_keeps p htim _ _ _ _)

theorem State.markMissed_keeps {β : Type} (p : State → β) (hregs : ∀ s x, p (State.setRegs s x) = p s)
    (hpmc : ∀ s x, p (State.setPmc s x) = p s) (hstk : ∀ s x, p (State.setStk s x) = p s) (rx : Nat) :
    p (s.markMissed rx) = p s :=
  (hstk _ _).trans ((State.pmcRx_keeps _ p hregs hpmc rx 0).trans (hregs _ _))

/-- A missed mark changes STK_RX_n and overflow bits of the counters. -/
theorem State.reg_markMissed {r : RegDef} {jx : List Nat} (rx : Nat) (hlt : r.addr jx < R.PMC_OVF_CORE.base) :
    (s.markMissed rx).reg r jx = (s.bump F.STK_RX_missed [rx] 1).reg r jx :=
  State.reg_pmcRx_of_lt _ hlt rx 0

theorem State.reg_markMissed_ne {r : RegDef} {jx : List Nat} {rx : Nat} (hlt : r.addr jx < R.PMC_OVF_CORE.base)
    (hne : r.addr jx ≠ R.STK_RX.addr [rx]) : (s.markMissed rx).reg r jx = s.reg r jx :=
  (s.reg_markMissed rx hlt).trans (State.reg_setReg_ne s hne _)

theorem State.missed_markMissed {rx : Nat} (hrx : rx < 3) :
    (s.markMissed rx).fld F.STK_RX_missed [rx] = satAdd (s.fld F.STK_RX_missed [rx]) 1 255 := by
  have hreg := s.reg_markMissed rx (STK_RX_addr_lt hrx)
  have hlt : satAdd (s.fld F.STK_RX_missed [rx]) 1 255 < 2 ^ 8 := by
    unfold satAdd
    split <;> omega
  calc (s.markMissed rx).fld F.STK_RX_missed [rx]
      = (s.bump F.STK_RX_missed [rx] 1).fld F.STK_RX_missed [rx] :=
        congrArg (fun w : Word => bits w.toNat 7 0) hreg
    _ = satAdd (s.fld F.STK_RX_missed [rx]) 1 255 % 2 ^ 8 := State.fld_setFld_same s _ _ _ (by decide)
    _ = satAdd (s.fld F.STK_RX_missed [rx]) 1 255 := Nat.mod_eq_of_lt hlt

theorem State.state_markMissed {rx : Nat} (hrx : rx < 3) :
    (s.markMissed rx).fld F.STK_RX_state [rx] = s.fld F.STK_RX_state [rx] := by
  have hreg := s.reg_markMissed rx (STK_RX_addr_lt hrx)
  calc (s.markMissed rx).fld F.STK_RX_state [rx]
      = (s.bump F.STK_RX_missed [rx] 1).fld F.STK_RX_state [rx] :=
        congrArg (fun w : Word => bits w.toNat 31 30) hreg
    _ = s.fld F.STK_RX_state [rx] :=
        State.fld_setFld_other s (f := F.STK_RX_missed) (g := F.STK_RX_state) rfl (by decide) (by decide)
          (.inl (by decide)) _

theorem State.rx_markMissed {rx : Nat} (hemitted : (s.rx rx).emitted = true) :
    (s.markMissed rx).rx rx = { s.rx rx with
      count := (s.rx rx).count + 1, pred := (s.rx rx).pred + s.period, missRun := (s.rx rx).missRun + 1
      emitted := false, next := none } := by
  have hperiod : ((s.bump F.STK_RX_missed [rx] 1).pmcRx rx 0).period = s.period :=
    congrArg (fun w : Word => bits w.toNat _ _)
      (s.reg_markMissed_ne (r := R.STK_CTL) (jx := []) (rx := rx) (by decide)
        (Nat.ne_of_lt (Nat.lt_of_lt_of_le (by decide) (R.STK_RX.base_le_addr _))))
  have hwheel : ((s.bump F.STK_RX_missed [rx] 1).pmcRx rx 0).rx rx = s.rx rx :=
    (State.pmcRx_keeps _ (fun t => t.rx rx) (fun _ _ => rfl) (fun _ _ => rfl) rx 0).trans rfl
  rw [State.markMissed, State.rx_modRx_same, hwheel, hperiod]
  simp [Flywheel.settle, hemitted]

theorem State.memoryAndJobs_markMissed (rx : Nat) : (s.markMissed rx).memoryAndJobs = s.memoryAndJobs :=
  s.markMissed_keeps State.memoryAndJobs (fun _ _ => rfl) (fun _ _ => rfl) (fun _ _ => rfl) rx

theorem State.flt_markMissed (rx : Nat) : (s.markMissed rx).flt = s.flt :=
  s.markMissed_keeps State.flt (fun _ _ => rfl) (fun _ _ => rfl) (fun _ _ => rfl) rx

/-! ### A receiver that enters DEAD -/

theorem State.enterDead_keeps {β : Type} (p : State → β) (hregs : ∀ s x, p (State.setRegs s x) = p s)
    (hconv : ∀ s x, p (State.setConv s x) = p s) (rx : Nat) : p (s.enterDead rx) = p s :=
  (State.raiseBit_keeps _ p hregs hconv _ _).trans (hregs _ _)

theorem State.state_enterDead (rx : Nat) : (s.enterDead rx).fld F.STK_RX_state [rx] = 2 := by
  rw [State.enterDead, State.fld_raiseBit]
  calc ((s.setFld F.STK_RX_state [rx] 2).setFld F.STK_RX_dead_hist [rx] 1).fld F.STK_RX_state [rx]
      = (s.setFld F.STK_RX_state [rx] 2).fld F.STK_RX_state [rx] :=
        State.fld_setFld_other _ (f := F.STK_RX_dead_hist) (g := F.STK_RX_state) rfl (by decide) (by decide)
          (.inl (by decide)) _
    _ = 2 := State.fld_setFld_same s F.STK_RX_state [rx] 2 (by decide)

theorem State.deadHist_enterDead (rx : Nat) : (s.enterDead rx).fld F.STK_RX_dead_hist [rx] = 1 :=
  State.fld_raiseBit_same _ _ _ (by decide)

theorem State.crewValid_markMissed {n : Nat} (rx : Nat) (hn : n < 16) :
    (s.markMissed rx).crewValid n = s.crewValid n := by
  have hlt := RIG_CREW_addr_lt hn
  have hne : R.RIG_CREW.addr [n] ≠ R.STK_RX.addr [rx] := Nat.ne_of_lt (hlt.trans_le (R.STK_RX.base_le_addr _))
  exact congrArg (fun w : Word => decide (bits w.toNat 31 31 = 1)) (s.reg_markMissed_ne (hlt.trans (by decide)) hne)

theorem State.crewValid_enterDead {n : Nat} (rx : Nat) (hn : n < 16) :
    (s.enterDead rx).crewValid n = s.crewValid n := by
  have hne : R.RIG_CREW.addr [n] ≠ R.STK_RX.addr [rx] :=
    Nat.ne_of_lt ((RIG_CREW_addr_lt hn).trans_le (R.STK_RX.base_le_addr _))
  have hreg := (State.reg_raiseBit_ne (s.setFld F.STK_RX_state [rx] 2) (f := F.STK_RX_dead_hist) hne).trans
    (State.reg_setReg_ne s hne _)
  exact congrArg (fun w : Word => decide (bits w.toNat 31 31 = 1)) hreg

@[simp] theorem State.raiseFault_regs (f : Fault0) : (s.raiseFault f).regs = s.regs :=
  State.raiseFault_keeps s State.regs (fun _ _ => rfl) (fun _ _ => rfl) (fun _ _ => rfl) f

theorem State.fld_diedRx (f : Fld) (ix : List Nat) (rx : Nat) : (s.diedRx rx).fld f ix = (s.enterDead rx).fld f ix :=
  State.fld_congr (State.raiseFault_regs _ _) f ix

theorem State.memoryAndJobs_diedRx (rx : Nat) : (s.diedRx rx).memoryAndJobs = s.memoryAndJobs :=
  (State.raiseFault_keeps _ State.memoryAndJobs (fun _ _ => rfl) (fun _ _ => rfl) (fun _ _ => rfl) _).trans
    (s.enterDead_keeps State.memoryAndJobs (fun _ _ => rfl) (fun _ _ => rfl) rx)

/-- A receiver that dies records HANG 0x0609 of Package severity, and every crew is to stop (R49; 11 R258). -/
theorem State.diedRx_stops (rx : Nat) : s.records (s.diedRx rx) 6 3 0x0609 ∧ s.allStop (s.diedRx rx) := by
  obtain ⟨⟨g, hqueue, hg⟩, hstop, -⟩ := (s.enterDead rx).raiseFault_stops (cls := 6) (event := 0x0609)
    (f := { (s.enterDead rx).fault0 6 3 0x0609 with die := rx }) rfl rfl rfl (by decide)
  have hflt : (s.enterDead rx).flt = s.flt := s.enterDead_keeps State.flt (fun _ _ => rfl) (fun _ _ => rfl) rx
  exact ⟨⟨g, hflt ▸ hqueue, hg⟩, fun n hn hvalid => hstop n hn ((s.crewValid_enterDead rx hn).trans hvalid)⟩

end Sys2Proof.Machine

namespace Sys2Proof.Proofs
open Sys2Proof.Machine

/-- Settles O7: an accepted mark and an emitted boundary change the flywheel and the captures alone; a missed mark
changes STK_RX_n and the counters' overflow bits, so that the fault of the sixteenth in a run stops the crews that were
valid before. That a mark missed in DEAD counts too is assumption log 25. -/
theorem flywheelClassifiesMarks : Obligations.FlywheelClassifiesMarks := by
  intro s rx x hruns hadopt hperiod now f g
  have hrx := s.rxRuns_lt hruns
  refine ⟨fun num hnext hlocked hearly hlate hnum => ?_, fun hopen hdue => ?_, fun hemitted hlate hrun => ?_,
    fun hemitted hlate hrun hstate => ?_⟩
  · obtain ⟨hmem, hjobs⟩ :=
      State.sameMemory_sameJobs_of_eq (s := s) (t := (s.advance x).markAccepted rx) rfl
    exact ⟨_, execStrokeMark_of_accepted s hruns hadopt hperiod hnext hlocked hearly hlate hnum,
      (s.advance x).rx_markAccepted rx hnext, State.regsBut_of_regs_eq rfl _, hmem, hjobs⟩
  · have hwork := (s.advance x).boundaryEmitted_keeps State.memoryAndJobs (fun _ _ => rfl) (fun _ _ => rfl) rx
    have hregs := (s.advance x).boundaryEmitted_keeps State.regs (fun _ _ => rfl) (fun _ _ => rfl) rx
    obtain ⟨hmem, hjobs⟩ := State.sameMemory_sameJobs_of_eq (s := s) hwork
    exact ⟨_, execFlywheelBoundary_of_due s hruns hadopt hopen hdue, (s.advance x).rx_boundaryEmitted rx,
      State.regsBut_of_regs_eq (s := s) hregs _, hmem, hjobs⟩
  · have hexec := execMissedMark_of_late s hruns hadopt hemitted hlate
    rw [if_neg fun hdead => hrun hdead.1] at hexec
    have hwheel := (s.advance x).rx_markMissed hemitted
    obtain ⟨hmem, -, htallies, -⟩ :=
      State.sameMemory_sameJobs_of_eq (s := s) ((s.advance x).memoryAndJobs_markMissed rx)
    exact ⟨_, hexec, congrArg Flywheel.missRun hwheel, congrArg Flywheel.pred hwheel,
      (s.advance x).missed_markMissed hrx, (s.advance x).flt_markMissed rx, hmem, htallies⟩
  · have hexec := execMissedMark_of_late s hruns hadopt hemitted hlate
    have hlive : ((s.advance x).markMissed rx).fld F.STK_RX_state [rx] ≠ 2 :=
      fun hdead => hstate (((s.advance x).state_markMissed hrx).symm.trans hdead)
    rw [if_pos ⟨hrun, hlive⟩] at hexec
    have hflt : ((s.advance x).markMissed rx).flt = s.flt := (s.advance x).flt_markMissed rx
    obtain ⟨⟨e, hqueue, he⟩, hstop⟩ := ((s.advance x).markMissed rx).diedRx_stops rx
    obtain ⟨hmem, -, htallies, -⟩ := State.sameMemory_sameJobs_of_eq (s := s)
      ((State.memoryAndJobs_diedRx _ rx).trans ((s.advance x).memoryAndJobs_markMissed rx))
    exact ⟨_, hexec, (State.fld_diedRx _ _ _ rx).trans (State.state_enterDead _ rx),
      (State.fld_diedRx _ _ _ rx).trans (State.deadHist_enterDead _ rx), ⟨e, hflt ▸ hqueue, he⟩,
      fun n hn hvalid => hstop n hn (((s.advance x).crewValid_markMissed rx hn).trans hvalid), hmem, htallies⟩

end Sys2Proof.Proofs
end

section
/-!
PROOFS. What the crab check of a drive end leaves alone (02 R43, R44, R48, R53, R54): time, the stroke generator, the
memories, the queues and the NV store.
-/
namespace Sys2Proof.Machine

variable (s : State) {β : Type}

/-! ### Status fields shown anew -/

section
variable (p : State → β) (hregs : ∀ s x, p (State.setRegs s x) = p s) (hconv : ∀ s x, p (State.setConv s x) = p s)
include hregs hconv

theorem State.showSeq_keeps (c : Nat) : p (s.showSeq c) = p s := by
  simp only [State.showSeq, State.liveBit_keeps _ p hregs hconv, State.setFld_keeps _ p hregs]

theorem State.showDma_keeps (c : Nat) : p (s.showDma c) = p s := by
  simp only [State.showDma, State.liveBit_keeps _ p hregs hconv, State.setFld_keeps _ p hregs]

theorem State.showVec_keeps (c : Nat) : p (s.showVec c) = p s := by
  simp only [State.showVec, State.liveBit_keeps _ p hregs hconv, State.setFld_keeps _ p hregs]

theorem State.showEng_keeps (c e : Nat) : p (s.showEng c e) = p s := by
  simp only [State.showEng, State.setPair_keeps _ p hregs, State.liveBit_keeps _ p hregs hconv,
    State.setFld_keeps _ p hregs]
  split <;> simp only [State.liveBit_keeps _ p hregs hconv, State.setFld_keeps _ p hregs]

theorem State.showDom_keeps (d : Dom) : p (s.showDom d) = p s :=
  State.each_keeps s p _ _ fun s c =>
    (State.showSeq_keeps _ p hregs hconv c).trans <| (State.showDma_keeps _ p hregs hconv c).trans <|
      (State.showVec_keeps _ p hregs hconv c).trans <|
        State.each_keeps s p _ _ fun s e => State.showEng_keeps s p hregs hconv c e

end

/-! ### Timed-out waits, progress and links -/

theorem State.timeoutLaunch_keeps (p : State → β) (hcores : ∀ s x, p (State.setCores s x) = p s)
    (hcrews : ∀ s x, p (State.setCrews s x) = p s) (c accept : Nat) : p (s.timeoutLaunch c accept) = p s := by
  unfold State.timeoutLaunch
  dsimp only
  split
  · exact (hcrews _ _).trans ((hcrews _ _).trans (hcores _ _))
  · exact hcores _ _

section
variable (p : State → β) (hregs : ∀ s x, p (State.setRegs s x) = p s) (hconv : ∀ s x, p (State.setConv s x) = p s)
  (hcores : ∀ s x, p (State.setCores s x) = p s) (hcrews : ∀ s x, p (State.setCrews s x) = p s)
include hregs hconv hcores hcrews

theorem State.expireWaits_keeps (c : Nat) : p (s.expireWaits c) = p s := by
  have hshow := fun s => State.showSeq_keeps s p hregs hconv c
  have htimeout := fun s a => State.timeoutLaunch_keeps s p hcores hcrews c a
  have hends := fun s (l : List UWait) =>
    State.each_keeps s p l _ fun s w => State.traceEnd_keeps s p hregs hcores c 1 0 w.cmd
  have hmod := fun s f => State.modCore_keeps s p hcores c f
  have hseq := fun s f => State.modSeq_keeps s p hcores c f
  unfold State.expireWaits
  dsimp only
  split
  · cases (s.core c).seq.waits with
    | none => split_ifs <;> simp only [hshow, htimeout, hends, hmod]
    | some ws =>
      dsimp only
      split_ifs <;> simp only [hshow, htimeout, hends, hmod, hseq]
  · rfl

end

theorem State.watchCore_keeps (p : State → β) (hcores : ∀ s x, p (State.setCores s x) = p s) (c : Nat) :
    p (s.watchCore c) = p s :=
  hcores _ _

theorem State.recoveryLinks_keeps (p : State → β) (hlinks : ∀ s x, p (State.setLinks s x) = p s) :
    p s.recoveryLinks = p s :=
  State.each_keeps s p _ _ fun s l => State.modLink_keeps s p hlinks l _

section
variable (p : State → β) (hlinks : ∀ s x, p (State.setLinks s x) = p s)
include hlinks

theorem State.leaveSlot_keeps (l n : Nat) (vc : Vc) (slot : Bool) : p (s.leaveSlot l n vc slot) = p s := by
  unfold State.leaveSlot State.freeSlot
  dsimp only
  split_ifs
  · rfl
  · exact hlinks _ _
  · exact hlinks _ _
  · exact hlinks _ _

theorem State.loseFlit_keeps (l n cls : Nat) (vc : Vc) (last : Bool) (body : Bytes) :
    p (s.loseFlit l n cls vc last body) = p s := by
  unfold State.loseFlit
  split
  · exact hlinks _ _
  · rfl

theorem State.discardLate_keeps (n : Nat) : p (s.discardLate n) = p s :=
  State.each_keeps s p _ _ fun s l =>
    (State.each_keeps _ p _ _ fun s _ => State.leaveSlot_keeps s p hlinks l n .bulk true).trans <|
      (State.each_keeps _ p _ _ fun s (f : CollHeld) => State.leaveSlot_keeps s p hlinks l n .bulk f.slot).trans <|
        (State.each_keeps _ p _ _ fun s (f : Flit) =>
          (State.loseFlit_keeps _ p hlinks l n f.cls f.vc f.last f.bytes).trans
            (State.leaveSlot_keeps s p hlinks l n f.vc f.slot)).trans
          (State.modLink_keeps s p hlinks l _)

end

/-! ### The crab check -/

section
variable (p : State → β) (hregs : ∀ s x, p (State.setRegs s x) = p s) (hconv : ∀ s x, p (State.setConv s x) = p s)
  (hcrews : ∀ s x, p (State.setCrews s x) = p s) (hflt : ∀ s x, p (State.setFlt s x) = p s)
  (hfree : ∀ s x, p (State.setFree s x) = p s)
include hregs hconv hcrews hflt hfree

theorem State.slipCrew_keeps (n : Nat) (late : Bool) : p (s.slipCrew n late) = p s := by
  have hcrab := State.crab_keeps s p hregs hcrews hflt hconv hfree n 0x0501 0
  simp only [State.slipCrew, State.showDom_keeps _ p hregs hconv, State.liveBit_keeps _ p hregs hconv]
  split
  · exact (hcrews _ _).trans ((State.bump_keeps _ p hregs _ _ _).trans hcrab)
  · exact State.setFld_keeps s p hregs _ _ _

theorem State.jumpCheck_keeps (n : Nat) : p (s.jumpCheck n) = p s := by
  unfold State.jumpCheck
  split
  · split
    · exact State.crab_keeps s p hregs hcrews hflt hconv hfree n _ _
    · rfl
  · rfl

theorem State.crabCheck_keeps (hlinks : ∀ s x, p (State.setLinks s x) = p s) (n : Nat) : p (s.crabCheck n) = p s := by
  have hlate := State.discardLate_keeps s p hlinks n
  unfold State.crabCheck
  dsimp only
  split
  · split
    · exact (State.crab_keeps _ p hregs hcrews hflt hconv hfree n _ _).trans hlate
    · exact hlate
  · exact State.slipCrew_keeps s p hregs hconv hcrews hflt hfree n _

end

/-! ### DRIVE_END -/

/-- What a drive end keeps, but for the end of the drive: time, the stroke generator, the memories, the queues and the NV
store. -/
def State.driveFrame (s : State) := (s.raw, s.stk, s.mem, s.hostMem, s.queues, s.nv)

theorem State.driveFrame_expireWaits_watchCore (l m : List Nat) :
    ((s.each l State.expireWaits).each m State.watchCore).driveFrame = s.driveFrame :=
  (State.each_keeps _ State.driveFrame m _ fun s c => State.watchCore_keeps s _ (fun _ _ => rfl) c).trans <|
    State.each_keeps s State.driveFrame l _ fun s c => State.expireWaits_keeps s _ (fun _ _ => rfl) (fun _ _ => rfl)
      (fun _ _ => rfl) (fun _ _ => rfl) c

theorem State.driveFrame_recoveryLinks_crabCheck (l : List Nat) :
    (s.recoveryLinks.each l State.crabCheck).driveFrame = s.driveFrame :=
  (State.each_keeps _ State.driveFrame l _ fun s n => State.crabCheck_keeps s _ (fun _ _ => rfl) (fun _ _ => rfl)
    (fun _ _ => rfl) (fun _ _ => rfl) (fun _ _ => rfl) (fun _ _ => rfl) n).trans <|
    State.recoveryLinks_keeps s _ fun _ _ => rfl

theorem State.driveFrame_jumpCheck (l : List Nat) : (s.each l State.jumpCheck).driveFrame = s.driveFrame :=
  State.each_keeps s State.driveFrame l _ fun s n => State.jumpCheck_keeps s _ (fun _ _ => rfl) (fun _ _ => rfl)
    (fun _ _ => rfl) (fun _ _ => rfl) (fun _ _ => rfl) n

/-- The state in which the drive has ended. -/
def State.driveEnded (s : State) : State := s.setStk { s.stk with drive := false }

theorem State.driveFrame_driveEnded_congr {s t : State} (h : t.driveFrame = s.driveFrame) :
    t.driveEnded.driveFrame = s.driveEnded.driveFrame := by
  simp only [State.driveFrame, Prod.mk.injEq] at h ⊢
  obtain ⟨hraw, hstk, hmem, hhost, hqueues, hnv⟩ := h
  exact ⟨hraw, congrArg (fun k : Stk => { k with drive := false }) hstk, hmem, hhost, hqueues, hnv⟩

/-- DRIVE_END ends the drive; the crab check and the waits that expire keep the frame. -/
theorem execDriveEnd_of_over {x : Nat} (hdrive : s.stk.drive = true)
    (hover : (s.advance x).driveEndAt ≤ (s.advance x).ns) (hrig : s.rigDue = false) :
    ∃ t, execDriveEnd x s = .next t ∧ t.driveFrame = (s.advance x).driveEnded.driveFrame := by
  have hdrive' : (s.advance x).stk.drive = true := hdrive
  have hrig' : (s.advance x).rigDue = false := hrig
  refine ⟨_, if_neg (by simp [hdrive', hrig', hover]), ?_⟩
  have hended := fun l m =>
    State.driveFrame_driveEnded_congr ((s.advance x).driveFrame_expireWaits_watchCore l m)
  split
  · exact (State.driveFrame_jumpCheck _ _).trans ((State.driveFrame_recoveryLinks_crabCheck _ _).trans (hended _ _))
  · exact (State.driveFrame_recoveryLinks_crabCheck _ _).trans (hended _ _)

end Sys2Proof.Machine
end

section
/-!
PROOFS. What a recovery owes when it ends (02 R41, R60, R62; 10 R242, R245): its comparisons, verdicts and floor lines leave
time, power and the waiting resets alone.
-/
namespace Sys2Proof.Machine

variable (s : State)

/-- Time, power and the resets that wait or run: what says whether the dies beside the cox die run at a boundary. -/
def State.dieFrame (s : State) := (s.raw, s.pow, s.flt.resets, s.flt.resetting)

theorem State.dieFrame_parts {s t : State} (h : t.dieFrame = s.dieFrame) :
    t.raw = s.raw ∧ t.pow = s.pow ∧ t.flt.resets = s.flt.resets ∧ t.flt.resetting = s.flt.resetting := by
  simpa only [State.dieFrame, Prod.mk.injEq] using h

/-! ### Faults -/

theorem State.dieFrame_raiseFault (f : Fault0) : (s.raiseFault f).dieFrame = s.dieFrame := by
  obtain ⟨free, g, -, h | h | ⟨n, st, h⟩, -⟩ := s.raiseFault_cases f
  · rw [h]
    rfl
  · rw [h, State.stopAll_keeps _ State.dieFrame fun _ _ => rfl]
    rfl
  · rw [h]
    rfl

theorem State.dieFrame_hardFault (c cls : Nat) : (s.hardFault c cls).dieFrame = s.dieFrame := by
  unfold State.hardFault
  split
  · rfl
  · dsimp only
    split <;> rfl

theorem State.dieFrame_unlocalised (c e accept index : Nat) : (s.unlocalised c e accept index).dieFrame = s.dieFrame := rfl

/-! ### Comparisons (10 R241 to R244) -/

theorem State.dieFrame_mismatch (c e : Nat) (byUmpire : Bool) (accept index : Nat) :
    (s.mismatch c e byUmpire accept index).dieFrame = s.dieFrame := by
  have hmod := fun s => State.modCrew_keeps s State.dieFrame (fun _ _ => rfl)
  unfold State.mismatch
  split
  · rfl
  · dsimp only
    split <;> split_ifs <;> simp only [State.dieFrame_unlocalised, State.dieFrame_raiseFault, hmod]

theorem State.dieFrame_compareNext (core : Nat) : (s.compareNext core).dieFrame = s.dieFrame := by
  unfold State.compareNext
  split
  · rfl
  · next p rest _ =>
    have hraise := fun s => State.raiseBit_keeps s State.dieFrame (fun _ _ => rfl) (fun _ _ => rfl)
    have hbump := fun s => State.bump_keeps s State.dieFrame (fun _ _ => rfl)
    have hmod := fun s => State.modCore_keeps s State.dieFrame (fun _ _ => rfl)
    have hpmc := fun s => State.pmcCore_keeps s State.dieFrame (fun _ _ => rfl) (fun _ _ => rfl)
    dsimp only
    split_ifs <;> simp only [State.dieFrame_mismatch, hraise, hbump, hmod, hpmc]

theorem State.dieFrame_compareAll : s.compareAll.dieFrame = s.dieFrame := by
  unfold State.compareAll
  split
  · exact State.each_keeps s State.dieFrame _ _ State.dieFrame_compareNext
  · rfl

/-! ### Verdicts (10 R245 to R248) -/

theorem State.dieFrame_transient (c : Nat) : (s.transient c).dieFrame = s.dieFrame := by
  have hmod := fun s => State.modCore_keeps s State.dieFrame (fun _ _ => rfl)
  have hset := fun s => State.setFld_keeps s State.dieFrame (fun _ _ => rfl)
  simp only [State.transient, apply_ite State.dieFrame, State.dieFrame_hardFault, hset, hmod, ite_self]

theorem State.dieFrame_verdict (n : Nat) (d : Diag) : (s.verdict n d).dieFrame = s.dieFrame := by
  have hstop : ∀ s : State, (s.verdictStop n).dieFrame = s.dieFrame := fun _ => rfl
  have hsuspect : ∀ s : State, s.suspect.dieFrame = s.dieFrame := fun _ => rfl
  have htrigger := fun s => State.trigger_keeps s State.dieFrame (fun _ _ => rfl)
  have hmod := fun s => State.modCrew_keeps s State.dieFrame (fun _ _ => rfl)
  have hset := fun s => State.setFld_keeps s State.dieFrame (fun _ _ => rfl)
  have hlower := fun s => State.lower_keeps s State.dieFrame (fun _ _ => rfl)
  unfold State.verdict
  dsimp only
  split_ifs <;> simp only [State.dieFrame_transient, State.dieFrame_hardFault, State.dieFrame_raiseFault, hstop, hsuspect,
    htrigger, hmod, hset, hlower]

theorem State.dieFrame_verdictsDue : s.verdictsDue.dieFrame = s.dieFrame := by
  refine State.each_keeps s State.dieFrame _ _ fun s n => ?_
  unfold State.verdictDue
  dsimp only
  split
  · split
    · exact s.dieFrame_verdict n _
    · rfl
  · rfl

/-! ### Floor lines (02 R60; 07 R165, R173) -/

theorem State.queueWb_keeps {β : Type} (p : State → β) (hregs : ∀ s x, p (State.setRegs s x) = p s)
    (hconv : ∀ s x, p (State.setConv s x) = p s) (hwbq : ∀ s x, p (State.setWbq s x) = p s) (pa : Nat)
    (poisoning : Bool) : p (s.queueWb pa poisoning) = p s := by
  unfold State.queueWb
  dsimp only
  split_ifs
  · rfl
  · exact hwbq _ _
  · exact (hwbq _ _).trans (State.raiseBit_keeps s p hregs hconv _ _)

theorem State.burst_keeps {β : Type} (p : State → β) (hregs : ∀ s x, p (State.setRegs s x) = p s)
    (hpmc : ∀ s x, p (State.setPmc s x) = p s) (pa : Nat) (write : Bool) : p (s.burst pa write) = p s :=
  (State.pmcDie_keeps _ p hregs hpmc _ _ _).trans ((hpmc _ _).trans (hpmc _ _))

theorem State.dieFrame_ceRecord (count event : Nat) (f : Fault0 → Fault0) :
    (s.ceRecord count event f).dieFrame = s.dieFrame := by
  unfold State.ceRecord
  split
  · exact s.dieFrame_raiseFault _
  · rfl

theorem State.dieFrame_reportGran (pa name : Nat) (r : GranRead) : (s.reportGran pa name r).dieFrame = s.dieFrame := by
  have hraise := fun s => State.raiseBit_keeps s State.dieFrame (fun _ _ => rfl) (fun _ _ => rfl)
  have hbump := fun s => State.bump_keeps s State.dieFrame (fun _ _ => rfl)
  have haddr : ∀ (s : State) (kind : Nat), (s.hbmErrAddr pa kind).dieFrame = s.dieFrame := fun _ _ => rfl
  have hqueue := fun s => State.queueWb_keeps s State.dieFrame (fun _ _ => rfl) (fun _ _ => rfl) (fun _ _ => rfl)
  have hseen : ∀ (s : State) (l : List (Nat × List Nat)), (s.setFlt { s.flt with ueSeen := l }).dieFrame = s.dieFrame :=
    fun _ _ => rfl
  unfold State.reportGran
  dsimp only
  split_ifs <;> simp only [State.dieFrame_ceRecord, State.dieFrame_raiseFault, hraise, hbump, haddr, hqueue, hseen]

theorem State.dieFrame_readGran (pa name : Nat) : (s.readGran pa name).2.dieFrame = s.dieFrame :=
  (State.dieFrame_reportGran _ pa name _).trans <|
    State.burst_keeps s State.dieFrame (fun _ _ => rfl) (fun _ _ => rfl) pa false

theorem State.dieFrame_strikeGran (pa : Nat) (errs : List (Nat × Nat)) : (s.strikeGran pa errs).dieFrame = s.dieFrame :=
  rfl

theorem State.dieFrame_scrubLine (stack : Nat) (errs : List (Nat × Nat × Nat)) :
    (s.scrubLine stack errs).dieFrame = s.dieFrame := by
  have hset := fun s => State.setFld_keeps s State.dieFrame (fun _ _ => rfl)
  have hpmc := fun s => State.pmcDie_keeps s State.dieFrame (fun _ _ => rfl) (fun _ _ => rfl)
  rw [State.scrubLine, hset, State.each_keeps _ State.dieFrame, hpmc]
  intro s g
  rw [State.dieFrame_readGran, State.dieFrame_strikeGran]

theorem State.dieFrame_floorLine (stack : Nat) (errs : List (Nat × Nat × Nat)) :
    (s.floorLine stack errs).dieFrame = s.dieFrame :=
  State.dieFrame_scrubLine _ stack errs

theorem State.dieFrame_floorLines : s.floorLines.dieFrame = s.dieFrame :=
  State.each_keeps s State.dieFrame _ _ fun s k => s.dieFrame_floorLine k []

/-- What a recovery owes when it ends leaves time, power and the resets alone. -/
theorem State.dieFrame_endRecovery : s.endRecovery.dieFrame = s.dieFrame := by
  unfold State.endRecovery
  split
  · rfl
  · calc (s.compareAll.verdictsDue.floorLines.setRecess {}).dieFrame
        = s.compareAll.verdictsDue.floorLines.dieFrame := rfl
      _ = s.compareAll.verdictsDue.dieFrame := State.dieFrame_floorLines _
      _ = s.compareAll.dieFrame := State.dieFrame_verdictsDue _
      _ = s.dieFrame := s.dieFrame_compareAll

end Sys2Proof.Machine
end

section
/-!
PROOFS. A boundary of the generator (O6): the number rises and the drive begins, then the boundary's actions or, first, a
rig that is due (02 R37, R41 to R43, R46; 16 R399).
-/
namespace Sys2Proof.Machine

variable (s : State)

/-! ### The stroke that begins -/

/-- The state in which the generator has taken a boundary's number, before the count jumps of skipped numbers (R37, R46). -/
def State.strokeTaken (s : State) (n : Nat) : State :=
  s.setStk { s.stk with
    num := n
    bound := (s.boundaryOf n).toNat
    drive := true
    renum := none
    frame := BitVec.ofNat 32 (0xF9A8 * 2 ^ 16 + n % 2 ^ 16) }

/-- A stroke that begins keeps of the taken number what a count jump keeps (R48). -/
theorem State.beginStroke_keeps {β : Type} (p : State → β) (hjump : ∀ s rx, p (State.countJump s rx) = p s) (n : Nat) :
    p (s.beginStroke n) = p (s.strokeTaken n) := by
  simp only [State.beginStroke]
  split
  · exact State.each_keeps _ p _ _ hjump
  · rfl

theorem State.countJump_keeps {β : Type} (p : State → β) (hregs : ∀ s x, p (State.setRegs s x) = p s)
    (hconv : ∀ s x, p (State.setConv s x) = p s)
    (hnoWork : ∀ (s : State) x, p (s.setStk { s.stk with noWork := x }) = p s) (rx : Nat) : p (s.countJump rx) = p s :=
  (State.raiseBit_keeps _ p hregs hconv _ _).trans (hnoWork s _)

/-- A count jump changes no register but those of the receivers, so that the boundaries stay where they are. -/
theorem State.reg_countJump {r : RegDef} (h : r.addr [] < R.STK_RX.base) (rx : Nat) :
    (s.countJump rx).reg r [] = s.reg r [] :=
  State.reg_raiseBit_ne _ (f := F.STK_RX_jump) (Nat.ne_of_lt (h.trans_le (R.STK_RX.base_le_addr [rx])))

theorem State.boundaryOf_congr {s t : State} (hctl : t.reg R.STK_CTL [] = s.reg R.STK_CTL [])
    (hlo : t.reg R.STK_PHASE_LO [] = s.reg R.STK_PHASE_LO []) (hhi : t.reg R.STK_PHASE_HI [] = s.reg R.STK_PHASE_HI [])
    (n : Nat) : t.boundaryOf n = s.boundaryOf n := by
  have hperiod : t.period = s.period := congrArg (fun w : Word => bits w.toNat _ _) hctl
  rw [State.boundaryOf, State.phase, State.pair, hperiod, hlo, hhi]
  rfl

theorem State.boundaryOf_beginStroke (n m : Nat) : (s.beginStroke n).boundaryOf m = s.boundaryOf m :=
  (s.beginStroke_keeps (State.boundaryOf · m) (fun s rx => State.boundaryOf_congr (s.reg_countJump (by decide) rx)
    (s.reg_countJump (by decide) rx) (s.reg_countJump (by decide) rx) m) n).trans rfl

/-- What the generator shows of the stroke in progress. -/
def Stk.shown (k : Stk) := (k.num, k.bound, k.drive, k.renum, k.frame)

theorem State.stk_beginStroke (n : Nat) :
    (s.beginStroke n).stk.num = n ∧ (s.beginStroke n).stk.bound = (s.boundaryOf n).toNat
      ∧ (s.beginStroke n).stk.drive = true ∧ (s.beginStroke n).stk.renum = none
      ∧ (s.beginStroke n).stk.frame = BitVec.ofNat 32 (0xF9A8 * 2 ^ 16 + n % 2 ^ 16) := by
  have hshown : (s.beginStroke n).stk.shown = (s.strokeTaken n).stk.shown :=
    s.beginStroke_keeps (fun t => t.stk.shown) (fun s rx => State.countJump_keeps s (fun t => t.stk.shown)
      (fun _ _ => rfl) (fun _ _ => rfl) (fun _ _ => rfl) rx) n
  simpa only [Stk.shown, Prod.mk.injEq, State.strokeTaken, State.setStk_stk] using hshown

/-- A stroke that begins changes neither time nor what says whether the dies run, and no crew or core. -/
theorem State.frame_beginStroke (n : Nat) :
    (s.beginStroke n).dieFrame = s.dieFrame ∧ (s.beginStroke n).crews = s.crews ∧ (s.beginStroke n).cores = s.cores :=
  have hkeeps {β : Type} (p : State → β) (hregs : ∀ s x, p (State.setRegs s x) = p s)
      (hconv : ∀ s x, p (State.setConv s x) = p s) (hstk : ∀ s x, p (State.setStk s x) = p s) :
      p (s.beginStroke n) = p s :=
    (s.beginStroke_keeps p (fun s rx => s.countJump_keeps p hregs hconv (fun _ _ => hstk _ _) rx) n).trans (hstk _ _)
  ⟨hkeeps State.dieFrame (fun _ _ => rfl) (fun _ _ => rfl) (fun _ _ => rfl),
    hkeeps State.crews (fun _ _ => rfl) (fun _ _ => rfl) (fun _ _ => rfl),
    hkeeps State.cores (fun _ _ => rfl) (fun _ _ => rfl) (fun _ _ => rfl)⟩

/-! ### The boundary -/

/-- The state in which the generator has taken a boundary and its actions are to come. -/
def State.boundaryTaken (s : State) (n : Nat) : State := s.endRecovery.beginStroke n

theorem execStrokeBoundary_of_risen {x n : Nat} (hrisen : (s.advance x).risen = some n)
    (hrun : s.isSet F.STK_CTL_running [] = true) :
    execStrokeBoundary x s = .next (if ((s.advance x).boundaryTaken n).rigDue then (s.advance x).boundaryTaken n
      else ((s.advance x).boundaryTaken n).boundaryActions) := by
  have hrun' : (s.advance x).isSet F.STK_CTL_running [] = true := hrun
  simp only [execStrokeBoundary, hrisen, hrun']
  rfl

theorem State.dieFrame_boundaryTaken (n : Nat) : (s.boundaryTaken n).dieFrame = s.dieFrame :=
  have ⟨hframe, _⟩ := State.frame_beginStroke s.endRecovery n
  hframe.trans s.dieFrame_endRecovery

/-- Whether the dies run hangs on power and on the reset in progress. -/
theorem State.diesRun_congr {s t : State} (h : t.dieFrame = s.dieFrame) : t.diesRun = s.diesRun := by
  obtain ⟨-, hpow, -, hresetting⟩ := State.dieFrame_parts h
  simp only [State.diesRun, State.inEasy, State.inReset, hpow, hresetting]

theorem State.coxBoundary_keeps {β : Type} (p : State → β) (hcox : ∀ s x, p (State.setCox s x) = p s) :
    p s.coxBoundary = p s := by
  unfold State.coxBoundary
  split
  · exact hcox _ _
  · rfl

/-- While the other dies do not run and no reset waits, a boundary is the cox die's alone (R41). -/
theorem State.boundaryActions_of_dies_rest (hrest : s.diesRun = false) (hresets : s.flt.resets = []) :
    s.boundaryActions = s.coxBoundary := by
  have hframe := s.coxBoundary_keeps State.dieFrame fun _ _ => rfl
  have hrest' : s.coxBoundary.diesRun = false := (State.diesRun_congr hframe).trans hrest
  obtain ⟨-, -, hkept, -⟩ := State.dieFrame_parts hframe
  rw [State.boundaryActions, hrest', State.pump, hkept, hresets]
  rfl

/-- Such a boundary, with a rig due or not, keeps all that lies outside the cox die. -/
theorem State.boundary_of_dies_rest_keeps {β : Type} (p : State → β) (hcox : ∀ s x, p (State.setCox s x) = p s)
    (hrest : s.diesRun = false) (hresets : s.flt.resets = []) :
    p (if s.rigDue then s else s.boundaryActions) = p s := by
  rw [s.boundaryActions_of_dies_rest hrest hresets]
  split
  · rfl
  · exact s.coxBoundary_keeps p hcox

/-! ### A rig that takes effect -/

/-- RIG_STAT and RIG_SHORT as a rig that takes effect leaves them (16 R397, R399). -/
def State.rigShown (s : State) : State :=
  let t := ((s.setFld F.RIG_STAT_state [] 4).setFld F.RIG_STAT_status [] 1).setFld F.RIG_STAT_section [] 0xFF
  (t.setFld F.RIG_STAT_crew [] 0).setPair R.RIG_SHORT_LO R.RIG_SHORT_HI [] 0

/-- A rig that takes effect, but for a chip reset's, ends with itself in force and its identity and status shown. -/
theorem State.takeRig_shows (g : RigImg) (hreload : s.flt.chipReload = false) :
    ∃ v : State, s.takeRig g = (v.setReg R.RIG_ID [] g.id).rigShown
      ∧ v.rig = { load := none, staged := none, inForce := some g, effect := none } :=
  ⟨_, if_neg (by simp [hreload]), rfl⟩

theorem State.reg_RIG_ID_rigShown : s.rigShown.reg R.RIG_ID [] = s.reg R.RIG_ID [] := by
  simp only [State.rigShown, State.setPair, State.setFld]
  repeat rw [State.reg_setReg_ne _ (by decide)]

theorem State.rig_rigShown : s.rigShown.rig = s.rig := by
  have hset := fun s => State.setFld_keeps s State.rig (fun _ _ => rfl)
  have hpair := fun s => State.setPair_keeps s State.rig (fun _ _ => rfl)
  simp only [State.rigShown, hpair, hset]

/-- The other fields of RIG_STAT lie below its state. -/
theorem State.rigState_setFld {f : Fld} (hreg : F.RIG_STAT_state.reg = f.reg) (hwf : f.lo ≤ f.hi ∧ f.hi < 29) (v : Nat) :
    (s.setFld f [] v).fld F.RIG_STAT_state [] = s.fld F.RIG_STAT_state [] :=
  State.fld_setFld_other s hreg ⟨hwf.1, hwf.2.trans (by decide)⟩ (by decide) (.inl hwf.2) v

theorem State.rigState_setPair_short (v : Nat) :
    (s.setPair R.RIG_SHORT_LO R.RIG_SHORT_HI [] v).fld F.RIG_STAT_state [] = s.fld F.RIG_STAT_state [] :=
  congrArg (fun w : Word => bits w.toNat 31 29)
    ((State.reg_setReg_ne _ (r' := R.RIG_STAT) (by decide) _).trans (State.reg_setReg_ne _ (by decide) _))

theorem State.state_rigShown : s.rigShown.fld F.RIG_STAT_state [] = 4 :=
  calc s.rigShown.fld F.RIG_STAT_state []
      = (s.setFld F.RIG_STAT_state [] 4).fld F.RIG_STAT_state [] :=
        (State.rigState_setPair_short _ _).trans <|
          (State.rigState_setFld _ (f := F.RIG_STAT_crew) rfl (by decide) _).trans <|
            (State.rigState_setFld _ (f := F.RIG_STAT_section) rfl (by decide) _).trans <|
              State.rigState_setFld _ (f := F.RIG_STAT_status) rfl (by decide) _
    _ = 4 := State.fld_setFld_same s F.RIG_STAT_state [] 4 (by decide)

/-- A staged rig that is not refused at its boundary is in force, alone in the loader, and shown (16 R398, R399). -/
theorem State.rigEffect_of_admitted {g : RigImg} (hstaged : s.rig.staged = some g) (hreload : s.flt.chipReload = false)
    (hadmitted : s.rigRefused g = none) :
    s.rigEffect.rig = { load := none, staged := none, inForce := some g, effect := none }
      ∧ s.rigEffect.reg R.RIG_ID [] = g.id ∧ s.rigEffect.fld F.RIG_STAT_state [] = 4 := by
  obtain ⟨v, htake, hrig⟩ := s.takeRig_shows g hreload
  have heffect : s.rigEffect = (v.setReg R.RIG_ID [] g.id).rigShown := by
    simp [State.rigEffect, hstaged, hreload, hadmitted, htake]
  rw [heffect]
  exact ⟨(State.rig_rigShown _).trans ((State.setReg_keeps v State.rig (fun _ _ => rfl) _ _ _).trans hrig),
    (State.reg_RIG_ID_rigShown _).trans (State.reg_setReg_same _ _ _ _),
    State.state_rigShown _⟩

end Sys2Proof.Machine

namespace Sys2Proof.Proofs
open Sys2Proof.Machine

/-- Settles O6: what the ending recovery owes leaves the waiting resets and the dies as they are
(`State.dieFrame_endRecovery`), the number is taken whatever receivers jump, and a drive end's checks keep the stroke
generator and the memories. That every die acts at the generator's instant is assumption log 25. -/
theorem strokeBoundaryBeginsTheNextStroke : Obligations.StrokeBoundaryBeginsTheNextStroke := by
  intro s x
  refine ⟨fun n hrisen hrun => ⟨?_, fun hrest hresets => ?_⟩, fun hdrive hover hrig => ?_,
    fun g hdue hstaged hreload hadmitted => ?_⟩
  · obtain ⟨hnum, hbound, hbegun, hrenum, hline⟩ := (s.advance x).endRecovery.stk_beginStroke n
    obtain ⟨hraw, -, hresets, -⟩ := State.dieFrame_parts ((s.advance x).dieFrame_boundaryTaken n)
    refine ⟨_, execStrokeBoundary_of_risen s hrisen hrun, hnum, ?_, hbegun, hrenum, hline, hraw, hresets⟩
    rw [State.boundaryTaken, State.boundaryOf_beginStroke]
    exact hbound
  · have hframe := (s.advance x).dieFrame_boundaryTaken n
    obtain ⟨hraw, -, hkept, -⟩ := State.dieFrame_parts hframe
    obtain ⟨hnum, -, hdrive, -⟩ := (s.advance x).endRecovery.stk_beginStroke n
    obtain ⟨-, hcrews, hcores⟩ := (s.advance x).endRecovery.frame_beginStroke n
    have hkeeps {β : Type} (p : State → β) (hcox : ∀ s x, p (State.setCox s x) = p s) :=
      ((s.advance x).boundaryTaken n).boundary_of_dies_rest_keeps p hcox ((State.diesRun_congr hframe).trans hrest)
        (hkept.trans hresets)
    exact ⟨_, execStrokeBoundary_of_risen s hrisen hrun, (hkeeps (fun t => t.stk.num) fun _ _ => rfl).trans hnum,
      (hkeeps (fun t => t.stk.drive) fun _ _ => rfl).trans hdrive,
      (hkeeps State.raw fun _ _ => rfl).trans hraw,
      (hkeeps State.crews fun _ _ => rfl).trans hcrews, (hkeeps State.cores fun _ _ => rfl).trans hcores⟩
  · obtain ⟨t, hexec, hframe⟩ := execDriveEnd_of_over s hdrive hover hrig
    simp only [State.driveFrame, Prod.mk.injEq] at hframe
    obtain ⟨hraw, hstk, hmem, hhost, hqueues, hnv⟩ := hframe
    exact ⟨t, hexec, (congrArg Stk.drive hstk).trans rfl, (congrArg Stk.num hstk).trans rfl, hraw,
      fun a => congrArg (Map.getD unlisted · a) hmem, fun a => congrArg (Map.getD unlisted · a) hhost, hqueues, hnv⟩
  · exact ⟨_, congrArg Host.Outcome.next (if_pos hdue), s.rigEffect_of_admitted hstaged hreload hadmitted⟩

end Sys2Proof.Proofs
end

section
/-!
PROOFS. Views of the state that do not see what a trace record or a settled wait changes (03 R85, R90; 15 R377), and what
a format error leaves (03 R71).
-/
namespace Sys2Proof.Machine

variable (s : State) {β γ : Type}

/-! ### Memory and tallies -/

/-- The parts of the state of which `State.sameMemory` speaks. -/
def State.memory (s : State) := (s.mem, s.gran, s.hostMem, s.hostPoison)

/-- Memory and tallies: what the frames of the statements on a core's commands speak of beside cores and crews. -/
def State.memoryAndTallies (s : State) := (s.memory, s.tallies)

theorem State.sameMemory_of_eq {s t : State} (h : t.memory = s.memory) : s.sameMemory t := by
  simp only [State.memory, Prod.mk.injEq] at h
  obtain ⟨hmem, hgran, hhost, hpoison⟩ := h
  refine ⟨fun a => ?_, fun a => ?_, fun a => ?_, hpoison⟩
  · rw [State.hbmAt, hmem, State.hbmAt]
  · rw [State.granSt, hgran, State.granSt]
  · rw [State.hostAt, hhost, State.hostAt]

theorem State.sameMemory_tallies_of_eq {s t : State} (h : t.memoryAndTallies = s.memoryAndTallies) :
    s.sameMemory t ∧ t.tallies = s.tallies := by
  obtain ⟨hmem, htallies⟩ := Prod.mk.inj h
  exact ⟨State.sameMemory_of_eq hmem, htallies⟩

/-! ### One core changed -/

@[simp] theorem State.core_modCore_same (c : Nat) (f : Core → Core) : (s.modCore c f).core c = f (s.core c) :=
  Map.getD_setD_same _ _ _ _

theorem State.core_modCore_ne {c d : Nat} (h : d ≠ c) (f : Core → Core) : (s.modCore c f).core d = s.core d :=
  Map.getD_setD_ne _ _ _ h _

theorem State.core_congr {s t : State} (h : t.cores = s.cores) (c : Nat) : t.core c = s.core c := by
  rw [State.core, h, State.core]

/-- A part of a core that a change leaves alone stays in every core. -/
theorem State.core_modCore_part (part : Core → γ) {s : State} {f : Core → Core} {c d : Nat}
    (h : ∀ k, part (f k) = part k) : part ((s.modCore c f).core d) = part (s.core d) := by
  by_cases hd : d = c
  · subst hd
    rw [State.core_modCore_same, h]
  · rw [State.core_modCore_ne s hd]

/-- A view that sees no register and, of a core, only a part. -/
structure State.CoreView (part : Core → γ) (p : State → β) : Prop where
  regs : ∀ {s x}, p (State.setRegs s x) = p s
  core : ∀ {s c f}, (∀ k, part (f k) = part k) → p (State.modCore s c f) = p s

/-- A part of one core is such a view. -/
theorem State.CoreView.of_core (part : Core → γ) (d : Nat) : State.CoreView part fun s => part (s.core d) :=
  ⟨rfl, State.core_modCore_part part⟩

/-- What sees no core at all is such a view. -/
theorem State.CoreView.of_blind {part : Core → γ} {p : State → β} (hregs : ∀ s x, p (State.setRegs s x) = p s)
    (hcores : ∀ s x, p (State.setCores s x) = p s) : State.CoreView part p :=
  ⟨hregs _ _, fun _ => hcores _ _⟩

/-! ### Trace records -/

/-- A core but for its trace buffer. -/
def Core.untraced (k : Core) : Core := { k with trc := [], trcLoss := none, trcReset := false }

section
variable {p : State → β} (hp : State.CoreView Core.untraced p)
include hp

theorem State.CoreView.trace (c kind how : Nat) (word : CmdWord) (entry accept detail : Nat) :
    p (s.trace c kind how word entry accept detail) = p s := by
  unfold State.trace
  split
  · rfl
  · split
    · unfold State.stageTrace
      dsimp only
      split
      · exact hp.regs.trans (hp.core fun _ => rfl)
      · exact hp.core fun _ => rfl
    · rfl

theorem State.CoreView.traceBegin (c : Nat) (q : QCmd) : p (s.traceBegin c q) = p s := hp.trace s _ _ _ _ _ _ _

theorem State.CoreView.traceEnd (c how detail : Nat) (q : QCmd) : p (s.traceEnd c how detail q) = p s :=
  hp.trace s _ _ _ _ _ _ _

end

/-- The fields of a core that the statements speak of and a trace record leaves alone. -/
theorem Core.untraced_parts {k l : Core} (h : k.untraced = l.untraced) :
    k.store = l.store ∧ k.tq = l.tq ∧ k.waits = l.waits ∧ k.fences = l.fences ∧ k.nextTag = l.nextTag ∧ k.seq = l.seq :=
  ⟨(congrArg Core.store h :), (congrArg Core.tq h :), (congrArg Core.waits h :), (congrArg Core.fences h :),
    (congrArg Core.nextTag h :), (congrArg Core.seq h :)⟩

/-! ### Waits and FENCEs that let go -/

/-- A core but for what holds its units and its sequencer, and its trace buffer. -/
def Core.unheld (k : Core) : Core :=
  { k.untraced with waits := [], fences := [], seq := { k.seq with waits := none } }

theorem Core.unheld_congr {k l : Core} (h : k.untraced = l.untraced) : k.unheld = l.unheld :=
  congrArg (fun u : Core => { u with waits := [], fences := [], seq := { u.seq with waits := none } }) h

/-- The fields of a core that the statements speak of and a settled wait leaves alone. -/
theorem Core.unheld_parts {k l : Core} (h : k.unheld = l.unheld) :
    k.store = l.store ∧ k.tq = l.tq ∧ k.vecq = l.vecq ∧ k.nextTag = l.nextTag ∧ k.seq.stopped = l.seq.stopped :=
  ⟨(congrArg Core.store h :), (congrArg Core.tq h :), (congrArg Core.vecq h :), (congrArg Core.nextTag h :),
    (congrArg (fun k : Core => k.seq.stopped) h :)⟩

section
variable {p : State → β} (hp : State.CoreView Core.unheld p)
include hp

/-- What does not see held waits and FENCEs sees no trace buffer. -/
theorem State.CoreView.untraced : State.CoreView Core.untraced p :=
  ⟨hp.regs, fun h => hp.core fun k => Core.unheld_congr (h k)⟩

theorem State.CoreView.settleCore (c : Nat) : p (s.settleCore c) = p s := by
  unfold State.settleCore
  dsimp only
  split
  · rfl
  · exact (State.each_keeps _ p _ _ fun s q => hp.untraced.traceEnd s c 0 0 q).trans (hp.core fun _ => rfl)

theorem State.CoreView.settleAll : p s.settleAll = p s :=
  State.each_keeps s p _ _ fun s c => hp.settleCore s c

end

end Sys2Proof.Machine
end

section
/-!
PROOFS. A vector command in error (O19): it leaves its queue and performs nothing (06 R160), its core's sequencer stops
issuing, and its launch carries FORMAT (03 R71).
-/
namespace Sys2Proof.Machine

variable (s : State) {β : Type}

/-! ### The crew of a core -/

theorem State.crewOf_congr {s t : State} {c : Nat} (h : t.reg R.SEQ_CREW [c] = s.reg R.SEQ_CREW [c]) :
    t.crewOf c = s.crewOf c :=
  congrArg (fun w : Word => if decide (bits w.toNat 31 31 = 1) then some (bits w.toNat 3 0) else none) h

theorem State.crewOf_lt {c n : Nat} (h : s.crewOf c = some n) : n < 16 := by
  unfold State.crewOf at h
  split at h
  · obtain rfl := Option.some.inj h
    exact Nat.mod_lt _ (by decide)
  · cases h

/-- A trace record changes no register but TRC_LOST of its crew, so every core stays with its crew. -/
theorem State.crewOf_trace (c kind how : Nat) (word : CmdWord) (entry accept detail d : Nat) :
    (s.trace c kind how word entry accept detail).crewOf d = s.crewOf d := by
  unfold State.trace
  split
  · rfl
  · next n hn =>
    split
    · unfold State.stageTrace
      dsimp only
      split
      · have hn16 := s.crewOf_lt hn
        have hlost : R.TRC_LOST.addr [n] < R.SEQ_CREW.base := by
          show 0x00000F0C + 0x10 * n < 0x01000004
          omega
        exact State.crewOf_congr (State.reg_setReg_ne _ (Nat.ne_of_gt (hlost.trans_le (R.SEQ_CREW.base_le_addr _))) _)
      · rfl
    · rfl

theorem State.crewOf_traceEnd (c how detail : Nat) (q : QCmd) (d : Nat) :
    (s.traceEnd c how detail q).crewOf d = s.crewOf d := s.crewOf_trace _ _ _ _ _ _ _ d

/-! ### A format error -/

theorem State.launches_modLaunch (n a : Nat) (f : Launch → Launch) :
    ((s.modLaunch n a f).crew n).launches = (s.crew n).launches.map fun l => if l.accept = a then f l else l := by
  rw [State.modLaunch, State.crew_modCrew_same]

/-- What a change gives to every launch of an accept number, every launch that then has the number has. -/
theorem State.modLaunch_all (P : Launch → Prop) {n a : Nat} {f : Launch → Launch}
    (hf : ∀ l ∈ (s.crew n).launches, l.accept = a → P (f l)) :
    ∀ l ∈ ((s.modLaunch n a f).crew n).launches, l.accept = a → P l := by
  rw [State.launches_modLaunch]
  intro l hl ha
  obtain ⟨m, hm, rfl⟩ := List.mem_map.mp hl
  split at ha
  · next hma => rw [if_pos hma]; exact hf m hm hma
  · next hma => exact absurd ha hma

/-- A core whose sequencer issues nothing more: its postings end. -/
def Core.stopIssue (k : Core) : Core := { k with seq := { k.seq with stopped := true }, posts := [] }

theorem State.formatError_of_crew {c n : Nat} (a : Nat) (h : s.crewOf c = some n) :
    s.formatError c a = ((s.modCore c Core.stopIssue).launchStatus n a 4).modLaunch n a fun l =>
      { l with stopNext := true } := by
  have hcrew : (s.modCore c Core.stopIssue).crewOf c = some n := h
  unfold Core.stopIssue at hcrew
  simp only [State.formatError, hcrew]
  rfl

theorem State.core_formatError (c a : Nat) : (s.formatError c a).core c = (s.core c).stopIssue := by
  have hcores : (s.formatError c a).cores = (s.modCore c Core.stopIssue).cores := by
    unfold State.formatError
    dsimp only
    split <;> rfl
  rw [State.core_congr hcores, State.core_modCore_same]

theorem State.statuses_formatError {c n a : Nat} (h : s.crewOf c = some n) :
    ∀ l ∈ ((s.formatError c a).crew n).launches, l.accept = a → 4 ∈ l.statuses := by
  rw [s.formatError_of_crew a h]
  exact State.modLaunch_all _ (4 ∈ ·.statuses) <|
    State.modLaunch_all _ (4 ∈ ·.statuses) fun _ _ _ => List.mem_cons_self

/-! ### The vector engine -/

/-- The state in which a vector command in error has left its queue (R160). -/
def State.vecRefused (s : State) (c : Nat) (q : QCmd) (rest : List QCmd) : State :=
  ((((s.modCore c fun k => { k with vecq := rest }).traceEnd c 2 0 q).formatError c q.accept).showVec c).settleCore c

theorem State.runVec_of_bad {c : Nat} {q : QCmd} {rest : List QCmd} (hq : (s.core c).vecq = q :: rest)
    (hruns : s.unitRuns c 0xC q.tag = true) (hbad : (vcmd q.word).bad = true) :
    (s.runVec c (vcmd q.word).op).settleCore c = s.vecRefused c q rest := by
  simp [State.runVec, hq, hruns, hbad, State.vecRefused]

section
variable (c : Nat) (q : QCmd) (rest : List QCmd)

theorem State.unheld_core_vecRefused :
    ((s.vecRefused c q rest).core c).unheld = ({ s.core c with vecq := rest } : Core).stopIssue.unheld := by
  have hview := State.CoreView.of_core Core.unheld c
  have htrace := (hview.untraced.traceEnd (s.modCore c fun k => { k with vecq := rest }) c 2 0 q).trans
    (congrArg Core.unheld (State.core_modCore_same s c _))
  rw [State.vecRefused, hview.settleCore, State.showVec_keeps _ (fun t => (t.core c).unheld) (fun _ _ => rfl)
    (fun _ _ => rfl), State.core_formatError]
  exact congrArg Core.stopIssue htrace

/-- What sees neither registers nor cores nor crews sees nothing of a refused vector command. -/
theorem State.vecRefused_keeps (p : State → β) (hregs : ∀ s x, p (State.setRegs s x) = p s)
    (hconv : ∀ s x, p (State.setConv s x) = p s) (hcores : ∀ s x, p (State.setCores s x) = p s)
    (hcrews : ∀ s x, p (State.setCrews s x) = p s) : p (s.vecRefused c q rest) = p s :=
  have hview : State.CoreView Core.unheld p := .of_blind hregs hcores
  (hview.settleCore _ c).trans <| (State.showVec_keeps _ p hregs hconv c).trans <|
    (State.formatError_keeps _ p hcrews hcores c _).trans <| (hview.untraced.traceEnd _ c 2 0 q).trans (hcores _ _)

theorem State.statuses_vecRefused {n : Nat} (hcrew : s.crewOf c = some n) :
    ∀ l ∈ ((s.vecRefused c q rest).crew n).launches, l.accept = q.accept → 4 ∈ l.statuses := by
  have hcrew' : ((s.modCore c fun k => { k with vecq := rest }).traceEnd c 2 0 q).crewOf c = some n :=
    (State.crewOf_traceEnd _ c 2 0 q c).trans hcrew
  have hview : State.CoreView Core.unheld fun t => (t.crew n).launches := .of_blind (fun _ _ => rfl) (fun _ _ => rfl)
  rw [State.vecRefused, hview.settleCore, State.showVec_keeps _ (fun t => (t.crew n).launches) (fun _ _ => rfl)
    (fun _ _ => rfl)]
  exact State.statuses_formatError _ hcrew'

/-- What a refused vector command leaves (06 R160; 03 R71). -/
theorem State.vecRefused_effect {n : Nat} (hcrew : s.crewOf c = some n) :
    ((s.vecRefused c q rest).core c).vecq = rest ∧ ((s.vecRefused c q rest).core c).seq.stopped = true
      ∧ (∀ l ∈ ((s.vecRefused c q rest).crew n).launches, l.accept = q.accept → 4 ∈ l.statuses)
      ∧ (∀ a, (s.vecRefused c q rest).storeAt c a = s.storeAt c a) ∧ (s.vecRefused c q rest).tallies = s.tallies
      ∧ s.sameMemory (s.vecRefused c q rest) ∧ (s.vecRefused c q rest).flt = s.flt := by
  obtain ⟨hstore, -, hvecq, -, hstopped⟩ := Core.unheld_parts (s.unheld_core_vecRefused c q rest)
  have hframe := s.vecRefused_keeps c q rest (fun t => (t.memoryAndTallies, t.flt)) (fun _ _ => rfl) (fun _ _ => rfl)
    (fun _ _ => rfl) (fun _ _ => rfl)
  obtain ⟨hmem, hflt⟩ := Prod.mk.inj hframe
  obtain ⟨hsame, htallies⟩ := State.sameMemory_tallies_of_eq hmem
  exact ⟨hvecq, hstopped, s.statuses_vecRefused c q rest hcrew, fun a => congrArg (Map.getD unlisted · a) hstore,
    htallies, hsame, hflt⟩

end

/-- The commands of the vector engine by op (05 table Vector operations; 06 R145 to R147). -/
def vecCmds (c : Nat) : List (Nat × Instr) :=
  [(0x00, .vecAdd c), (0x01, .vecSub c), (0x02, .vecMul c), (0x03, .vecFma c), (0x04, .vecDiv c), (0x05, .vecMin c),
    (0x06, .vecMax c), (0x07, .vecSqrt c), (0x08, .vecRecip c), (0x09, .vecRsqrt c), (0x0A, .vecExp2 c),
    (0x0B, .vecExp c), (0x0C, .vecLog2 c), (0x0D, .vecLn c), (0x0E, .vecSin c), (0x0F, .vecCos c), (0x10, .vecTanh c),
    (0x11, .vecSigmoid c), (0x12, .vecErf c), (0x13, .vecCvt c), (0x14, .vecCmplt c), (0x15, .vecCmple c),
    (0x16, .vecCmpeq c), (0x17, .vecSelect c), (0x20, .vecRsum c), (0x21, .vecRmax c), (0x22, .vecRmin c),
    (0x23, .vecRsumsq c), (0x24, .vecRsumc c), (0x28, .vecRope c), (0x29, .vecMask c)]

/-- Each of them runs the head of the engine's queue if that has its op, and settles the core. -/
theorem exec_vecCmds {c : Nat} {x : Nat × Instr} (h : x ∈ vecCmds c) :
    exec x.2 s = .next ((s.runVec c x.1).settleCore c) := by
  unfold vecCmds at h
  fin_cases h <;> rfl

end Sys2Proof.Machine

namespace Sys2Proof.Proofs
open Sys2Proof.Machine

/-- Settles O19: of the steps that follow the command's leaving its queue, only the format error touches what the
statement speaks of; trace, status and settled waits touch registers, the trace buffer and waits. -/
theorem vectorFormatErrorPerformsNothing : Obligations.VectorFormatErrorPerformsNothing := by
  intro s c n q rest _ hcrew hq hruns hbad x hx hop
  have hexec : exec x.2 s = .next (s.vecRefused c q rest) := by
    rw [exec_vecCmds s hx, ← hop, s.runVec_of_bad hq hruns hbad]
  exact ⟨_, hexec, s.vecRefused_effect c q rest hcrew⟩

end Sys2Proof.Proofs
end

section
/-!
PROOFS. What reads, their reports and the faults they raise change: registers, counters, write-backs, the fault logic, the
check state of core store, and of a crew its stop and what its launches carry (06 R140, R141; 07 R165; 11 R258, R267, R278).
-/
namespace Sys2Proof.Machine

variable (s : State) {β : Type}

/-- A core but for its store and the check state of that, its postings and whether and for what its sequencer waits. -/
def Core.unread (k : Core) : Core :=
  { k with store := [], words := [], ceWb := [], ueWin := none, posts := []
           seq := { k.seq with waits := none, due := 0, stopped := false } }

/-- The fields of a core that the statements speak of and a read leaves alone. -/
theorem Core.unread_parts {k l : Core} (h : k.unread = l.unread) :
    k.nextTag = l.nextTag ∧ k.tq = l.tq ∧ k.seq.pos = l.seq.pos ∧ k.seq.loops = l.seq.loops :=
  ⟨(congrArg Core.nextTag h :), (congrArg Core.tq h :), (congrArg (fun k : Core => k.seq.pos) h :),
    (congrArg (fun k : Core => k.seq.loops) h :)⟩

/-- A crew but for its stop and its launches. -/
def Crew.uncharged (k : Crew) : Crew := { k with launches := [], stop := none, restart := false }

/-- A part of a crew that a change leaves alone stays in every crew. -/
theorem State.crew_modCrew_part {γ : Type} (part : Crew → γ) {s : State} {f : Crew → Crew} {m n : Nat}
    (h : ∀ k, part (f k) = part k) : part ((s.modCrew m f).crew n) = part (s.crew n) := by
  by_cases hn : n = m
  · subst hn
    rw [State.crew_modCrew_same, h]
  · rw [State.crew_modCrew_ne s hn]

/-- A view that sees nothing of what a read, its report or a fault changes. -/
structure State.ReportView (p : State → β) : Prop extends State.CoreView Core.unread p where
  conv : ∀ {s x}, p (State.setConv s x) = p s
  pmc : ∀ {s x}, p (State.setPmc s x) = p s
  flt : ∀ {s x}, p (State.setFlt s x) = p s
  free : ∀ {s x}, p (State.setFree s x) = p s
  wbq : ∀ {s x}, p (State.setWbq s x) = p s
  crew : ∀ {s n f}, (∀ k, Crew.uncharged (f k) = Crew.uncharged k) → p (State.modCrew s n f) = p s

theorem State.ReportView.of_core (d : Nat) : State.ReportView fun s => (s.core d).unread where
  toCoreView := .of_core Core.unread d
  conv := rfl
  pmc := rfl
  flt := rfl
  free := rfl
  wbq := rfl
  crew _ := rfl

theorem State.ReportView.of_crew (n : Nat) : State.ReportView fun s => (s.crew n).uncharged where
  regs := rfl
  core _ := rfl
  conv := rfl
  pmc := rfl
  flt := rfl
  free := rfl
  wbq := rfl
  crew := State.crew_modCrew_part Crew.uncharged

theorem State.ReportView.memoryAndTallies : State.ReportView State.memoryAndTallies where
  regs := rfl
  core _ := rfl
  conv := rfl
  pmc := rfl
  flt := rfl
  free := rfl
  wbq := rfl
  crew _ := rfl

section
variable {p : State → β} (hp : State.ReportView p)
include hp

/-! ### Registers and counters -/

theorem State.ReportView.setFld (f : Fld) (ix : List Nat) (v : Nat) : p (s.setFld f ix v) = p s := hp.regs

theorem State.ReportView.setReg (r : RegDef) (ix : List Nat) (v : Word) : p (s.setReg r ix v) = p s := hp.regs

theorem State.ReportView.bump (f : Fld) (ix : List Nat) (d : Nat) : p (s.bump f ix d) = p s := hp.regs

theorem State.ReportView.raiseBit (f : Fld) (ix : List Nat) : p (s.raiseBit f ix) = p s :=
  State.raiseBit_keeps s p (fun _ _ => hp.regs) (fun _ _ => hp.conv) f ix

theorem State.ReportView.count (r : RegDef) (ix : List Nat) (n : Nat) : p (s.count r ix n) = p s := hp.pmc

theorem State.ReportView.pmcCore (c code : Nat) (sub : Option Nat) : p (s.pmcCore c code sub) = p s :=
  State.pmcCore_keeps s p (fun _ _ => hp.regs) (fun _ _ => hp.pmc) c code sub

theorem State.ReportView.pmcDie (die code : Nat) (sub : Option Nat) : p (s.pmcDie die code sub) = p s :=
  State.pmcDie_keeps s p (fun _ _ => hp.regs) (fun _ _ => hp.pmc) die code sub

theorem State.ReportView.showSeq (c : Nat) : p (s.showSeq c) = p s :=
  State.showSeq_keeps s p (fun _ _ => hp.regs) (fun _ _ => hp.conv) c

/-! ### Faults, format errors and statuses -/

theorem State.ReportView.stopCrew (n : Nat) (st : Stop) : p (s.stopCrew n st) = p s := by
  unfold State.stopCrew
  exact hp.crew fun _ => rfl

theorem State.ReportView.modLaunch (n a : Nat) (f : Launch → Launch) : p (s.modLaunch n a f) = p s :=
  hp.crew fun _ => rfl

theorem State.ReportView.launchStatus (n a status : Nat) : p (s.launchStatus n a status) = p s := hp.modLaunch s n a _

theorem State.ReportView.raiseFault (f : Fault0) : p (s.raiseFault f) = p s := by
  have hwith : ∀ free g, p (s.withFault free g) = p s := fun _ _ => hp.flt.trans hp.free
  obtain ⟨free, g, -, h | h | ⟨n, st, h⟩, -⟩ := s.raiseFault_cases f
  · rw [h, hwith]
  · rw [h, State.stopAll, State.each_keeps _ p _ _ fun s n => hp.stopCrew s n _, hwith]
  · rw [h, hp.stopCrew, hwith]

theorem State.ReportView.ceRecord (count event : Nat) (f : Fault0 → Fault0) : p (s.ceRecord count event f) = p s := by
  unfold State.ceRecord
  split
  · exact hp.raiseFault s _
  · rfl

theorem State.ReportView.hardFault (c cls : Nat) : p (s.hardFault c cls) = p s := by
  unfold State.hardFault
  split
  · rfl
  · dsimp only
    split
    · exact (hp.stopCrew _ _ _).trans hp.flt
    · exact hp.flt

theorem State.ReportView.poisonFault (n : Nat) (f : Fault0) : p (s.poisonFault n f) = p s := by
  unfold State.poisonFault
  split
  · exact (hp.stopCrew _ _ _).trans ((hp.raiseFault _ _).trans (hp.modLaunch s _ _ _))
  · exact hp.raiseFault s _

theorem State.ReportView.formatError (c a : Nat) : p (s.formatError c a) = p s := by
  have hcore : p (s.modCore c fun k => { k with seq := { k.seq with stopped := true }, posts := [] }) = p s :=
    hp.core fun _ => rfl
  unfold State.formatError
  dsimp only
  split
  · exact (hp.modLaunch _ _ _ _).trans ((hp.launchStatus _ _ _ _).trans hcore)
  · exact hcore

theorem State.ReportView.seqError (c : Nat) : p (s.seqError c) = p s := by
  unfold State.seqError
  split
  · exact (hp.showSeq _ c).trans (hp.formatError s c _)
  · rfl

/-! ### Core store -/

theorem State.ReportView.putWord (c i data : Nat) (poison : Bool) : p (s.putWord c i data poison) = p s :=
  hp.core fun _ => rfl

theorem State.ReportView.countStoreUe (c : Nat) : p (s.countStoreUe c) = p s := by
  unfold State.countStoreUe
  dsimp only
  split_ifs
  · exact (hp.hardFault _ c 2).trans (hp.core fun _ => rfl)
  · exact hp.core fun _ => rfl

theorem State.ReportView.reportWord (c i : Nat) (r : WordRead) : p (s.reportWord c i r) = p s := by
  have hnote : ∀ s : State, p (s.modCore c fun k => { k with ceWb := k.ceWb ++ [i] }) = p s := fun _ => hp.core fun _ => rfl
  unfold State.reportWord
  dsimp only
  split
  · split
    · rfl
    · rw [hp.ceRecord, hnote, hp.setReg, hp.raiseBit, hp.bump]
  · split
    · rw [hp.raiseFault, hp.countStoreUe, hp.putWord, hp.setReg, hp.raiseBit, hp.bump]
    · rfl

theorem State.ReportView.readWord (c i : Nat) : p (s.readWord c i).2 = p s := hp.reportWord s c i _

theorem State.ReportView.readWords (c i n : Nat) : p (s.readWords c i n).2 = p s := by
  induction n generalizing s i with
  | zero => rfl
  | succ n ih => exact (ih _ _).trans (hp.readWord s c i)

theorem State.ReportView.storeRead (c a n : Nat) : p (s.storeRead c a n).2 = p s := by
  unfold State.storeRead
  split
  · rfl
  · exact (hp.readWords _ c _ _).trans (hp.count s _ _ _)

theorem State.ReportView.writeWord (c i pos : Nat) (data : List (Byte × Bool)) : p (s.writeWord c i pos data) = p s := by
  unfold State.writeWord
  dsimp only
  split
  · exact hp.putWord s _ _ _ _
  · exact (hp.putWord _ _ _ _ _).trans ((hp.readWord _ c i).trans (hp.count s _ _ _))

theorem State.ReportView.storeWriteFrom (c a : Nat) (data : List (Byte × Bool)) (fuel : Nat) :
    p (s.storeWriteFrom c a data fuel) = p s := by
  induction fuel generalizing s a data with
  | zero => rfl
  | succ fuel ih =>
    cases data with
    | nil => rfl
    | cons x r => exact (ih _ _ _).trans (hp.writeWord s _ _ _ _)

theorem State.ReportView.storeWrite (c a : Nat) (data : List (Byte × Bool)) : p (s.storeWrite c a data) = p s :=
  (hp.storeWriteFrom _ c a data _).trans (hp.count s _ _ _)

/-! ### HBM -/

theorem State.ReportView.burst (pa : Nat) (write : Bool) : p (s.burst pa write) = p s :=
  s.burst_keeps p (fun _ _ => hp.regs) (fun _ _ => hp.pmc) pa write

theorem State.ReportView.queueWb (pa : Nat) (poisoning : Bool) : p (s.queueWb pa poisoning) = p s :=
  s.queueWb_keeps p (fun _ _ => hp.regs) (fun _ _ => hp.conv) (fun _ _ => hp.wbq) pa poisoning

theorem State.ReportView.hbmErrAddr (pa kind : Nat) : p (s.hbmErrAddr pa kind) = p s := hp.regs.trans hp.regs

theorem State.ReportView.reportGran (pa name : Nat) (r : GranRead) : p (s.reportGran pa name r) = p s := by
  unfold State.reportGran
  dsimp only
  split
  · rw [hp.ceRecord, hp.queueWb, hp.hbmErrAddr, hp.raiseBit, hp.bump]
  · split
    · split
      · rw [hp.queueWb, hp.hbmErrAddr, hp.raiseBit, hp.bump]
      · rw [hp.raiseFault, hp.flt, hp.queueWb, hp.hbmErrAddr, hp.raiseBit, hp.bump]
    · split
      · exact hp.raiseBit s _ _
      · rfl

theorem State.ReportView.readGran (pa name : Nat) : p (s.readGran pa name).2 = p s :=
  (hp.reportGran _ pa name _).trans (hp.burst s pa false)

theorem State.ReportView.hbmReadFrom (a n fuel : Nat) : p (s.hbmReadFrom a n fuel).2 = p s := by
  induction fuel generalizing s a n with
  | zero => rfl
  | succ fuel ih =>
    unfold State.hbmReadFrom
    split
    · rfl
    · exact (ih _ _ _).trans (hp.readGran s _ a)

theorem State.ReportView.hbmBytes (a n : Nat) : p (s.hbmBytes a n).2 = p s := hp.hbmReadFrom s a n _

theorem State.ReportView.nocIn (c die n : Nat) : p (s.nocIn c die n) = p s := hp.pmc.trans hp.pmc

theorem State.ReportView.nocOut (c die n : Nat) : p (s.nocOut c die n) = p s := hp.pmc.trans hp.pmc

end

end Sys2Proof.Machine
end

section
/-!
PROOFS. What a write of core store leaves at the written addresses (06 R141).
-/
namespace Sys2Proof.Machine

variable (s : State)

/-! ### Little-endian bytes -/

@[simp] theorem length_natLe (n x : Nat) : (natLe n x).length = n := by
  induction n generalizing x with
  | zero => rfl
  | succ n ih => simp [natLe, ih]

theorem natLe_leNat (b : Bytes) : natLe b.length (leNat b) = b := by
  induction b with
  | nil => rfl
  | cons x r ih =>
    have hlow : BitVec.ofNat 8 (x.toNat + 256 * leNat r) = x := by
      apply BitVec.eq_of_toNat_eq
      have := x.isLt
      simp only [BitVec.toNat_ofNat]
      omega
    have hrest : (x.toNat + 256 * leNat r) / 256 = leNat r := by
      have := x.isLt
      omega
    simp only [List.length_cons, natLe, leNat, hlow, hrest, ih]

theorem toNat_getElem_natLe {n x i : Nat} (h : i < (natLe n x).length) : (natLe n x)[i].toNat = x / 256 ^ i % 256 := by
  induction n generalizing x i with
  | zero => exact absurd h (Nat.not_lt_zero i)
  | succ n ih =>
    cases i with
    | zero => simp [natLe]
    | succ i =>
      have hi : i < (natLe n (x / 256)).length := by simpa using h
      calc (natLe (n + 1) x)[i + 1].toNat = (natLe n (x / 256))[i].toNat := rfl
        _ = x / 256 / 256 ^ i % 256 := ih hi
        _ = x / 256 ^ (i + 1) % 256 := by rw [Nat.div_div_eq_div_mul, Nat.pow_succ']

@[simp] theorem length_plain (l : List (Byte × Bool)) : (plain l).length = l.length := List.length_map _

@[simp] theorem plain_clean (b : Bytes) : plain (clean b) = b := by simp [plain, clean, Function.comp_def]

/-! ### Words -/

theorem State.store_putWord (c i data : Nat) (poison : Bool) :
    ((s.putWord c i data poison).core c).store = Map.store unlisted (s.core c).store (8 * i) (natLe 8 data) := by
  rw [State.putWord, State.core_modCore_same]

/-- A byte outside the word is unchanged. -/
theorem State.storeAt_putWord_out {c i a : Nat} (data : Nat) (poison : Bool) (h : a < 8 * i ∨ 8 * i + 8 ≤ a) :
    (s.putWord c i data poison).storeAt c a = s.storeAt c a := by
  rw [State.storeAt, State.store_putWord, Map.getD_store_out _ _ _ _ (by simpa using h), State.storeAt]

/-- A word stored from its eight bytes reads as them. -/
theorem State.storeAt_putWord_leNat {c i j : Nat} {b : Bytes} (hlen : b.length = 8) (poison : Bool) (h : j < b.length) :
    (s.putWord c i (leNat b) poison).storeAt c (8 * i + j) = b[j] := by
  have hb : natLe 8 (leNat b) = b := hlen ▸ natLe_leNat b
  simp only [State.storeAt, State.store_putWord, hb]
  exact Map.getD_store_in b _ _ j h

theorem State.storeAt_modCore (c a : Nat) {d : Nat} {f : Core → Core} (h : ∀ k, (f k).store = k.store) :
    (s.modCore d f).storeAt c a = s.storeAt c a :=
  congrArg (Map.getD unlisted · a) (State.core_modCore_part Core.store h)

theorem State.storeAt_raiseFault (f : Fault0) (c a : Nat) : (s.raiseFault f).storeAt c a = s.storeAt c a :=
  State.raiseFault_keeps s (fun t => t.storeAt c a) (fun _ _ => rfl) (fun _ _ => rfl) (fun _ _ => rfl) f

theorem State.storeAt_ceRecord (count event : Nat) (f : Fault0 → Fault0) (c a : Nat) :
    (s.ceRecord count event f).storeAt c a = s.storeAt c a := by
  unfold State.ceRecord
  split
  · exact s.storeAt_raiseFault _ c a
  · rfl

theorem State.storeAt_countStoreUe (d c a : Nat) : (s.countStoreUe d).storeAt c a = s.storeAt c a := by
  have hmark : ∀ w, (s.modCore d fun k => { k with ueWin := w }).storeAt c a = s.storeAt c a := fun _ =>
    s.storeAt_modCore c a fun _ => rfl
  have hhard : ∀ s : State, (s.hardFault d 2).storeAt c a = s.storeAt c a := fun s =>
    State.hardFault_keeps s (fun t => t.storeAt c a) (fun _ _ => rfl) (fun _ _ => rfl) d 2
  simp only [State.countStoreUe, apply_ite (fun t : State => t.storeAt c a), hhard, hmark, ite_self]

/-- What a word's error leaves in the registers changes no byte. -/
theorem State.storeAt_noteError (f g : Fld) (ix : List Nat) (r : RegDef) (v : Word) (c a : Nat) :
    (((s.bump f ix 1).raiseBit g ix).setReg r ix v).storeAt c a = s.storeAt c a :=
  State.raiseBit_keeps (s.bump f ix 1) (fun t => t.storeAt c a) (fun _ _ => rfl) (fun _ _ => rfl) g ix

/-- The report of a read changes no byte outside the word. -/
theorem State.storeAt_reportWord_out {c i a : Nat} (r : WordRead) (h : a < 8 * i ∨ 8 * i + 8 ≤ a) :
    (s.reportWord c i r).storeAt c a = s.storeAt c a := by
  have hqueue : ∀ s : State, (s.modCore c fun k => { k with ceWb := k.ceWb ++ [i] }).storeAt c a = s.storeAt c a :=
    fun s => s.storeAt_modCore c a fun _ => rfl
  unfold State.reportWord
  dsimp only
  split
  · split
    · rfl
    · rw [State.storeAt_ceRecord, hqueue, State.storeAt_noteError]
  · split
    · rw [State.storeAt_raiseFault, State.storeAt_countStoreUe, State.storeAt_putWord_out _ _ _ h,
        State.storeAt_noteError]
    · rfl

/-! ### Runs of bytes -/

theorem State.storeAt_writeWord_out {c i a : Nat} (pos : Nat) (data : List (Byte × Bool))
    (h : a < 8 * i ∨ 8 * i + 8 ≤ a) : (s.writeWord c i pos data).storeAt c a = s.storeAt c a := by
  unfold State.writeWord
  dsimp only
  split
  · exact s.storeAt_putWord_out _ _ h
  · exact (State.storeAt_putWord_out _ _ _ h).trans (State.storeAt_reportWord_out _ _ h)

/-- A byte written into a word reads as written. -/
theorem State.storeAt_writeWord_in {c i pos j : Nat} {data : List (Byte × Bool)} (hfit : pos + data.length ≤ 8)
    (hj : j < data.length) : (s.writeWord c i pos data).storeAt c (8 * i + (pos + j)) = data[j].1 := by
  have hplain : (plain data)[j]'(by simpa using hj) = data[j].1 := List.getElem_map _
  unfold State.writeWord
  dsimp only
  split
  · next hlen =>
    obtain rfl : pos = 0 := by omega
    rw [Nat.zero_add, State.storeAt_putWord_leNat s (by simpa using hlen) _ (by simpa using hj), hplain]
  · next hlen =>
    generalize decodeWord _ _ = r
    rw [State.storeAt_putWord_leNat _ (by simp; omega) _ (by simp; omega), List.getElem_append_left (by simp; omega),
      List.getElem_append_right (by simp), ← hplain]
    congr 1
    simp
    omega

theorem State.storeAt_storeWriteFrom_out {c x : Nat} (fuel : Nat) {a : Nat} (data : List (Byte × Bool))
    (h : x < 8 * (a / 8)) : (s.storeWriteFrom c a data fuel).storeAt c x = s.storeAt c x := by
  induction fuel generalizing s a data with
  | zero => rfl
  | succ fuel ih =>
    cases data with
    | nil => rfl
    | cons y r => exact (ih _ _ (by omega)).trans (s.storeAt_writeWord_out _ _ (.inl h))

/-- The bytes of a run read as written, where the fuel reaches over the words that the run touches. -/
theorem State.storeAt_storeWriteFrom_in {c : Nat} (fuel : Nat) {a j : Nat} {data : List (Byte × Bool)}
    (hfuel : a % 8 + data.length ≤ 8 * fuel) (hj : j < data.length) :
    (s.storeWriteFrom c a data fuel).storeAt c (a + j) = data[j].1 := by
  induction fuel generalizing s a j data with
  | zero => omega
  | succ fuel ih =>
    cases data with
    | nil => exact absurd hj (Nat.not_lt_zero j)
    | cons y r =>
      have hlow : a + j = 8 * (a / 8) + (a % 8 + j) := by omega
      by_cases hj8 : j < 8 - a % 8
      · have hword : j < ((y :: r).take (8 - a % 8)).length := by simp; simp at hj; omega
        refine (State.storeAt_storeWriteFrom_out _ fuel _ (by omega)).trans ?_
        rw [hlow, s.storeAt_writeWord_in (by simp; omega) hword, List.getElem_take]
      · have hrest : j - (8 - a % 8) < ((y :: r).drop (8 - a % 8)).length := by simp; simp at hj; omega
        have hstep := ih (s := s.writeWord c (a / 8) (a % 8) ((y :: r).take (8 - a % 8))) (a := a + (8 - a % 8))
          (by simp; simp at hfuel; omega) hrest
        have hindex : 8 - a % 8 + (j - (8 - a % 8)) = j := by omega
        simp only [List.getElem_drop, Nat.add_assoc, hindex] at hstep
        exact hstep

/-- A write of core store puts its bytes at its addresses. -/
theorem State.storeAt_storeWrite {c a j : Nat} {data : List (Byte × Bool)} (hj : j < data.length) :
    (s.storeWrite c a data).storeAt c (a + j) = data[j].1 :=
  State.storeAt_storeWriteFrom_in _ _ (by omega) hj

end Sys2Proof.Machine
end

section
/-!
PROOFS. The tally operations of a core (03 R84, R85, R89, R90): what a tally's new value and the operation's leaving its queue
change.
-/
namespace Sys2Proof.Machine

variable (s : State) {β : Type}

/-! ### A tally's value -/

@[simp] theorem State.tally_modTally_same (k : Nat) (f : Tally → Tally) : (s.modTally k f).tally k = f (s.tally k) :=
  Map.getD_setD_same _ _ _ _

theorem State.tally_modTally_ne {i k : Nat} (h : i ≠ k) (f : Tally → Tally) : (s.modTally k f).tally i = s.tally i :=
  Map.getD_setD_ne _ _ _ h _

/-- What sees neither tallies nor held waits does not see a tally's new value. -/
theorem State.CoreView.putTally {p : State → β} (hp : State.CoreView Core.unheld p)
    (htallies : ∀ s x, p (State.setTallies s x) = p s) (k : Nat) (v : Word) : p (s.putTally k v) = p s :=
  (hp.settleAll _).trans (htallies _ _)

theorem State.tally_putTally (k i : Nat) (v : Word) : (s.putTally k v).tally i = (s.modTally k fun x => { x with value := v }).tally i :=
  have hview : State.CoreView Core.unheld fun t => t.tally i := .of_blind (fun _ _ => rfl) (fun _ _ => rfl)
  hview.settleAll _

theorem State.value_putTally (k : Nat) (v : Word) : ((s.putTally k v).tally k).value = v := by
  rw [State.tally_putTally, State.tally_modTally_same]

theorem State.tally_putTally_ne {i k : Nat} (h : i ≠ k) (v : Word) : (s.putTally k v).tally i = s.tally i := by
  rw [State.tally_putTally, State.tally_modTally_ne _ h]

/-! ### The operation leaves its queue -/

/-- What sees neither registers nor cores does not see an operation's leaving. -/
theorem State.nextTally_keeps (p : State → β) (hregs : ∀ s x, p (State.setRegs s x) = p s)
    (hcores : ∀ s x, p (State.setCores s x) = p s) (c : Nat) (q : QCmd) : p (s.nextTally c q) = p s :=
  have hview : State.CoreView Core.unheld p := .of_blind hregs hcores
  (hview.settleCore _ c).trans ((hview.untraced.traceEnd _ c 0 0 q).trans (hcores _ _))

theorem State.unheld_core_nextTally (c : Nat) (q : QCmd) :
    ((s.nextTally c q).core c).unheld = ({ s.core c with tq := (s.core c).tq.tail } : Core).unheld := by
  have hview := State.CoreView.of_core Core.unheld c
  rw [State.nextTally, hview.settleCore, hview.untraced.traceEnd, State.core_modCore_same]

theorem State.tq_nextTally {c : Nat} {q : QCmd} {r : List QCmd} (h : (s.core c).tq = q :: r) :
    ((s.nextTally c q).core c).tq = r := by
  obtain ⟨-, htq, -⟩ := Core.unheld_parts (s.unheld_core_nextTally c q)
  rw [htq, h, List.tail_cons]

/-- A tally operation that writes no tally leaves its queue and the frame of its performing. -/
theorem State.nextTally_frame {u : State} {c : Nat} {q : QCmd} {r : List QCmd}
    (hframe : u.memoryAndTallies = s.memoryAndTallies) (htq : (u.core c).tq = q :: r) :
    (u.nextTally c q).tallies = s.tallies ∧ ((u.nextTally c q).core c).tq = r ∧ s.sameMemory (u.nextTally c q) := by
  have hnext := (u.nextTally_keeps State.memoryAndTallies (fun _ _ => rfl) (fun _ _ => rfl) c q).trans hframe
  obtain ⟨hmem, htallies⟩ := State.sameMemory_tallies_of_eq hnext
  exact ⟨htallies, u.tq_nextTally htq, hmem⟩

/-- A tally operation that gives a tally a value, from a state with the memories, tallies and queue of `s`. -/
theorem State.putTally_nextTally {u : State} {c : Nat} {q : QCmd} {r : List QCmd}
    (hframe : u.memoryAndTallies = s.memoryAndTallies) (htq : (u.core c).tq = q :: r) (k : Nat) (v : Word) :
    (((u.putTally k v).nextTally c q).tally k).value = v
      ∧ (∀ i, i ≠ k → ((u.putTally k v).nextTally c q).tally i = s.tally i)
      ∧ (((u.putTally k v).nextTally c q).core c).tq = r ∧ s.sameMemory ((u.putTally k v).nextTally c q) := by
  obtain ⟨hsame, htallies⟩ := Prod.mk.inj hframe
  have hnext : ∀ i, ((u.putTally k v).nextTally c q).tally i = (u.putTally k v).tally i := fun i =>
    State.nextTally_keeps _ (fun t => t.tally i) (fun _ _ => rfl) (fun _ _ => rfl) c q
  have hqueue : ((u.putTally k v).core c).tq = q :: r := by
    obtain ⟨-, hput, -⟩ := Core.unheld_parts
      ((State.CoreView.of_core Core.unheld c).putTally u (fun _ _ => rfl) k v)
    rw [hput, htq]
  have hmem : ((u.putTally k v).nextTally c q).memory = u.memory :=
    (State.nextTally_keeps _ State.memory (fun _ _ => rfl) (fun _ _ => rfl) c q).trans <|
      State.CoreView.putTally u (.of_blind (fun _ _ => rfl) (fun _ _ => rfl)) (fun _ _ => rfl) k v
  refine ⟨?_, fun i hi => ?_, State.tq_nextTally _ hqueue, ?_⟩
  · rw [hnext, State.value_putTally]
  · rw [hnext, State.tally_putTally_ne _ hi, State.tally, htallies, State.tally]
  · exact State.sameMemory_of_eq (hmem.trans hsame)

end Sys2Proof.Machine
end

section
/-!
PROOFS. What a sequencer's going on changes (03 R65, R66, R70): opening an entry touches its waits and whether it has stopped, and
going on through the table its sequencer, its postings and what it has prefetched.
-/
namespace Sys2Proof.Machine

variable (s : State) {β : Type}

/-! ### Opening an entry -/

section
variable {p : State → β} (hp : State.ReportView p)
include hp

theorem State.ReportView.tableWord (c n : Nat) (t : TableRef) (i : Nat) : p (s.tableWord c n t i).2 = p s := by
  unfold State.tableWord
  dsimp only
  split
  · rfl
  · split
    · split
      · exact hp.storeRead s c _ 32
      · rfl
    · split
      · exact (hp.hbmBytes _ _ 32).trans (hp.nocIn s c _ 32)
      · rfl

theorem State.ReportView.openWaits (c n a : Nat) (h : CmdWord) (off : Nat) : p (s.openWaits c n a h off) = p s := by
  have hwaits : ∀ (ws : Option (List Wait)) (due : Seq → Nat), p (s.modSeq c fun q => { q with waits := ws, due := due q }) = p s := fun _ _ =>
    hp.core fun _ => rfl
  simp only [State.openWaits, hp.showSeq, apply_ite p, hp.pmcCore, hp.launchStatus, ite_self]
  exact hwaits _ _

theorem State.ReportView.openHeader (c n a : Nat) (h : CmdWord) (bad : Bool) : p (s.openHeader c n a h bad) = p s := by
  have hstop : ∀ s : State, p (s.modSeq c fun q => { q with stopped := true }) = p s := fun _ => hp.core fun _ => rfl
  unfold State.openHeader
  dsimp only
  split
  · rw [hp.showSeq, hstop, hp.poisonFault]
  · split
    · exact hp.seqError s c
    · exact hp.openWaits s c n a h _

/-- Opening the next entry changes what a read, a fault or a wait changes. -/
theorem State.ReportView.openEntry (c : Nat) : p (s.openEntry c) = p s := by
  unfold State.openEntry
  dsimp only
  split
  · split
    · rfl
    · split
      · exact (hp.seqError _ c).trans (hp.tableWord s c _ _ _)
      · split
        · rfl
        · exact (hp.openHeader _ c _ _ _ _).trans (hp.tableWord s c _ _ _)
  · rfl

end

/-! ### Going on -/

/-- A core but for its sequencer, what that has posted and prefetched, and what reads change. -/
def Core.unsequenced (k : Core) : Core := { k.unread with seq := {}, pre := [] }

theorem Core.unsequenced_congr {k l : Core} (h : k.unread = l.unread) : k.unsequenced = l.unsequenced :=
  congrArg (fun u : Core => { u with seq := {}, pre := [] }) h

/-- The fields of a core that the statements speak of and a sequencer's going on leaves alone. -/
theorem Core.unsequenced_parts {k l : Core} (h : k.unsequenced = l.unsequenced) :
    k.nextTag = l.nextTag ∧ k.waits = l.waits ∧ k.fences = l.fences ∧ k.trc = l.trc ∧ k.tq = l.tq :=
  ⟨(congrArg Core.nextTag h :), (congrArg Core.waits h :), (congrArg Core.fences h :), (congrArg Core.trc h :),
    (congrArg Core.tq h :)⟩

/-- A view that sees nothing of what a sequencer's going on changes. -/
structure State.SequencerView (p : State → β) : Prop extends State.ReportView p where
  seq : ∀ {s c f}, (∀ k, Core.unsequenced (f k) = Core.unsequenced k) → p (State.modCore s c f) = p s

theorem State.SequencerView.of_core (d : Nat) : State.SequencerView fun s => (s.core d).unsequenced where
  regs := rfl
  core h := State.core_modCore_part Core.unsequenced fun k => Core.unsequenced_congr (h k)
  conv := rfl
  pmc := rfl
  flt := rfl
  free := rfl
  wbq := rfl
  crew _ := rfl
  seq := State.core_modCore_part Core.unsequenced

/-- What sees no core is such a view if it sees nothing of what a read changes. -/
theorem State.ReportView.sequencerView {p : State → β} (hp : State.ReportView p)
    (hcores : ∀ s x, p (State.setCores s x) = p s) : State.SequencerView p :=
  ⟨hp, fun _ => hcores _ _⟩

section
variable {p : State → β} (hp : State.SequencerView p)
include hp

theorem State.SequencerView.modSeq (c : Nat) (f : Seq → Seq) : p (s.modSeq c f) = p s := hp.seq fun _ => rfl

theorem State.SequencerView.endPart (c : Nat) : p (s.endPart c) = p s := by
  have hend : ∀ posts, p (s.modCore c fun k => { k with
      posts := posts
      pre := k.pre.filter fun p => k.dmaq.any fun q => decide (q.entry = p.entry ∧ q.word = p.word)
      seq := { k.seq with ended := true, held := [], waits := none, loops := [], caller := none, ahead := 0, specs := [] }
      }) = p s := fun _ => hp.seq fun _ => rfl
  unfold State.endPart
  dsimp only
  split
  · rw [hp.showSeq, hp.modLaunch, hend]
  · rw [hp.showSeq, hend]

theorem State.SequencerView.entryDone (c : Nat) : p (s.entryDone c) = p s := by
  unfold State.entryDone
  dsimp only
  split
  · exact hp.showSeq s c
  · split
    · rw [hp.endPart, hp.modSeq]
    · rw [hp.showSeq, hp.openEntry, hp.modSeq]

end

end Sys2Proof.Machine
end

section
/-!
PROOFS. ADD, SET, READ and WAIT_GE of a core (O11): 03 R69, R84 to R86, R89, R90.
-/
namespace Sys2Proof.Machine

variable (s : State)

/-! ### ADD -/

/-- The state in which a local ADD's posting has ended and the core's own ADDs of the stroke are noted (R89 rules 1 and 2). -/
def State.addNoted (s : State) (c k : Nat) (v : Word) : State :=
  (s.endPost c false k).modCore c fun x => { x with added := Map.setD 0 x.added k (Map.getD 0 x.added k + v) }

theorem State.tq_addNoted (c k : Nat) (v : Word) : ((s.addNoted c k v).core c).tq = (s.core c).tq := by
  rw [State.addNoted, State.core_modCore_same, State.endPost, State.core_modCore_same]

theorem State.memoryAndTallies_addNoted (c k : Nat) (v : Word) :
    (s.addNoted c k v).memoryAndTallies = s.memoryAndTallies := rfl

theorem State.localAdd_of_own {c n : Nat} {q : QCmd} (hown : s.tallyOf n (talNum q.word) = true) :
    s.localAdd c n q = (s.addNoted c (talNum q.word) (talValue q.word)).putTally (talNum q.word)
      ((s.tally (talNum q.word)).value + talValue q.word) :=
  if_pos hown

section
variable {s} {c n : Nat} {q : QCmd} {r : List QCmd} (hcrew : s.crewOf c = some n) (hworks : s.coreWorks c = true)
  (hq : (s.core c).tq = q :: r)
include hcrew hworks hq

theorem execTallyAddCmd_of_local (hop : talOp q.word = 0) (hlocal : wbits q.word 231 231 = 0) (hstart : q.started = false)
    (hreleased : (s.core c).released (unitOf q.word) q.tag = true) :
    execTallyAddCmd c s = .next ((s.localAdd c n q).nextTally c q) := by
  simp [execTallyAddCmd, hcrew, hworks, hq, hop, hlocal, hstart, hreleased]

/-! ### SET and READ -/

theorem execTallySetCmd_of_set (hop : talOp q.word = 2) :
    execTallySetCmd c s = .next ((s.localSet c n q).nextTally c q) := by
  simp [execTallySetCmd, hcrew, hworks, hq, hop]

theorem execTallyReadCmd_of_read (hop : talOp q.word = 3) (hwait : s.mustWait c (talNum q.word) = false) :
    execTallyReadCmd c s = .next ((s.localRead c n q).nextTally c q) := by
  simp [execTallyReadCmd, hcrew, hworks, hq, hop, hwait]

end

theorem State.localSet_of_privileged {c n : Nat} {q : QCmd} (hown : s.tallyOf n (talNum q.word) = true)
    (hpriv : (s.ctx (ctxOf q.word)).privileged = true) :
    s.localSet c n q = if s.fixed then
        s.setTabSets (s.tabSets ++ [{ isSet := true, tally := talNum q.word, value := talValue q.word, core := c }])
      else s.putTally (talNum q.word) (talValue q.word) := by
  simp [State.localSet, hown, hpriv]

theorem State.localRead_of_own {c n : Nat} {q : QCmd} (hown : s.tallyOf n (talNum q.word) = true) :
    s.localRead c n q =
      s.storeWrite c (wbits q.word 158 137) (clean (natLe 4 (s.observed c (talNum q.word)).toNat)) :=
  if_pos hown

theorem State.tq_storeWrite (c a : Nat) (data : List (Byte × Bool)) :
    ((s.storeWrite c a data).core c).tq = (s.core c).tq := by
  obtain ⟨-, htq, -⟩ := Core.unread_parts ((State.ReportView.of_core c).storeWrite s c a data)
  exact htq

/-- A value written to core store stands there byte by byte, little-endian, while its operation leaves the queue. -/
theorem State.storeAt_storeWrite_natLe_nextTally {c a i : Nat} {q : QCmd} {x : Nat} (hi : i < 4) :
    (((s.storeWrite c a (clean (natLe 4 x))).nextTally c q).storeAt c (a + i)).toNat = x / 256 ^ i % 256 := by
  have hlen : i < (clean (natLe 4 x)).length := by simpa [clean] using hi
  obtain ⟨hstore, -⟩ := Core.unheld_parts ((s.storeWrite c a (clean (natLe 4 x))).unheld_core_nextTally c q)
  rw [State.storeAt, hstore]
  refine (congrArg BitVec.toNat (s.storeAt_storeWrite hlen)).trans ?_
  simp only [clean, List.getElem_map]
  exact toNat_getElem_natLe _

/-! ### WAIT_GE -/

/-- The waits of a core after it is settled: those begun or current go when they are satisfied (R85). -/
theorem State.waits_settleCore (c : Nat) :
    ((s.settleCore c).core c).waits = (s.core c).waits.filterMap (s.settleWait (s.core c)) := by
  have hview : State.CoreView Core.untraced fun t => (t.core c).waits :=
    ⟨rfl, fun h => State.core_modCore_part Core.waits fun k => (congrArg Core.waits (h k) :)⟩
  unfold State.settleCore
  dsimp only
  split
  · next h =>
    obtain ⟨hwaits, -⟩ := h
    rw [hwaits, List.filterMap_nil]
  · refine (State.each_keeps _ (fun t => (t.core c).waits) _ _ fun s q => hview.traceEnd s c 0 0 q).trans ?_
    rw [State.core_modCore_same]

/-- A wait that its tally does not satisfy stays, begun or not. -/
theorem State.settleWait_of_unsatisfied (k : Core) {w : UWait} (h : s.holds w.wait = false) :
    ∃ x, s.settleWait k w = some x ∧ x.unit = w.unit ∧ x.wait.tally = w.wait.tally ∧ x.wait.value = w.wait.value := by
  simp only [State.settleWait, h]
  split
  · split
    · next hholds => cases hholds
    · split <;> exact ⟨_, rfl, rfl, rfl, rfl⟩
  · exact ⟨_, rfl, rfl, rfl, rfl⟩

/-- A WAIT_GE as its units hold it until it is current. -/
def State.heldWait (s : State) (q : QCmd) (w : CmdWord) : UWait :=
  { unit := unitOf w
    cmd := q
    wait := { tally := talNum w, value := talValue w, timeout := wbits w 198 191, w := s.stk.num, since := s.raw, begun := false } }

/-- The state in which the next word of a core has been taken, with its BEGIN. -/
def State.wordTaken (s : State) (c : Nat) (w : CmdWord) : State := (s.popWord c).traceBegin c ((s.core c).qcmd w)

/-- The state in which a WAIT_GE has been taken and is held, before it is settled. -/
def State.waitTaken (s : State) (c : Nat) (w : CmdWord) : State :=
  (s.wordTaken c w).modCore c fun k => { k with waits := k.waits ++ [(s.wordTaken c w).heldWait ((s.core c).qcmd w) w] }

theorem State.wordTaken_keeps {β : Type} (p : State → β) (hregs : ∀ s x, p (State.setRegs s x) = p s)
    (hcores : ∀ s x, p (State.setCores s x) = p s) (c : Nat) (w : CmdWord) : p (s.wordTaken c w) = p s :=
  (State.traceBegin_keeps _ p hregs hcores c _).trans (hcores _ _)

theorem execWaitGe_of_own {c n : Nat} {w : CmdWord} {r : List CmdWord} (hcrew : s.crewOf c = some n)
    (hheld : (s.core c).seq.held = w :: r) (hcls : wbits w 255 252 = 4) (hop : talOp w = 1)
    (hready : s.wordReady c = true) (hbad : s.wordBad c w = false) (hwaits : (s.core c).waits = [])
    (hown : s.tallyOf n (talNum w) = true) :
    execWaitGe c s = .next (((s.waitTaken c w).settleCore c).entryDone c) := by
  have hown' : (s.wordTaken c w).tallyOf n (talNum w) = true :=
    (s.wordTaken_keeps (fun t => t.tallyOf n (talNum w)) (fun _ _ => rfl) (fun _ _ => rfl) c w).trans hown
  rw [State.wordTaken] at hown'
  simp only [execWaitGe, hheld, hcrew, hcls, hop, hready, hbad, hwaits, hown']
  simp [State.waitTaken, State.wordTaken, State.heldWait]

theorem State.tallies_waitTaken_goOn (c : Nat) (w : CmdWord) :
    (((s.waitTaken c w).settleCore c).entryDone c).tallies = s.tallies := by
  have hview : State.SequencerView State.tallies :=
    ⟨⟨⟨rfl, fun _ => rfl⟩, rfl, rfl, rfl, rfl, rfl, fun _ => rfl⟩, fun _ => rfl⟩
  have hsettle := (State.CoreView.of_blind (part := Core.unheld) (p := State.tallies) (fun _ _ => rfl) fun _ _ => rfl)
  rw [hview.entryDone, hsettle.settleCore]
  exact s.wordTaken_keeps State.tallies (fun _ _ => rfl) (fun _ _ => rfl) c w

/-- The unsatisfied WAIT_GE is held when the sequencer has gone on. -/
theorem State.held_of_unsatisfied {c : Nat} {w : CmdWord} (h : serial32 (s.tally (talNum w)).value (talValue w) < 0) :
    ∃ x ∈ ((((s.waitTaken c w).settleCore c).entryDone c).core c).waits,
      x.unit = unitOf w ∧ x.wait.tally = talNum w ∧ x.wait.value = talValue w := by
  have htally : (s.waitTaken c w).tally (talNum w) = s.tally (talNum w) :=
    s.wordTaken_keeps (fun t => t.tally (talNum w)) (fun _ _ => rfl) (fun _ _ => rfl) c w
  have hunsat : (s.waitTaken c w).holds ((s.wordTaken c w).heldWait ((s.core c).qcmd w) w).wait = false := by
    simp only [State.holds, State.heldWait, htally]
    simpa using h
  obtain ⟨x, hsettle, hunit, hnum, hvalue⟩ := State.settleWait_of_unsatisfied _ ((s.waitTaken c w).core c) hunsat
  obtain ⟨-, hwaits, -⟩ := Core.unsequenced_parts
    ((State.SequencerView.of_core c).entryDone ((s.waitTaken c w).settleCore c) c)
  refine ⟨x, ?_, hunit, hnum, hvalue⟩
  rw [hwaits, State.waits_settleCore, List.mem_filterMap]
  refine ⟨_, ?_, hsettle⟩
  simp [State.waitTaken]

end Sys2Proof.Machine

namespace Sys2Proof.Proofs
open Sys2Proof.Machine

/-- Settles O11: an operation that gives a tally a value, and the end of each operation, change nothing else that the
statement speaks of (`State.putTally_nextTally`, `State.nextTally_frame`); a READ's four bytes stand where they were written,
and an unsatisfied WAIT_GE stays held while the sequencer goes on. -/
theorem tallyCommandsActOnTheirTally : Obligations.TallyCommandsActOnTheirTally := by
  intro s c n hcrew hworks
  refine ⟨fun q r hq => ?_, fun w r hheld hcls hop hready hbad hwaits hown hunsat => ?_⟩
  · intro k hown
    refine ⟨fun hop hlocal hstart hreleased => ?_, fun hop hpriv hfixed => ?_, fun hop hpriv hfixed => ?_,
      fun hop hwait => ?_⟩
    · refine ⟨_, execTallyAddCmd_of_local hcrew hworks hq hop hlocal hstart hreleased, ?_⟩
      rw [s.localAdd_of_own hown]
      exact s.putTally_nextTally (s.memoryAndTallies_addNoted c _ _) ((s.tq_addNoted c k (talValue q.word)).trans hq) _ _
    · refine ⟨_, execTallySetCmd_of_set hcrew hworks hq hop, ?_⟩
      rw [s.localSet_of_privileged hown hpriv, hfixed]
      exact s.putTally_nextTally (u := s) rfl hq _ _
    · refine ⟨_, execTallySetCmd_of_set hcrew hworks hq hop, ?_⟩
      rw [s.localSet_of_privileged hown hpriv, if_pos hfixed]
      obtain ⟨htallies, hqueue, hmem⟩ := s.nextTally_frame (c := c) (q := q) (r := r) (u := s.setTabSets (s.tabSets ++
        [{ isSet := true, tally := talNum q.word, value := talValue q.word, core := c }])) rfl hq
      exact ⟨htallies, hqueue, hmem, State.nextTally_keeps _ State.tabSets (fun _ _ => rfl) (fun _ _ => rfl) c q⟩
    · refine ⟨_, execTallyReadCmd_of_read hcrew hworks hq hop hwait, ?_⟩
      rw [s.localRead_of_own hown]
      obtain ⟨htallies, hqueue, hmem⟩ := s.nextTally_frame
        (State.ReportView.memoryAndTallies.storeWrite s c _ _) ((s.tq_storeWrite c _ _).trans hq)
      exact ⟨htallies, hqueue, hmem, fun i hi => s.storeAt_storeWrite_natLe_nextTally hi⟩
  · exact ⟨_, execWaitGe_of_own s hcrew hheld hcls hop hready hbad hwaits hown, s.tallies_waitTaken_goOn c w,
      s.held_of_unsatisfied hunsat⟩

end Sys2Proof.Proofs
end

section
/-!
PROOFS. The control words that take no item (O12): NOP, FENCE, LOOP, END, STEP and MARK (03 R70, R90; 15 R377).
-/
namespace Sys2Proof.Machine

variable (s : State)

/-! ### A control word is taken -/

theorem State.wordReady_of_ctlWord {c op : Nat} {w : CmdWord} (h : s.ctlWord c op = some w) : s.wordReady c = true := by
  unfold State.ctlWord at h
  split at h
  · split at h
    · next hready =>
      obtain ⟨-, -, hready, -⟩ := hready
      exact hready
    · cases h
  · cases h

theorem State.ended_of_wordReady {c : Nat} (h : s.wordReady c = true) : (s.core c).seq.ended = false := by
  simp only [State.wordReady, Bool.and_eq_true, Bool.not_eq_true'] at h
  obtain ⟨⟨⟨-, hended⟩, -⟩, -⟩ := h
  exact hended

/-- A core whose next word has been taken. -/
def Core.popped (k : Core) : Core := { k with nextTag := k.nextTag + 1, seq := { k.seq with held := k.seq.held.tail } }

theorem State.untraced_core_wordTaken (c : Nat) (w : CmdWord) :
    ((s.wordTaken c w).core c).untraced = (s.core c).popped.untraced := by
  rw [State.wordTaken, (State.CoreView.of_core Core.untraced c).traceBegin, State.popWord, State.core_modCore_same,
    Core.popped]

theorem State.ctlDone_eq (c : Nat) (w : CmdWord) :
    s.ctlDone c w = (s.wordTaken c w).traceEnd c 0 0 ((s.core c).qcmd w) := rfl

theorem State.untraced_core_ctlDone (c : Nat) (w : CmdWord) :
    ((s.ctlDone c w).core c).untraced = (s.core c).popped.untraced := by
  rw [State.ctlDone_eq, (State.CoreView.of_core Core.untraced c).traceEnd, State.untraced_core_wordTaken]

theorem State.seq_ctlDone (c : Nat) (w : CmdWord) :
    ((s.ctlDone c w).core c).seq = { (s.core c).seq with held := (s.core c).seq.held.tail } := by
  obtain ⟨-, -, -, -, -, hseq⟩ := Core.untraced_parts (s.untraced_core_ctlDone c w)
  exact hseq

/-! ### What every control word does -/

/-- The number of words a core has taken, and the tallies. -/
def State.issued (s : State) (c : Nat) := ((s.core c).nextTag, s.tallies)

theorem State.SequencerView.issued (c : Nat) : State.SequencerView fun t => t.issued c := by
  have hpart : ∀ {s : State} {d : Nat} {f : Core → Core}, (∀ k, Core.unsequenced (f k) = Core.unsequenced k) →
      (s.modCore d f).issued c = s.issued c := fun h =>
    congrArg (·, _) (State.core_modCore_part Core.nextTag fun k => (Core.unsequenced_parts (h k)).1)
  exact ⟨⟨⟨rfl, fun h => hpart fun k => Core.unsequenced_congr (h k)⟩, rfl, rfl, rfl, rfl, rfl, fun _ => rfl⟩, hpart⟩

/-- A command word has been taken on the way from `s` to `t`, and no tally has changed. -/
def State.Issued (s : State) (c : Nat) (t : State) : Prop :=
  (t.core c).nextTag = (s.core c).nextTag + 1 ∧ t.tallies = s.tallies

theorem State.Issued.of_eq {s t u : State} {c : Nat} (h : s.Issued c u) (ht : t.issued c = u.issued c) : s.Issued c t := by
  obtain ⟨htag, htallies⟩ := Prod.mk.inj ht
  obtain ⟨hnext, hsame⟩ := h
  exact ⟨htag.trans hnext, htallies.trans hsame⟩

theorem State.Issued.entryDone {s u : State} {c : Nat} (h : s.Issued c u) : s.Issued c (u.entryDone c) :=
  h.of_eq ((State.SequencerView.issued c).entryDone u c)

theorem State.Issued.modSeq {s u : State} {c : Nat} (h : s.Issued c u) (f : Seq → Seq) : s.Issued c (u.modSeq c f) :=
  h.of_eq ((State.SequencerView.issued c).modSeq u c f)

theorem State.issued_wordTaken (c : Nat) (w : CmdWord) : s.Issued c (s.wordTaken c w) := by
  obtain ⟨-, -, -, -, htag, -⟩ := Core.untraced_parts (s.untraced_core_wordTaken c w)
  exact ⟨htag, s.wordTaken_keeps State.tallies (fun _ _ => rfl) (fun _ _ => rfl) c w⟩

theorem State.CoreView.issued (c : Nat) : State.CoreView Core.untraced fun t => t.issued c :=
  ⟨rfl, fun h => congrArg (·, _) (State.core_modCore_part Core.nextTag fun k => (congrArg Core.nextTag (h k) :))⟩

theorem State.issued_ctlDone (c : Nat) (w : CmdWord) : s.Issued c (s.ctlDone c w) :=
  (s.issued_wordTaken c w).of_eq ((State.CoreView.issued c).traceEnd _ c 0 0 _)

/-! ### Where the sequencer goes on -/

theorem State.entryDone_of_held {c : Nat} (h : (s.core c).seq.held ≠ []) : s.entryDone c = s.showSeq c := if_pos h

theorem State.core_showSeq (c : Nat) : (s.showSeq c).core c = s.core c :=
  s.showSeq_keeps (fun t => t.core c) (fun _ _ => rfl) (fun _ _ => rfl) c

theorem State.core_modLaunch (n a : Nat) (f : Launch → Launch) (c : Nat) : (s.modLaunch n a f).core c = s.core c := rfl

/-- Within a pass of a LOOP the next entry is the first of those left. -/
theorem Seq.onward_of_left {q : Seq} {f : LoopFrame} {outer : List LoopFrame} {x : Nat} {r : List Nat} (hheld : q.held = [])
    (hloops : q.loops = f :: outer) (hleft : f.left = x :: r) :
    q.onward q.depth = { q with pos := x, loops := { f with left := r } :: outer } := by
  simp [Seq.depth, Seq.onward, hheld, hloops, hleft]

/-- A table at its end, with no caller, is over. -/
theorem Seq.onward_of_over {q : Seq} (hheld : q.held = []) (hloops : q.loops = []) (hpos : q.pos = q.table.len)
    (hcaller : q.caller = none) : q.onward q.depth = { q with ended := true } := by
  simp [Seq.depth, Seq.onward, hheld, hloops, hpos, hcaller]

/-- While entries follow, the sequencer stands at the next one in its loops. -/
theorem State.seq_entryDone_of_more {c : Nat} {q : Seq} (hheld : (s.core c).seq.held = [])
    (hq : (s.core c).seq.onward (s.core c).seq.depth = q) (hended : q.ended = false) :
    ((s.entryDone c).core c).seq.pos = q.pos ∧ ((s.entryDone c).core c).seq.loops = q.loops := by
  have hdone : s.entryDone c = ((s.modSeq c fun _ => q).openEntry c).showSeq c := by
    simp [State.entryDone, hheld, hq, hended]
  obtain ⟨-, -, hpos, hloops⟩ := Core.unread_parts ((State.ReportView.of_core c).openEntry (s.modSeq c fun _ => q) c)
  rw [hdone, State.core_showSeq, hpos, hloops, State.modSeq, State.core_modCore_same]
  exact ⟨rfl, rfl⟩

theorem State.seq_endPart (c : Nat) : ((s.endPart c).core c).seq.ended = true ∧ ((s.endPart c).core c).seq.held = [] := by
  unfold State.endPart
  dsimp only
  split
  · rw [State.core_showSeq, State.core_modLaunch, State.core_modCore_same]
    exact ⟨rfl, rfl⟩
  · rw [State.core_showSeq, State.core_modCore_same]
    exact ⟨rfl, rfl⟩

theorem State.seq_entryDone_of_over {c : Nat} (hheld : (s.core c).seq.held = []) (hloops : (s.core c).seq.loops = [])
    (hpos : (s.core c).seq.pos = (s.core c).seq.table.len) (hcaller : (s.core c).seq.caller = none) :
    ((s.entryDone c).core c).seq.ended = true ∧ ((s.entryDone c).core c).seq.held = [] := by
  have hdone : s.entryDone c = (s.modSeq c fun _ => { (s.core c).seq with ended := true }).endPart c := by
    simp [State.entryDone, hheld, Seq.onward_of_over hheld hloops hpos hcaller]
  rw [hdone]
  exact State.seq_endPart _ c

/-! ### FENCE -/

/-- The FENCEs of a core after it is settled: those go whose orders are met (R90 rule 4). -/
theorem State.fences_settleCore (c : Nat) : ((s.settleCore c).core c).fences =
    (s.core c).fences.filter fun f => !(s.core c).fencePast f.tag := by
  have hview : State.CoreView Core.untraced fun t => (t.core c).fences :=
    ⟨rfl, fun h => State.core_modCore_part Core.fences fun k => (congrArg Core.fences (h k) :)⟩
  unfold State.settleCore
  dsimp only
  split
  · next h =>
    obtain ⟨-, hfences, -⟩ := h
    rw [hfences, List.filter_nil]
  · refine (State.each_keeps _ (fun t => (t.core c).fences) _ _ fun s q => hview.traceEnd s c 0 0 q).trans ?_
    rw [State.core_modCore_same]

/-- The state in which a FENCE has been taken, before it is settled. -/
def State.fenceTaken (s : State) (c : Nat) (w : CmdWord) : State :=
  (s.wordTaken c w).modCore c fun k => { k with fences := k.fences ++ [(s.core c).qcmd w] }

theorem State.fencePast_wordTaken (c : Nat) (w : CmdWord) (tag : Nat) :
    ((s.wordTaken c w).core c).fencePast tag = (s.core c).fencePast tag :=
  (congrArg (fun k : Core => k.fencePast tag) (s.untraced_core_wordTaken c w) :)

theorem State.issued_fenceTaken (c : Nat) (w : CmdWord) : s.Issued c ((s.fenceTaken c w).settleCore c) := by
  have hview : State.CoreView Core.unheld fun t => t.issued c :=
    ⟨rfl, fun h => congrArg (·, _) (State.core_modCore_part Core.nextTag fun k => (congrArg Core.nextTag (h k) :))⟩
  have hfence : (s.fenceTaken c w).issued c = (s.wordTaken c w).issued c :=
    congrArg (·, _) (State.core_modCore_part Core.nextTag fun _ => rfl)
  exact (s.issued_wordTaken c w).of_eq ((hview.settleCore _ c).trans hfence)

/-- A FENCE whose orders are not met is held when the sequencer has gone on. -/
theorem State.fence_mem_of_not_past {c : Nat} (w : CmdWord) (h : (s.core c).fencePast (s.core c).nextTag = false) :
    (s.core c).qcmd w ∈ ((((s.fenceTaken c w).settleCore c).entryDone c).core c).fences := by
  obtain ⟨-, -, hfences, -⟩ := Core.unsequenced_parts
    ((State.SequencerView.of_core c).entryDone ((s.fenceTaken c w).settleCore c) c)
  have hpast : ((s.fenceTaken c w).core c).fencePast (s.core c).nextTag = false := by
    rw [State.fenceTaken, State.core_modCore_same]
    exact (s.fencePast_wordTaken c w _).trans h
  rw [hfences, State.fences_settleCore, List.mem_filter]
  refine ⟨?_, by simpa [Core.qcmd] using hpast⟩
  rw [State.fenceTaken, State.core_modCore_same]
  exact List.mem_append_right _ (List.mem_singleton_self _)

/-! ### MARK -/

theorem wbits_lt (w : CmdWord) (hi lo : Nat) : wbits w hi lo < 2 ^ (hi + 1 - lo) := Nat.mod_lt _ (Nat.two_pow_pos _)

/-- A core of crew `n`, whose trace is on, has staged fewer than `m` records, and none is to be reported lost. -/
structure State.TraceRoom (s : State) (c n m : Nat) : Prop where
  crew : s.crewOf c = some n
  enabled : s.isSet F.TRC_CTL_enable [n] = true
  room : (s.core c).trc.length < m
  kept : (s.core c).trcReset = false
  lossless : (s.core c).trcLoss = none

theorem State.trc_stageTrace_of_room {c : Nat} (hroom : (s.core c).trc.length < 255) (n : Nat) (r : Trc) :
    r ∈ ((s.stageTrace c n r).core c).trc := by
  rw [State.stageTrace, if_neg hroom.not_ge, State.core_modCore_same]
  exact List.mem_append_right _ (List.mem_singleton_self r)

theorem State.TraceRoom.stageTrace {s : State} {c n m : Nat} (h : s.TraceRoom c n m) (hm : m ≤ 255) (r : Trc) :
    (s.stageTrace c n r).TraceRoom c n (m + 1) := by
  obtain ⟨hcrew, henabled, hroom, hkept, hlossless⟩ := h
  have hshort : ¬ 255 ≤ (s.core c).trc.length := by omega
  simp only [State.stageTrace, if_neg hshort, hkept, hlossless]
  refine ⟨hcrew, henabled, ?_, ?_, ?_⟩ <;> rw [State.core_modCore_same]
  simpa using hroom

/-- With room a trace record is staged. -/
theorem State.TraceRoom.trace {s : State} {c n m : Nat} (h : s.TraceRoom c n m) (hm : m ≤ 255) (kind how : Nat) (word : CmdWord)
    (entry accept detail : Nat) : ∃ r ∈ ((s.trace c kind how word entry accept detail).core c).trc,
      (r.kind = kind ∧ r.detail = detail % 2 ^ 32 ∧ r.core = c) ∧
      (s.trace c kind how word entry accept detail).TraceRoom c n (m + 1) := by
  simp only [State.trace, h.crew, h.enabled, if_true]
  exact ⟨_, s.trc_stageTrace_of_room (h.room.trans_le hm) n _, ⟨rfl, rfl, rfl⟩, h.stageTrace hm _⟩

theorem State.core_setReg (r : RegDef) (ix : List Nat) (v : Word) (c : Nat) : (s.setReg r ix v).core c = s.core c := rfl

theorem State.mem_trc_trace {c : Nat} {r : Trc} (h : r ∈ (s.core c).trc) (kind how : Nat) (word : CmdWord)
    (entry accept detail : Nat) : r ∈ ((s.trace c kind how word entry accept detail).core c).trc := by
  unfold State.trace
  split
  · exact h
  · split
    · unfold State.stageTrace
      dsimp only
      split
      · rw [State.core_setReg, State.core_modCore_same]
        exact h
      · rw [State.core_modCore_same]
        exact List.mem_append_left _ (List.mem_append_left _ h)
    · exact h

/-- The state in which a MARK has been taken and has left its record. -/
def State.marked (s : State) (c : Nat) (w : CmdWord) : State :=
  (s.wordTaken c w).trace c 3 0 ((s.core c).qcmd w).word ((s.core c).qcmd w).entry ((s.core c).qcmd w).accept (wbits w 159 128)

theorem State.issued_marked (c : Nat) (w : CmdWord) : s.Issued c ((s.marked c w).traceEnd c 0 0 ((s.core c).qcmd w)) :=
  (s.issued_wordTaken c w).of_eq
    (((State.CoreView.issued c).traceEnd _ c 0 0 _).trans ((State.CoreView.issued c).trace _ c _ _ _ _ _ _))

/-- The record of a MARK stands in the trace buffer when the sequencer has gone on. -/
theorem State.TraceRoom.mark {s : State} {c n : Nat} (h : s.TraceRoom c n 250) (w : CmdWord) :
    ∃ r ∈ ((((s.marked c w).traceEnd c 0 0 ((s.core c).qcmd w)).entryDone c).core c).trc,
      r.kind = 3 ∧ r.detail = wbits w 159 128 ∧ r.core = c := by
  have hpop : (s.popWord c).TraceRoom c n 250 := by
    obtain ⟨hcrew, henabled, hroom, hkept, hlossless⟩ := h
    refine ⟨hcrew, henabled, ?_, ?_, ?_⟩ <;> rwa [State.popWord, State.core_modCore_same]
  obtain ⟨-, -, -, hbegin⟩ := hpop.trace (by decide) 1 0 ((s.core c).qcmd w).word ((s.core c).qcmd w).entry ((s.core c).qcmd w).accept 0
  obtain ⟨r, hmem, ⟨hkind, hdetail, hcore⟩, -⟩ := hbegin.trace (by decide) 3 0 ((s.core c).qcmd w).word ((s.core c).qcmd w).entry
    ((s.core c).qcmd w).accept (wbits w 159 128)
  refine ⟨r, ?_, hkind, hdetail.trans (Nat.mod_eq_of_lt (wbits_lt ..)), hcore⟩
  obtain ⟨-, -, -, htrc, -⟩ := Core.unsequenced_parts
    ((State.SequencerView.of_core c).entryDone ((s.marked c w).traceEnd c 0 0 ((s.core c).qcmd w)) c)
  rw [htrc]
  exact State.mem_trc_trace _ hmem _ _ _ _ _ _

end Sys2Proof.Machine
end

section
/-!
PROOFS. What a write to HBM changes beside what a read changes (07 R168; 13 R314, R316): memory and its check state, the
logbook's triggers, and of a crew its STATE pages, checkpoint and points.
-/
namespace Sys2Proof.Machine

variable (s : State) {β : Type}

/-- A crew but for its STATE pages, checkpoint and points, its stop and its launches. -/
def Crew.unmapped (k : Crew) : Crew :=
  { k.uncharged with pages := [], ckpt := none, points := [], unprot := false, freezePoint := false }

/-- A view that sees nothing of what a write to HBM changes. -/
structure State.WriteView (p : State → β) : Prop extends State.ReportView p where
  mem : ∀ {s x}, p (State.setMem s x) = p s
  gran : ∀ {s x}, p (State.setGran s x) = p s
  cox : ∀ {s x}, p (State.setCox s x) = p s
  pages : ∀ {s n f}, (∀ k, Crew.unmapped (f k) = Crew.unmapped k) → p (State.modCrew s n f) = p s

theorem State.WriteView.of_crew (n : Nat) : State.WriteView fun s => (s.crew n).unmapped where
  regs := rfl
  core _ := rfl
  conv := rfl
  pmc := rfl
  flt := rfl
  free := rfl
  wbq := rfl
  mem := rfl
  gran := rfl
  cox := rfl
  crew h := State.crew_modCrew_part Crew.unmapped fun k => congrArg (fun u : Crew =>
    { u with pages := [], ckpt := none, points := [], unprot := false, freezePoint := false }) (h k)
  pages := State.crew_modCrew_part Crew.unmapped

section
variable {p : State → β} (hp : State.WriteView p)
include hp

/-! ### Granules -/

theorem State.WriteView.staleWb (pa : Nat) : p (s.staleWb pa) = p s := hp.wbq

theorem State.WriteView.putGran (pa : Nat) (data : Bytes) (poison : Bool) : p (s.putGran pa data poison) = p s :=
  hp.gran.trans (hp.mem.trans (hp.burst s pa true))

theorem State.WriteView.writeGran (pa name pos : Nat) (data : Bytes) (poisoned : Bool) :
    p (s.writeGran pa name pos data poisoned) = p s := by
  unfold State.writeGran
  dsimp only
  split
  · rw [hp.putGran, hp.staleWb]
  · split
    · rw [hp.putGran, hp.staleWb, hp.burst]
    · rw [hp.putGran, hp.staleWb, hp.reportGran, hp.burst]

/-! ### Frames of STATE pages -/

theorem State.WriteView.releaseCopies (n : Nat) : p (s.releaseCopies n) = p s :=
  (hp.setFld _ _ _ _).trans (hp.pages fun _ => rfl)

theorem State.WriteView.endCkpt (n status : Nat) : p (s.endCkpt n status) = p s := by
  have hcrew : p (s.modCrew n fun k => { k with ckpt := none }) = p s := hp.pages fun _ => rfl
  simp only [State.endCkpt, hp.releaseCopies, hp.setFld, hcrew]

theorem State.WriteView.unprotect (n : Nat) : p (s.unprotect n) = p s := by
  have hcrew : p (s.modCrew n fun k => { k with points := [], unprot := true, freezePoint := false }) = p s :=
    hp.pages fun _ => rfl
  have htrigger : ∀ s : State, p (s.chkTrigger n) = p s := fun _ => hp.cox
  simp only [State.unprotect, htrigger, hp.releaseCopies, hp.setFld, hp.raiseBit, hcrew]

theorem State.WriteView.takeFrame (n page f : Nat) : p (s.takeFrame n page f) = p s := by
  refine (hp.setFld _ _ _ _).trans (hp.pages fun k => ?_)
  split <;> rfl

theorem State.WriteView.firstWrite (a : Nat) : p (s.firstWrite a) = p s := by
  have hframe : ∀ (u : State) (n f : Nat), p ((u.takeFrame n (a / 2 ^ 21) f).pmcDie (stackOf a / 4) 0x50 none) = p u :=
    fun _ _ _ => (hp.pmcDie _ _ _ _).trans (hp.takeFrame _ _ _ _)
  unfold State.firstWrite
  split
  · rfl
  · next n q _ =>
    split
    · split
      · exact hframe s n _
      · extract_lets copying u
        have hu : p u = p s := by
          unfold u
          split
          · exact hp.endCkpt s n 4
          · rfl
        clear_value u
        rw [← hu]
        split
        · split
          · split
            · exact hframe u n _
            · exact hp.unprotect u n
          · rfl
        · rfl
    · rfl

theorem State.WriteView.markFilled (n page line : Nat) : p (s.markFilled n page line) = p s := by
  have hpage : ∀ q, p (s.modCrew n fun k => { k with pages := Map.insert page q k.pages }) = p s := fun _ =>
    hp.pages fun _ => rfl
  unfold State.markFilled
  split
  · split
    · dsimp only
      simp only [apply_ite p, hp.releaseCopies, hpage, ite_self]
    · rfl
  · rfl

theorem State.WriteView.copyLine (src dst name : Nat) : p (s.copyLine src dst name) = p s := by
  refine (State.each_keeps _ p _ _ fun s g => ?_).trans (hp.pmcDie s _ _ _)
  exact (hp.putGran _ _ _ _).trans ((hp.staleWb _ _).trans (hp.readGran s _ _))

theorem State.WriteView.readyLine (a : Nat) (whole : Bool) : p (s.readyLine a whole) = p s := by
  unfold State.readyLine
  split
  · rfl
  · dsimp only
    split
    · rfl
    · split
      · rfl
      · split
        · exact hp.markFilled s _ _ _
        · exact (hp.markFilled _ _ _ _).trans (hp.copyLine s _ _ _)

/-! ### Runs of bytes -/

theorem State.WriteView.hbmWriteIn (a : Nat) (data : List (Byte × Bool)) (fuel : Nat) :
    p (s.hbmWriteIn a data fuel) = p s := by
  induction fuel generalizing s a data with
  | zero => rfl
  | succ fuel ih =>
    cases data with
    | nil => rfl
    | cons x r => exact (ih _ _ _).trans (hp.writeGran s _ _ _ _ _)

theorem State.WriteView.hbmWriteFrom (a : Nat) (data : List (Byte × Bool)) (fuel : Nat) :
    p (s.hbmWriteFrom a data fuel) = p s := by
  induction fuel generalizing s a data with
  | zero => rfl
  | succ fuel ih =>
    cases data with
    | nil => rfl
    | cons x r =>
      refine (ih _ _ _).trans ((hp.hbmWriteIn _ _ _ _).trans ?_)
      exact (hp.readyLine _ _ _).trans (hp.firstWrite s a)

theorem State.WriteView.hbmPut (a : Nat) (data : List (Byte × Bool)) : p (s.hbmPut a data) = p s :=
  hp.hbmWriteFrom s a data _

theorem State.WriteView.stateWritePoison (n : Nat) (core : Option Nat) (unit a : Nat) (d : List (Byte × Bool)) :
    p (s.stateWritePoison n core unit a d) = p s := by
  unfold State.stateWritePoison
  dsimp only
  split
  · rfl
  · exact hp.poisonFault s n _

end

end Sys2Proof.Machine
end

section
/-!
PROOFS. The control words (O12): POOL_TAKE and POOL_PUT, and all of them together (03 R70, R90, R92, R93; 15 R377).
-/
namespace Sys2Proof.Machine

variable (s : State)

/-! ### Pools -/

theorem getD_modifyAt {α : Type} (f : α → α) (d : α) {i : Nat} {l : List α} (h : i < l.length) :
    (modifyAt f i l).getD i d = f (l.getD i d) := by
  induction l generalizing i with
  | nil => cases h
  | cons x r ih =>
    cases i with
    | zero => rfl
    | succ i => exact ih (Nat.lt_of_succ_lt_succ h)

theorem State.pool_modPool {n i : Nat} (hi : i ≤ 3) (f : Pool → Pool) :
    ((s.modPool n i f).crew n).pool i = f ((s.crew n).pool i) := by
  have hlen : i < ((s.crew n).pools ++ List.replicate (4 - (s.crew n).pools.length) ({} : Pool)).length := by
    rw [List.length_append, List.length_replicate]
    omega
  rw [State.modPool, State.crew_modCrew_same, Crew.pool, getD_modifyAt f {} hlen, Crew.pool]
  congr 1
  by_cases h : i < (s.crew n).pools.length
  · exact List.getD_append _ _ _ _ h
  · rw [List.getD_append_right _ _ _ _ (Nat.le_of_not_lt h), List.getD_eq_default _ _ (Nat.le_of_not_lt h)]
    exact List.getD_replicate _ (by omega)

/-- A pool stays where nothing of a crew but its STATE pages, checkpoint, points, stop and launches changes. -/
theorem Crew.pool_of_unmapped {k l : Crew} (h : k.unmapped = l.unmapped) (i : Nat) : k.pool i = l.pool i :=
  (congrArg (fun u : Crew => u.pool i) h :)

/-- The parts of a crew that the statements speak of and a sequencer's going on leaves alone. -/
theorem Crew.uncharged_parts {k l : Crew} (h : k.uncharged = l.uncharged) :
    k.stepNext = l.stepNext ∧ ∀ i, k.pool i = l.pool i :=
  ⟨(congrArg Crew.stepNext h :), fun i => (congrArg (fun u : Crew => u.pool i) h :)⟩

theorem State.SequencerView.of_crew (n : Nat) : State.SequencerView fun t => (t.crew n).uncharged :=
  (State.ReportView.of_crew n).sequencerView fun _ _ => rfl

theorem State.crew_ctlDone (c : Nat) (w : CmdWord) (n : Nat) : (s.ctlDone c w).crew n = s.crew n :=
  (State.traceEnd_keeps _ (fun t => t.crew n) (fun _ _ => rfl) (fun _ _ => rfl) c 0 0 _).trans <|
    s.wordTaken_keeps (fun t => t.crew n) (fun _ _ => rfl) (fun _ _ => rfl) c w

theorem State.memoryAndTallies_ctlDone (c : Nat) (w : CmdWord) :
    (s.ctlDone c w).memoryAndTallies = s.memoryAndTallies :=
  (State.traceEnd_keeps _ State.memoryAndTallies (fun _ _ => rfl) (fun _ _ => rfl) c 0 0 _).trans <|
    s.wordTaken_keeps State.memoryAndTallies (fun _ _ => rfl) (fun _ _ => rfl) c w

/-- A word taken from a state with the tags and tallies of `s`. -/
theorem State.Issued.of_start {s t u : State} {c : Nat} (h : u.Issued c t) (hu : u.issued c = s.issued c) : s.Issued c t := by
  obtain ⟨htag, htallies⟩ := Prod.mk.inj hu
  obtain ⟨hnext, hsame⟩ := h
  exact ⟨hnext.trans (congrArg (· + 1) htag), hsame.trans htallies⟩

/-! ### POOL_TAKE -/

/-- The state in which the item of a pool that stands at an address of HBM has been read. -/
def State.itemRead (s : State) (c a : Nat) : State := ((s.nocIn c (stackOf a / 4) 32).hbmBytes a 32).2

theorem State.ReportView.itemRead {β : Type} {p : State → β} (hp : State.ReportView p) (c a : Nat) :
    p (s.itemRead c a) = p s :=
  (hp.hbmBytes _ a 32).trans (hp.nocIn s c _ 32)

theorem State.issued_modPool (n i : Nat) (f : Pool → Pool) (c : Nat) : (s.modPool n i f).issued c = s.issued c := rfl

/-- Where an item of a pool stands in its ring (R92). -/
def Pool.itemAddr (p : Pool) (ord : Nat) : Nat := p.base + 32 * (ord % p.cap)

/-- The state in which the item a take receives has been read and has left its pool. -/
def State.itemTaken (s : State) (c n i : Nat) (x : PoolItem) : State :=
  (s.itemRead c (((s.crew n).pool i).itemAddr x.ord)).modPool n i fun pl =>
    { pl with items := pl.items.filter fun y => decide (y.ord ≠ x.ord) }

theorem State.issued_itemTaken (c n i : Nat) (x : PoolItem) : (s.itemTaken c n i x).issued c = s.issued c := by
  rw [State.itemTaken, State.issued_modPool, (State.SequencerView.issued c).itemRead]

theorem State.items_itemTaken (c n : Nat) {i : Nat} (hi : i ≤ 3) (x : PoolItem) :
    (((s.itemTaken c n i x).crew n).pool i).items
      = ((s.crew n).pool i).items.filter fun y => decide (y.ord ≠ x.ord) := by
  obtain ⟨-, hread⟩ := Crew.uncharged_parts
    ((State.ReportView.of_crew n).itemRead s c (((s.crew n).pool i).itemAddr x.ord))
  rw [State.itemTaken, State.pool_modPool _ hi, hread]

section
variable {s} {c n : Nat} {w : CmdWord} (hw : s.ctlWord c 5 = some w) (hcrew : s.crewOf c = some n)
  (hcaller : (s.core c).seq.caller = none) (hfences : (s.core c).fences = []) (hi : wbits w 186 183 ≤ 3)
  (hdata : inData (wbits w 181 160) 32 = true)

include hcaller hi hdata in
theorem poolTake_wellFormed :
    ((s.core c).seq.caller.isSome || !inData (wbits w 181 160) 32 || decide (3 < wbits w 186 183)) = false := by
  simp [hcaller, hdata, hi]

include hw hcrew hcaller hfences hi hdata

theorem execPoolTake_of_none (hitem : s.nextItem n c ((s.crew n).pool (wbits w 186 183)) = none) :
    execPoolTake c s =
      .next (((s.ctlDone c w).storeWrite c (wbits w 181 160) (clean (List.replicate 32 0))).entryDone c) := by
  simp [execPoolTake, hw, hcrew, poolTake_wellFormed hcaller hi hdata, hfences, hitem]

/-- A take of an item: what the sequencer goes on from has the word taken and the item gone. -/
theorem execPoolTake_of_some {x : PoolItem} (hitem : s.nextItem n c ((s.crew n).pool (wbits w 186 183)) = some x) :
    ∃ v, execPoolTake c s = .next (v.entryDone c) ∧ s.Issued c v
      ∧ (v.crew n).uncharged = ((s.itemTaken c n (wbits w 186 183) x).crew n).uncharged := by
  have hissued := State.SequencerView.issued c
  have hcrews := State.SequencerView.of_crew n
  have htaken := s.issued_itemTaken c n (wbits w 186 183) x
  have hdone := (s.itemTaken c n (wbits w 186 183) x).issued_ctlDone c w
  simp only [execPoolTake, hw, hcrew, poolTake_wellFormed hcaller hi hdata, hfences, hitem, Bool.false_eq_true, if_false,
    ne_eq, not_true_eq_false]
  split
  · refine ⟨_, rfl, (State.issued_ctlDone _ c w).of_start ((hissued.poisonFault _ _ _).trans htaken), ?_⟩
    rw [State.crew_ctlDone]
    exact hcrews.poisonFault _ _ _
  · refine ⟨_, rfl, ((hdone.of_eq (hissued.storeWrite _ _ _ _)).modSeq _).of_start htaken, ?_⟩
    exact (hcrews.modSeq _ _ _).trans
      ((hcrews.storeWrite _ _ _ _).trans (congrArg Crew.uncharged (State.crew_ctlDone _ c w n)))

end

/-! ### POOL_PUT -/

theorem State.WriteView.issued (c : Nat) : State.WriteView fun t => t.issued c where
  toReportView := (State.SequencerView.issued c).toReportView
  mem := rfl
  gran := rfl
  cox := rfl
  pages _ := rfl

theorem State.WriteView.stk : State.WriteView State.stk where
  regs := rfl
  core _ := rfl
  conv := rfl
  pmc := rfl
  flt := rfl
  free := rfl
  wbq := rfl
  crew _ := rfl
  mem := rfl
  gran := rfl
  cox := rfl
  pages _ := rfl

/-- The state in which 32 bytes of core store have been written to an address of HBM for crew `n`. -/
def State.itemWritten (s : State) (c n a src : Nat) : State :=
  (((s.storeRead c src 32).2.nocOut c (stackOf a / 4) 32).hbmPut a (s.storeRead c src 32).1).stateWritePoison n (some c) 0xE a
    (s.storeRead c src 32).1

theorem State.WriteView.itemWritten {β : Type} {p : State → β} (hp : State.WriteView p) (c n a src : Nat) :
    p (s.itemWritten c n a src) = p s :=
  (hp.stateWritePoison _ _ _ _ _ _).trans <| (hp.hbmPut _ _ _).trans <| (hp.nocOut _ _ _ _).trans (hp.storeRead s c src 32)

/-- The state in which the item of a put stands in HBM and in its pool. -/
def State.itemPut (s : State) (c n i src : Nat) : State :=
  let u := s.itemWritten c n (((s.crew n).pool i).itemAddr ((s.crew n).pool i).nput) src
  u.modPool n i fun pl => { pl with
    nput := pl.nput + 1
    items := pl.items ++ [{ ord := ((s.crew n).pool i).nput, stroke := u.stk.num, core := c }] }

theorem State.issued_itemPut (c n i src : Nat) : (s.itemPut c n i src).issued c = s.issued c := by
  rw [State.itemPut, State.issued_modPool, (State.WriteView.issued c).itemWritten]

theorem State.pool_itemPut (c n : Nat) {i : Nat} (hi : i ≤ 3) (src : Nat) :
    ((s.itemPut c n i src).crew n).pool i = { (s.crew n).pool i with
      nput := ((s.crew n).pool i).nput + 1
      items := ((s.crew n).pool i).items ++ [{ ord := ((s.crew n).pool i).nput, stroke := s.stk.num, core := c }] } := by
  have hpool := Crew.pool_of_unmapped
    ((State.WriteView.of_crew n).itemWritten s c n (((s.crew n).pool i).itemAddr ((s.crew n).pool i).nput) src) i
  rw [State.itemPut, State.pool_modPool _ hi, hpool, State.WriteView.stk.itemWritten]

theorem execPoolPut_of_room {s : State} {c n : Nat} {w : CmdWord} (hw : s.ctlWord c 6 = some w) (hcrew : s.crewOf c = some n)
    (hfences : (s.core c).fences = []) (hi : wbits w 186 183 ≤ 3) (hdata : inData (wbits w 181 160) 32 = true)
    (hfull : ((s.crew n).pool (wbits w 186 183)).full = false) :
    execPoolPut c s = .next (((s.itemPut c n (wbits w 186 183) (wbits w 181 160)).ctlDone c w).entryDone c) := by
  have hguard : (!inData (wbits w 181 160) 32 || decide (3 < wbits w 186 183)) = false := by simp [hdata, hi]
  simp only [execPoolPut, hw, hcrew, hguard, hfences, hfull, Bool.false_eq_true, if_false, ne_eq, not_true_eq_false]
  rfl

end Sys2Proof.Machine
end

section
/-!
PROOFS. The control words together (O12): what each goes on from, and what of it shows when the sequencer has gone on.
-/
namespace Sys2Proof.Machine

variable {s : State} {c n : Nat} {w : CmdWord}

/-! ### Each word that takes no item -/

theorem execCtlNop_of_word (hw : s.ctlWord c 0 = some w) : execCtlNop c s = .next ((s.ctlDone c w).entryDone c) := by
  simp [execCtlNop, hw]

theorem execFenceCmd_of_word (hw : s.ctlWord c 1 = some w) :
    execFenceCmd c s = .next (((s.fenceTaken c w).settleCore c).entryDone c) := by
  simp [execFenceCmd, hw, State.fenceTaken, State.wordTaken]

/-- The pass frame of a LOOP that runs `es` again: its word's count and stride, and the rest of the entry that holds it. -/
def Seq.loopFrame (q : Seq) (w : CmdWord) (es : List Nat) : LoopFrame where
  entries := es
  left := es
  pass := 1
  count := wbits w 231 216
  stride := wbits w 202 187
  base := q.shift
  rest := q.held.tail
  resume := q.pos

/-- The state in which a LOOP has been taken and its passes stand before the sequencer. -/
def State.looped (s : State) (c : Nat) (w : CmdWord) (es : List Nat) : State :=
  (s.ctlDone c w).modSeq c fun q => { q with held := [], loops := (s.core c).seq.loopFrame w es :: q.loops }

theorem execLoopCmd_of_passes (hw : s.ctlWord c 2 = some w) {before : List Nat}
    (hbefore : (s.core c).seq.starts.filter (fun y => decide (y < (s.core c).seq.entry)) = before)
    (hback : 0 < wbits w 215 203) (hlen : wbits w 215 203 ≤ before.length) (hcount : 0 < wbits w 231 216) :
    execLoopCmd c s =
      .next ((s.looped c w (before.drop (before.length - wbits w 215 203))).entryDone c) := by
  have hguard : ¬ (wbits w 215 203 = 0 ∨ before.length < wbits w 215 203) := by omega
  simp only [execLoopCmd, hw, hbefore, if_neg hguard, if_neg hcount.ne']
  rfl

theorem State.seq_looped (es : List Nat) : ((s.looped c w es).core c).seq =
    { (s.core c).seq with held := [], loops := (s.core c).seq.loopFrame w es :: (s.core c).seq.loops } := by
  rw [State.looped, State.modSeq, State.core_modCore_same, State.seq_ctlDone]

/-- The state in which an END has been taken, with the table at its end. -/
def State.tableEnded (s : State) (c : Nat) (w : CmdWord) : State :=
  (s.ctlDone c w).modSeq c fun q => { q with held := [], loops := [], pos := q.table.len }

theorem execEndTable_of_word (hw : s.ctlWord c 3 = some w) :
    execEndTable c s = .next ((s.tableEnded c w).entryDone c) := by
  simp [execEndTable, hw, State.tableEnded]

theorem State.seq_tableEnded : ((s.tableEnded c w).core c).seq =
    { (s.core c).seq with held := [], loops := [], pos := (s.core c).seq.table.len } := by
  rw [State.tableEnded, State.modSeq, State.core_modCore_same, State.seq_ctlDone]

/-- The state in which a STEP has been taken. -/
def State.stepAsked (s : State) (c n : Nat) (w : CmdWord) : State :=
  (s.ctlDone c w).modCrew n fun k => { k with stepNext := true }

theorem execStepCmd_of_word (hw : s.ctlWord c 4 = some w) (hcrew : s.crewOf c = some n) :
    execStepCmd c s = .next ((s.stepAsked c n w).entryDone c) := by
  simp [execStepCmd, hw, hcrew, State.stepAsked]

theorem State.issued_stepAsked : s.Issued c (s.stepAsked c n w) := s.issued_ctlDone c w

theorem execMarkCmd_of_word (hw : s.ctlWord c 7 = some w) :
    execMarkCmd c s = .next (((s.marked c w).traceEnd c 0 0 ((s.core c).qcmd w)).entryDone c) := by
  simp [execMarkCmd, hw, State.marked, State.wordTaken]

/-! ### What shows when the sequencer has gone on -/

/-- While a word is left of its entry, only the word taken has left the sequencer, and core store stays. -/
theorem State.core_nop (hlen : 2 ≤ (s.core c).seq.held.length) :
    (((s.ctlDone c w).entryDone c).core c).seq = { (s.core c).seq with held := (s.core c).seq.held.tail }
      ∧ (((s.ctlDone c w).entryDone c).core c).store = (s.core c).store := by
  have hheld : ((s.ctlDone c w).core c).seq.held ≠ [] := by
    rw [State.seq_ctlDone, ← List.length_pos_iff, List.length_tail]
    omega
  obtain ⟨hstore, -, -, -, -, hseq⟩ := Core.untraced_parts (s.untraced_core_ctlDone c w)
  rw [State.entryDone_of_held _ hheld, State.core_showSeq]
  exact ⟨hseq, hstore⟩

/-- A LOOP goes back to the first of its entries, in pass 1. -/
theorem State.seq_loop {es : List Nat} {x : Nat} (hended : (s.core c).seq.ended = false) (hfirst : es.head? = some x) :
    (((s.looped c w es).entryDone c).core c).seq.pos = x
      ∧ (((s.looped c w es).entryDone c).core c).seq.loops.head?
          = some { (s.core c).seq.loopFrame w es with left := es.tail } := by
  have hseq := s.seq_looped (c := c) (w := w) es
  have hleft : ((s.core c).seq.loopFrame w es).left = x :: es.tail := (List.cons_head?_tail hfirst).symm
  obtain ⟨hpos, hloops⟩ := State.seq_entryDone_of_more (s.looped c w es) (c := c) (by rw [hseq])
    (Seq.onward_of_left (by rw [hseq]) (by rw [hseq]) hleft) (by rw [hseq]; exact hended)
  exact ⟨hpos, congrArg List.head? hloops⟩

theorem State.seq_end (hcaller : (s.core c).seq.caller = none) :
    (((s.tableEnded c w).entryDone c).core c).seq.ended = true ∧ (((s.tableEnded c w).entryDone c).core c).seq.held = [] := by
  have hseq := s.seq_tableEnded (c := c) (w := w)
  exact State.seq_entryDone_of_over _ (by rw [hseq]) (by rw [hseq]) (by rw [hseq]) (by rw [hseq]; exact hcaller)

theorem State.stepNext_step : (((s.stepAsked c n w).entryDone c).crew n).stepNext = true := by
  obtain ⟨hstep, -⟩ := Crew.uncharged_parts ((State.SequencerView.of_crew n).entryDone (s.stepAsked c n w) c)
  rw [hstep, State.stepAsked, State.crew_modCrew_same]

/-! ### POOL_TAKE on an empty pool -/

/-- The state in which a take of an empty pool has written its zero item. -/
def State.zeroItem (s : State) (c : Nat) (w : CmdWord) : State :=
  (s.ctlDone c w).storeWrite c (wbits w 181 160) (clean (List.replicate 32 0))

theorem State.issued_zeroItem : s.Issued c (s.zeroItem c w) :=
  (s.issued_ctlDone c w).of_eq ((State.SequencerView.issued c).storeWrite _ c _ _)

theorem State.sameMemory_zeroItem : s.sameMemory ((s.zeroItem c w).entryDone c) := by
  have hview : State.SequencerView State.memoryAndTallies := State.ReportView.memoryAndTallies.sequencerView fun _ _ => rfl
  obtain ⟨hmem, -⟩ := State.sameMemory_tallies_of_eq <|
    (hview.entryDone _ c).trans ((hview.storeWrite _ c _ _).trans (s.memoryAndTallies_ctlDone c w))
  exact hmem

/-- While a word is left of its entry, the zero item stands in core store. -/
theorem State.storeAt_zeroItem (hlen : 2 ≤ (s.core c).seq.held.length) {i : Nat} (hi : i < 32) :
    ((s.zeroItem c w).entryDone c).storeAt c (wbits w 181 160 + i) = 0 := by
  have hunread := (State.ReportView.of_core c).storeWrite (s.ctlDone c w) c (wbits w 181 160) (clean (List.replicate 32 0))
  have hheld : ((s.zeroItem c w).core c).seq.held = (s.core c).seq.held.tail :=
    (congrArg (fun k : Core => k.seq.held) hunread :).trans (congrArg Seq.held (s.seq_ctlDone c w))
  have hmore : ((s.zeroItem c w).core c).seq.held ≠ [] := by
    rw [hheld, ← List.length_pos_iff, List.length_tail]
    omega
  have hlength : i < (clean (List.replicate 32 0)).length := by simpa [clean] using hi
  rw [State.entryDone_of_held _ hmore, State.storeAt, State.core_showSeq]
  refine (State.storeAt_storeWrite _ hlength).trans ?_
  simp only [clean, List.getElem_map, List.getElem_replicate]

end Sys2Proof.Machine

namespace Sys2Proof.Proofs
open Sys2Proof.Machine

/-- Settles O12: a control word leaves the sequencer and touches no tally (`State.Issued`), which is kept while the sequencer
goes on; what the word itself did is looked up where it goes on from. -/
theorem controlCommandsSteerTheSequencer : Obligations.ControlCommandsSteerTheSequencer := by
  intro s c n hcrew
  refine ⟨fun w hw => ?nop, fun w hw hpast => ?fence, fun w x hw hback hlen hcount hfirst => ?loop,
    fun w hw hcaller => ?table, fun w hw => ?step, fun w hw henabled hroom hkept hlossless => ?mark,
    fun w hw hcaller hfences hi hdata => ⟨fun hitem hlen => ?takeNone, fun x hitem => ?takeSome⟩,
    fun w hw hfences hi hdata hfull => ?put⟩
  case nop => exact ⟨_, execCtlNop_of_word hw, (s.issued_ctlDone c w).entryDone, State.core_nop⟩
  case fence =>
    exact ⟨_, execFenceCmd_of_word hw, (s.issued_fenceTaken c w).entryDone, _, s.fence_mem_of_not_past w hpast, rfl⟩
  case loop =>
    have hended := s.ended_of_wordReady (s.wordReady_of_ctlWord hw)
    obtain ⟨hpos, hloops⟩ := State.seq_loop (w := w) hended hfirst
    exact ⟨_, execLoopCmd_of_passes hw rfl hback hlen hcount, ((s.issued_ctlDone c w).modSeq _).entryDone, hpos, _, hloops,
      rfl, rfl, rfl, rfl, rfl⟩
  case table =>
    exact ⟨_, execEndTable_of_word hw, ((s.issued_ctlDone c w).modSeq _).entryDone, State.seq_end hcaller⟩
  case step => exact ⟨_, execStepCmd_of_word hw hcrew, State.issued_stepAsked.entryDone, State.stepNext_step⟩
  case mark =>
    have htrace : s.TraceRoom c n 250 := ⟨hcrew, henabled, hroom, hkept, hlossless⟩
    exact ⟨_, execMarkCmd_of_word hw, (s.issued_marked c w).entryDone, htrace.mark w⟩
  case takeNone =>
    exact ⟨_, execPoolTake_of_none hw hcrew hcaller hfences hi hdata hitem, State.issued_zeroItem.entryDone,
      State.sameMemory_zeroItem, fun i hi => State.storeAt_zeroItem hlen hi⟩
  case takeSome =>
    obtain ⟨v, hexec, hissued, hcrewv⟩ := execPoolTake_of_some hw hcrew hcaller hfences hi hdata hitem
    obtain ⟨-, hpools⟩ := Crew.uncharged_parts (((State.SequencerView.of_crew n).entryDone v c).trans hcrewv)
    refine ⟨_, hexec, hissued.entryDone, ?_⟩
    rw [hpools, s.items_itemTaken c n hi]
  case put =>
    let u := s.itemPut c n (wbits w 186 183) (wbits w 181 160)
    obtain ⟨-, hpools⟩ := Crew.uncharged_parts (((State.SequencerView.of_crew n).entryDone (u.ctlDone c w) c).trans
      (congrArg Crew.uncharged (u.crew_ctlDone c w n)))
    refine ⟨_, execPoolPut_of_room hw hcrew hfences hi hdata hfull,
      ((u.issued_ctlDone c w).of_start (s.issued_itemPut c n _ _)).entryDone, ?_⟩
    rw [hpools, s.pool_itemPut c n hi]
    exact ⟨rfl, rfl⟩

end Sys2Proof.Proofs
end

section
/-!
PROOFS. Acceptance of a host command of a context bound beyond the rig's crews (O8): 03 R72, R75, R78; 12 R289; 14 R357.
-/
namespace Sys2Proof.Machine

/-- A crew number past the sixteen that the rig has, to which a state may bind a context all the same. -/
def outlyingCrew : Nat := 14680948

/-- The recovery state of the outlying crew would stand where the journal window shows the number of its newest entry. -/
theorem rcv_addr_outlyingCrew : R.GLB_RCV.addr [outlyingCrew] = R.JNL_NEWEST_LO.addr [] := by decide

/-- The 64 bytes of a TALLY_ADD of 1 to tally 0, with sequence number 0. -/
def addOne : Bytes := natLe 40 2 ++ natLe 24 1

/-- The instant of a boundary, with the TALLY_ADD fetched 100 ns ago at the head of queue 0, whose context is the outlying
crew's, as tally 0 is. The next journal entry is number 2^29, and every one before it has been mirrored. -/
def outlying : State :=
  let s := (State.reset.setRaw 100).setPow { State.reset.pow with step := 11 }
  let s := s.setStk { s.stk with drive := true, bound := 100 }
  let s := (s.setCtxs [(0, { bound := true, crew := outlyingCrew })]).setCox { s.cox with jnlNum := 2 ^ 29, mirrored := 2 ^ 29 }
  (s.modTally 0 fun k => { k with allocated := true, crew := outlyingCrew }).modQueue 0 fun k => { k with
    enable := true, ringInHbm := true, tail := 1, fetched := [{ slot := 0, data := addOne, since := 0 }] }

/-- The command is well-formed, expected and eligible, and its crew is neither stopped nor replaying. -/
theorem outlying_meets :
    (outlying.queue 0).headCmd = some addOne ∧ outlying.atBoundary = true ∧ outlying.canTake 0 = true
      ∧ outlying.flt.drain = none ∧ (hostCmd addOne).bad = false ∧ (hostCmd addOne).seq = (outlying.queue 0).expected
      ∧ (hostCmd addOne).op = 2 ∧ outlying.tallyOf (outlying.queueCrew 0) (hostCmd addOne).tally = true
      ∧ outlying.halted (outlying.queueCrew 0) = false ∧ outlying.shift (outlying.queueCrew 0) = 0 := by decide +kernel

/-- Once the acceptance has its journal entry the crew reads as stopped, so the ADD is put off and the tally keeps its 0. -/
theorem outlying_defers :
    (outlying.takeOp 0 2).halted outlyingCrew = true ∧ ((outlying.takeOp 0 2).tally 0).value = 0 := by decide +kernel

end Sys2Proof.Machine

namespace Sys2Proof.Proofs
open Sys2Proof.Machine

/-- Refutes O8: nothing binds the queue's context to one of the rig's sixteen crews. With the context, and the tally, of crew
14,680,948 the recovery state that `State.halted` reads is JNL_NEWEST_LO (`rcv_addr_outlyingCrew`). The acceptance enters its
journal entry before the command acts, entry 2^29 makes the crew read as stopped, and the TALLY_ADD adds nothing yet
(`outlying_defers`). -/
theorem not_acceptedHostCommandsTakeEffect : ¬ Obligations.AcceptedHostCommandsTakeEffect := by
  intro h
  obtain ⟨hhead, hboundary, htake, hdrain, hbad, hseq, hop, hown, hhalted, hshift⟩ := outlying_meets
  obtain ⟨hacts, -⟩ := h outlying 0 addOne hhead hboundary htake hdrain hbad
  obtain ⟨-, hadds, -⟩ := hacts hseq
  obtain ⟨t, hexec, -, hvalue, -⟩ := hadds hop hown hhalted hshift
  obtain rfl : outlying.takeOp 0 2 = t := Host.Outcome.next.inj hexec
  obtain ⟨-, hkept⟩ := outlying_defers
  have hsum : (0 : Word) = (outlying.tally 0).value + (hostCmd addOne).value := hkept.symm.trans hvalue
  exact absurd hsum (by decide +kernel)

end Sys2Proof.Proofs
end

section
/-!
PROOFS. Reads of core-store words that have neither errors nor poison (06 R137, R140): the bytes are those stored, without
poison, and nothing but the byte counters moves.
-/
namespace Sys2Proof.Machine

variable (s : State)

/-! ### Consecutive bytes -/

@[simp] theorem Map.length_bytes (d : Byte) (m : List (Nat × Byte)) (a n : Nat) : (Map.bytes d m a n).length = n := by
  induction n generalizing a with
  | zero => rfl
  | succ n ih => simp [Map.bytes, ih]

theorem Map.bytes_append (d : Byte) (m : List (Nat × Byte)) (a n k : Nat) :
    Map.bytes d m a n ++ Map.bytes d m (a + n) k = Map.bytes d m a (n + k) := by
  induction n generalizing a with
  | zero => simp [Map.bytes]
  | succ n ih =>
    have hnext := ih (a + 1)
    rw [show a + 1 + n = a + (n + 1) by omega] at hnext
    rw [Nat.add_right_comm, Map.bytes, List.cons_append, hnext, Map.bytes]

theorem Map.drop_bytes (d : Byte) (m : List (Nat × Byte)) (a n k : Nat) :
    (Map.bytes d m a (k + n)).drop k = Map.bytes d m (a + k) n := by
  rw [← Map.bytes_append, List.drop_left' (Map.length_bytes d m a k)]

theorem Map.take_bytes (d : Byte) (m : List (Nat × Byte)) (a n k : Nat) :
    (Map.bytes d m a (n + k)).take n = Map.bytes d m a n := by
  rw [← Map.bytes_append, List.take_left' (Map.length_bytes d m a n)]

/-! ### Words and runs of bytes -/

@[simp] theorem anyPoison_clean (b : Bytes) : anyPoison (clean b) = false := by simp [anyPoison, clean]

theorem State.readWord_of_clean {c i : Nat} (h : s.wordSt c i = {}) :
    s.readWord c i = (⟨0, s.wordData c i, false⟩, s) := by
  simp [State.readWord, h, decodeWord, State.reportWord]

theorem State.natLe_wordData (c i : Nat) :
    natLe 8 (s.wordData c i) = Map.bytes unlisted (s.core c).store (8 * i) 8 := by
  have h := natLe_leNat (Map.bytes unlisted (s.core c).store (8 * i) 8)
  rwa [Map.length_bytes] at h

theorem State.readWords_of_clean {c : Nat} (h : ∀ i, s.wordSt c i = {}) (n i : Nat) :
    s.readWords c i n = (clean (Map.bytes unlisted (s.core c).store (8 * i) (8 * n)), s) := by
  induction n generalizing i with
  | zero => rfl
  | succ n ih =>
    have hsplit : Map.bytes unlisted (s.core c).store (8 * i) (8 * (n + 1)) =
        Map.bytes unlisted (s.core c).store (8 * i) 8 ++ Map.bytes unlisted (s.core c).store (8 * (i + 1)) (8 * n) := by
      rw [Nat.mul_add_one 8 i, Map.bytes_append, Nat.mul_add_one, Nat.add_comm 8]
    simp [State.readWords, s.readWord_of_clean (h i), ih, s.natLe_wordData, hsplit, clean]

/-- A read where no word of the core has errors or poison gives the stored bytes and moves only the counters. -/
theorem State.storeRead_of_clean {c : Nat} (h : ∀ i, s.wordSt c i = {}) (a n : Nat) :
    ∃ x, s.storeRead c a n = (clean (Map.bytes unlisted (s.core c).store a n), s.setPmc x) := by
  unfold State.storeRead
  split
  · next hn => subst hn; exact ⟨s.pmc, rfl⟩
  · next hn =>
    have hlen : 8 * ((a + n - 1) / 8 + 1 - a / 8) = a % 8 + (n + (7 - (a + n - 1) % 8)) := by omega
    have hstart : 8 * (a / 8) + a % 8 = a := by omega
    rw [State.readWords_of_clean (s.count R.CST_BYTES_RD_LO [c] n) h, hlen]
    refine ⟨_, Prod.ext ?_ rfl⟩
    simp only [clean, ← List.map_drop, ← List.map_take, Map.drop_bytes, hstart, Map.take_bytes]
    rfl

end Sys2Proof.Machine
end

section
/-!
PROOFS. What stands by while a matrix engine works: the steps of a command that only show, trace, sample or follow the chain
(04 R116; 10 R239 to R241; 15 R377) leave the engine and the core's other state alone.
-/
namespace Sys2Proof.Machine

variable (s : State) {β : Type}

/-! ### One engine changed -/

@[simp] theorem State.eng_modEng_same (c e : Nat) (f : Engine → Engine) : (s.modEng c e f).eng c e = f (s.eng c e) := by
  rw [State.eng, State.modEng, State.core_modCore_same, Map.getD_setD_same, State.eng]

theorem State.eng_modEng_ne {c d : Nat} (h : d ≠ c) (e e' : Nat) (f : Engine → Engine) :
    (s.modEng c e f).eng d e' = s.eng d e' := by
  rw [State.eng, State.modEng, State.core_modCore_ne s h, State.eng]

/-- The umpire that follows a core's engines is another core's (10 R239). -/
theorem hostOf_ne (c : Nat) : hostOf c ≠ c := by
  unfold hostOf
  omega

/-! ### What shows, traces and follows -/

/-- A core but for its trace buffer, what holds its units, and what it knows of its umpire. -/
def Core.unshown (k : Core) : Core := { k.unheld with ump := {} }

theorem Core.unshown_congr {k l : Core} (h : k.untraced = l.untraced) : k.unshown = l.unshown :=
  congrArg (fun k : Core => { k with ump := {} }) (Core.unheld_congr h)

/-- The fields of a core that the statements speak of and the steps beside the array leave alone. -/
theorem Core.unshown_parts {k l : Core} (h : k.unshown = l.unshown) :
    k.eng = l.eng ∧ k.store = l.store ∧ k.words = l.words :=
  ⟨(congrArg Core.eng h :), (congrArg Core.store h :), (congrArg Core.words h :)⟩

/-- A view that sees no register, no counter, nothing of core c that shows, traces or follows, and no engine of the core that
hosts its umpire. -/
structure State.EngineView (c : Nat) (p : State → β) : Prop where
  regs : ∀ {s x}, p (State.setRegs s x) = p s
  conv : ∀ {s x}, p (State.setConv s x) = p s
  pmc : ∀ {s x}, p (State.setPmc s x) = p s
  core : ∀ {s f}, (∀ k, Core.unshown (f k) = k.unshown) → p (State.modCore s c f) = p s
  host : ∀ {s e f}, p (State.modEng s (hostOf c) e f) = p s

theorem State.setRegs_self : s.setRegs s.regs = s := rfl

/-- A trace record changes TRC_LOST or the trace buffer of its core. -/
theorem State.trace_cases (c kind how : Nat) (word : CmdWord) (entry accept detail : Nat) :
    s.trace c kind how word entry accept detail = s ∨ ∃ x f, (∀ k, Core.untraced (f k) = k.untraced) ∧
      s.trace c kind how word entry accept detail = (s.modCore c f).setRegs x := by
  unfold State.trace
  split
  · exact .inl rfl
  · split
    · unfold State.stageTrace
      dsimp only
      split
      · refine .inr ⟨_, _, ?_, rfl⟩
        exact fun _ => rfl
      · refine .inr ⟨_, _, ?_, (State.setRegs_self _).symm⟩
        exact fun _ => rfl
    · exact .inl rfl

section
variable {c : Nat} {p : State → β} (hp : State.EngineView c p)
include hp

theorem State.EngineView.setReg (r : RegDef) (ix : List Nat) (v : Word) : p (s.setReg r ix v) = p s := hp.regs

theorem State.EngineView.showEng (d e : Nat) : p (s.showEng d e) = p s :=
  State.showEng_keeps s p (fun _ _ => hp.regs) (fun _ _ => hp.conv) d e

theorem State.EngineView.showDma (d : Nat) : p (s.showDma d) = p s :=
  State.showDma_keeps s p (fun _ _ => hp.regs) (fun _ _ => hp.conv) d

theorem State.EngineView.trace (kind how : Nat) (word : CmdWord) (entry accept detail : Nat) :
    p (s.trace c kind how word entry accept detail) = p s := by
  obtain h | ⟨x, f, hf, h⟩ := s.trace_cases c kind how word entry accept detail
  · rw [h]
  · rw [h, hp.regs, hp.core fun k => Core.unshown_congr (hf k)]

theorem State.EngineView.traceBegin (q : QCmd) : p (s.traceBegin c q) = p s := hp.trace s _ _ _ _ _ _

theorem State.EngineView.traceEnd (how detail : Nat) (q : QCmd) : p (s.traceEnd c how detail q) = p s :=
  hp.trace s _ _ _ _ _ _

theorem State.EngineView.settleCore : p (s.settleCore c) = p s := by
  unfold State.settleCore
  dsimp only
  split
  · rfl
  · exact (State.each_keeps _ p _ _ fun s q => hp.traceEnd s 0 0 q).trans (hp.core fun _ => rfl)

/-! ### The umpire -/

theorem State.EngineView.dropUmpire (e : Nat) : p (s.dropUmpire c e) = p s := by
  unfold State.dropUmpire
  split
  · split
    · exact (hp.showEng _ _ _).trans (hp.regs.trans (hp.host.trans (hp.core fun _ => rfl)))
    · rfl
  · rfl

theorem State.EngineView.sampleChain (e : Nat) (cmd : QCmd) : p (s.sampleChain c e cmd).2 = p s := by
  unfold State.sampleChain
  dsimp only
  split
  · split
    · exact (State.raiseBit_keeps _ p (fun _ _ => hp.regs) (fun _ _ => hp.conv) _ _).trans (hp.core fun _ => rfl)
    · exact hp.regs
  · rfl

theorem State.EngineView.mirrorUmpire (e : Nat) : p (s.mirrorUmpire c e) = p s := by
  unfold State.mirrorUmpire
  split
  · split
    · refine (hp.showEng _ _ _).trans (hp.regs.trans ((hp.core ?_).trans hp.host))
      exact fun _ => rfl
    · rfl
  · rfl

end

/-- An engine of the core is such a view. -/
theorem State.EngineView.of_eng (c e : Nat) : State.EngineView c fun s => s.eng c e where
  regs := rfl
  conv := rfl
  pmc := rfl
  core {s f} h :=
    have heng : ((s.modCore c f).core c).eng = (s.core c).eng :=
      State.core_modCore_part Core.eng fun k => (Core.unshown_parts (h k)).1
    congrArg (Map.getD ({} : Engine) · e) heng
  host := State.eng_modEng_ne _ (hostOf_ne _).symm _ _ _

/-! ### What no engine of the core touches -/

/-- A view that sees no engine of core c either. -/
structure State.ChainView (c : Nat) (p : State → β) : Prop extends State.EngineView c p where
  eng : ∀ {s e f}, p (State.modEng s c e f) = p s

theorem State.ChainView.memoryAndTallies (c : Nat) : State.ChainView c State.memoryAndTallies where
  regs := rfl
  conv := rfl
  pmc := rfl
  core _ := rfl
  host := rfl
  eng := rfl

/-- Every other core but the host of the umpire is such a view. -/
theorem State.ChainView.of_core {c d : Nat} (hc : d ≠ c) (hhost : d ≠ hostOf c) : State.ChainView c fun s => s.core d where
  regs := rfl
  conv := rfl
  pmc := rfl
  core _ := State.core_modCore_ne _ hc _
  host := State.core_modCore_ne _ hhost _
  eng := State.core_modCore_ne _ hc _

/-- A core but for its engines. -/
def Core.disengaged (k : Core) : Core := { k with eng := [] }

/-- So is the host of the umpire but for its engines. -/
theorem State.ChainView.of_host (c : Nat) : State.ChainView c fun s => (s.core (hostOf c)).disengaged where
  regs := rfl
  conv := rfl
  pmc := rfl
  core _ := congrArg Core.disengaged (State.core_modCore_ne _ (hostOf_ne c) _)
  host := by
    refine State.core_modCore_part Core.disengaged ?_
    exact fun _ => rfl
  eng := congrArg Core.disengaged (State.core_modCore_ne _ (hostOf_ne c) _)

/-- So is the core's own store with its check state. -/
theorem State.ChainView.of_store (c : Nat) : State.ChainView c fun s => ((s.core c).store, (s.core c).words) where
  regs := rfl
  conv := rfl
  pmc := rfl
  core h := State.core_modCore_part (fun k : Core => (k.store, k.words)) fun k =>
    have ⟨_, hstore, hwords⟩ := Core.unshown_parts (h k)
    Prod.ext hstore hwords
  host := congrArg (fun k : Core => (k.store, k.words)) (State.core_modCore_ne _ (hostOf_ne c).symm _)
  eng := State.core_modCore_part (fun k : Core => (k.store, k.words)) fun _ => rfl

end Sys2Proof.Machine
end

section
/-!
PROOFS. A matrix command whose streams are linear reads core store and runs every position (04 R98 to R106).
-/
namespace Sys2Proof.Machine

variable (s : State) {β : Type}

/-! ### Linear streams -/

/-- Core c holds these bytes, and no word of it has errors or poison. -/
structure State.Stores (s : State) (c : Nat) (σ : List (Nat × Byte)) : Prop where
  store : (s.core c).store = σ
  words : ∀ i, s.wordSt c i = {}

theorem State.Stores.of_eq {s t : State} {c : Nat} {σ : List (Nat × Byte)} (h : s.Stores c σ)
    (ht : ((t.core c).store, (t.core c).words) = ((s.core c).store, (s.core c).words)) : t.Stores c σ := by
  obtain ⟨hstore, hwords⟩ := Prod.mk.inj ht
  exact ⟨hstore.trans h.store, fun i => (congrArg (Map.getD ({} : WordSt) · i) hwords).trans (h.words i)⟩

/-- No stream of the problem is a ring (R105). -/
def Problem.Linear (p : Problem) : Prop :=
  ringName p.a = none ∧ ringName p.b = none ∧ ringName p.aScale = none ∧ ringName p.bScale = none

/-- Every need of a position of a problem with linear streams is linear. -/
theorem Problem.Linear.posNeeds {m : MCmd} {q : Problem} (h : q.Linear) {k0 i : Nat} {x : PosNeeds}
    (hx : Machine.posNeeds m q k0 i = some x) : ∀ n ∈ x.all, ringName n.addr = none := by
  obtain ⟨ha, hb, hsa, hsb⟩ := h
  unfold Machine.posNeeds at hx
  split at hx
  · split at hx
    · obtain rfl := Option.some.inj hx
      intro n hn
      simp only [PosNeeds.all, List.mem_append, List.mem_cons, List.not_mem_nil, or_false, Option.mem_toList] at hn
      rcases hn with ((rfl | rfl) | hn) | hn
      · exact ha
      · exact hb
      · split at hn
        · obtain rfl := Option.some.inj hn; exact hsa
        · cases hn
      · split at hn
        · obtain rfl := Option.some.inj hn; exact hsb
        · cases hn
    · cases hx
  · cases hx

theorem State.fetchPart_of_linear (c e : Nat) {x : Need} (h : ringName x.addr = none) : s.fetchPart c e x = s := by
  simp [State.fetchPart, h]

theorem State.each_fetchPart_of_linear (c e : Nat) {l : List Need} (h : ∀ n ∈ l, ringName n.addr = none) :
    (s.each l fun s x => s.fetchPart c e x) = s := by
  induction l with
  | nil => rfl
  | cons n l ih =>
    rw [State.each, List.foldl_cons, s.fetchPart_of_linear c e (h n List.mem_cons_self)]
    exact ih fun n hn => h n (List.mem_cons_of_mem _ hn)

section
variable {s : State} {c : Nat} {σ : List (Nat × Byte)} (hs : s.Stores c σ)
include hs

theorem State.Stores.setPmc (y : Pmc) : (s.setPmc y).Stores c σ := ⟨hs.store, hs.words⟩

theorem State.Stores.setRegs {x : List (Nat × Word)} : (s.setRegs x).Stores c σ := ⟨hs.store, hs.words⟩

/-- What a linear stream gives is stored; only a byte counter moves. -/
theorem State.Stores.streamTake (e : Nat) {x : Need} (h : ringName x.addr = none) :
    ∃ y, s.streamTake c e x = (clean (Map.bytes unlisted σ (x.addr + x.off) x.n), s.setPmc y) := by
  obtain ⟨y, hy⟩ := s.storeRead_of_clean hs.words (x.addr + x.off) x.n
  exact ⟨y, by simp [State.streamTake, h, hy, hs.store]⟩

theorem State.Stores.streamTakeOpt (e : Nat) {x : Option Need} (h : ∀ n ∈ x, ringName n.addr = none) :
    ∃ b y, s.streamTakeOpt c e x = (b, s.setPmc y) := by
  cases x with
  | none => exact ⟨[], s.pmc, rfl⟩
  | some n =>
    obtain ⟨y, hy⟩ := hs.streamTake e (h n rfl)
    exact ⟨_, y, hy⟩

end

/-! ### One position is read -/

/-- An engine but for the scales that its chain holds for the block in progress. -/
def Engine.unscaled (en : Engine) : Engine :=
  { en with chain := en.chain.map fun ch => { ch with heldA := [], heldB := [] } }

theorem Engine.unscaled_held (en : Engine) (f g : Chain → List (List (Option Int × Bool))) :
    Engine.unscaled { en with chain := en.chain.map fun ch => { ch with heldA := f ch, heldB := g ch } } = en.unscaled := by
  cases h : en.chain <;> simp [Engine.unscaled, h]

/-- A view that sees no counter and of engine e of core c no held scales. -/
structure State.ScaleView (c e : Nat) (p : State → β) : Prop where
  pmc : ∀ {s x}, p (State.setPmc s x) = p s
  eng : ∀ {s f}, (∀ en, Engine.unscaled (f en) = en.unscaled) → p (State.modEng s c e f) = p s

theorem State.ChainView.scaleView {c : Nat} {p : State → β} (hp : State.ChainView c p) (e : Nat) : State.ScaleView c e p :=
  ⟨hp.pmc, fun _ => hp.eng⟩

theorem State.ScaleView.of_eng (c e : Nat) : State.ScaleView c e fun s => (s.eng c e).unscaled :=
  ⟨rfl, fun h => (congrArg Engine.unscaled (State.eng_modEng_same _ c e _)).trans (h _)⟩

theorem State.Stores.modEng {s : State} {c : Nat} {σ : List (Nat × Byte)} (hs : s.Stores c σ) (e : Nat)
    (f : Engine → Engine) : (s.modEng c e f).Stores c σ :=
  hs.of_eq (State.ChainView.of_store c).eng

section
variable {s : State} {c e : Nat} {σ : List (Nat × Byte)} {p : State → β} (hp : State.ScaleView c e p) (m : MCmd)
include hp

theorem State.ScaleView.readPos (hs : s.Stores c σ) {q : Problem} (hq : q.Linear) (k0 i : Nat) :
    p (s.readPos c e m q k0 i).2 = p s := by
  unfold State.readPos
  split
  · next x _ _ hx =>
    have hlin := hq.posNeeds hx
    obtain ⟨y1, h1⟩ := hs.streamTake e (hlin x.a (by simp [PosNeeds.all]))
    obtain ⟨y2, h2⟩ := (hs.setPmc y1).streamTake e (hlin x.b (by simp [PosNeeds.all]))
    obtain ⟨b3, y3, h3⟩ := ((hs.setPmc y1).setPmc y2).streamTakeOpt e (x := x.sa) fun n hn =>
      hlin n (by simp only [PosNeeds.all, List.mem_append, Option.mem_toList]; exact .inl (.inr hn))
    obtain ⟨b4, y4, h4⟩ := (((hs.setPmc y1).setPmc y2).setPmc y3).streamTakeOpt e (x := x.sb) fun n hn =>
      hlin n (by simp only [PosNeeds.all, List.mem_append, Option.mem_toList]; exact .inr hn)
    simp only [h1, h2, h3, h4]
    exact (hp.eng fun en => Engine.unscaled_held en _ _).trans (hp.pmc.trans (hp.pmc.trans (hp.pmc.trans hp.pmc)))
  · rfl

theorem State.ScaleView.readAll (hs : s.Stores c σ) (k0 : Nat → Nat) (i : Nat) {ps : List Problem}
    (hps : ∀ q ∈ ps, q.Linear) : p (s.readAll c e m k0 i ps).2 = p s := by
  induction ps generalizing s with
  | nil => rfl
  | cons q r ih =>
    have hq := hps q List.mem_cons_self
    have hs' : (s.readPos c e m q (k0 q.q) i).2.Stores c σ :=
      hs.of_eq (((State.ChainView.of_store c).scaleView e).readPos m hs hq _ _)
    exact (ih hs' fun q hq => hps q (List.mem_cons_of_mem _ hq)).trans (hp.readPos m hs hq _ i)

end

/-! ### Every position runs -/

/-- A chain after position i: the K count of every problem that has the position moves on (R103, R108). -/
def Chain.advanced (ps : List Problem) (i : Nat) (ch : Chain) : Chain :=
  { ch with k := (iota 0 4).map fun q => ch.k.getD q 0 + if (ps.any fun p => decide (p.q = q ∧ i < p.k)) then 1 else 0 }

/-- An engine that has taken position i into its array, with its command's progress and its chain. -/
def Engine.afterPosition (m : MCmd) (ps : List Problem) (i : Nat) (ops : List PosOps) (en : Engine) : Engine :=
  let en := en.position m.shape (groupSize m.group) ops
  { en with
    q := modifyAt (fun q => { q with done := q.done + 1 }) 0 en.q
    noProgress := 0
    chain := en.chain.map (Chain.advanced ps i) }

theorem Engine.unscaled_afterPosition (m : MCmd) (ps : List Problem) (i : Nat) (ops : List PosOps) (en : Engine) :
    (en.afterPosition m ps i ops).unscaled = en.unscaled.afterPosition m ps i ops := by
  cases h : en.chain <;> simp [Engine.unscaled, Engine.afterPosition, Engine.position, Chain.advanced, h]

/-- With linear streams a position never waits: its operands are read and taken. -/
theorem State.runPositions_succ_of_linear (c e : Nat) (m : MCmd) {ps : List Problem} (hps : ∀ q ∈ ps, q.Linear)
    (k0 : Nat → Nat) (len fuel : Nat) :
    let i := len - (fuel + 1)
    let r := s.readAll c e m k0 i ps
    s.runPositions c e m ps k0 len (fuel + 1) =
      ((r.2.modEng c e (Engine.afterPosition m ps i r.1)).setReg R.ENG_PROGRESS [c, e]
        (BitVec.ofNat 32 (i + 1))).runPositions c e m ps k0 len fuel := by
  intro i r
  rw [State.runPositions]
  generalize hneeds : List.flatMap _ ps = needs
  have hlin : ∀ n ∈ needs, ringName n.addr = none := by
    subst hneeds
    intro n hn
    obtain ⟨q, hq, hn⟩ := List.mem_flatMap.mp hn
    split at hn
    · next x hx => exact (hps q hq).posNeeds hx n hn
    · exact absurd hn List.not_mem_nil
  have hall : needs.all (s.eng c e).complete = true :=
    List.all_eq_true.mpr fun n hn => by simp [Engine.complete, hlin n hn]
  rw [s.each_fetchPart_of_linear c e hlin, hall]
  rfl

section
variable {s : State} {c e : Nat} {σ : List (Nat × Byte)} {m : MCmd} {ps : List Problem} (hps : ∀ q ∈ ps, q.Linear)
  {k0 : Nat → Nat} {len fuel : Nat}
include hps

/-- What every position keeps of the engine, all of them keep; a position's operands are what some state with the same bytes
reads. -/
theorem State.Stores.runPositions (hs : s.Stores c σ) {P : Nat → Engine → Prop}
    (hstep : ∀ i en (u : State), i < len → u.Stores c σ → P i en →
      P (i + 1) (Engine.afterPosition m ps i (u.readAll c e m k0 i ps).1 en))
    (hfuel : fuel ≤ len) (h : P (len - fuel) (s.eng c e).unscaled) :
    P len ((s.runPositions c e m ps k0 len fuel).eng c e).unscaled := by
  induction fuel generalizing s with
  | zero => exact h
  | succ fuel ih =>
    rw [State.runPositions_succ_of_linear s c e m hps k0 len fuel]
    have hread := (State.ScaleView.of_eng c e).readAll m hs k0 (len - (fuel + 1)) hps
    have hs' := hs.of_eq (((State.ChainView.of_store c).scaleView e).readAll m hs k0 (len - (fuel + 1)) hps)
    refine ih (s := State.setReg _ _ _ _) (hs'.modEng e _).setRegs (by omega) ?_
    have heng : ∀ (u : State) (f : Engine → Engine) (r : RegDef) (ix : List Nat) (v : Word),
        ((u.modEng c e f).setReg r ix v).eng c e = f (u.eng c e) := fun u f _ _ _ => u.eng_modEng_same c e f
    rw [heng, Engine.unscaled_afterPosition, hread, show len - fuel = len - (fuel + 1) + 1 by omega]
    exact hstep _ _ s (by omega) hs h

theorem State.ChainView.runPositions {p : State → β} (hp : State.ChainView c p) (hs : s.Stores c σ) :
    p (s.runPositions c e m ps k0 len fuel) = p s := by
  induction fuel generalizing s with
  | zero => rfl
  | succ fuel ih =>
    rw [State.runPositions_succ_of_linear s c e m hps k0 len fuel]
    have hs' := hs.of_eq (((State.ChainView.of_store c).scaleView e).readAll m hs k0 (len - (fuel + 1)) hps)
    exact (ih (s := State.setReg _ _ _ _) (hs'.modEng e _).setRegs).trans (hp.regs.trans (hp.eng.trans ((hp.scaleView e).readAll m hs k0 _ hps)))

end

end Sys2Proof.Machine
end

section
/-!
PROOFS. A matrix command from its head of the queue to its emit (04 R98 to R100, R108, R109, R115).
-/
namespace Sys2Proof.Machine

variable (s : State) {β : Type}

/-! ### A command begins -/

/-- A chain that holds the problems of an instruction too (R108). -/
def Chain.joined (ps : List Problem) (ch : Chain) : Chain :=
  { ch with qs := ch.qs ++ ((ps.map fun p => p.q).filter fun q => !ch.qs.elem q) }

/-- An engine whose command has begun: its chain starts or goes on (R108), and holds the problems of the command. -/
def Engine.begun (m : MCmd) (cmd : QCmd) (ctx : Nat) (desc : Bytes) (ps : List Problem) (smp : Bool) (en : Engine) : Engine :=
  let en := if m.keep then en else en.startChain
    { accept := cmd.accept, ctx := ctx, shape := m.shape, group := m.group, sampled := smp, index := cmd.ord }
    (ps.map fun p => p.q)
  { en with
    q := modifyAt (fun q => { q with started := true, desc := desc }) 0 en.q
    part := []
    noProgress := 0
    chain := en.chain.map (Chain.joined ps) }

theorem State.eng_beginMatrix (c e : Nat) (cmd : QCmd) (ctx : Nat) (desc : Bytes) (ps : List Problem) :
    ∃ smp, (s.beginMatrix c e cmd ctx desc ps).eng c e = (s.eng c e).begun (mcmd cmd.word) cmd ctx desc ps smp := by
  have hview := State.EngineView.of_eng c e
  refine ⟨((s.dropUmpire c e).sampleChain c e cmd).1, ?_⟩
  simp only [State.beginMatrix, State.eng_modEng_same, hview.setReg, hview.traceBegin, Engine.begun]
  split
  · rfl
  · rw [State.eng_modEng_same, hview.sampleChain, hview.dropUmpire]
    rfl

theorem State.ChainView.beginMatrix {c : Nat} {p : State → β} (hp : State.ChainView c p) (e : Nat) (cmd : QCmd) (ctx : Nat)
    (desc : Bytes) (ps : List Problem) : p (s.beginMatrix c e cmd ctx desc ps) = p s := by
  have htraced : ∀ u : State, p ((u.traceBegin c cmd).setReg R.ENG_PROGRESS [c, e] 0) = p u := fun u =>
    hp.regs.trans (hp.traceBegin u cmd)
  unfold State.beginMatrix
  dsimp only
  refine (hp.eng.trans (htraced _)).trans ?_
  split
  · rfl
  · exact hp.eng.trans ((hp.sampleChain _ e cmd).trans (hp.dropUmpire s e))

/-! ### A command ends -/

/-- An engine whose command has handled its last slot: the command is gone, and its emit stands in an output buffer (R109). -/
def Engine.ended (m : MCmd) (cmd : QCmd) (ctx : Nat) (ps : List Problem) (en : Engine) : Engine :=
  let en := { en with q := en.q.tail, part := [] }
  if m.emit then
    let d := en.drain m.shape (ps.map fun p => p.q)
    let ch := en.chain.getD { accept := cmd.accept, ctx := ctx, shape := m.shape, group := m.group }
    let b : OutBuf := {
      cmd := cmd, ctx := ctx, shape := m.shape, group := m.group, outFmt := m.outFmt
      watch := if m.watchEn then some m.watchId else none
      sampled := ch.sampled, index := ch.index, k := ch.k, tiles := tilesOf m ps, cells := d.1, chk := d.2
      poison := en.anyPoison }
    { en with out := en.out ++ [b] }
  else en

theorem Engine.unscaled_ended (m : MCmd) (cmd : QCmd) (ctx : Nat) (ps : List Problem) (en : Engine) :
    (en.ended m cmd ctx ps).unscaled = en.unscaled.ended m cmd ctx ps := by
  unfold Engine.ended
  cases h : en.chain <;> split <;> simp [Engine.unscaled, Engine.drain, Engine.anyPoison, h]

theorem State.eng_endMatrix (c e : Nat) (cmd : QCmd) (ctx : Nat) (ps : List Problem) :
    (s.endMatrix c e cmd ctx ps).eng c e = (s.eng c e).ended (mcmd cmd.word) cmd ctx ps := by
  have htrace : (if (mcmd cmd.word).emit then s else s.traceEnd c 0 cmd.done cmd).eng c e = s.eng c e := by
    split
    · rfl
    · exact (State.EngineView.of_eng c e).traceEnd s 0 cmd.done cmd
  rw [State.endMatrix, State.eng_modEng_same, htrace]
  rfl

theorem State.ChainView.endMatrix {c : Nat} {p : State → β} (hp : State.ChainView c p) (e : Nat) (cmd : QCmd) (ctx : Nat)
    (ps : List Problem) : p (s.endMatrix c e cmd ctx ps) = p s := by
  unfold State.endMatrix
  refine hp.eng.trans ?_
  split
  · rfl
  · exact hp.traceEnd s 0 cmd.done cmd

/-! ### The head of the queue -/

/-- The oldest command of an engine may begin: it has made no progress, its unit runs, nothing it reads has errors or poison,
and its emit has a free output buffer. -/
structure State.Ready (s : State) (c e : Nat) (cmd : QCmd) (r : List QCmd) : Prop where
  q : (s.eng c e).q = cmd :: r
  started : cmd.started = false
  done : cmd.done = 0
  runs : s.unitRuns c e cmd.tag = true
  frozen : (s.eng c e).frozen = false
  words : ∀ i, s.wordSt c i = {}
  room : (mcmd cmd.word).emit = true → (s.eng c e).out.length < 2

/-- The descriptor that a QUAD of core c reads (R99); empty for the other shapes and at an address that is an error. -/
def State.quadDesc (s : State) (c : Nat) (m : MCmd) : Bytes :=
  if m.shape = 1 ∧ m.aAddr % 128 = 0 ∧ inData m.aAddr 128 = true then
    Map.bytes unlisted (s.core c).store m.aAddr 128 else []

/-- The positions of the longest problem (R103). -/
def positionsOf (ps : List Problem) : Nat := (ps.map fun p => p.k).foldl Nat.max 0

/-- The chain position from which each problem goes on, where the command in progress has made `done` positions. -/
def chainBase (base : Option Chain) (done : Nat) (ps : List Problem) (q : Nat) : Nat :=
  match base with
  | some ch => ch.k.getD q 0 - (match ps.find? fun p => decide (p.q = q) with | some p => Nat.min done p.k | none => 0)
  | none => 0

section
variable {s : State} {c e : Nat} {cmd : QCmd} {r : List QCmd} (hr : s.Ready c e cmd r)
include hr

/-- What the descriptor read gives, and that only a byte counter moves. -/
theorem State.Ready.readDesc : ∃ x,
    (if (mcmd cmd.word).shape = 1 && decide ((mcmd cmd.word).aAddr % 128 = 0) && inData (mcmd cmd.word).aAddr 128 then
      s.storeRead c (mcmd cmd.word).aAddr 128 else ([], s)) = (clean (s.quadDesc c (mcmd cmd.word)), s.setPmc x) := by
  unfold State.quadDesc
  by_cases h : (mcmd cmd.word).shape = 1 ∧ (mcmd cmd.word).aAddr % 128 = 0 ∧ inData (mcmd cmd.word).aAddr 128 = true
  · obtain ⟨x, hx⟩ := s.storeRead_of_clean hr.words (mcmd cmd.word).aAddr 128
    exact ⟨x, by rw [if_pos h, ← hx, if_pos (by simpa [and_assoc] using h)]⟩
  · exact ⟨s.pmc, by rw [if_neg h, if_neg (by simpa [and_assoc] using h)]; rfl⟩

theorem State.Ready.not_waiting (shape : Nat) (hshape : (mcmd cmd.word).shape = shape) :
    ((mcmd cmd.word).shape ≠ shape || !s.unitRuns c e cmd.tag || (s.eng c e).frozen
      || ((mcmd cmd.word).emit && decide (2 ≤ (s.eng c e).out.length))) = false := by
  have hroom := hr.room
  cases h : (mcmd cmd.word).emit
  · simp [hshape, hr.runs, hr.frozen]
  · have := hroom h
    simp [hshape, hr.runs, hr.frozen]
    omega

/-- A command without error runs all its positions and ends. -/
theorem State.Ready.runMatrix {shape : Nat} (hshape : (mcmd cmd.word).shape = shape)
    (hbad : s.matrixBad c e cmd (wbits cmd.word 251 240) (s.quadDesc c (mcmd cmd.word)) = false) :
    let ctx := wbits cmd.word 251 240
    let desc := s.quadDesc c (mcmd cmd.word)
    let ps := problems (mcmd cmd.word) desc
    ∃ x k0, ∀ u : State, u = ((s.setPmc x).beginMatrix c e cmd ctx desc ps).runPositions c e (mcmd cmd.word) ps k0
        (positionsOf ps) (positionsOf ps) →
      ∀ now rest, (u.eng c e).q = now :: rest → now.done = positionsOf ps →
        s.runMatrix c e shape = ((u.endMatrix c e now ctx ps).showEng c e).mirrorUmpire c e := by
  intro ctx desc ps
  obtain ⟨x, hx⟩ := hr.readDesc
  have hbad' : (s.setPmc x).matrixBad c e cmd ctx desc = false := hbad
  refine ⟨x, chainBase (((s.setPmc x).beginMatrix c e cmd ctx desc ps).eng c e).chain 0 ps, ?_⟩
  rintro u hu now rest hnow hdone
  unfold State.runMatrix
  rw [hr.q]
  simp only [hr.not_waiting shape hshape, hr.started, hx, hr.done]
  simp only [Bool.false_eq_true, if_false, anyPoison_clean, Bool.false_and, plain_clean, Bool.not_false, Bool.true_and, hbad', ctx, desc]
  have hend : (match (u.eng c e).q with
      | now :: _ => ((if now.done = positionsOf ps then u.endMatrix c e now ctx ps else u).showEng c e).mirrorUmpire c e
      | [] => u.showEng c e) = ((u.endMatrix c e now ctx ps).showEng c e).mirrorUmpire c e := by
    simp only [hnow, hdone, if_true]
  subst hu
  exact hend

end

end Sys2Proof.Machine
end

section
/-!
PROOFS. The matrix commands (O14): what the engine holds once a command has run whole, and what a format error leaves
(04 R98 to R100, R108, R109, R115; 03 R71).
-/
namespace Sys2Proof.Machine

variable (s : State) {β : Type}

/-! ### The problems of an instruction -/

theorem quadProblem_q {d : Bytes} {q : Nat} {p : Problem} (h : quadProblem d q = some p) : p.q = q := by
  unfold quadProblem at h
  dsimp only at h
  split at h
  · cases h
  · obtain rfl := Option.some.inj h
    rfl

/-- An instruction has at most one problem of each number 0 to 3 (R99). -/
theorem problems_q (m : MCmd) (desc : Bytes) :
    (∀ p ∈ problems m desc, p.q < 4) ∧ ∀ p ∈ problems m desc, ∀ p' ∈ problems m desc, p'.q = p.q → p' = p := by
  unfold problems
  split
  · refine ⟨fun p hp => ?_, fun p hp p' hp' hq => ?_⟩
    · obtain ⟨q, hq, hp⟩ := List.mem_filterMap.mp hp
      rw [quadProblem_q hp]
      have := mem_iota.mp hq
      omega
    · obtain ⟨q, -, hp⟩ := List.mem_filterMap.mp hp
      obtain ⟨q', -, hp'⟩ := List.mem_filterMap.mp hp'
      rw [quadProblem_q hp, quadProblem_q hp'] at hq
      rw [hq, hp] at hp'
      exact (Option.some.inj hp').symm
  · simp [plainProblem]

theorem le_foldl_max (l : List Nat) (a : Nat) : a ≤ l.foldl Nat.max a ∧ ∀ x ∈ l, x ≤ l.foldl Nat.max a := by
  induction l generalizing a with
  | nil => simp
  | cons y l ih =>
    obtain ⟨hacc, hmem⟩ := ih (Nat.max a y)
    refine ⟨(Nat.le_max_left a y).trans hacc, fun x hx => ?_⟩
    rcases List.mem_cons.mp hx with rfl | hx
    · exact (Nat.le_max_right a x).trans hacc
    · exact hmem x hx

theorem le_positionsOf {ps : List Problem} {p : Problem} (h : p ∈ ps) : p.k ≤ positionsOf ps :=
  (le_foldl_max _ 0).2 _ (List.mem_map_of_mem h)

/-! ### The engine at a position -/

/-- An engine whose command has taken i positions: the command at the head of the queue, the chain with the K counts of its
problems, the output buffers as they were. -/
structure Engine.At (m : MCmd) (cmd : QCmd) (r : List QCmd) (ps : List Problem) (k0 : Nat → Nat) (out : List OutBuf)
    (i : Nat) (en : Engine) : Prop where
  q : ∃ d, en.q = d :: r ∧ d.done = i ∧ d.tag = cmd.tag ∧ d.word = cmd.word
  chain : ∃ ch, en.chain = some ch ∧ ch.accept = cmd.accept ∧ ch.shape = m.shape ∧ ch.group = m.group ∧
    ∀ p ∈ ps, ch.k.getD p.q 0 = k0 p.q + min i p.k
  out : en.out = out

section
variable {m : MCmd} {cmd : QCmd} {r : List QCmd} {ps : List Problem} {k0 : Nat → Nat} {out : List OutBuf} {i : Nat}
  {en : Engine}

theorem Engine.At.unscaled (h : en.At m cmd r ps k0 out i) : en.unscaled.At m cmd r ps k0 out i := by
  obtain ⟨ch, hch, hparts⟩ := h.chain
  exact ⟨h.q, ⟨{ ch with heldA := [], heldB := [] }, by simp [Engine.unscaled, hch], hparts⟩, h.out⟩

theorem Engine.At.afterPosition (h : en.At m cmd r ps k0 out i) (hlt : ∀ p ∈ ps, p.q < 4)
    (hinj : ∀ p ∈ ps, ∀ p' ∈ ps, p'.q = p.q → p' = p) (ops : List PosOps) :
    (en.afterPosition m ps i ops).At m cmd r ps k0 out (i + 1) := by
  obtain ⟨d, hq, hdone, htag, hword⟩ := h.q
  obtain ⟨ch, hch, haccept, hshape, hgroup, hk⟩ := h.chain
  refine ⟨⟨{ d with done := d.done + 1 }, by simp [Engine.afterPosition, Engine.position, hq, modifyAt], by simp [hdone],
    htag, hword⟩, ⟨ch.advanced ps i, by simp [Engine.afterPosition, Engine.position, hch], haccept, hshape, hgroup, fun p hp => ?_⟩,
    h.out⟩
  have hany : (ps.any fun p' => decide (p'.q = p.q ∧ i < p'.k)) = decide (i < p.k) := by
    rw [Bool.eq_iff_iff, List.any_eq_true, decide_eq_true_eq]
    refine ⟨fun ⟨p', hp', hi⟩ => ?_, fun hi => ⟨p, hp, by simpa using hi⟩⟩
    obtain ⟨hq, hi⟩ := of_decide_eq_true hi
    rwa [hinj p hp p' hp' hq] at hi
  have hget : ∀ f : Nat → Nat, ((iota 0 4).map f).getD p.q 0 = f p.q := by
    intro f
    have := hlt p hp
    interval_cases p.q <;> rfl
  simp only [Chain.advanced, hget, hany, hk p hp, decide_eq_true_eq]
  split <;> omega

end

/-! ### A command without error -/

section
variable {s : State} {c e : Nat} {cmd : QCmd} {r : List QCmd}

/-- What a command that goes on with a chain finds there (R108, R115). -/
theorem State.chain_of_keep {ctx : Nat} {desc : Bytes} (hbad : s.matrixBad c e cmd ctx desc = false)
    (hkeep : (mcmd cmd.word).keep = true) : ∃ ch, (s.eng c e).chain = some ch ∧ ch.accept = cmd.accept
      ∧ ch.shape = (mcmd cmd.word).shape ∧ ch.group = (mcmd cmd.word).group := by
  simp only [State.matrixBad, Bool.or_eq_false_iff] at hbad
  obtain ⟨⟨⟨⟨⟨-, hchain⟩, -⟩, -⟩, -⟩, -⟩ := hbad
  cases h : (s.eng c e).chain with
  | none => simp [hkeep, h] at hchain
  | some ch =>
    simp only [hkeep, h, Bool.true_and, decide_eq_false_iff_not, not_or, not_not] at hchain
    exact ⟨ch, rfl, hchain.1, hchain.2.2.1, hchain.2.2.2⟩

theorem State.Ready.at_begun (hr : s.Ready c e cmd r) {ctx : Nat} {desc : Bytes}
    (hbad : s.matrixBad c e cmd ctx desc = false) (ps : List Problem) (smp : Bool) :
    ((s.eng c e).begun (mcmd cmd.word) cmd ctx desc ps smp).At (mcmd cmd.word) cmd r ps
      ((s.eng c e).chainPos (mcmd cmd.word)) (s.eng c e).out 0 := by
  have hchain : ∃ ch, (((s.eng c e).begun (mcmd cmd.word) cmd ctx desc ps smp).chain = some ch ∧ ch.accept = cmd.accept
      ∧ ch.shape = (mcmd cmd.word).shape ∧ ch.group = (mcmd cmd.word).group
      ∧ ∀ q, ch.k.getD q 0 = (s.eng c e).chainPos (mcmd cmd.word) q) := by
    cases hkeep : (mcmd cmd.word).keep
    · refine ⟨_, by simp [Engine.begun, hkeep, Engine.startChain]; rfl, rfl, rfl, rfl, fun q => ?_⟩
      simp only [Engine.chainPos, hkeep, Bool.false_eq_true, if_false]
      match q with
      | 0 | 1 | 2 | 3 => rfl
      | q + 4 => rfl
    · obtain ⟨ch, hch, haccept, hshape, hgroup⟩ := s.chain_of_keep hbad hkeep
      exact ⟨ch.joined ps, by simp [Engine.begun, hkeep, hch], haccept, hshape, hgroup, fun q => by
        simp [Engine.chainPos, hkeep, hch, Chain.joined]⟩
  obtain ⟨ch, hch, haccept, hshape, hgroup, hk⟩ := hchain
  refine ⟨⟨{ cmd with started := true, desc := desc }, ?_, hr.done, rfl, rfl⟩,
    ⟨ch, hch, haccept, hshape, hgroup, fun p _ => by rw [hk]; simp⟩, ?_⟩
  · simp only [Engine.begun]
    split <;> simp [hr.q, Engine.startChain, modifyAt]
  · simp only [Engine.begun]
    split <;> simp [Engine.startChain]

variable (hr : s.Ready c e cmd r)
  (hbad : s.matrixBad c e cmd (wbits cmd.word 251 240) (s.quadDesc c (mcmd cmd.word)) = false)
  (hlin : ∀ p ∈ problems (mcmd cmd.word) (s.quadDesc c (mcmd cmd.word)), p.Linear)
include hr hbad hlin

/-- A command without error on linear streams ends with its engine as its last position left it, and no view of the chain sees
it. What every position keeps (`P`), the last one leaves. -/
theorem State.Ready.runMatrix_effect {shape : Nat} (hshape : (mcmd cmd.word).shape = shape) {P : Nat → Engine → Prop}
    (hbegin : ∀ smp, P 0 ((s.eng c e).begun (mcmd cmd.word) cmd (wbits cmd.word 251 240) (s.quadDesc c (mcmd cmd.word))
      (problems (mcmd cmd.word) (s.quadDesc c (mcmd cmd.word))) smp).unscaled)
    (hstep : ∀ k0 i en (u : State), i < positionsOf (problems (mcmd cmd.word) (s.quadDesc c (mcmd cmd.word))) →
      u.Stores c (s.core c).store → P i en → P (i + 1) (en.afterPosition (mcmd cmd.word)
        (problems (mcmd cmd.word) (s.quadDesc c (mcmd cmd.word))) i
        (u.readAll c e (mcmd cmd.word) k0 i (problems (mcmd cmd.word) (s.quadDesc c (mcmd cmd.word)))).1)) :
    let ps := problems (mcmd cmd.word) (s.quadDesc c (mcmd cmd.word))
    (∃ en now, P (positionsOf ps) en
      ∧ en.At (mcmd cmd.word) cmd r ps ((s.eng c e).chainPos (mcmd cmd.word)) (s.eng c e).out (positionsOf ps)
      ∧ now.tag = cmd.tag
      ∧ ((s.runMatrix c e shape).eng c e).unscaled = en.ended (mcmd cmd.word) now (wbits cmd.word 251 240) ps) ∧
    ∀ {β : Type} {p : State → β}, State.ChainView c p → p (s.runMatrix c e shape) = p s := by
  intro ps
  obtain ⟨hlt, hinj⟩ := problems_q (mcmd cmd.word) (s.quadDesc c (mcmd cmd.word))
  obtain ⟨x, k0, hrun⟩ := hr.runMatrix hshape hbad
  let v := (s.setPmc x).beginMatrix c e cmd (wbits cmd.word 251 240) (s.quadDesc c (mcmd cmd.word)) ps
  let u := v.runPositions c e (mcmd cmd.word) ps k0 (positionsOf ps) (positionsOf ps)
  have hv : v.Stores c (s.core c).store :=
    State.Stores.of_eq (s := s) ⟨rfl, hr.words⟩ ((State.ChainView.of_store c).beginMatrix (s.setPmc x) e cmd _ _ ps)
  obtain ⟨smp, hbegun⟩ := (s.setPmc x).eng_beginMatrix c e cmd (wbits cmd.word 251 240) (s.quadDesc c (mcmd cmd.word)) ps
  have hat := hv.runPositions hlin (k0 := k0) (P := fun i en => P i en ∧ en.At (mcmd cmd.word) cmd r ps
      ((s.eng c e).chainPos (mcmd cmd.word)) (s.eng c e).out i)
    (fun i en u hi hu h => ⟨hstep k0 i en u hi hu h.1, h.2.afterPosition hlt hinj _⟩)
    (Nat.le_refl (positionsOf ps)) (by
      rw [Nat.sub_self, hbegun]
      exact ⟨hbegin smp, (hr.at_begun hbad ps smp).unscaled⟩)
  obtain ⟨hP, hAt⟩ := hat
  obtain ⟨now, hq, hdone, htag, hword⟩ := hAt.q
  have hend := hrun u rfl now r hq hdone
  refine ⟨⟨(u.eng c e).unscaled, now, hP, hAt, htag, ?_⟩, fun hp => ?_⟩
  · have hview := State.EngineView.of_eng c e
    rw [hend, hview.mirrorUmpire, hview.showEng, State.eng_endMatrix, Engine.unscaled_ended, hword]
  · rw [hend, hp.mirrorUmpire, hp.showEng, hp.endMatrix]
    exact (hp.runPositions hlin hv).trans ((hp.beginMatrix _ e cmd _ _ ps).trans hp.pmc)

end

/-! ### A format error -/

theorem Core.eng_of_unheld {k l : Core} (h : k.unheld = l.unheld) : k.eng = l.eng := (congrArg Core.eng h :)

/-- A core whose engine e has lost the oldest command of its queue. -/
def Core.dequeue (e : Nat) (k : Core) : Core :=
  { k with eng := Map.setD {} k.eng e { Map.getD {} k.eng e with q := (Map.getD {} k.eng e).q.tail } }

theorem Core.unheld_dequeue_congr {k l : Core} (e : Nat) (h : k.unheld = l.unheld) :
    (k.dequeue e).stopIssue.unheld = (l.dequeue e).stopIssue.unheld :=
  (congrArg (fun k : Core => (k.dequeue e).stopIssue.unheld) h :)

/-- The state in which a matrix command in error has left its queue (R115). -/
def State.matrixRefused (s : State) (c e : Nat) (cmd : QCmd) : State :=
  (((s.traceEnd c 2 0 cmd).modEng c e fun en => { en with q := en.q.tail }).formatError c cmd.accept).showEng c e

/-- What a matrix command does about its core when it has run or been refused: waits that let go, and the DMA engine shown. -/
def State.matrixDone (s : State) (c : Nat) : State := (s.settleCore c).showDma c

section
variable {s : State} {c e : Nat} {cmd : QCmd} {r : List QCmd}

theorem State.Ready.runMatrix_of_bad (hr : s.Ready c e cmd r) {shape : Nat} (hshape : (mcmd cmd.word).shape = shape)
    (hbad : s.matrixBad c e cmd (wbits cmd.word 251 240) (s.quadDesc c (mcmd cmd.word)) = true) :
    ∃ x, s.runMatrix c e shape = (s.setPmc x).matrixRefused c e cmd := by
  obtain ⟨x, hx⟩ := hr.readDesc
  have hbad' : (s.setPmc x).matrixBad c e cmd (wbits cmd.word 251 240) (s.quadDesc c (mcmd cmd.word)) = true := hbad
  refine ⟨x, ?_⟩
  unfold State.runMatrix
  rw [hr.q]
  simp only [hr.not_waiting shape hshape, hr.started, hx, Bool.false_eq_true, if_false, anyPoison_clean, Bool.false_and,
    plain_clean, Bool.not_false, Bool.true_and, hbad', if_true]
  rfl

variable (s c e cmd)

theorem State.unheld_core_matrixRefused :
    (((s.matrixRefused c e cmd).matrixDone c).core c).unheld = ((s.core c).dequeue e).stopIssue.unheld := by
  have hview := State.CoreView.of_core Core.unheld c
  have hdequeue : ((s.traceEnd c 2 0 cmd).modEng c e fun en => { en with q := en.q.tail }).core c =
      ((s.traceEnd c 2 0 cmd).core c).dequeue e := State.core_modCore_same _ c _
  rw [State.matrixDone, State.showDma_keeps _ (fun t => (t.core c).unheld) (fun _ _ => rfl) (fun _ _ => rfl),
    hview.settleCore, State.matrixRefused, State.showEng_keeps _ (fun t => (t.core c).unheld) (fun _ _ => rfl)
    (fun _ _ => rfl), State.core_formatError, hdequeue]
  exact Core.unheld_dequeue_congr e (hview.untraced.traceEnd s c 2 0 cmd)

/-- What sees neither registers nor cores nor crews sees nothing of a refused matrix command. -/
theorem State.matrixRefused_keeps (p : State → β) (hregs : ∀ s x, p (State.setRegs s x) = p s)
    (hconv : ∀ s x, p (State.setConv s x) = p s) (hcores : ∀ s x, p (State.setCores s x) = p s)
    (hcrews : ∀ s x, p (State.setCrews s x) = p s) : p ((s.matrixRefused c e cmd).matrixDone c) = p s :=
  have hview : State.CoreView Core.unheld p := .of_blind hregs hcores
  (State.showDma_keeps _ p hregs hconv c).trans <| (hview.settleCore _ c).trans <| (State.showEng_keeps _ p hregs hconv c e).trans <|
    (State.formatError_keeps _ p hcrews hcores c _).trans <| (hcores _ _).trans (hview.untraced.traceEnd s c 2 0 cmd)

theorem State.statuses_matrixRefused {n : Nat} (hcrew : s.crewOf c = some n) :
    ∀ l ∈ ((((s.matrixRefused c e cmd).matrixDone c).crew n).launches), l.accept = cmd.accept → 4 ∈ l.statuses := by
  have hcrew' : ((s.traceEnd c 2 0 cmd).modEng c e fun en => { en with q := en.q.tail }).crewOf c = some n :=
    (State.crewOf_traceEnd s c 2 0 cmd c).trans hcrew
  have hview : State.CoreView Core.unheld fun t => (t.crew n).launches := .of_blind (fun _ _ => rfl) (fun _ _ => rfl)
  rw [State.matrixDone, State.showDma_keeps _ (fun t => (t.crew n).launches) (fun _ _ => rfl) (fun _ _ => rfl),
    hview.settleCore, State.matrixRefused, State.showEng_keeps _ (fun t => (t.crew n).launches) (fun _ _ => rfl) (fun _ _ => rfl)]
  exact State.statuses_formatError _ hcrew'

/-- What a refused matrix command leaves (R115; 03 R71). -/
theorem State.matrixRefused_effect :
    let t := (s.matrixRefused c e cmd).matrixDone c
    t.eng c e = { s.eng c e with q := (s.eng c e).q.tail } ∧ (t.core c).seq.stopped = true
      ∧ (∀ n, s.crewOf c = some n → ∀ l ∈ (t.crew n).launches, l.accept = cmd.accept → 4 ∈ l.statuses)
      ∧ (∀ a, t.storeAt c a = s.storeAt c a) ∧ t.tallies = s.tallies ∧ s.sameMemory t := by
  intro t
  have hcore := s.unheld_core_matrixRefused c e cmd
  have hstore : (t.core c).store = (s.core c).store := (Core.unheld_parts hcore).1
  have hstopped : (t.core c).seq.stopped = true := (Core.unheld_parts hcore).2.2.2.2
  have heng : (t.core c).eng = ((s.core c).dequeue e).stopIssue.eng := Core.eng_of_unheld hcore
  obtain ⟨hsame, htallies⟩ := State.sameMemory_tallies_of_eq (s.matrixRefused_keeps c e cmd State.memoryAndTallies
    (fun _ _ => rfl) (fun _ _ => rfl) (fun _ _ => rfl) (fun _ _ => rfl))
  refine ⟨?_, hstopped, fun n hn => s.statuses_matrixRefused c e cmd hn, fun a => ?_, htallies, hsame⟩
  · rw [State.eng, heng, Core.stopIssue, Core.dequeue, Map.getD_setD_same, State.eng]
  · rw [State.storeAt, hstore, State.storeAt]

end

/-! ### What the commands leave -/

/-- What stands by while a matrix command of core c runs: core store, the other cores but for the engines of the umpire's host,
tallies and memory. -/
theorem State.chainViews_frame {s t : State} {c : Nat} (h : ∀ {β : Type} {p : State → β}, State.ChainView c p → p t = p s) :
    (∀ a, t.storeAt c a = s.storeAt c a) ∧ (∀ d, d ≠ c → d ≠ hostOf c → t.core d = s.core d)
      ∧ t.core (hostOf c) = { s.core (hostOf c) with eng := (t.core (hostOf c)).eng } ∧ t.tallies = s.tallies
      ∧ s.sameMemory t := by
  have hstored : ((t.core c).store, (t.core c).words) = ((s.core c).store, (s.core c).words) := h (State.ChainView.of_store c)
  have hhost : (t.core (hostOf c)).disengaged = (s.core (hostOf c)).disengaged := h (State.ChainView.of_host c)
  obtain ⟨hstore, -⟩ := Prod.mk.inj hstored
  obtain ⟨hsame, htallies⟩ := State.sameMemory_tallies_of_eq (h (State.ChainView.memoryAndTallies c))
  exact ⟨fun a => congrArg (Map.getD unlisted · a) hstore, fun d hc hhost => h (State.ChainView.of_core hc hhost),
    (congrArg (fun k : Core => { k with eng := (t.core (hostOf c)).eng }) hhost :), htallies, hsame⟩

/-- The commands of the matrix engines by shape (R98 to R100). -/
def matrixCmds (c e : Nat) : List (Nat × Instr) := [(0, .matrixFull c e), (1, .matrixQuad c e), (2, .matrixWide c e)]

theorem exec_matrixCmds {c e : Nat} {x : Nat × Instr} (h : x ∈ matrixCmds c e) :
    exec x.2 s = .next ((s.runMatrix c e x.1).matrixDone c) := by
  unfold matrixCmds at h
  fin_cases h <;> rfl

theorem State.EngineView.matrixDone {c : Nat} {p : State → β} (hp : State.EngineView c p) : p (s.matrixDone c) = p s :=
  (hp.showDma _ c).trans (hp.settleCore s)

/-- The parts of an engine that its held scales leave alone. -/
theorem Engine.unscaled_parts {en en' : Engine} (h : en.unscaled = en') :
    en.q = en'.q ∧ en.out = en'.out ∧ ∀ ch', en'.chain = some ch' → ∃ ch, en.chain = some ch ∧ ch.accept = ch'.accept
      ∧ ch.shape = ch'.shape ∧ ch.group = ch'.group ∧ ch.k = ch'.k := by
  subst h
  refine ⟨rfl, rfl, fun ch' hch' => ?_⟩
  obtain ⟨ch, hch, rfl⟩ := Option.map_eq_some_iff.mp hch'
  exact ⟨ch, hch, rfl, rfl, rfl, rfl⟩

/-- What an engine holds when its command has ended (R108, R109). -/
theorem Engine.At.ended {m : MCmd} {cmd now : QCmd} {r : List QCmd} {ps : List Problem} {k0 : Nat → Nat} {out : List OutBuf}
    {i : Nat} {en : Engine} (h : en.At m cmd r ps k0 out i) (ctx : Nat) :
    (en.ended m now ctx ps).q = r ∧ (en.ended m now ctx ps).chain = en.chain ∧
      (m.emit = false → (en.ended m now ctx ps).out = out) ∧
      (m.emit = true → ∃ b, (en.ended m now ctx ps).out = out ++ [b] ∧ b.tiles = tilesOf m ps ∧ b.cmd = now
        ∧ b.outFmt = m.outFmt ∧ b.cells = (en.drain m.shape (ps.map fun p => p.q)).1) := by
  obtain ⟨d, hq, -⟩ := h.q
  cases hemit : m.emit
  · simp [Engine.ended, hemit, hq, h.out]
  · refine ⟨by simp [Engine.ended, hemit, hq], by simp [Engine.ended, hemit], nofun, fun _ => ?_⟩
    simp only [Engine.ended, hemit, if_true, h.out]
    exact ⟨_, rfl, rfl, rfl, rfl, rfl⟩

end Sys2Proof.Machine

namespace Sys2Proof.Proofs
open Sys2Proof.Machine

/-- Settles O14: reads of clean words leave only byte counters, so every position moves the chain of each present problem on by
its share of k_len (`Engine.At`), and a descriptor with an error ends in `State.matrixRefused`, which reaches no chain. -/
theorem matrixCommandsRunTheirChain : Obligations.MatrixCommandsRunTheirChain := by
  intro s c e cmd r _ _ hq hstarted hdone hruns hfrozen hwords m ctx desc hroom x hx hshape
  have hr : s.Ready c e cmd r := ⟨hq, hstarted, hdone, hruns, hfrozen, hwords, hroom⟩
  refine ⟨fun hbad hlin => ?_, fun hbad => ?_⟩
  · obtain ⟨⟨en, now, -, hat, htag, heng⟩, hframe⟩ := hr.runMatrix_effect hbad hlin hshape (P := fun _ _ => True)
      (fun _ => trivial) (fun _ _ _ _ _ _ _ => trivial)
    rw [← (State.EngineView.of_eng c e).matrixDone (s.runMatrix c e x.1)] at heng
    obtain ⟨hqueue, hout, hchain⟩ := Engine.unscaled_parts heng
    obtain ⟨hq', hchain', hkept, hemitted⟩ := hat.ended (now := now) ctx
    obtain ⟨ch', hch', haccept, hshape', hgroup, hk⟩ := hat.chain
    obtain ⟨ch, hch, haccept', hshape'', hgroup', hk'⟩ := hchain ch' (hchain'.trans hch')
    refine ⟨_, ch, exec_matrixCmds s hx, hqueue.trans hq', hch, haccept'.trans haccept, hshape''.trans hshape',
      hgroup'.trans hgroup, fun p hp => ?_, fun hemit => hout.trans (hkept hemit), fun hemit => ?_,
      State.chainViews_frame fun hp => (hp.matrixDone _).trans (hframe hp)⟩
    · exact (congrArg (List.getD · p.q 0) hk').trans ((hk p hp).trans (congrArg _ (Nat.min_eq_right (le_positionsOf hp))))
    · obtain ⟨b, hb, htiles, hcmd, hfmt, -⟩ := hemitted hemit
      exact ⟨b, hout.trans hb, htiles, hcmd ▸ htag, hfmt⟩
  · obtain ⟨y, hy⟩ := hr.runMatrix_of_bad hshape hbad
    obtain ⟨heng, hstopped, hstatus, hframe⟩ := (s.setPmc y).matrixRefused_effect c e cmd
    rw [← hy] at heng hstopped hstatus hframe
    refine ⟨_, exec_matrixCmds s hx, ?_⟩
    rw [heng]
    exact ⟨congrArg List.tail hq, rfl, rfl, rfl, hstopped, hstatus, hframe⟩

end Sys2Proof.Proofs
end

section
/-!
PROOFS. The sums of MATRIX_FULL (O15): the array as a dense list of cells, the operands of a position, and the chain of R121 in
every cell (04 R98, R104, R108, R109; 05 R121, R122, R124).
-/
namespace Sys2Proof.Machine

variable {α : Type}

/-! ### Dense and sparse lists -/

theorem iota_eq_range' (n k : Nat) : iota n k = List.range' n k := by
  induction k generalizing n with
  | zero => rfl
  | succ k ih => rw [iota, ih, List.range'_succ]

@[simp] theorem length_iota (n k : Nat) : (iota n k).length = k := by rw [iota_eq_range', List.length_range']

@[simp] theorem Map.length_dense (d : α) (m : List (Nat × α)) (i n : Nat) : (Map.dense d m i n).length = n := by
  induction n generalizing m i with
  | zero => cases m <;> rfl
  | succ n ih =>
    cases m with
    | nil => simp [Map.dense, ih]
    | cons p r =>
      obtain ⟨k, v⟩ := p
      simp only [Map.dense]
      split <;> simp [ih]

section
variable [DecidableEq α]

/-- A sparse list lists no key before its first. -/
theorem Map.lt_of_mem_sparse {d : α} {l : List α} {i : Nat} {p : Nat × α} (h : p ∈ Map.sparse d i l) : i ≤ p.1 := by
  induction l generalizing i with
  | nil => cases h
  | cons v l ih =>
    simp only [Map.sparse] at h
    split at h
    · exact Nat.le_of_succ_le (ih h)
    · rcases List.mem_cons.mp h with rfl | h
      · exact Nat.le_refl _
      · exact Nat.le_of_succ_le (ih h)

omit [DecidableEq α] in
theorem Map.dense_of_lt (d : α) {m : List (Nat × α)} {i : Nat} (h : ∀ p ∈ m, i < p.1) (n : Nat) :
    Map.dense d m i (n + 1) = d :: Map.dense d m (i + 1) n := by
  cases m with
  | nil => cases n <;> rfl
  | cons p r =>
    obtain ⟨k, v⟩ := p
    have hk : k ≠ i := Nat.ne_of_gt (h (k, v) List.mem_cons_self)
    simp [Map.dense, hk]

/-- The values of a sparse list are those it was made of. -/
theorem Map.dense_sparse (d : α) (l : List α) (i : Nat) : Map.dense d (Map.sparse d i l) i l.length = l := by
  induction l generalizing i with
  | nil => rfl
  | cons v l ih =>
    simp only [Map.sparse]
    split
    · next hv => rw [List.length_cons, Map.dense_of_lt d (fun p hp => Map.lt_of_mem_sparse hp), ih, hv]
    · simp [Map.dense, ih]

omit [DecidableEq α] in
theorem Map.find_of_lt {m : List (Nat × α)} {i : Nat} (h : ∀ p ∈ m, i < p.1) : Map.find i m = none := by
  induction m with
  | nil => rfl
  | cons p r ih =>
    obtain ⟨k, v⟩ := p
    have hk : k ≠ i := Nat.ne_of_gt (h (k, v) List.mem_cons_self)
    rw [Map.find, if_neg hk, ih fun p hp => h p (List.mem_cons_of_mem _ hp)]

/-- An entry of a sparse list is the value it was made of. -/
theorem Map.getD_sparse_map_iota (d : α) (f : Nat → α) {i j n : Nat} (hij : i ≤ j) (hj : j < i + n) :
    Map.getD d (Map.sparse d i ((iota i n).map f)) j = f j := by
  induction n generalizing i with
  | zero => omega
  | succ n ih =>
    have hrest : ∀ p ∈ Map.sparse d (i + 1) ((iota (i + 1) n).map f), i < p.1 := fun p hp => Map.lt_of_mem_sparse hp
    simp only [iota, List.map_cons, Map.sparse]
    rcases Nat.eq_or_lt_of_le hij with rfl | hlt
    · split
      · next hf => rw [Map.getD, Map.find_of_lt hrest, hf]; rfl
      · simp [Map.getD, Map.find]
    · have hne : i ≠ j := Nat.ne_of_lt hlt
      split
      · exact ih (by omega) (by omega)
      · rw [Map.getD, Map.find, if_neg hne]
        exact ih (by omega) (by omega)

end

theorem map_iota_congr {f g : Nat → α} {n : Nat} (h : ∀ j, j < n → f j = g j) : (iota 0 n).map f = (iota 0 n).map g :=
  List.map_congr_left fun j hj => h j (by simpa using (mem_iota.mp hj).2)

theorem mapIdx_map_iota (f : Nat → α → α) (g : Nat → α) (i n : Nat) :
    mapIdx f i ((iota i n).map g) = (iota i n).map fun j => f j (g j) := by
  induction n generalizing i with
  | zero => rfl
  | succ n ih => simp [iota, mapIdx, ih]

/-- Where the function gives a value that only the index decides, so does the list. -/
theorem mapIdx_of_const {f : Nat → α → α} {g : Nat → α} (h : ∀ j x, f j x = g j) (l : List α) (i : Nat) :
    mapIdx f i l = (iota i l.length).map g := by
  induction l generalizing i with
  | nil => rfl
  | cons x l ih => simp [iota, mapIdx, ih, h]

/-! ### Operands of a position -/

/-- An element with the scale of its block, poisoned where either is. -/
def joinScale (x : (FVal × Bool) × (Option Int × Bool)) : FVal × Option Int × Bool := (x.1.1, x.2.1, x.1.2 || x.2.2)

/-- Without a block scale an operand is the element decoded from the bits of its stream. -/
theorem opAt_elements (f : Fmt) (w : Nat) {n i : Nat} (b : Bytes) (hi : i < n) :
    opAt (((elements f w n (clean b)).zip (unitScale n)).map joinScale) i =
      (f.decode (bits (leNat b) (w * i + w - 1) (w * i)), some 0, false) := by
  have hclean : ∀ j k, anyPoison (((clean b).drop j).take k) = false := fun j k => by
    rw [clean, ← List.map_drop, ← List.map_take]
    exact anyPoison_clean _
  have hget : (iota 0 n)[i]'(by simpa using hi) = i := by simp [iota_eq_range']
  simp [opAt, elements, unitScale, joinScale, hclean, hget, hi]

section
variable {m : MCmd} {fa fb : Fmt} {wa wb ka kb : Nat} (hfa : inFmt m.aFmt = some (fa, wa, false, ka))
  (hfb : inFmt m.bFmt = some (fb, wb, false, kb)) {p : Problem} {i : Nat} (hi : i < p.k)
include hfa hfb hi

/-- Without block scales a position needs its elements of A and B alone (R104). -/
theorem posNeeds_of_plain (k0 : Nat) : posNeeds m p k0 i =
    some ⟨⟨4 * p.q, p.a, i * p.rows * wa / 8, p.rows * wa / 8⟩, ⟨4 * p.q + 1, p.b, i * p.cols * wb / 8, p.cols * wb / 8⟩,
      none, none⟩ := by
  simp [posNeeds, hfa, hfb, hi]

theorem State.Stores.readPos_of_plain {s : State} {c : Nat} {σ : List (Nat × Byte)} (hs : s.Stores c σ) (e k0 : Nat)
    (ha : ringName p.a = none) (hb : ringName p.b = none) : (s.readPos c e m p k0 i).1 = some
      { q := p.q
        a := ((elements fa wa p.rows (clean (Map.bytes unlisted σ (p.a + i * p.rows * wa / 8) (p.rows * wa / 8)))).zip
          (unitScale p.rows)).map joinScale
        b := ((elements fb wb p.cols (clean (Map.bytes unlisted σ (p.b + i * p.cols * wb / 8) (p.cols * wb / 8)))).zip
          (unitScale p.cols)).map joinScale } := by
  obtain ⟨y1, h1⟩ := hs.streamTake e (x := ⟨4 * p.q, p.a, i * p.rows * wa / 8, p.rows * wa / 8⟩) ha
  obtain ⟨y2, h2⟩ := (hs.setPmc y1).streamTake e (x := ⟨4 * p.q + 1, p.b, i * p.cols * wb / 8, p.cols * wb / 8⟩) hb
  simp only [State.readPos, hfa, hfb, posNeeds_of_plain hfa hfb hi, h1, h2, State.streamTakeOpt, Bool.false_eq_true, if_false]
  split <;> rfl

end

/-! ### The chain of a cell -/

/-- A result cell after n positions: the products it has taken (R121, R122). -/
def chainCell (g : Nat) (prod : Nat → FVal) (n : Nat) : Cell := (iota 0 n).foldl (fun x k => x.take g (prod k)) {}

theorem chainCell_succ (g : Nat) (prod : Nat → FVal) (n : Nat) :
    chainCell g prod (n + 1) = (chainCell g prod n).take g (prod n) := by
  simp [chainCell, iota_eq_range', List.range'_concat]

theorem poison_take (g : Nat) (x : Cell) (p : FVal) : (x.take g p).poison = x.poison := by
  unfold Cell.take
  dsimp only
  split <;> rfl

theorem poison_chainCell (g : Nat) (prod : Nat → FVal) (n : Nat) : (chainCell g prod n).poison = false := by
  induction n with
  | zero => rfl
  | succ n ih => rw [chainCell_succ, poison_take, ih]

/-- An array in which cell j has taken n products of its own. -/
def chainCells (g : Nat) (prod : Nat → Nat → FVal) (n : Nat) : List (Nat × Cell) :=
  Map.sparse {} 0 ((iota 0 1024).map fun j => chainCell g (prod j) n)

theorem getD_chainCells (g : Nat) (prod : Nat → Nat → FVal) (n : Nat) {j : Nat} (hj : j < 1024) :
    Map.getD {} (chainCells g prod n) j = chainCell g (prod j) n :=
  Map.getD_sparse_map_iota _ _ (Nat.zero_le j) (by simpa using hj)

theorem cellAt_full (r c : Nat) : cellAt 0 r c = (0, r, c) := rfl

/-- A chain that starts for the one problem of FULL starts in every cell (R108). -/
theorem Engine.cells_startChain (en : Engine) {ch : Chain} (hshape : ch.shape = 0) (g : Nat) (prod : Nat → Nat → FVal) :
    (en.startChain ch [0]).cells = chainCells g prod 0 := by
  have hempty : ∀ (j : Nat) (x : Cell), (if [0].elem (cellAt ch.shape (j / 32) (j % 32)).1 then {} else x) = ({} : Cell) := by
    intro j x
    rw [hshape, cellAt_full]
    rfl
  have hmap := mapIdx_of_const hempty (Map.dense {} en.cells 0 1024) 0
  rw [Map.length_dense] at hmap
  rw [Engine.startChain, chainCells]
  exact congrArg (Map.sparse {} 0) hmap

theorem opsOf_singleton {o : PosOps} (h : o.q = 0) : opsOf [o] 0 = some o := by simp [opsOf, h]

/-- A position of FULL is one product more in a cell (R98, R121). -/
theorem stepCell_full {o : PosOps} (hq : o.q = 0) {A B : Nat → FVal} {j : Nat}
    (hA : opAt o.a (j / 32) = (A (j / 32), some 0, false)) (hB : opAt o.b (j % 32) = (B (j % 32), some 0, false)) (g : Nat)
    (x : Cell) : stepCell 0 g [o] j x = x.take g (scaledProduct (A (j / 32)) (B (j % 32)) (some 0) (some 0)) := by
  simp only [stepCell, cellAt_full, opsOf_singleton hq, hA, hB, Bool.or_false]

/-- A position of FULL is one product more in every cell. -/
theorem Engine.cells_position {en : Engine} {g i : Nat} {prod : Nat → Nat → FVal} (hcells : en.cells = chainCells g prod i)
    {o : PosOps} (hq : o.q = 0) {A B : Nat → FVal} (hA : ∀ r, r < 32 → opAt o.a r = (A r, some 0, false))
    (hB : ∀ k, k < 32 → opAt o.b k = (B k, some 0, false))
    (hprod : ∀ j, prod j i = scaledProduct (A (j / 32)) (B (j % 32)) (some 0) (some 0)) :
    (en.position 0 g [o]).cells = chainCells g prod (i + 1) := by
  have hdense : Map.dense {} en.cells 0 1024 = (iota 0 1024).map fun j => chainCell g (prod j) i := by
    have h := Map.dense_sparse ({} : Cell) ((iota 0 1024).map fun j => chainCell g (prod j) i) 0
    rwa [List.length_map, length_iota, ← chainCells, ← hcells] at h
  rw [Engine.position, hdense, mapIdx_map_iota, chainCells]
  refine congrArg (Map.sparse ({} : Cell) 0) (map_iota_congr fun j hj => ?_)
  rw [chainCell_succ, hprod]
  exact stepCell_full hq (hA _ (by omega)) (hB _ (by omega)) g _

/-! ### The drained cells -/

/-- The drain of FULL holds every cell with the sum and error term that its chain would end with (R109, R124). -/
theorem Engine.drain_chainCells {en : Engine} {g n : Nat} {prod : Nat → Nat → FVal} (h : en.cells = chainCells g prod n)
    {i j : Nat} (hi : i < 32) (hj : j < 32) :
    ∃ d ∈ (en.drain 0 [0]).1, d.row = i ∧ d.col = j ∧ d.poison = false ∧
      (d.s, d.e) = (chainCell g (prod (32 * i + j)) n).value := by
  have hlt : 32 * i + j < 1024 := by omega
  have hrow : (32 * i + j) / 32 = i := by omega
  have hcol : (32 * i + j) % 32 = j := by omega
  have hcell : Map.getD {} en.cells (32 * i + j) = chainCell g (prod (32 * i + j)) n := by
    rw [h, getD_chainCells g prod n hlt]
  refine ⟨{ row := i, col := j, s := (chainCell g (prod (32 * i + j)) n).value.1
            e := (chainCell g (prod (32 * i + j)) n).value.2, poison := false }, ?_, rfl, rfl, rfl, rfl⟩
  refine List.mem_filterMap.mpr ⟨32 * i + j, mem_iota.mpr ⟨Nat.zero_le _, by simpa using hlt⟩, ?_⟩
  rw [hcell, hrow, hcol, cellAt_full]
  simp [poison_chainCell]

/-! ### The command -/

/-- The element of a linear stream at K position k, for a row of A or a column of B (R104). -/
def State.element (s : State) (c : Nat) (f : Fmt) (w a k i : Nat) : FVal :=
  f.decode (bits (leNat (Map.bytes unlisted (s.core c).store (a + k * (4 * w)) (4 * w))) (w * i + w - 1) (w * i))

/-- The product that cell j of FULL takes at K position k. -/
def State.fullProduct (s : State) (c : Nat) (m : MCmd) (fa fb : Fmt) (wa wb j k : Nat) : FVal :=
  scaledProduct (s.element c fa wa m.aAddr k (j / 32)) (s.element c fb wb m.bAddr k (j % 32)) (some 0) (some 0)

theorem positionsOf_plain (m : MCmd) : positionsOf [plainProblem m] = m.kLen := Nat.zero_max m.kLen

theorem problems_full {m : MCmd} (h : m.shape = 0) (desc : Bytes) : problems m desc = [plainProblem m] := by
  simp [problems, h]

/-- Without block scales the fields of the scale streams are 0 (R115). -/
theorem State.scales_of_plain {s : State} {c e : Nat} {cmd : QCmd} {ctx : Nat} {desc : Bytes}
    (hbad : s.matrixBad c e cmd ctx desc = false) {fa fb : Fmt} {wa wb ka kb : Nat}
    (hfa : inFmt (mcmd cmd.word).aFmt = some (fa, wa, false, ka)) (hfb : inFmt (mcmd cmd.word).bFmt = some (fb, wb, false, kb))
    {p : Problem} (hp : p ∈ problems (mcmd cmd.word) desc) : p.aScale = 0 ∧ p.bScale = 0 := by
  simp only [State.matrixBad, Bool.or_eq_false_iff, List.any_eq_false] at hbad
  have hpbad := hbad.2 p hp
  simp only [State.problemBad, hfa, hfb, Bool.false_eq_true, if_false, Bool.or_eq_true, not_or, decide_eq_true_eq, not_not] at hpbad
  exact ⟨hpbad.1.1.1.2, hpbad.1.1.2⟩

section
variable {s : State} {c : Nat} {m : MCmd} {fa fb : Fmt} {wa wb ka kb : Nat}
  (hfa : inFmt m.aFmt = some (fa, wa, false, ka)) (hfb : inFmt m.bFmt = some (fb, wb, false, kb)) (hshape : m.shape = 0)
  (ha : ringName m.aAddr = none) (hb : ringName m.bAddr = none)
include hfa hfb hshape ha hb

/-- A position of FULL multiplies the elements of A and B at its K position. -/
theorem Engine.cells_afterPosition {u : State} (hu : u.Stores c (s.core c).store) (e : Nat) (k0 : Nat → Nat) {i : Nat}
    (hi : i < m.kLen) {en : Engine}
    (hcells : en.cells = chainCells (groupSize m.group) (s.fullProduct c m fa fb wa wb) i) :
    (en.afterPosition m [plainProblem m] i (u.readAll c e m k0 i [plainProblem m]).1).cells =
      chainCells (groupSize m.group) (s.fullProduct c m fa fb wa wb) (i + 1) := by
  have hrows : (plainProblem m).rows = 32 ∧ (plainProblem m).cols = 32 := by simp [plainProblem, hshape]
  have hoff : ∀ w, i * 32 * w / 8 = i * (4 * w) ∧ 32 * w / 8 = 4 * w := fun w => by
    rw [show i * 32 * w = i * (4 * w) * 8 by ring, Nat.mul_div_cancel _ (by decide)]
    omega
  have hread := hu.readPos_of_plain hfa hfb (p := plainProblem m) hi e (k0 0) ha hb
  simp only [hrows.1, hrows.2, (hoff wa).1, (hoff wa).2, (hoff wb).1, (hoff wb).2] at hread
  simp only [Engine.afterPosition, State.readAll, hshape]
  rw [show (plainProblem m).q = 0 from rfl, hread]
  exact Engine.cells_position hcells rfl (fun r hr => opAt_elements fa wa _ hr) (fun k hk => opAt_elements fb wb _ hk)
    fun j => rfl

end

end Sys2Proof.Machine

namespace Sys2Proof.Proofs
open Sys2Proof.Machine

/-- Settles O15: FULL starts every cell's chain anew, each position is one product more in every cell
(`Engine.cells_afterPosition`), and the drain closes what is open (`Engine.drain_chainCells`). -/
theorem matrixFullSumsProducts : Obligations.MatrixFullSumsProducts := by
  intro s c e cmd r _ _ hq hstarted hdone hruns hfrozen hwords m fa fb wa wb ka kb hfa hfb hshape hkeep hemit hroom ha hb hbad
    elem
  have hr : s.Ready c e cmd r := ⟨hq, hstarted, hdone, hruns, hfrozen, hwords, fun _ => hroom⟩
  have hdesc : s.quadDesc c m = [] := by simp [State.quadDesc, hshape]
  have hps : problems m (s.quadDesc c m) = [plainProblem m] := problems_full hshape _
  rw [← hdesc] at hbad
  have hlin : ∀ p ∈ problems m (s.quadDesc c m), p.Linear := by
    intro p hp
    obtain ⟨hsa, hsb⟩ := State.scales_of_plain hbad hfa hfb hp
    rw [hps, List.mem_singleton] at hp
    subst hp
    exact ⟨ha, hb, hsa ▸ by decide, hsb ▸ by decide⟩
  have hlen : positionsOf (problems m (s.quadDesc c m)) = m.kLen := by rw [hps, positionsOf_plain]
  obtain ⟨⟨en, now, hcells, hat, -, heng⟩, -⟩ := hr.runMatrix_effect hbad hlin hshape
    (P := fun i en => en.cells = chainCells (groupSize m.group) (s.fullProduct c m fa fb wa wb) i)
    (fun smp => by
      rw [hps, Engine.begun, hkeep]
      exact Engine.cells_startChain _ hshape _ _)
    (fun k0 i en u hi hu hcells => by
      rw [hlen] at hi
      rw [hps]
      exact Engine.cells_afterPosition hfa hfb hshape ha hb hu e k0 hi hcells)
  rw [← (State.EngineView.of_eng c e).matrixDone (s.runMatrix c e 0)] at heng
  obtain ⟨-, -, -, hemitted⟩ := hat.ended (now := now) (wbits cmd.word 251 240)
  obtain ⟨b, hb, -, -, -, hdrained⟩ := hemitted hemit
  refine ⟨_, b, exec_matrixCmds s (x := (0, .matrixFull c e)) List.mem_cons_self, (Engine.unscaled_parts heng).2.1.trans hb,
    fun i j hi hj => ?_⟩
  rw [hps, hshape] at hdrained
  rw [hlen] at hcells
  obtain ⟨d, hd, hrow, hcol, hpoison, hvalue⟩ := Engine.drain_chainCells hcells hi hj
  refine ⟨d, hdrained ▸ hd, hrow, hcol, hpoison, hvalue.trans ?_⟩
  have hcellRow : (32 * i + j) / 32 = i := by omega
  have hcellCol : (32 * i + j) % 32 = j := by omega
  unfold State.fullProduct
  rw [hcellRow, hcellCol]
  rfl

end Sys2Proof.Proofs
end

section
/-!
PROOFS. Writes of core store without poison where no word has errors or poison (06 R141): they change the bytes written and
no other, the words stay without errors, and beside the core's store nothing but the byte counters moves.
-/
namespace Sys2Proof.Machine

variable (s : State) {β : Type}

theorem Map.getElem_bytes {d : Byte} {m : List (Nat × Byte)} {a n j : Nat} (h : j < (Map.bytes d m a n).length) :
    (Map.bytes d m a n)[j] = Map.getD d m (a + j) := by
  induction n generalizing a j with
  | zero => exact absurd h (Nat.not_lt_zero j)
  | succ n ih =>
    cases j with
    | zero => rfl
    | succ j =>
      have hnext := ih (a := a + 1) (j := j) (by simpa using h)
      rwa [Nat.add_right_comm, Nat.add_assoc] at hnext

/-- A core but for its store and the check state of that. -/
def Core.unwritten (k : Core) : Core := { k with store := [], words := [], ceWb := [] }

/-- A view that sees no byte counter and no core store. -/
structure State.StoreWriteView (p : State → β) : Prop where
  pmc : ∀ {s x}, p (State.setPmc s x) = p s
  core : ∀ {s c f}, (∀ k, Core.unwritten (f k) = k.unwritten) → p (State.modCore s c f) = p s

/-- `t` is `s` after clean writes of core c within [lo, hi). -/
structure State.Overwrites (s : State) (c lo hi : Nat) (t : State) : Prop where
  words : ∀ i, t.wordSt c i = {}
  out : ∀ a, a < lo ∨ hi ≤ a → t.storeAt c a = s.storeAt c a
  view : ∀ {β : Type} {p : State → β}, State.StoreWriteView p → p t = p s

variable {s} {c lo hi : Nat} {t u : State}

theorem State.Overwrites.refl (h : ∀ i, s.wordSt c i = {}) (lo hi : Nat) : s.Overwrites c lo hi s :=
  ⟨h, fun _ _ => rfl, fun _ => rfl⟩

theorem State.Overwrites.trans (h : s.Overwrites c lo hi t) (h' : t.Overwrites c lo hi u) : s.Overwrites c lo hi u :=
  ⟨h'.words, fun a ha => (h'.out a ha).trans (h.out a ha), fun hp => (h'.view hp).trans (h.view hp)⟩

theorem State.Overwrites.mono (h : s.Overwrites c lo hi t) {lo' hi' : Nat} (hlo : lo' ≤ lo) (hhi : hi ≤ hi') :
    s.Overwrites c lo' hi' t :=
  ⟨h.words, fun a ha => h.out a (by omega), h.view⟩

theorem State.Overwrites.count {r : RegDef} {ix : List Nat} {n : Nat} (h : (s.count r ix n).Overwrites c lo hi t) :
    s.Overwrites c lo hi t :=
  ⟨h.words, h.out, fun hp => (h.view hp).trans hp.pmc⟩

/-! ### One word -/

theorem State.wordSt_putWord_of_clean (h : ∀ i, s.wordSt c i = {}) (i data j : Nat) :
    (s.putWord c i data false).wordSt c j = {} := by
  rw [State.wordSt, State.putWord, State.core_modCore_same]
  dsimp only
  by_cases hj : j = i
  · subst hj
    exact Map.getD_setD_same _ _ _ _
  · rw [Map.getD_setD_ne _ _ _ hj]
    exact h j

/-- A word put whole differs only where its bytes do. -/
theorem State.Overwrites.putWord {i : Nat} {b : Bytes} (h : ∀ i, s.wordSt c i = {}) (hlen : b.length = 8)
    (hsame : ∀ j (hj : j < b.length), 8 * i + j < lo ∨ hi ≤ 8 * i + j → b[j] = s.storeAt c (8 * i + j)) :
    s.Overwrites c lo hi (s.putWord c i (leNat b) false) := by
  refine ⟨State.wordSt_putWord_of_clean h i _, fun a ha => ?_, fun hp => hp.core fun _ => rfl⟩
  by_cases hin : 8 * i ≤ a ∧ a < 8 * i + 8
  · obtain ⟨j, rfl⟩ := Nat.exists_eq_add_of_le hin.1
    have hj : j < b.length := by omega
    rw [State.storeAt_putWord_leNat s hlen false hj, hsame j hj ha]
  · exact s.storeAt_putWord_out _ _ (by omega)

theorem State.writeWord_overwrites {i pos : Nat} {data : List (Byte × Bool)} (h : ∀ i, s.wordSt c i = {})
    (hpoison : anyPoison data = false) (hfit : pos + data.length ≤ 8) :
    s.Overwrites c (8 * i + pos) (8 * i + (pos + data.length)) (s.writeWord c i pos data) := by
  unfold State.writeWord
  dsimp only
  rw [hpoison]
  split
  · next hlen => exact .putWord h (by simpa using hlen) fun j hj hout => by rw [length_plain] at hj; omega
  · rw [State.readWord_of_clean (s.count R.CST_BYTES_RD_LO [c] 8) (h i)]
    refine State.Overwrites.count (r := R.CST_BYTES_RD_LO) (ix := [c]) (n := 8) (.putWord h ?_ fun j hj hout => ?_)
    · simp only [List.length_append, List.length_take, List.length_drop, length_natLe, length_plain]
      omega
    · have hold : ∀ k (hk : k < (natLe 8 ((s.count R.CST_BYTES_RD_LO [c] 8).wordData c i)).length),
          (natLe 8 ((s.count R.CST_BYTES_RD_LO [c] 8).wordData c i))[k] = s.storeAt c (8 * i + k) := fun k hk => by
        simp only [State.natLe_wordData, Map.getElem_bytes]
        rfl
      rcases Nat.lt_or_ge j pos with hlow | hhigh
      · rw [List.getElem_append_left (by simp; omega), List.getElem_append_left (by simp; omega), List.getElem_take, hold]
        rfl
      · have hj' : pos + data.length ≤ j := by omega
        rw [List.getElem_append_right (by simp; omega), List.getElem_drop, hold]
        simp only [List.length_append, List.length_take, length_natLe, length_plain]
        rw [show pos + data.length + (j - (min pos 8 + data.length)) = j by omega]
        rfl

/-! ### Runs of bytes -/

theorem anyPoison_append (l r : List (Byte × Bool)) : anyPoison (l ++ r) = (anyPoison l || anyPoison r) := List.any_append

theorem State.storeWriteFrom_overwrites {a : Nat} {data : List (Byte × Bool)} (h : ∀ i, s.wordSt c i = {})
    (hpoison : anyPoison data = false) (fuel : Nat) :
    s.Overwrites c a (a + data.length) (s.storeWriteFrom c a data fuel) := by
  induction fuel generalizing s a data with
  | zero => exact .refl h _ _
  | succ fuel ih =>
    cases data with
    | nil => exact .refl h _ _
    | cons y r =>
      rw [State.storeWriteFrom]
      generalize hdata : y :: r = data at hpoison ⊢
      have hsplit := anyPoison_append (data.take (8 - a % 8)) (data.drop (8 - a % 8))
      rw [List.take_append_drop, hpoison, eq_comm, Bool.or_eq_false_iff] at hsplit
      obtain ⟨hfirst, hrest⟩ := hsplit
      have hword := State.writeWord_overwrites (i := a / 8) (pos := a % 8) h hfirst (by rw [List.length_take]; omega)
      by_cases hlast : data.length ≤ 8 - a % 8
      · rw [List.drop_eq_nil_of_le hlast]
        rw [List.length_take] at hword
        have hdone : ∀ u : State, u.storeWriteFrom c (a + (8 - a % 8)) [] fuel = u := fun u => by
          cases fuel <;> rfl
        rw [hdone]
        exact hword.mono (by omega) (by omega)
      · have htail := ih (a := a + (8 - a % 8)) hword.words hrest
        rw [List.length_drop] at htail
        rw [List.length_take] at hword
        exact (hword.mono (by omega) (by omega)).trans (htail.mono (by omega) (by omega))

theorem State.storeWrite_overwrites {a : Nat} {data : List (Byte × Bool)} (h : ∀ i, s.wordSt c i = {})
    (hpoison : anyPoison data = false) : s.Overwrites c a (a + data.length) (s.storeWrite c a data) :=
  have hfrom := State.storeWriteFrom_overwrites (s := s.count R.CST_BYTES_WR_LO [c] data.length) (a := a) h hpoison
    (data.length / 8 + 2)
  hfrom.count

/-! ### Rows -/

theorem State.writeRows_overwrites {dst pitch : Nat} {rows : List (List (Byte × Bool))} (h : ∀ i, s.wordSt c i = {})
    (hpoison : ∀ x ∈ rows, anyPoison x = false) (hpitch : ∀ x ∈ rows, x.length ≤ pitch) :
    s.Overwrites c dst (dst + rows.length * pitch) (s.writeRows c dst pitch rows) := by
  induction rows generalizing s dst with
  | nil => exact .refl h _ _
  | cons x rows ih =>
    have hx := hpitch x List.mem_cons_self
    have hlen : dst + (x :: rows).length * pitch = dst + pitch + rows.length * pitch := by
      rw [List.length_cons, Nat.add_mul]
      omega
    have hrow := State.storeWrite_overwrites (a := dst) h (hpoison x List.mem_cons_self)
    have hrest := ih (dst := dst + pitch) hrow.words (fun y hy => hpoison y (List.mem_cons_of_mem _ hy))
      fun y hy => hpitch y (List.mem_cons_of_mem _ hy)
    rw [hlen]
    exact (hrow.mono (Nat.le_refl _) (by omega)).trans (hrest.mono (by omega) (Nat.le_refl _))

/-- Every row stands at its place: those after it lie beyond its pitch. -/
theorem State.storeAt_writeRows {dst pitch : Nat} {rows : List (List (Byte × Bool))} (h : ∀ i, s.wordSt c i = {})
    (hpoison : ∀ x ∈ rows, anyPoison x = false) (hpitch : ∀ x ∈ rows, x.length ≤ pitch) {i j : Nat}
    {row : List (Byte × Bool)} (hi : rows[i]? = some row) (hj : j < row.length) :
    (s.writeRows c dst pitch rows).storeAt c (dst + i * pitch + j) = row[j].1 := by
  induction rows generalizing s dst i with
  | nil => cases hi
  | cons x rows ih =>
    have hrow := State.storeWrite_overwrites (a := dst) h (hpoison x List.mem_cons_self)
    have hpoison' : ∀ y ∈ rows, anyPoison y = false := fun y hy => hpoison y (List.mem_cons_of_mem _ hy)
    have hpitch' : ∀ y ∈ rows, y.length ≤ pitch := fun y hy => hpitch y (List.mem_cons_of_mem _ hy)
    cases i with
    | zero =>
      obtain rfl := Option.some.inj hi
      have hx := hpitch x List.mem_cons_self
      have hrest := State.writeRows_overwrites (dst := dst + pitch) hrow.words hpoison' hpitch'
      rw [Nat.zero_mul, Nat.add_zero]
      exact (hrest.out _ (.inl (by omega))).trans (State.storeAt_storeWrite s hj)
    | succ i =>
      have hplace : dst + (i + 1) * pitch + j = dst + pitch + i * pitch + j := by
        rw [Nat.add_mul]
        omega
      rw [hplace]
      exact ih hrow.words hpoison' hpitch' hi

end Sys2Proof.Machine
end

section
/-!
PROOFS. What stands by while a buffer is committed (04 R109; 10 R236, R238): the rows of a tile, the counts of the row
checks, the shown engine and the trace.
-/
namespace Sys2Proof.Machine

variable (s : State) {β : Type}

/-! ### The rows of a tile -/

theorem anyPoison_eq_false {l : List (Byte × Bool)} (h : ∀ x ∈ l, x.2 = false) : anyPoison l = false :=
  List.any_eq_false.mpr fun x hx => by simp [h x hx]

theorem poison_tileRows {b : OutBuf} {tile : Tile} {cells : List Drained} (h : ∀ d ∈ cells, d.poison = false) :
    ∀ row ∈ tileRows b tile cells, ∀ x ∈ row, x.2 = false := by
  intro row hrow x hx
  unfold tileRows at hrow
  split at hrow
  · exact absurd hrow List.not_mem_nil
  · obtain ⟨i, -, rfl⟩ := List.mem_map.mp hrow
    obtain ⟨j, -, hx⟩ := List.mem_flatMap.mp hx
    dsimp only at hx
    split at hx
    · next d hd =>
      obtain ⟨y, -, rfl⟩ := List.mem_map.mp hx
      exact h d (List.mem_of_find?_eq_some hd)
    · obtain ⟨y, -, rfl⟩ := List.mem_map.mp hx
      rfl

theorem length_tileRows_le (b : OutBuf) (tile : Tile) (cells : List Drained) : (tileRows b tile cells).length ≤ tile.rows := by
  unfold tileRows
  split
  · exact Nat.zero_le _
  · rw [List.length_map, length_iota]

/-- One unwatched tile without poison is only written. -/
theorem State.commitTiles_of_clean (c e : Nat) {b : OutBuf} {tile : Tile} {cells : List Drained} (htiles : b.tiles = [tile])
    (hwatch : b.watch = none) (h : ∀ d ∈ cells, d.poison = false) :
    s.commitTiles c e b cells = s.writeRows c tile.dst tile.pitch (tileRows b tile cells) := by
  have hclean : ((b.tiles.flatMap fun t => (tileRows b t cells).flatMap fun r => r).filter fun p => p.2) = [] := by
    rw [htiles, List.flatMap_singleton, List.filter_eq_nil_iff]
    intro x hx
    obtain ⟨row, hrow, hx⟩ := List.mem_flatMap.mp hx
    simp [poison_tileRows h row hrow x hx]
  refine (if_pos hclean).trans ?_
  rw [hwatch, htiles]
  rfl

/-! ### Registers -/

theorem State.reg_pmcTick_ne {cnt sel ovf r : RegDef} {ix jx : List Nat} (h : r.addr jx ≠ ovf.addr ix) (n code : Nat)
    (sub : Option Nat) : (s.pmcTick cnt sel ovf ix n code sub).reg r jx = s.reg r jx := by
  refine State.each_keeps s (fun s => s.reg r jx) _ _ fun s k => ?_
  split
  · dsimp only
    split
    · exact State.reg_setReg_ne _ h _
    · rfl
  · rfl

/-- The counts of the row checks change ENG_SCHK and the overflow bits of their core, so every core stays with its crew. -/
theorem State.crewOf_countRows (c e d : Nat) (rows : List RowCheck) : (s.countRows c e rows).crewOf d = s.crewOf d := by
  have hschk : R.SEQ_CREW.addr [d] ≠ R.ENG_SCHK.addr [c] := by
    simp only [RegDef.addr, R.SEQ_CREW, R.ENG_SCHK, addrFrom]
    omega
  have hovf : R.SEQ_CREW.addr [d] ≠ R.PMC_OVF_CORE.addr [c] := by
    simp only [RegDef.addr, R.SEQ_CREW, R.PMC_OVF_CORE, addrFrom]
    omega
  refine State.crewOf_congr (State.each_keeps s (fun s => s.reg R.SEQ_CREW [d]) _ _ fun s x => ?_)
  cases x with
  | none => rfl
  | skipped => exact (State.reg_pmcTick_ne _ hovf _ _ _).trans (State.reg_setReg_ne _ hschk _)
  | passed => exact State.reg_pmcTick_ne _ hovf _ _ _
  | mismatch => exact State.reg_pmcTick_ne _ hovf _ _ _

theorem State.crewOf_countFail (c d : Nat) (fail : Bool) : (s.countFail c fail).crewOf d = s.crewOf d := by
  have hschk : R.SEQ_CREW.addr [d] ≠ R.ENG_SCHK.addr [c] := by
    simp only [RegDef.addr, R.SEQ_CREW, R.ENG_SCHK, addrFrom]
    omega
  unfold State.countFail
  split
  · exact State.crewOf_congr ((State.reg_raiseBit_ne _ hschk).trans (State.reg_setReg_ne _ hschk _))
  · rfl

/-- A trace record changes TRC_LOST at most. -/
theorem State.fld_trace {g : Fld} {jx : List Nat} (h : ∀ n, n < 16 → g.reg.addr jx ≠ R.TRC_LOST.addr [n])
    (c kind how : Nat) (word : CmdWord) (entry accept detail : Nat) :
    (s.trace c kind how word entry accept detail).fld g jx = s.fld g jx := by
  unfold State.trace
  split
  · rfl
  · next n hn =>
    split
    · unfold State.stageTrace
      dsimp only
      split
      · exact congrArg (fun w : Word => bits w.toNat g.hi g.lo) (State.reg_setReg_ne _ (h n (s.crewOf_lt hn)) _)
      · rfl
    · rfl

theorem State.fld_settleCore {g : Fld} {jx : List Nat} (h : ∀ n, n < 16 → g.reg.addr jx ≠ R.TRC_LOST.addr [n]) (c : Nat) :
    (s.settleCore c).fld g jx = s.fld g jx := by
  unfold State.settleCore
  dsimp only
  split
  · rfl
  · exact State.each_keeps _ (fun s => s.fld g jx) _ _ fun s q => State.fld_trace s h _ _ _ _ _ _ _

theorem State.fld_setPair_ne {g : Fld} {jx ix : List Nat} {lo hi : RegDef} (hlo : g.reg.addr jx ≠ lo.addr ix)
    (hhi : g.reg.addr jx ≠ hi.addr ix) (v : Nat) : (s.setPair lo hi ix v).fld g jx = s.fld g jx :=
  congrArg (fun w : Word => bits w.toNat g.hi g.lo)
    ((State.reg_setReg_ne _ hhi _).trans (State.reg_setReg_ne s hlo _))

/-- An engine shows in ENG_STATUS and ENG_CHAINK only. -/
theorem State.fld_showEng {g : Fld} {jx : List Nat} {c e : Nat} (hstatus : g.reg.addr jx ≠ R.ENG_STATUS.addr [c, e])
    (hlo : g.reg.addr jx ≠ R.ENG_CHAINK_LO.addr [c, e]) (hhi : g.reg.addr jx ≠ R.ENG_CHAINK_HI.addr [c, e]) :
    (s.showEng c e).fld g jx = s.fld g jx := by
  have hput : ∀ (f : Fld) (v : Nat) (s : State), f.reg = R.ENG_STATUS → (s.setFld f [c, e] v).fld g jx = s.fld g jx :=
    fun f v s hf => State.fld_setFld_reg s (hf ▸ hstatus) v
  have hlive : ∀ (f : Fld) (on : Bool) (s : State), f.reg = R.ENG_STATUS → (s.liveBit f [c, e] on).fld g jx = s.fld g jx :=
    fun f on s hf => State.fld_liveBit_reg s (hf ▸ hstatus) on
  unfold State.showEng
  dsimp only
  rw [State.fld_setPair_ne _ hlo hhi, hput _ _ _ rfl, hlive _ _ _ rfl, hlive _ _ _ rfl]
  split
  · rw [hput _ _ _ rfl, hput _ _ _ rfl, hput _ _ _ rfl, hlive _ _ _ rfl, hput _ _ _ rfl]
  · rw [hput _ _ _ rfl, hput _ _ _ rfl, hput _ _ _ rfl, hlive _ _ _ rfl, hput _ _ _ rfl]

/-! ### Views -/

section
variable {c : Nat} {p : State → β} (hp : State.EngineView c p)
include hp

theorem State.EngineView.countRows (d e : Nat) (rows : List RowCheck) : p (s.countRows d e rows) = p s := by
  refine State.each_keeps s p _ _ fun s x => ?_
  have hpmc : ∀ s code, p (State.pmcCore s d code (some e)) = p s := fun s code =>
    State.pmcCore_keeps s p (fun _ _ => hp.regs) (fun _ _ => hp.pmc) _ _ _
  cases x with
  | none => rfl
  | skipped => exact (hpmc _ _).trans hp.regs
  | passed => exact hpmc _ _
  | mismatch => exact hpmc _ _

theorem State.EngineView.countFail (d : Nat) (fail : Bool) : p (s.countFail d fail) = p s := by
  unfold State.countFail
  split
  · exact (State.raiseBit_keeps _ p (fun _ _ => hp.regs) (fun _ _ => hp.conv) _ _).trans hp.regs
  · rfl

end

/-- Faults and crews are no engine's. -/
theorem State.ChainView.faultsAndCrews (c : Nat) : State.ChainView c fun s => (s.flt, s.crews) where
  regs := rfl
  conv := rfl
  pmc := rfl
  core _ := rfl
  host := rfl
  eng := rfl

theorem State.StoreWriteView.of_eng (c e : Nat) : State.StoreWriteView fun s => s.eng c e where
  pmc := rfl
  core h := congrArg (Map.getD ({} : Engine) · e) (State.core_modCore_part Core.eng fun k => (congrArg Core.eng (h k) :))

theorem State.StoreWriteView.faultsAndMemory :
    State.StoreWriteView fun s => (s.flt, s.memoryAndTallies) where
  pmc := rfl
  core _ := rfl

end Sys2Proof.Machine
end

section
/-!
PROOFS. EMIT_COMMIT of a chain that no umpire follows, and debug access (O16): what a passed emit writes, what a mismatch
withholds and records (04 R109, R117; 10 R238, R244).
-/
namespace Sys2Proof.Machine

variable (s : State) {β : Type}

/-! ### A mismatch -/

theorem Fault0.charge_severity (f : Fault0) (n : Nat) (l : Option Launch) :
    (f.charge n l).cls = f.cls ∧ (f.charge n l).sev = f.sev ∧ (f.charge n l).event = f.event
      ∧ (f.charge n l).crew = some n := by
  cases l <;> exact ⟨rfl, rfl, rfl, rfl⟩

/-- A fault of Domain severity stops the crew that it names (11 R258). -/
theorem State.raiseFault_stops_crew {f : Fault0} {n : Nat} (hsev : f.sev = 2) (hcrew : f.crew = some n) :
    ((s.raiseFault f).crew n).stop.isSome = true := by
  have hstamp : ∀ u : State, (u.stampFault f).crew = some n := fun u => by
    rw [State.stampFault]
    split
    · exact hcrew
    · exact hcrew
  unfold State.raiseFault
  generalize (if f.hasDetail = true then s.fresh else (f.syndrome, s)) = x
  obtain ⟨v, u⟩ := x
  simp only [State.stampFault_sev, hsev, hstamp]
  exact State.stopCrew_stop_isSome _ _ (.inl rfl)

/-- The fault of a failed sum check of an engine (10 R244). -/
def State.sumCheckFault (s : State) (c e n : Nat) (l : Option Launch) : Fault0 :=
  { ((s.fault0 4 2 0x0401).charge n l).atCore s c with unit := e, loc := e, detail := c / 9 }

/-- A failed sum check of a crew's core raises its fault; beside it only the diagnostic replay to come or the suspect
package is noted. -/
theorem State.mismatch_cases {c n : Nat} (e accept index : Nat) (hcrew : s.crewOf c = some n) :
    ∃ f : Fault0, (f.cls = 4 ∧ f.sev = 2 ∧ f.event = 0x0401 ∧ f.crew = some n) ∧
      (s.mismatch c e false accept index = s.raiseFault f
        ∨ s.mismatch c e false accept index = (s.raiseFault f).unlocalised c e accept index
        ∨ ∃ d : Crew → Option Diag,
          s.mismatch c e false accept index = (s.raiseFault f).modCrew n fun k => { k with diag := d k }) := by
  unfold State.mismatch
  simp only [hcrew]
  generalize (s.crew n).launches.find? _ = l
  obtain ⟨hcls, hsev, hevent, hcharged⟩ := (s.fault0 4 2 0x0401).charge_severity n l
  refine ⟨s.sumCheckFault c e n l, ⟨hcls, hsev, hevent, hcharged⟩, ?_⟩
  split
  · split
    · exact .inr (.inl rfl)
    · split
      · exact .inr (.inr ⟨_, rfl⟩)
      · exact .inl rfl
  · split
    · exact .inr (.inl rfl)
    · exact .inr (.inr ⟨_, rfl⟩)

/-- A view that sees nothing of what a mismatch notes. -/
structure State.FaultView (p : State → β) : Prop where
  crews : ∀ {s x}, p (State.setCrews s x) = p s
  flt : ∀ {s x}, p (State.setFlt s x) = p s
  free : ∀ {s x}, p (State.setFree s x) = p s
  cox : ∀ {s x}, p (State.setCox s x) = p s

theorem State.FaultView.mismatch {p : State → β} (hp : State.FaultView p) {c n : Nat} (e accept index : Nat)
    (hcrew : s.crewOf c = some n) : p (s.mismatch c e false accept index) = p s := by
  have hraise : ∀ f, p (s.raiseFault f) = p s := fun f =>
    State.raiseFault_keeps s p (fun _ _ => hp.crews) (fun _ _ => hp.flt) (fun _ _ => hp.free) f
  obtain ⟨f, -, h | h | ⟨d, h⟩⟩ := s.mismatch_cases e accept index hcrew
  · rw [h, hraise]
  · rw [h, State.unlocalised, State.trigger, hp.cox, State.suspect, hp.flt, hraise]
  · rw [h, State.modCrew, hp.crews, hraise]

/-- A mismatch is recorded and stops the crew. -/
theorem State.mismatch_records {c n : Nat} (e accept index : Nat) (hcrew : s.crewOf c = some n) :
    s.records (s.mismatch c e false accept index) 4 2 0x0401
      ∧ ((s.mismatch c e false accept index).crew n).stop.isSome = true := by
  obtain ⟨f, ⟨hcls, hsev, hevent, hcharged⟩, h⟩ := s.mismatch_cases e accept index hcrew
  have hrecords := s.records_raiseFault hcls hsev hevent
  have hstop := s.raiseFault_stops_crew hsev hcharged
  generalize s.raiseFault f = u at hrecords hstop h
  generalize s.mismatch c e false accept index = t at h ⊢
  obtain rfl | rfl | ⟨d, rfl⟩ := h
  · exact ⟨hrecords, hstop⟩
  · exact ⟨hrecords, hstop⟩
  · rw [State.crew_modCrew_same]
    exact ⟨hrecords, hstop⟩

/-! ### The commit -/

theorem upsetCells_nil (w : Who) (l : List Drained) : upsetCells w [] l = l := List.map_id _

theorem State.shadowed_congr {s t : State} {c : Nat} (e : Nat) (hcrew : t.crewOf c = s.crewOf c) (hcrews : t.crews = s.crews)
    (hstk : t.stk = s.stk) : t.shadowed c e = s.shadowed c e := by
  unfold State.shadowed State.crew
  rw [hcrew, hcrews, hstk]

/-- The oldest buffer of an engine checked and taken: its rows and a failure are counted, and the buffer is free. -/
def State.checked (s : State) (c e : Nat) (rows : List RowCheck) (rest : List OutBuf) : State :=
  ((s.countRows c e rows).countFail c (firstMismatch 0 rows).isSome).modEng c e fun en => { en with out := rest }

/-- What an engine's oldest buffer meets when EMIT_COMMIT is performed, with no umpire and no diagnostic replay of it. -/
structure State.Emits (s : State) (c e : Nat) (b : OutBuf) (r : List OutBuf) : Prop where
  out : (s.eng c e).out = b :: r
  works : s.coreWorks c = true
  thawed : (s.eng c e).frozen = false
  unshadowed : s.shadowed c e = none
  unsampled : b.sampled = false

section
variable {s} {c e : Nat} {b : OutBuf} {r : List OutBuf} (h : s.Emits c e b r)
include h

theorem State.Emits.emitCommit : s.emitCommit c e [] =
    let rows := s.checkRows c b b.cells b.chk
    let u := s.checked c e rows r
    if (firstMismatch 0 rows).isSome then (u.traceEnd c 1 b.cmd.done b.cmd).freezeEng c e b.cmd.accept b.index
    else ((u.commitTiles c e b b.cells).traceEnd c 0 b.cmd.done b.cmd).showEng c e := by
  obtain ⟨hout, hworks, hthawed, hshadow, hsampled⟩ := h
  have hcrews := (State.ChainView.faultsAndCrews c).toEngineView
  have hstroke : State.EngineView c State.stk := ⟨rfl, rfl, rfl, fun _ => rfl, rfl⟩
  have hcounted : ∀ rows, (s.countRows c e rows).shadowed c e = none := fun rows => by
    rw [State.shadowed_congr e (s.crewOf_countRows c e c rows) (congrArg Prod.snd (hcrews.countRows s c e rows) :)
      (hstroke.countRows s c e rows), hshadow]
  unfold State.emitCommit
  simp only [hout, hworks, hthawed, hsampled, upsetCells_nil, hcounted, State.seen]
  simp only [Bool.not_true, Bool.or_self, Bool.false_eq_true, if_false, Bool.false_and, Option.isNone_none, Bool.and_true,
    State.checked, State.countFail]

end

end Sys2Proof.Machine
end

section
/-!
PROOFS. What EMIT_COMMIT and a debug write leave (O16): 04 R109, R117; 10 R238, R244.
-/
namespace Sys2Proof.Machine

variable {s : State} {β : Type}

/-! ### The buffer taken -/

theorem State.ChainView.checked {c : Nat} {p : State → β} (hp : State.ChainView c p) (s : State) (e : Nat)
    (rows : List RowCheck) (rest : List OutBuf) : p (s.checked c e rows rest) = p s :=
  hp.eng.trans ((hp.toEngineView.countFail _ c _).trans (hp.toEngineView.countRows s c e rows))

theorem State.eng_checked (s : State) (c e : Nat) (rows : List RowCheck) (rest : List OutBuf) :
    (s.checked c e rows rest).eng c e = { s.eng c e with out := rest } := by
  rw [State.checked, State.eng_modEng_same, (State.EngineView.of_eng c e).countFail,
    (State.EngineView.of_eng c e).countRows]

theorem State.crewOf_checked (s : State) (c e : Nat) (rows : List RowCheck) (rest : List OutBuf) :
    (s.checked c e rows rest).crewOf c = s.crewOf c :=
  (State.crewOf_countFail (s.countRows c e rows) c c _).trans (s.crewOf_countRows c e c rows)

/-- A failed check shows in mis_hist of its core (10 R238). -/
theorem State.misHist_checked (s : State) (c e : Nat) {rows : List RowCheck} (rest : List OutBuf)
    (h : (firstMismatch 0 rows).isSome = true) : (s.checked c e rows rest).fld F.ENG_SCHK_mis_hist [c] = 1 := by
  have hregs : (s.checked c e rows rest).regs = ((s.countRows c e rows).countFail c true).regs := h ▸ rfl
  rw [State.fld_congr hregs, State.countFail, if_pos rfl]
  exact State.fld_raiseBit_same _ _ _ (by decide)

theorem State.storeAt_of_view {c : Nat} {t : State}
    (h : ((t.core c).store, (t.core c).words) = ((s.core c).store, (s.core c).words))
    (a : Nat) : t.storeAt c a = s.storeAt c a := congrArg (Map.getD unlisted · a) (Prod.mk.inj h).1

theorem State.wordSt_of_view {c : Nat} {t : State}
    (h : ((t.core c).store, (t.core c).words) = ((s.core c).store, (s.core c).words))
    (i : Nat) : t.wordSt c i = s.wordSt c i := congrArg (Map.getD ({} : WordSt) · i) (Prod.mk.inj h).2

/-! ### The frozen engine -/

/-- A failed sum check freezes its engine, is recorded and stops the crew; mis_hist and core store stay as they are. -/
theorem State.freezeEng_effect {c e n : Nat} (accept index : Nat) (he : e < 12) (hcrew : s.crewOf c = some n) :
    let t := s.freezeEng c e accept index
    t.eng c e = { s.eng c e with frozen := true } ∧ t.fld F.ENG_SCHK_mis_hist [c] = s.fld F.ENG_SCHK_mis_hist [c]
      ∧ s.records t 4 2 0x0401 ∧ (t.crew n).stop.isSome = true
      ∧ ((t.core c).store, (t.core c).words) = ((s.core c).store, (s.core c).words)
      ∧ t.memoryAndTallies = s.memoryAndTallies := by
  rw [State.freezeEng]
  have hengM := s.eng_modEng_same c e fun en => { en with frozen := true }
  have hkept : ∀ {β : Type} {p : State → β}, State.ChainView c p →
      p (s.modEng c e fun en => { en with frozen := true }) = p s := fun hp => hp.eng
  have hmis : (s.modEng c e fun en => { en with frozen := true }).fld F.ENG_SCHK_mis_hist [c] =
      s.fld F.ENG_SCHK_mis_hist [c] := State.fld_congr rfl _ _
  have hcrewM : (s.modEng c e fun en => { en with frozen := true }).crewOf c = some n := hcrew
  generalize (s.modEng c e fun en => { en with frozen := true }) = m at hengM hkept hmis hcrewM ⊢
  obtain ⟨⟨f, hqueue, hf⟩, hstop⟩ := m.mismatch_records e accept index hcrewM
  have hblind : ∀ {β : Type} {p : State → β}, State.FaultView p → p (m.mismatch c e false accept index) = p m :=
    fun hp => hp.mismatch m e accept index hcrewM
  generalize m.mismatch c e false accept index = v at hqueue hstop hblind ⊢
  have hshown : ∀ {β : Type} {p : State → β}, State.EngineView c p → p (v.showEng c e) = p v := fun hp => hp.showEng v c e
  obtain ⟨hflt, hcrews⟩ := Prod.mk.inj (hshown (State.ChainView.faultsAndCrews c).toEngineView :)
  have hfltM : m.flt = s.flt := (congrArg Prod.fst (hkept (State.ChainView.faultsAndCrews c)) :)
  have hstore := State.ChainView.of_store c
  have hmem := State.ChainView.memoryAndTallies c
  refine ⟨?_, ?_, ⟨f, ?_, hf⟩, ?_, ?_, ?_⟩
  · rw [hshown (.of_eng c e), hblind (p := fun s => s.eng c e) ⟨rfl, rfl, rfl, rfl⟩, hengM]
  · have hstatus : F.ENG_SCHK_mis_hist.reg.addr [c] ≠ R.ENG_STATUS.addr [c, e] := by
      simp only [RegDef.addr, F.ENG_SCHK_mis_hist, R.ENG_SCHK, R.ENG_STATUS, addrFrom]
      omega
    have hlo : F.ENG_SCHK_mis_hist.reg.addr [c] ≠ R.ENG_CHAINK_LO.addr [c, e] := by
      simp only [RegDef.addr, F.ENG_SCHK_mis_hist, R.ENG_SCHK, R.ENG_CHAINK_LO, addrFrom]
      omega
    have hhi : F.ENG_SCHK_mis_hist.reg.addr [c] ≠ R.ENG_CHAINK_HI.addr [c, e] := by
      simp only [RegDef.addr, F.ENG_SCHK_mis_hist, R.ENG_SCHK, R.ENG_CHAINK_HI, addrFrom]
      omega
    have hregs : v.regs = m.regs := hblind ⟨rfl, rfl, rfl, rfl⟩
    rw [State.fld_showEng _ hstatus hlo hhi, State.fld_congr hregs, hmis]
  · rw [hflt, hqueue, hfltM]
  · rw [State.crew, hcrews]
    exact hstop
  · have hstoreV := hblind (p := fun s => ((s.core c).store, (s.core c).words)) ⟨rfl, rfl, rfl, rfl⟩
    exact (hshown hstore.toEngineView).trans (hstoreV.trans (hkept hstore))
  · have hmemV := hblind (p := State.memoryAndTallies) ⟨rfl, rfl, rfl, rfl⟩
    exact (hshown hmem.toEngineView).trans (hmemV.trans (hkept hmem))

section
variable {c e : Nat} {b : OutBuf} {r : List OutBuf} (h : s.Emits c e b r)
include h

/-! ### An emit that passes -/

theorem State.Emits.of_pass {tile : Tile} (hpass : firstMismatch 0 (s.checkRows c b b.cells b.chk) = none)
    (hwatch : b.watch = none) (hpoison : ∀ d ∈ b.cells, d.poison = false) (htiles : b.tiles = [tile]) :
    s.emitCommit c e [] =
      ((((s.checked c e (s.checkRows c b b.cells b.chk) r).writeRows c tile.dst tile.pitch (tileRows b tile b.cells)
        ).traceEnd c 0 b.cmd.done b.cmd).showEng c e) := by
  rw [h.emitCommit]
  dsimp only
  rw [hpass, if_neg (by simp), State.commitTiles_of_clean _ c e htiles hwatch hpoison]

theorem State.Emits.pass_effect {tile : Tile} (hclean : ∀ i, s.wordSt c i = {})
    (hpass : firstMismatch 0 (s.checkRows c b b.cells b.chk) = none)
    (hwatch : b.watch = none) (hpoison : ∀ d ∈ b.cells, d.poison = false) (htiles : b.tiles = [tile])
    (hpitch : ∀ x ∈ tileRows b tile b.cells, x.length ≤ tile.pitch) :
    let t := (s.emitCommit c e []).settleCore c
    t.eng c e = { s.eng c e with out := r } ∧ t.flt = s.flt ∧ t.memoryAndTallies = s.memoryAndTallies
      ∧ (∀ i row, (tileRows b tile b.cells)[i]? = some row → ∀ j, j < row.length →
          some (t.storeAt c (tile.dst + i * tile.pitch + j)) = (row[j]?).map fun x => x.1)
      ∧ (∀ a, a < tile.dst ∨ tile.dst + tile.rows * tile.pitch ≤ a → t.storeAt c a = s.storeAt c a) := by
  rw [h.of_pass hpass hwatch hpoison htiles]
  generalize hu : s.checked c e (s.checkRows c b b.cells b.chk) r = u
  generalize hv : u.writeRows c tile.dst tile.pitch (tileRows b tile b.cells) = v
  have hshown : ∀ {β : Type} {p : State → β}, State.EngineView c p →
      p (((v.traceEnd c 0 b.cmd.done b.cmd).showEng c e).settleCore c) = p v := fun hp => by
    rw [hp.settleCore, hp.showEng, hp.traceEnd]
  have hstore := (State.ChainView.of_store c).checked s e (s.checkRows c b b.cells b.chk) r
  rw [hu] at hstore
  have hcleanU : ∀ i, u.wordSt c i = {} := fun i => (State.wordSt_of_view hstore i).trans (hclean i)
  have hrows : ∀ x ∈ tileRows b tile b.cells, anyPoison x = false := fun x hx =>
    anyPoison_eq_false (poison_tileRows hpoison x hx)
  have hover := State.writeRows_overwrites (dst := tile.dst) hcleanU hrows hpitch
  rw [hv] at hover
  have heng := hover.view (.of_eng c e)
  obtain ⟨hflt, hmem⟩ := Prod.mk.inj (hover.view State.StoreWriteView.faultsAndMemory :)
  have hstoreShown := State.storeAt_of_view (hshown (State.ChainView.of_store c).toEngineView)
  refine ⟨?_, ?_, ?_, fun i row hi j hj => ?_, fun a ha => ?_⟩
  · rw [hshown (.of_eng c e), heng, ← hu, State.eng_checked]
  · refine (congrArg Prod.fst (hshown (State.ChainView.faultsAndCrews c).toEngineView) :).trans (hflt.trans ?_)
    rw [← hu]
    exact (congrArg Prod.fst ((State.ChainView.faultsAndCrews c).checked s e _ r) :)
  · rw [hshown (State.ChainView.memoryAndTallies c).toEngineView, hmem, ← hu,
      (State.ChainView.memoryAndTallies c).checked]
  · rw [hstoreShown, ← hv, State.storeAt_writeRows hcleanU hrows hpitch hi hj, List.getElem?_eq_getElem hj]
    rfl
  · have hend := Nat.mul_le_mul_right tile.pitch (length_tileRows_le b tile b.cells)
    rw [hstoreShown, hover.out a (by omega), State.storeAt_of_view hstore]

/-! ### An emit that mismatches -/

theorem State.Emits.of_mismatch (hfail : (firstMismatch 0 (s.checkRows c b b.cells b.chk)).isSome = true) :
    s.emitCommit c e [] =
      ((s.checked c e (s.checkRows c b b.cells b.chk) r).traceEnd c 1 b.cmd.done b.cmd).freezeEng c e b.cmd.accept b.index := by
  rw [h.emitCommit]
  dsimp only
  rw [if_pos hfail]

theorem State.Emits.mismatch_effect {n : Nat} (hcrew : s.crewOf c = some n) (he : e < 12)
    (hfail : (firstMismatch 0 (s.checkRows c b b.cells b.chk)).isSome = true) :
    let t := (s.emitCommit c e []).settleCore c
    t.eng c e = { s.eng c e with out := r, frozen := true } ∧ t.fld F.ENG_SCHK_mis_hist [c] = 1
      ∧ s.records t 4 2 0x0401 ∧ (t.crew n).stop.isSome = true ∧ (∀ a, t.storeAt c a = s.storeAt c a)
      ∧ t.memoryAndTallies = s.memoryAndTallies := by
  rw [h.of_mismatch hfail]
  have hmis := s.misHist_checked c e r hfail
  have heng := s.eng_checked c e (s.checkRows c b b.cells b.chk) r
  have hcrewU := (s.crewOf_checked c e (s.checkRows c b b.cells b.chk) r).trans hcrew
  have hkept : ∀ {β : Type} {p : State → β}, State.ChainView c p →
      p (s.checked c e (s.checkRows c b b.cells b.chk) r) = p s := fun hp => hp.checked s e _ r
  generalize s.checked c e (s.checkRows c b b.cells b.chk) r = u at hmis heng hcrewU hkept ⊢
  have htraced : ∀ {β : Type} {p : State → β}, State.EngineView c p → p (u.traceEnd c 1 b.cmd.done b.cmd) = p u :=
    fun hp => hp.traceEnd u 1 b.cmd.done b.cmd
  have hlost : ∀ k, k < 16 → F.ENG_SCHK_mis_hist.reg.addr [c] ≠ R.TRC_LOST.addr [k] := fun k hk => by
    simp only [RegDef.addr, F.ENG_SCHK_mis_hist, R.ENG_SCHK, R.TRC_LOST, addrFrom]
    omega
  have hmisT := u.fld_trace hlost c 2 1 b.cmd.word b.cmd.entry b.cmd.accept b.cmd.done
  obtain ⟨hengF, hmisF, ⟨f, hqueue, hf⟩, hstop, hstoreF, hmemF⟩ :=
    State.freezeEng_effect b.cmd.accept b.index he ((u.crewOf_traceEnd c 1 b.cmd.done b.cmd c).trans hcrewU)
  generalize (u.traceEnd c 1 b.cmd.done b.cmd).freezeEng c e b.cmd.accept b.index = v
    at hengF hmisF hqueue hstop hstoreF hmemF ⊢
  obtain ⟨hflt, hcrews⟩ := Prod.mk.inj ((State.ChainView.faultsAndCrews c).toEngineView.settleCore v :)
  have hfltT : (u.traceEnd c 1 b.cmd.done b.cmd).flt = s.flt :=
    (congrArg Prod.fst ((htraced (State.ChainView.faultsAndCrews c).toEngineView).trans
      (hkept (State.ChainView.faultsAndCrews c))) :)
  have hstore := State.ChainView.of_store c
  have hmem := State.ChainView.memoryAndTallies c
  refine ⟨?_, ?_, ⟨f, ?_, hf⟩, ?_, fun a => ?_, ?_⟩
  · rw [(State.EngineView.of_eng c e).settleCore, hengF, htraced (.of_eng c e), heng]
  · rw [State.fld_settleCore _ hlost, hmisF]
    exact hmisT.trans hmis
  · rw [hflt, hqueue, hfltT]
  · rw [State.crew, hcrews]
    exact hstop
  · have hall := (hstore.toEngineView.settleCore v).trans
      (hstoreF.trans ((htraced hstore.toEngineView).trans (hkept hstore)))
    exact State.storeAt_of_view hall a
  · exact (hmem.toEngineView.settleCore v).trans (hmemF.trans ((htraced hmem.toEngineView).trans (hkept hmem)))

end

/-! ### Debug access -/

/-- An engine with the sum of accumulator i set. -/
def Engine.putSum (en : Engine) (i : Nat) (v : Word) : Engine :=
  { en with cells := Map.setD {} en.cells i { Map.getD {} en.cells i with s := v } }

theorem execEngAccDataWrite_of_open {c e : Nat} (v : Word) (hopen : s.accOpen c e = true)
    (hstray : s.strayAt (R.ENG_ACC_DATA.addr [c, e]) = false) (hcol : s.fld F.ENG_ACC_SEL_col [c, e] < 32)
    (hword : s.fld F.ENG_ACC_SEL_word [c, e] = 0) :
    execEngAccDataWrite c e v s = .next (((s.fromHost 4).modEng c e fun en =>
      en.putSum (32 * s.fld F.ENG_ACC_SEL_row [c, e] + s.fld F.ENG_ACC_SEL_col [c, e]) v).showEng c e) := by
  have hstray' : (s.fromHost 4).strayAt (R.ENG_ACC_DATA.addr [c, e]) = false := hstray
  have hopen' : (s.fromHost 4).accOpen c e = true := hopen
  unfold execEngAccDataWrite
  simp only [hstray', hopen', hcol, hword, if_true, Bool.not_true, Bool.false_eq_true, if_false]
  rfl

theorem execEngAccDataWrite_of_shut {c e : Nat} (v : Word) (hshut : s.accOpen c e = false)
    (hstray : s.strayAt (R.ENG_ACC_DATA.addr [c, e]) = false) : execEngAccDataWrite c e v s = .next (s.fromHost 4) := by
  have hstray' : (s.fromHost 4).strayAt (R.ENG_ACC_DATA.addr [c, e]) = false := hstray
  have hshut' : (s.fromHost 4).accOpen c e = false := hshut
  unfold execEngAccDataWrite
  simp only [hstray', hshut', Bool.not_false, if_true, Bool.false_eq_true, if_false]

end Sys2Proof.Machine

namespace Sys2Proof.Proofs
open Sys2Proof.Machine

/-- Settles O16: clean writes reach no byte outside the tile's rows (`State.writeRows_overwrites`); a failed check goes to
`State.freezeEng`, which writes nothing (`State.Emits.mismatch_effect`); a debug write is `Engine.putSum` or nothing. -/
theorem emitCommitWritesOrWithholds : Obligations.EmitCommitWritesOrWithholds := by
  intro s c e n _ he hcrew
  refine ⟨fun b r hout hworks hthawed hshadow hsampled hclean => ?_, fun v hopen hstray hcol hword => ?_,
    fun v hshut hstray => ?_⟩
  · have h : s.Emits c e b r := ⟨hout, hworks, hthawed, hshadow, hsampled⟩
    refine ⟨fun hpass hwatch hpoison tile htiles hpitch => ?_, fun hfail => ?_⟩
    · obtain ⟨heng, hflt, hmem, hwritten, hframe⟩ := h.pass_effect hclean hpass hwatch hpoison htiles hpitch
      obtain ⟨hmemory, htallies⟩ := State.sameMemory_tallies_of_eq hmem
      exact ⟨_, rfl, heng ▸ rfl, heng ▸ hthawed, hflt, htallies, hmemory, hwritten, hframe⟩
    · obtain ⟨heng, hmis, hrecords, hstop, hstore, hmem⟩ :=
        h.mismatch_effect hcrew he (Option.isSome_iff_ne_none.mpr hfail)
      obtain ⟨hmemory, htallies⟩ := State.sameMemory_tallies_of_eq hmem
      exact ⟨_, rfl, heng ▸ rfl, heng ▸ rfl, hmis, hrecords, hstop, hstore, htallies, hmemory⟩
  · intro i
    have heng : ((((s.fromHost 4).modEng c e fun en => en.putSum i v).showEng c e).eng c e) = (s.eng c e).putSum i v := by
      rw [(State.EngineView.of_eng c e).showEng, State.eng_modEng_same]
      rfl
    have hmem : (((s.fromHost 4).modEng c e fun en => en.putSum i v).showEng c e).memoryAndTallies = s.memoryAndTallies :=
      (State.ChainView.memoryAndTallies c).toEngineView.showEng _ c e
    obtain ⟨hmemory, htallies⟩ := State.sameMemory_tallies_of_eq hmem
    refine ⟨_, execEngAccDataWrite_of_open v hopen hstray hcol hword, ?_, fun k hk => ?_, heng ▸ rfl, heng ▸ rfl, htallies,
      hmemory⟩
    · rw [heng, Engine.putSum, Map.getD_setD_same]
    · rw [heng, Engine.putSum, Map.getD_setD_ne _ _ _ hk]
  · exact ⟨_, execEngAccDataWrite_of_shut v hshut hstray, rfl, State.regsBut_of_regs_eq rfl [],
      State.sameMemory_tallies_of_eq rfl⟩

end Sys2Proof.Proofs
end

section
/-!
PROOFS. What work of one core leaves alone beside the core: memory, tallies and every other core.
-/
namespace Sys2Proof.Machine

variable (s : State)

/-- Memory, tallies and every core but one. -/
def State.besideCore (s : State) (c : Nat) := (s.memoryAndTallies, fun d : { d // d ≠ c } => s.core d)

theorem State.besideCore_frame {s t : State} {c : Nat} (h : t.besideCore c = s.besideCore c) :
    s.sameMemory t ∧ t.tallies = s.tallies ∧ ∀ d, d ≠ c → t.core d = s.core d := by
  obtain ⟨hmem, hcores⟩ := Prod.mk.inj h
  obtain ⟨hsame, htallies⟩ := State.sameMemory_tallies_of_eq hmem
  exact ⟨hsame, htallies, fun d hd => congrFun hcores ⟨d, hd⟩⟩

/-! ### One field of the state -/

@[simp] theorem State.besideCore_setRegs (c : Nat) (x : List (Nat × Word)) : (s.setRegs x).besideCore c = s.besideCore c := rfl
@[simp] theorem State.besideCore_setPmc (c : Nat) (x : Pmc) : (s.setPmc x).besideCore c = s.besideCore c := rfl

@[simp] theorem State.besideCore_modCore (c : Nat) (f : Core → Core) : (s.modCore c f).besideCore c = s.besideCore c :=
  Prod.ext rfl (funext fun d => State.core_modCore_ne s d.property f)

@[simp] theorem State.besideCore_count (c : Nat) (r : RegDef) (ix : List Nat) (n : Nat) :
    (s.count r ix n).besideCore c = s.besideCore c := rfl

@[simp] theorem State.besideCore_setReg (c : Nat) (r : RegDef) (ix : List Nat) (v : Word) :
    (s.setReg r ix v).besideCore c = s.besideCore c := rfl

@[simp] theorem State.besideCore_setFld (c : Nat) (f : Fld) (ix : List Nat) (v : Nat) :
    (s.setFld f ix v).besideCore c = s.besideCore c := rfl

@[simp] theorem State.besideCore_bump (c : Nat) (f : Fld) (ix : List Nat) (n : Nat) :
    (s.bump f ix n).besideCore c = s.besideCore c := rfl

@[simp] theorem State.besideCore_raiseBit (c : Nat) (f : Fld) (ix : List Nat) :
    (s.raiseBit f ix).besideCore c = s.besideCore c :=
  s.raiseBit_keeps (·.besideCore c) (fun _ _ => rfl) (fun _ _ => rfl) f ix

/-! ### Faults, trace records and settled waits -/

@[simp] theorem State.besideCore_raiseFault (c : Nat) (f : Fault0) : (s.raiseFault f).besideCore c = s.besideCore c :=
  s.raiseFault_keeps (·.besideCore c) (fun _ _ => rfl) (fun _ _ => rfl) (fun _ _ => rfl) f

@[simp] theorem State.besideCore_ceRecord (c count event : Nat) (f : Fault0 → Fault0) :
    (s.ceRecord count event f).besideCore c = s.besideCore c := by
  unfold State.ceRecord
  split <;> simp

@[simp] theorem State.besideCore_hardFault (c d cls : Nat) : (s.hardFault d cls).besideCore c = s.besideCore c :=
  s.hardFault_keeps (·.besideCore c) (fun _ _ => rfl) (fun _ _ => rfl) d cls

@[simp] theorem State.besideCore_formatError (c a : Nat) : (s.formatError c a).besideCore c = s.besideCore c := by
  have hcrews : ∀ (s : State) n a f, (s.modLaunch n a f).besideCore c = s.besideCore c := fun _ _ _ _ => rfl
  unfold State.formatError
  dsimp only
  split
  · rw [hcrews, State.launchStatus, hcrews, State.besideCore_modCore]
  · exact s.besideCore_modCore c _

@[simp] theorem State.besideCore_trace (c kind how : Nat) (word : CmdWord) (entry accept detail : Nat) :
    (s.trace c kind how word entry accept detail).besideCore c = s.besideCore c := by
  obtain h | ⟨x, f, -, h⟩ := s.trace_cases c kind how word entry accept detail
  · rw [h]
  · rw [h, State.besideCore_setRegs, State.besideCore_modCore]

@[simp] theorem State.besideCore_traceBegin (c : Nat) (q : QCmd) : (s.traceBegin c q).besideCore c = s.besideCore c :=
  s.besideCore_trace c _ _ _ _ _ _

@[simp] theorem State.besideCore_traceEnd (c how detail : Nat) (q : QCmd) :
    (s.traceEnd c how detail q).besideCore c = s.besideCore c := s.besideCore_trace c _ _ _ _ _ _

@[simp] theorem State.besideCore_settleCore (c : Nat) : (s.settleCore c).besideCore c = s.besideCore c := by
  unfold State.settleCore
  dsimp only
  split
  · rfl
  · exact (State.each_keeps _ (·.besideCore c) _ _ fun s q => s.besideCore_traceEnd c 0 0 q).trans (s.besideCore_modCore c _)

/-! ### Core store -/

@[simp] theorem State.besideCore_putWord (c i data : Nat) (poison : Bool) :
    (s.putWord c i data poison).besideCore c = s.besideCore c := s.besideCore_modCore c _

@[simp] theorem State.besideCore_countStoreUe (c : Nat) : (s.countStoreUe c).besideCore c = s.besideCore c := by
  have hmark : ∀ w, (s.modCore c fun k => { k with ueWin := w }).besideCore c = s.besideCore c := fun _ =>
    s.besideCore_modCore c _
  simp only [State.countStoreUe, apply_ite (fun t : State => t.besideCore c), State.besideCore_hardFault, hmark, ite_self]

@[simp] theorem State.besideCore_reportWord (c i : Nat) (r : WordRead) :
    (s.reportWord c i r).besideCore c = s.besideCore c := by
  unfold State.reportWord
  dsimp only
  split
  · split
    · rfl
    · rw [State.besideCore_ceRecord, State.besideCore_modCore, State.besideCore_setReg, State.besideCore_raiseBit,
        State.besideCore_bump]
  · split
    · rw [State.besideCore_raiseFault, State.besideCore_countStoreUe, State.besideCore_putWord, State.besideCore_setReg,
        State.besideCore_raiseBit, State.besideCore_bump]
    · rfl

@[simp] theorem State.besideCore_readWord (c i : Nat) : (s.readWord c i).2.besideCore c = s.besideCore c :=
  s.besideCore_reportWord c i _

@[simp] theorem State.besideCore_writeWord (c i pos : Nat) (data : List (Byte × Bool)) :
    (s.writeWord c i pos data).besideCore c = s.besideCore c := by
  unfold State.writeWord
  dsimp only
  split <;> simp

@[simp] theorem State.besideCore_storeWriteFrom (c a : Nat) (data : List (Byte × Bool)) (fuel : Nat) :
    (s.storeWriteFrom c a data fuel).besideCore c = s.besideCore c := by
  induction fuel generalizing s a data with
  | zero => rfl
  | succ fuel ih =>
    cases data with
    | nil => rfl
    | cons x r => exact (ih _ _ _).trans (s.besideCore_writeWord c _ _ _)

@[simp] theorem State.besideCore_storeWrite (c a : Nat) (data : List (Byte × Bool)) :
    (s.storeWrite c a data).besideCore c = s.besideCore c :=
  State.besideCore_storeWriteFrom (s.count R.CST_BYTES_WR_LO [c] data.length) c a data _

end Sys2Proof.Machine
end

section
/-!
PROOFS. Write-backs and the patrol of core store (O13): what the report and the correction of one word change
(06 R140, R142).
-/
namespace Sys2Proof.Machine

variable {s : State} {c i j : Nat}

/-! ### One word -/

/-- A word of a core's store: its data and its check state. -/
def State.wordAt (s : State) (c i : Nat) : Nat × WordSt := (s.wordData c i, s.wordSt c i)

theorem State.wordAt_of_core {t : State} (hstore : (t.core c).store = (s.core c).store)
    (hwords : (t.core c).words = (s.core c).words) : t.wordAt c i = s.wordAt c i := by
  simp only [State.wordAt, State.wordData, State.wordSt, hstore, hwords]

/-- What sees no core's store changes no word. -/
theorem State.wordAt_modCore {f : Core → Core} (hstore : ∀ k, (f k).store = k.store) (hwords : ∀ k, (f k).words = k.words) :
    (s.modCore c f).wordAt c i = s.wordAt c i :=
  State.wordAt_of_core (by rw [State.core_modCore_same, hstore]) (by rw [State.core_modCore_same, hwords])

theorem State.wordAt_raiseFault (f : Fault0) : (s.raiseFault f).wordAt c i = s.wordAt c i :=
  s.raiseFault_keeps (·.wordAt c i) (fun _ _ => rfl) (fun _ _ => rfl) (fun _ _ => rfl) f

theorem State.wordAt_ceRecord (count event : Nat) (f : Fault0 → Fault0) :
    (s.ceRecord count event f).wordAt c i = s.wordAt c i := by
  unfold State.ceRecord
  split
  · exact State.wordAt_raiseFault _
  · rfl

theorem State.wordAt_countStoreUe : (s.countStoreUe c).wordAt c i = s.wordAt c i := by
  have hmark : ∀ w, (s.modCore c fun k => { k with ueWin := w }).wordAt c i = s.wordAt c i := fun _ =>
    State.wordAt_modCore (fun _ => rfl) fun _ => rfl
  have hhard : ∀ s : State, (s.hardFault c 2).wordAt c i = s.wordAt c i := fun s =>
    s.hardFault_keeps (·.wordAt c i) (fun _ _ => rfl) (fun _ _ => rfl) c 2
  simp only [State.countStoreUe, apply_ite (fun t : State => t.wordAt c i), hhard, hmark, ite_self]

theorem State.wordAt_noteError (f g : Fld) (ix : List Nat) (r : RegDef) (v : Word) :
    (((s.bump f ix 1).raiseBit g ix).setReg r ix v).wordAt c i = s.wordAt c i :=
  (s.bump f ix 1).raiseBit_keeps (·.wordAt c i) (fun _ _ => rfl) (fun _ _ => rfl) g ix

/-! ### A word put -/

theorem State.storeAt_putWord_self (poison : Bool) (x : Nat) :
    (s.putWord c i (s.wordData c i) poison).storeAt c x = s.storeAt c x := by
  by_cases hin : 8 * i ≤ x ∧ x < 8 * i + 8
  · obtain ⟨k, rfl⟩ := Nat.exists_eq_add_of_le hin.1
    have hk : k < (Map.bytes unlisted (s.core c).store (8 * i) 8).length := by simpa using hin.2
    rw [State.wordData, State.storeAt_putWord_leNat s (by simp) poison hk, Map.getElem_bytes]
    rfl
  · exact s.storeAt_putWord_out _ _ (by omega)

theorem Map.bytes_congr {d : Byte} {m m' : List (Nat × Byte)} {a n : Nat}
    (h : ∀ x, a ≤ x → x < a + n → Map.getD d m x = Map.getD d m' x) : Map.bytes d m a n = Map.bytes d m' a n := by
  induction n generalizing a with
  | zero => rfl
  | succ n ih => rw [Map.bytes, Map.bytes, h a (by omega) (by omega), ih fun x hlo hhi => h x (by omega) (by omega)]

/-- A word corrected in place keeps its data and loses its errors. -/
theorem State.wordAt_putWord_self : (s.putWord c i (s.wordData c i) false).wordAt c i = (s.wordData c i, {}) := by
  have hst : (s.putWord c i (s.wordData c i) false).wordSt c i = {} := by
    rw [State.wordSt, State.putWord, State.core_modCore_same]
    dsimp only
    exact Map.getD_setD_same _ _ _ _
  exact Prod.ext (congrArg leNat (Map.bytes_congr fun x _ _ => State.storeAt_putWord_self false x)) hst

theorem State.wordAt_putWord_ne (h : j ≠ i) (data : Nat) (poison : Bool) :
    (s.putWord c i data poison).wordAt c j = s.wordAt c j := by
  have hst : (s.putWord c i data poison).wordSt c j = s.wordSt c j := by
    rw [State.wordSt, State.putWord, State.core_modCore_same]
    exact Map.getD_setD_ne _ _ _ h _
  exact Prod.ext (congrArg leNat (Map.bytes_congr fun x hlo hhi => s.storeAt_putWord_out data poison (by omega))) hst

/-! ### A word read by the patrol -/

theorem State.wordAt_reportWord_ne (h : j ≠ i) (r : WordRead) : (s.reportWord c i r).wordAt c j = s.wordAt c j := by
  have hqueue : ∀ s : State, (s.modCore c fun k => { k with ceWb := k.ceWb ++ [i] }).wordAt c j = s.wordAt c j :=
    fun s => State.wordAt_modCore (fun _ => rfl) fun _ => rfl
  unfold State.reportWord
  dsimp only
  split
  · split
    · rfl
    · rw [State.wordAt_ceRecord, hqueue, State.wordAt_noteError]
  · split
    · rw [State.wordAt_raiseFault, State.wordAt_countStoreUe, State.wordAt_putWord_ne h, State.wordAt_noteError]
    · rfl

/-- The report of a corrected error changes no word. -/
theorem State.wordAt_reportWord_of_ce {r : WordRead} (h : r.cls = 1) : (s.reportWord c i r).wordAt c j = s.wordAt c j := by
  have hqueue : ∀ s : State, (s.modCore c fun k => { k with ceWb := k.ceWb ++ [i] }).wordAt c j = s.wordAt c j :=
    fun s => State.wordAt_modCore (fun _ => rfl) fun _ => rfl
  unfold State.reportWord
  dsimp only
  rw [if_pos h]
  split
  · rfl
  · rw [State.wordAt_ceRecord, hqueue, State.wordAt_noteError]

/-- The patrol reads a word, and writes it back where it was corrected (R142). -/
def State.patrolWord (s : State) (c i : Nat) : State :=
  if (s.readWord c i).1.cls = 1 then (s.readWord c i).2.putWord c i (s.readWord c i).1.data false else (s.readWord c i).2

theorem State.wordAt_patrolWord_ne (h : j ≠ i) : (s.patrolWord c i).wordAt c j = s.wordAt c j := by
  have hread : (s.readWord c i).2.wordAt c j = s.wordAt c j := State.wordAt_reportWord_ne h _
  unfold State.patrolWord
  split
  · rw [State.wordAt_putWord_ne h, hread]
  · exact hread

/-- One flipped bit and no poison: the word has its data again, without errors (R140). -/
theorem State.wordAt_patrolWord_of_flip {b : Nat} (h : s.wordSt c i = { poison := false, flips := [b] }) :
    (s.patrolWord c i).wordAt c i = (s.wordData c i, {}) := by
  have hread : s.readWord c i = (⟨1, s.wordData c i, false⟩, s.reportWord c i ⟨1, s.wordData c i, false⟩) := by
    simp only [State.readWord, h, decodeWord]
  have hput : ∀ u : State, u.wordAt c i = s.wordAt c i →
      (u.putWord c i (s.wordData c i) false).wordAt c i = (s.wordData c i, {}) := fun u hu => by
    obtain ⟨hdata, -⟩ := Prod.mk.inj hu
    rw [← hdata]
    exact State.wordAt_putWord_self
  unfold State.patrolWord
  rw [hread, if_pos rfl]
  exact hput _ (State.wordAt_reportWord_of_ce rfl)

/-! ### A row read by the patrol -/

theorem State.wordAt_each_patrolWord_out {l : List Nat} (h : j ∉ l) :
    (s.each l fun s i => s.patrolWord c i).wordAt c j = s.wordAt c j := by
  induction l generalizing s with
  | nil => rfl
  | cons i l ih =>
    obtain ⟨hi, hl⟩ := not_or.mp (mt List.mem_cons.mpr h)
    exact (ih hl).trans (State.wordAt_patrolWord_ne hi)

theorem State.wordAt_each_patrolWord {l : List Nat} {b : Nat} (hnodup : l.Nodup) (hmem : i ∈ l)
    (h : s.wordSt c i = { poison := false, flips := [b] }) :
    (s.each l fun s i => s.patrolWord c i).wordAt c i = (s.wordData c i, {}) := by
  induction l generalizing s with
  | nil => cases hmem
  | cons k l ih =>
    obtain ⟨hk, hl⟩ := List.nodup_cons.mp hnodup
    by_cases hik : i = k
    · subst hik
      exact (State.wordAt_each_patrolWord_out hk).trans (State.wordAt_patrolWord_of_flip h)
    · have hkept : (s.patrolWord c k).wordAt c i = s.wordAt c i := State.wordAt_patrolWord_ne hik
      obtain ⟨hdata, hst⟩ := Prod.mk.inj hkept
      rw [← hdata]
      exact ih hl ((List.mem_cons.mp hmem).resolve_left hik) (hst.trans h)

/-! ### Registers and the patrol's progress -/

/-- A word's report changes CST_ECC and CST_ERRADDR only. -/
theorem State.reg_reportWord_ne {r : RegDef} {ix : List Nat} (hecc : r.addr ix ≠ R.CST_ECC.addr [c])
    (herr : r.addr ix ≠ R.CST_ERRADDR.addr [c]) (x : WordRead) : (s.reportWord c i x).reg r ix = s.reg r ix := by
  have hraise : ∀ (s : State) f, (s.raiseFault f).reg r ix = s.reg r ix := fun s f =>
    s.raiseFault_keeps (·.reg r ix) (fun _ _ => rfl) (fun _ _ => rfl) (fun _ _ => rfl) f
  have hce : ∀ (s : State) m n f, (s.ceRecord m n f).reg r ix = s.reg r ix := fun s m n f => by
    unfold State.ceRecord
    split
    · exact hraise s _
    · rfl
  have hmod : ∀ (s : State) f, (s.modCore c f).reg r ix = s.reg r ix := fun _ _ => rfl
  have hue : ∀ s : State, (s.countStoreUe c).reg r ix = s.reg r ix := fun s => by
    have hhard : ∀ s : State, (s.hardFault c 2).reg r ix = s.reg r ix := fun s =>
      s.hardFault_keeps (·.reg r ix) (fun _ _ => rfl) (fun _ _ => rfl) c 2
    simp only [State.countStoreUe, apply_ite (fun t : State => t.reg r ix), hhard, hmod, ite_self]
  have hnote : ∀ f g : Fld, f.reg = R.CST_ECC → g.reg = R.CST_ECC → ∀ v : Word,
      (((s.bump f [c] 1).raiseBit g [c]).setReg R.CST_ERRADDR [c] v).reg r ix = s.reg r ix := fun f g hf hg v =>
    (State.reg_setReg_ne _ herr v).trans ((State.reg_raiseBit_ne _ (hg ▸ hecc)).trans (State.reg_setReg_ne s (hf ▸ hecc) _))
  unfold State.reportWord
  dsimp only
  split
  · split
    · rfl
    · rw [hce, hmod, hnote _ _ rfl rfl]
  · split
    · rw [hraise, hue, State.putWord, hmod, hnote _ _ rfl rfl]
    · rfl

theorem State.reg_each_patrolWord {r : RegDef} {ix : List Nat} (hecc : r.addr ix ≠ R.CST_ECC.addr [c])
    (herr : r.addr ix ≠ R.CST_ERRADDR.addr [c]) (l : List Nat) :
    (s.each l fun s i => s.patrolWord c i).reg r ix = s.reg r ix := by
  refine State.each_keeps s (·.reg r ix) _ _ fun s i => ?_
  unfold State.patrolWord
  split <;> exact State.reg_reportWord_ne hecc herr _

theorem State.besideCore_each_patrolWord (l : List Nat) :
    (s.each l fun s i => s.patrolWord c i).besideCore c = s.besideCore c := by
  refine State.each_keeps s (·.besideCore c) _ _ fun s i => ?_
  unfold State.patrolWord
  split <;> simp only [State.besideCore_putWord, State.besideCore_readWord]

theorem State.patrolled_each_patrolWord (l : List Nat) :
    ((s.each l fun s i => s.patrolWord c i).core c).patrolled = (s.core c).patrolled := by
  have hview := State.ReportView.of_core c
  have hunread : ((s.each l fun s i => s.patrolWord c i).core c).unread = (s.core c).unread := by
    refine State.each_keeps s (fun t => (t.core c).unread) _ _ fun s i => ?_
    unfold State.patrolWord
    split
    · exact (hview.putWord _ c i _ false).trans (hview.readWord s c i)
    · exact hview.readWord s c i
  exact (congrArg Core.patrolled hunread :)

/-! ### A row ends -/

/-- The state in which a bank's patrol has noted the row as read: `l` are the banks that have. -/
def State.patrolMarked (s : State) (c bank : Nat) (l : List Nat) : State :=
  s.modCore c fun k => { k with patrolled := l, patrolAt := Map.insert bank s.stk.num k.patrolAt }

@[simp] theorem State.fld_patrolMarked (bank : Nat) (l : List Nat) (f : Fld) (ix : List Nat) :
    (s.patrolMarked c bank l).fld f ix = s.fld f ix := rfl

@[simp] theorem State.patrolled_patrolMarked (bank : Nat) (l : List Nat) :
    ((s.patrolMarked c bank l).core c).patrolled = l := by
  rw [State.patrolMarked, State.core_modCore_same]

theorem State.patrolNote_of_more {bank : Nat} (h : (s.core c).patrolled.length + 1 < 24) :
    s.patrolNote c bank = s.patrolMarked c bank (bank :: (s.core c).patrolled) := by
  have hfull : decide (24 ≤ (bank :: (s.core c).patrolled).length) = false :=
    decide_eq_false (by rw [List.length_cons]; omega)
  simp only [State.patrolNote, hfull, Bool.not_false, if_true]
  rfl

theorem State.patrolNote_of_full {bank : Nat} (h : 24 ≤ (s.core c).patrolled.length + 1) :
    s.patrolNote c bank = if s.fld F.CST_PATROL_row [c] = 2047 then
        ((s.patrolMarked c bank []).setFld F.CST_PATROL_row [c] 0).bump F.CST_PATROL_passes [c] 1
      else (s.patrolMarked c bank []).setFld F.CST_PATROL_row [c] (s.fld F.CST_PATROL_row [c] + 1) := by
  have hfull : decide (24 ≤ (bank :: (s.core c).patrolled).length) = true :=
    decide_eq_true (by rw [List.length_cons]; omega)
  simp only [State.patrolNote, hfull, Bool.not_true, Bool.false_eq_true, if_false, if_true]
  rfl

theorem State.fld_lt (s : State) (f : Fld) (ix : List Nat) : s.fld f ix < 2 ^ (f.hi + 1 - f.lo) :=
  Nat.mod_lt _ (Nat.two_pow_pos _)

/-- Past row 2,047 the counter starts again at 0 with one more pass (R142). -/
theorem State.fld_patrolNote_of_full {bank : Nat} (h : 24 ≤ (s.core c).patrolled.length + 1) :
    if s.fld F.CST_PATROL_row [c] = 2047 then
      (s.patrolNote c bank).fld F.CST_PATROL_row [c] = 0 ∧
        (s.patrolNote c bank).fld F.CST_PATROL_passes [c] = satAdd (s.fld F.CST_PATROL_passes [c]) 1 65535
    else (s.patrolNote c bank).fld F.CST_PATROL_row [c] = s.fld F.CST_PATROL_row [c] + 1 := by
  have hrow : s.fld F.CST_PATROL_row [c] < 2048 := s.fld_lt F.CST_PATROL_row [c]
  have hpasses : s.fld F.CST_PATROL_passes [c] < 65536 := s.fld_lt F.CST_PATROL_passes [c]
  have hzeroed : ((s.patrolMarked c bank []).setFld F.CST_PATROL_row [c] 0).fld F.CST_PATROL_passes [c]
      = s.fld F.CST_PATROL_passes [c] := by
    rw [State.fld_setFld_other (f := F.CST_PATROL_row) (g := F.CST_PATROL_passes) _ rfl (by decide) (by decide) (by decide),
      State.fld_patrolMarked]
  rw [State.patrolNote_of_full h]
  split
  · refine ⟨?_, ?_⟩
    · rw [State.bump, State.fld_setFld_other (f := F.CST_PATROL_passes) (g := F.CST_PATROL_row) _ rfl (by decide) (by decide)
        (by decide), State.fld_setFld_same _ F.CST_PATROL_row [c] 0 (by decide), Nat.zero_mod]
    · rw [State.bump, State.fld_setFld_same _ _ _ _ (by decide), hzeroed]
      refine Nat.mod_eq_of_lt ?_
      have htop : F.CST_PATROL_passes.top = 65535 := by decide
      rw [htop, satAdd]
      change _ < 65536
      split <;> omega
  · next hlast =>
    rw [State.fld_setFld_same _ _ _ _ (by decide)]
    refine Nat.mod_eq_of_lt ?_
    change _ < 2048
    omega

/-- A row noted: its words and what stands beside the core stay. -/
theorem State.patrolNote_frame (bank : Nat) :
    (s.patrolNote c bank).wordAt c i = s.wordAt c i ∧ (s.patrolNote c bank).besideCore c = s.besideCore c := by
  have hmark : ∀ l, (s.patrolMarked c bank l).wordAt c i = s.wordAt c i ∧
      (s.patrolMarked c bank l).besideCore c = s.besideCore c := fun l =>
    ⟨State.wordAt_modCore (fun _ => rfl) fun _ => rfl, s.besideCore_modCore c _⟩
  have hset : ∀ (s : State) f v, (s.setFld f [c] v).wordAt c i = s.wordAt c i := fun _ _ _ => rfl
  rcases Nat.lt_or_ge ((s.core c).patrolled.length + 1) 24 with h | h
  · rw [State.patrolNote_of_more h]
    exact hmark _
  · rw [State.patrolNote_of_full h]
    split
    · rw [State.bump, hset, hset, State.besideCore_setFld, State.besideCore_setFld]
      exact hmark _
    · rw [hset, State.besideCore_setFld]
      exact hmark _

/-! ### The commands -/

/-- The state after the patrol of a bank has read its row. -/
def State.patrolRow (s : State) (c bank : Nat) : State :=
  (s.count R.CST_BYTES_RD_LO [c] 64).each (rowWords bank (s.fld F.CST_PATROL_row [c])) fun s i => s.patrolWord c i

theorem State.exec_patrolRead {bank : Nat} (h : s.patrolDue c bank = true) :
    exec (.patrolRead c bank []) s = .next ((s.patrolRow c bank).patrolNote c bank) := by
  have hexec : exec (.patrolRead c bank []) s = execPatrolRead c bank [] s := rfl
  rw [hexec, execPatrolRead, h]
  rfl

theorem nodup_rowWords (bank row : Nat) : (rowWords bank row).Nodup := by
  rw [rowWords, iota_eq_range']
  exact List.nodup_range'

/-- The counter of rows stands in a register of its own. -/
theorem CST_PATROL_addr_ne (c : Nat) :
    R.CST_PATROL.addr [c] ≠ R.CST_ECC.addr [c] ∧ R.CST_PATROL.addr [c] ≠ R.CST_ERRADDR.addr [c] := by
  simp only [RegDef.addr, R.CST_PATROL, R.CST_ECC, R.CST_ERRADDR, addrFrom]
  omega

theorem State.fld_patrolRow {f : Fld} (hf : f.reg = R.CST_PATROL) (bank : Nat) :
    (s.patrolRow c bank).fld f [c] = s.fld f [c] := by
  obtain ⟨hecc, herr⟩ := CST_PATROL_addr_ne c
  rw [State.fld, State.fld, hf]
  exact congrArg (fun w : Word => bits w.toNat f.hi f.lo)
    (State.reg_each_patrolWord (s := s.count R.CST_BYTES_RD_LO [c] 64) hecc herr _)

/-- What PATROL_READ leaves of the row counter and of the banks that have read the row. -/
theorem State.patrolRead_progress {bank : Nat} :
    ((s.core c).patrolled.length + 1 < 24 →
      ((s.patrolRow c bank).patrolNote c bank).fld F.CST_PATROL_row [c] = s.fld F.CST_PATROL_row [c]
        ∧ bank ∈ (((s.patrolRow c bank).patrolNote c bank).core c).patrolled) ∧
    (24 ≤ (s.core c).patrolled.length + 1 → (((s.patrolRow c bank).patrolNote c bank).core c).patrolled = [] ∧
      if s.fld F.CST_PATROL_row [c] = 2047 then ((s.patrolRow c bank).patrolNote c bank).fld F.CST_PATROL_row [c] = 0
        ∧ ((s.patrolRow c bank).patrolNote c bank).fld F.CST_PATROL_passes [c]
          = satAdd (s.fld F.CST_PATROL_passes [c]) 1 65535
      else ((s.patrolRow c bank).patrolNote c bank).fld F.CST_PATROL_row [c] = s.fld F.CST_PATROL_row [c] + 1) := by
  have hpatrolled : ((s.patrolRow c bank).core c).patrolled = (s.core c).patrolled :=
    State.patrolled_each_patrolWord (s := s.count R.CST_BYTES_RD_LO [c] 64) _
  have hrow : (s.patrolRow c bank).fld F.CST_PATROL_row [c] = s.fld F.CST_PATROL_row [c] := State.fld_patrolRow rfl bank
  have hpasses : (s.patrolRow c bank).fld F.CST_PATROL_passes [c] = s.fld F.CST_PATROL_passes [c] :=
    State.fld_patrolRow rfl bank
  rw [← hpatrolled]
  refine ⟨fun h => ?_, fun h => ⟨?_, ?_⟩⟩
  · rw [State.patrolNote_of_more h, State.fld_patrolMarked, State.patrolled_patrolMarked]
    exact ⟨hrow, List.mem_cons_self⟩
  · have hset : ∀ (s : State) f v, ((s.setFld f [c] v).core c).patrolled = (s.core c).patrolled := fun _ _ _ => rfl
    rw [State.patrolNote_of_full h]
    split
    · rw [State.bump, hset, hset, State.patrolled_patrolMarked]
    · rw [hset, State.patrolled_patrolMarked]
  · rw [← hrow, ← hpasses]
    exact State.fld_patrolNote_of_full h

/-- PATROL_READ leaves a word of the row that had one flipped bit clean, with its data, and nothing beside the core changed. -/
theorem State.patrolRead_effect (s : State) (c bank : Nat) :
    ((s.patrolRow c bank).patrolNote c bank).besideCore c = s.besideCore c ∧
      ∀ i b, i ∈ rowWords bank (s.fld F.CST_PATROL_row [c]) → s.wordSt c i = { poison := false, flips := [b] } →
        ((s.patrolRow c bank).patrolNote c bank).wordAt c i = (s.wordData c i, {}) := by
  refine ⟨?_, fun i b hmem hflip => ?_⟩
  · exact (State.patrolNote_frame (i := 0) bank).2.trans
      (State.besideCore_each_patrolWord (s := s.count R.CST_BYTES_RD_LO [c] 64) _)
  · exact (State.patrolNote_frame bank).1.trans
      (State.wordAt_each_patrolWord (s := s.count R.CST_BYTES_RD_LO [c] 64) (nodup_rowWords bank _) hmem hflip)

/-- CE_WRITEBACK of a word with one flipped bit puts its data back (R140). -/
theorem State.exec_ceWriteback {a b : Nat} (hqueued : a / 8 ∈ (s.core c).ceWb)
    (hflip : s.wordSt c (a / 8) = { poison := false, flips := [b] }) (heasy : s.inEasy = false) (hreset : s.inReset = false) :
    exec (.ceWriteback c a) s =
      .next ((s.count R.CST_BYTES_WR_LO [c] 8).putWord c (a / 8) (s.wordData c (a / 8)) false) := by
  have hguard : ((s.core c).ceWb.elem (a / 8) && !s.inEasy && !s.inReset) = true := by
    simp [heasy, hreset, hqueued]
  have hexec : exec (.ceWriteback c a) s = execCeWriteback c a s := rfl
  rw [hexec, execCeWriteback, if_pos hguard, hflip]
  rfl

end Sys2Proof.Machine

namespace Sys2Proof.Proofs
open Sys2Proof.Machine

/-- Settles O13: a word corrected in place keeps its data and loses its errors (`State.wordAt_putWord_self`), whether its queued
write-back or the patrol of its row puts it, and nothing that reads and reports of other words change is one of the row's
other words (`State.wordAt_patrolWord_ne`) or the row counter's register (`State.reg_reportWord_ne`). -/
theorem coreStoreCorrectionAndPatrol : Obligations.CoreStoreCorrectionAndPatrol := by
  intro s c _
  refine ⟨fun a b hqueued hflip heasy hreset => ?_, fun bank hdue => ?_⟩
  · let u := s.count R.CST_BYTES_WR_LO [c] 8
    have hself : (u.putWord c (a / 8) (u.wordData c (a / 8)) false).wordAt c (a / 8) = (s.wordData c (a / 8), {}) :=
      State.wordAt_putWord_self
    have hceWb : ((u.putWord c (a / 8) (u.wordData c (a / 8)) false).core c).ceWb
        = (u.core c).ceWb.filter fun j => decide (j ≠ a / 8) := by rw [State.putWord, State.core_modCore_same]
    obtain ⟨hmem, htallies, hcores⟩ := State.besideCore_frame (u.besideCore_putWord c (a / 8) (u.wordData c (a / 8)) false)
    refine ⟨_, State.exec_ceWriteback hqueued hflip heasy hreset, congrArg Prod.snd hself, ?_,
      State.storeAt_putWord_self (s := u) false, State.regsBut_of_regs_eq rfl [], hmem, htallies, hcores⟩
    exact hceWb ▸ fun h => by simpa using List.of_mem_filter h
  · obtain ⟨hbeside, hwords⟩ := State.patrolRead_effect s c bank
    obtain ⟨hmore, hfull⟩ := State.patrolRead_progress (s := s) (c := c) (bank := bank)
    obtain ⟨hmem, htallies, hcores⟩ := State.besideCore_frame hbeside
    refine ⟨_, State.exec_patrolRead hdue, ⟨hmem, htallies, hcores⟩, fun i b hi hflip => ?_, hmore, hfull⟩
    obtain ⟨hdata, hst⟩ := Prod.mk.inj (hwords i b hi hflip)
    exact ⟨hst, hdata⟩

end Sys2Proof.Proofs
end

section
/-!
PROOFS. Rows of core store written without poison where no word has errors (06 R141): every row reads as written while the rows
lie apart, and beside the core's store and the byte counters nothing moves.
-/
namespace Sys2Proof.Machine

/-- `t` is `s` after clean writes to core c of rows 0 to n - 1: row i has `len` bytes at `at_ i`, of which byte j is `row i j`. -/
structure State.RowsPut (s : State) (c n : Nat) (at_ : Nat → Nat) (len : Nat) (row : Nat → Nat → Byte) (t : State) : Prop where
  words : ∀ i, t.wordSt c i = {}
  put : ∀ i j, i < n → j < len → t.storeAt c (at_ i + j) = row i j
  out : ∀ a, (∀ i, i < n → a < at_ i ∨ at_ i + len ≤ a) → t.storeAt c a = s.storeAt c a
  core : (t.core c).unwritten = (s.core c).unwritten
  beside : t.besideCore c = s.besideCore c

/-- Row n lies apart from the rows before it. -/
def RowApart (at_ : Nat → Nat) (len n : Nat) : Prop := ∀ i, i < n → at_ i + len ≤ at_ n ∨ at_ n + len ≤ at_ i

variable {s t : State} {c n len : Nat} {at_ : Nat → Nat} {row : Nat → Nat → Byte}

theorem State.RowsPut.zero (h : ∀ i, s.wordSt c i = {}) : s.RowsPut c 0 at_ len row s :=
  ⟨h, fun _ _ hi => absurd hi (Nat.not_lt_zero _), fun _ _ => rfl, rfl, rfl⟩

/-- What changes no core and nothing beside them goes unseen. -/
theorem State.RowsPut.of_cores {u : State} (h : s.RowsPut c n at_ len row t) (hcores : u.cores = t.cores)
    (hbeside : u.besideCore c = t.besideCore c) : s.RowsPut c n at_ len row u := by
  have hcore := State.core_congr hcores c
  refine ⟨fun i => ?_, fun i j hi hj => ?_, fun a ha => ?_, (congrArg Core.unwritten hcore).trans h.core,
    hbeside.trans h.beside⟩
  · rw [State.wordSt, hcore]
    exact h.words i
  · rw [State.storeAt, hcore]
    exact h.put i j hi hj
  · rw [State.storeAt, hcore]
    exact h.out a ha

theorem State.RowsPut.setPmc (h : s.RowsPut c n at_ len row t) (x : Pmc) : s.RowsPut c n at_ len row (t.setPmc x) :=
  h.of_cores rfl rfl

theorem State.RowsPut.setReg (h : s.RowsPut c n at_ len row t) (r : RegDef) (ix : List Nat) (v : Word) :
    s.RowsPut c n at_ len row (t.setReg r ix v) := h.of_cores rfl rfl

/-- One row more. -/
theorem State.RowsPut.succ {data : List (Byte × Bool)} (h : s.RowsPut c n at_ len row t) (hapart : RowApart at_ len n)
    (hlen : data.length = len) (hpoison : anyPoison data = false)
    (hdata : ∀ j (hj : j < data.length), data[j].1 = row n j) :
    s.RowsPut c (n + 1) at_ len row (t.storeWrite c (at_ n) data) := by
  have hwrite := State.storeWrite_overwrites (a := at_ n) h.words hpoison
  rw [hlen] at hwrite
  have hcore : State.StoreWriteView fun u => (u.core c).unwritten := ⟨rfl, State.core_modCore_part Core.unwritten⟩
  refine ⟨hwrite.words, fun i j hi hj => ?_, fun a ha => ?_, (hwrite.view hcore).trans h.core,
    (t.besideCore_storeWrite c _ _).trans h.beside⟩
  · rcases Nat.lt_succ_iff_lt_or_eq.mp hi with hi | rfl
    · rw [hwrite.out _ (by have := hapart i hi; omega), h.put i j hi hj]
    · rw [State.storeAt_storeWrite t (hlen ▸ hj), hdata j (hlen ▸ hj)]
  · rw [hwrite.out a (ha n (Nat.lt_succ_self n)), h.out a fun i hi => ha i (Nat.lt_succ_of_lt hi)]

/-- A core that took rows keeps what none of them is. -/
theorem Core.unwritten_parts {k l : Core} (h : k.unwritten = l.unwritten) :
    k.vecq = l.vecq ∧ k.dmaq = l.dmaq ∧ k.pre = l.pre :=
  ⟨(congrArg Core.vecq h :), (congrArg Core.dmaq h :), (congrArg Core.pre h :)⟩

/-! ### The steps around the rows -/

/-- The fields of a core that a settled wait leaves alone and a vector or DMA command works with. -/
theorem Core.unheld_units {k l : Core} (h : k.unheld = l.unheld) :
    k.store = l.store ∧ k.words = l.words ∧ k.vecq = l.vecq ∧ k.dmaq = l.dmaq ∧ k.pre = l.pre :=
  ⟨(congrArg Core.store h :), (congrArg Core.words h :), (congrArg Core.vecq h :), (congrArg Core.dmaq h :),
    (congrArg Core.pre h :)⟩

theorem State.unheld_traceBegin (s : State) (c : Nat) (q : QCmd) :
    ((s.traceBegin c q).core c).unheld = (s.core c).unheld :=
  (State.CoreView.of_core Core.unheld c).untraced.traceBegin s c q

theorem State.unheld_traceEnd (s : State) (c how detail : Nat) (q : QCmd) :
    ((s.traceEnd c how detail q).core c).unheld = (s.core c).unheld :=
  (State.CoreView.of_core Core.unheld c).untraced.traceEnd s c how detail q

theorem State.unheld_settleCore (s : State) (c : Nat) : ((s.settleCore c).core c).unheld = (s.core c).unheld :=
  (State.CoreView.of_core Core.unheld c).settleCore s c

theorem State.wordSt_of_unheld {c : Nat} (h : (t.core c).unheld = (s.core c).unheld) (i : Nat) : t.wordSt c i = s.wordSt c i := by
  obtain ⟨-, hwords, -⟩ := Core.unheld_units h
  rw [State.wordSt, hwords, State.wordSt]

theorem State.storeAt_of_unheld {c : Nat} (h : (t.core c).unheld = (s.core c).unheld) (a : Nat) :
    t.storeAt c a = s.storeAt c a := by
  obtain ⟨hstore, -⟩ := Core.unheld_units h
  rw [State.storeAt, hstore, State.storeAt]

end Sys2Proof.Machine
end

section
/-!
PROOFS. Elementwise vector operations (O17): the operands that clean words give (06 R144), the result of each element
(06 R145; 05 R131, R132, R135), and the rows written (06 R149).
-/
namespace Sys2Proof.Machine

/-! ### Lists of pieces of one length -/

theorem getElem?_flatMap_of_length {α γ : Type} {k : Nat} {f : α → List γ} (hf : ∀ x, (f x).length = k) {i : Nat} (hi : i < k)
    (l : List α) (j : Nat) : (l.flatMap f)[j * k + i]? = (l[j]?).bind fun x => (f x)[i]? := by
  induction l generalizing j with
  | nil => rfl
  | cons x l ih =>
    rw [List.flatMap_cons]
    cases j with
    | zero => simp [List.getElem?_append_left, hf, hi]
    | succ j =>
      have hplace : (j + 1) * k + i = (f x).length + (j * k + i) := by rw [hf, Nat.add_mul]; omega
      rw [hplace, List.getElem?_append_right (Nat.le_add_right _ _), Nat.add_sub_cancel_left, ih]
      rfl

theorem length_flatMap_of_length {α γ : Type} {k : Nat} {f : α → List γ} (hf : ∀ x, (f x).length = k) (l : List α) :
    (l.flatMap f).length = l.length * k := by
  induction l with
  | nil => simp
  | cons x l ih => rw [List.flatMap_cons, List.length_append, hf, ih, List.length_cons, Nat.add_mul]; omega

theorem getElem?_iota {n k i : Nat} (h : i < k) : (iota n k)[i]? = some (n + i) := by
  rw [iota_eq_range', List.getElem?_range' h, Nat.one_mul]

/-! ### Operands (R144) -/

/-- Element j of row r of an operand, as the core's store `σ` gives it: of a stream, the scalar, or the one of the row. -/
def VCmd.operand (v : VCmd) (σ : List (Nat × Byte)) (f : VFmt) (mode addr r j : Nat) : FVal :=
  if mode = 1 then scalarV f.1 v.imm
  else decodeV f.1 (leNat (Map.bytes unlisted σ (if mode = 0 then addr + r * v.step f.2 + j * f.2 else addr + r * f.2) f.2))

/-- Rows read of an operand give these values, without poison. -/
structure OpdGives (l : List (List (FVal × Bool))) (rows n : Nat) (val : Nat → Nat → FVal) : Prop where
  clean : ∀ row ∈ l, ∀ x ∈ row, x.2 = false
  elem : ∀ r j, r < rows → j < n → elemAt (l.getD r []) j = (val r j, false)

theorem elemAt_of_lt {row : List (FVal × Bool)} {j : Nat} (h : j < row.length) : elemAt row j = row[j] := by
  match row, h with
  | [x], h =>
    obtain rfl : j = 0 := Nat.lt_one_iff.mp h
    rfl
  | x :: y :: r, h => exact (List.getD_eq_getElem _ _ h)

theorem vecElems_clean (f : VFmt) (σ : List (Nat × Byte)) (n a : Nat) :
    vecElems f n (clean (Map.bytes unlisted σ a (n * f.2))) =
      (List.range n).map fun j => (decodeV f.1 (leNat (Map.bytes unlisted σ (a + j * f.2) f.2)), false) := by
  induction n generalizing a with
  | zero => rfl
  | succ n ih =>
    have hlen : (n + 1) * f.2 = f.2 + n * f.2 := by rw [Nat.add_mul]; omega
    have hfirst : (clean (Map.bytes unlisted σ a ((n + 1) * f.2))).take f.2 = clean (Map.bytes unlisted σ a f.2) := by
      rw [clean, ← List.map_take, hlen, Map.take_bytes, clean]
    have hrest : (clean (Map.bytes unlisted σ a ((n + 1) * f.2))).drop f.2
        = clean (Map.bytes unlisted σ (a + f.2) (n * f.2)) := by
      rw [clean, ← List.map_drop, hlen, Map.drop_bytes, clean]
    have hplace : ∀ j, a + f.2 + j * f.2 = a + (j + 1) * f.2 := fun j => by rw [Nat.add_mul]; omega
    rw [vecElems, hfirst, hrest, ih, List.range_succ_eq_map, List.map_cons, List.map_map, plain_clean, anyPoison_clean]
    simp [Function.comp_def, hplace]

variable {s : State} {c : Nat}

/-- The rows of a stream as clean words give them. -/
def streamRows (σ : List (Nat × Byte)) (f : VFmt) (n a step rows : Nat) : List (List (FVal × Bool)) :=
  (List.range rows).map fun r =>
    (List.range n).map fun j => (decodeV f.1 (leNat (Map.bytes unlisted σ (a + r * step + j * f.2) f.2)), false)

theorem State.readRows_of_clean (h : ∀ i, s.wordSt c i = {}) (f : VFmt) (n a step rows : Nat) :
    ∃ x, s.readRows c f n a step rows = (streamRows (s.core c).store f n a step rows, s.setPmc x) := by
  induction rows generalizing s a with
  | zero => exact ⟨s.pmc, rfl⟩
  | succ rows ih =>
    obtain ⟨x, hx⟩ := s.storeRead_of_clean h a (n * f.2)
    obtain ⟨y, hy⟩ := ih (s := s.setPmc x) h (a + step)
    refine ⟨y, ?_⟩
    have hplace : ∀ r j, a + step + r * step + j * f.2 = a + (r + 1) * step + j * f.2 := fun r j => by
      rw [Nat.add_mul]; omega
    have hrows : (streamRows (s.core c).store f n a step (rows + 1)) =
        vecElems f n (clean (Map.bytes unlisted (s.core c).store a (n * f.2)))
          :: streamRows (s.core c).store f n (a + step) step rows := by
      rw [vecElems_clean, streamRows, List.range_succ_eq_map, List.map_cons, List.map_map, streamRows]
      simp [Function.comp_def, hplace]
    rw [State.readRows, hx, hrows]
    dsimp only
    rw [hy]
    rfl

theorem streamRows_gives (σ : List (Nat × Byte)) (f : VFmt) (n a step rows : Nat) :
    OpdGives (streamRows σ f n a step rows) rows n fun r j =>
      decodeV f.1 (leNat (Map.bytes unlisted σ (a + r * step + j * f.2) f.2)) := by
  refine ⟨fun row hrow x hx => ?_, fun r j hr hj => ?_⟩
  · obtain ⟨r, -, rfl⟩ := List.mem_map.mp hrow
    obtain ⟨j, -, rfl⟩ := List.mem_map.mp hx
    rfl
  · have hrow : (streamRows σ f n a step rows).getD r [] = (List.range n).map fun j =>
        (decodeV f.1 (leNat (Map.bytes unlisted σ (a + r * step + j * f.2) f.2)), false) := by
      rw [List.getD_eq_getElem _ _ (by simpa [streamRows] using hr)]
      simp [streamRows]
    rw [hrow, elemAt_of_lt (by simpa using hj)]
    simp

theorem OpdGives.congr {l : List (List (FVal × Bool))} {rows n : Nat} {val val' : Nat → Nat → FVal} (h : OpdGives l rows n val)
    (heq : ∀ r j, val r j = val' r j) : OpdGives l rows n val' :=
  ⟨h.clean, fun r j hr hj => by rw [h.elem r j hr hj, heq]⟩

/-- A row of one element serves every j (R144). -/
theorem OpdGives.spread {l : List (List (FVal × Bool))} {rows : Nat} {val : Nat → Nat → FVal} (n : Nat) (h : OpdGives l rows 1 val)
    (hone : ∀ r, r < rows → (l.getD r []).length = 1) : OpdGives l rows n fun r _ => val r 0 := by
  refine ⟨h.clean, fun r j hr _ => ?_⟩
  obtain ⟨x, hx⟩ := List.length_eq_one_iff.mp (hone r hr)
  have helem := h.elem r 0 hr Nat.one_pos
  rw [hx] at helem ⊢
  exact helem

/-- An operand of a mode that exists is read from clean words as R144 says. -/
theorem State.readOpd_of_clean (h : ∀ i, s.wordSt c i = {}) (v : VCmd) (f : VFmt) {mode : Nat} (hmode : mode < 3) (a : Nat) :
    ∃ l x, s.readOpd c v f mode a = (l, s.setPmc x) ∧ OpdGives l v.rows v.n (v.operand (s.core c).store f mode a) := by
  match mode, hmode with
  | 0, _ =>
    obtain ⟨x, hx⟩ := State.readRows_of_clean h f v.n a (v.step f.2) v.rows
    exact ⟨_, x, hx, streamRows_gives _ f _ _ _ _⟩
  | 1, _ =>
    refine ⟨_, s.pmc, rfl, fun row hrow x hx => ?_, fun r j hr _ => ?_⟩
    · obtain ⟨-, rfl⟩ := List.mem_replicate.mp hrow
      obtain rfl := List.mem_singleton.mp hx
      rfl
    · rw [List.getD_eq_getElem _ _ (by simpa using hr), List.getElem_replicate]
      rfl
  | 2, _ =>
    obtain ⟨x, hx⟩ := State.readRows_of_clean h f 1 a f.2 v.rows
    refine ⟨_, x, hx, ((streamRows_gives _ f 1 a f.2 v.rows).spread v.n fun r hr => ?_).congr fun r j => ?_⟩
    · rw [List.getD_eq_getElem _ _ (by simpa [streamRows] using hr)]
      simp [streamRows]
    · simp [VCmd.operand]

/-! ### A command in order (R160) -/

/-- In a command in order the operands that the op needs have a mode of R144. -/
theorem VCmd.modes_of_ok {v : VCmd} (h : v.bad = false) :
    (vNeedsB v.op = true → v.bMode ≠ 3) ∧ (vNeedsC v.op = true → v.cMode ≠ 3) := by
  unfold VCmd.bad at h
  split at h
  · exact ⟨fun hop hmode => by simp [hop, hmode] at h, fun hop hmode => by simp [hop, hmode] at h⟩
  · cases h

/-- The operands of a command in order are in order. -/
theorem VCmd.opdOk_of_ok {v : VCmd} (h : v.bad = false) (hop : v.op ≠ 0x28) {o : VOpd} (ho : o ∈ v.operands) :
    v.opdOk false o = true := by
  obtain ⟨i, hi⟩ := List.mem_iff_getElem?.mp ho
  have hmem : (o, i) ∈ v.operands.zipIdx := List.mk_mem_zipIdx_iff_getElem?.mpr hi
  have hfreq : decide (v.op = 0x28 ∧ i = 1) = false := decide_eq_false fun hf => hop hf.1
  unfold VCmd.bad at h
  split at h
  · simp only [Bool.or_eq_false_iff] at h
    obtain ⟨⟨⟨-, hall⟩, -⟩, -⟩ := h
    have hok := List.any_eq_false.mp hall (o, i) hmem
    rw [hfreq] at hok
    simpa using hok
  · cases h

/-- The rows of an elementwise destination do not meet (R144, R160). -/
theorem VCmd.row_le_step {v : VCmd} {out : VFmt} (h : v.bad = false) (hout : vOut v.out = some out) (hop : v.op ≤ 0x17) :
    v.n * out.2 ≤ v.step out.2 := by
  have hreduces : vReduces v.op = false := by
    rw [vReduces, Bool.and_eq_false_iff]
    exact .inl (decide_eq_false (by omega))
  have hmem : (⟨0, v.d, out.2⟩ : VOpd) ∈ v.operands := by simp [VCmd.operands, hout, hreduces]
  have hok := VCmd.opdOk_of_ok h (by omega) hmem
  rw [VCmd.opdOk, if_pos rfl] at hok
  simp only [Bool.and_eq_true, decide_eq_true_eq, Bool.false_eq_true, if_false] at hok
  obtain ⟨-, -, hpitch⟩ := hok
  rw [VCmd.step]
  split
  · rw [ceilDiv]; omega
  · exact hpitch.resolve_left ‹_›

/-! ### The results (R145) -/

/-- Element j of row r of the result, before its rounding to out_fmt. -/
def VCmd.result (v : VCmd) (σ : List (Nat × Byte)) (src : VFmt) (r j : Nat) : FVal :=
  vecElem v.op src.1 (v.operand σ src 0 v.a r j) (if vNeedsB v.op then v.operand σ src v.bMode v.b r j else .nan)
    (if vNeedsC v.op then v.operand σ (if v.op = 0x17 then (none, 4) else src) v.cMode v.c r j else .nan)

theorem vecRow_elementwise {v : VCmd} (hop : v.op ≤ 0x17) {σ : List (Nat × Byte)} {src : VFmt}
    {as bs cs : List (List (FVal × Bool))} (ha : OpdGives as v.rows v.n (v.operand σ src 0 v.a))
    (hb : vNeedsB v.op = true → OpdGives bs v.rows v.n (v.operand σ src v.bMode v.b))
    (hc : vNeedsC v.op = true → OpdGives cs v.rows v.n
      (v.operand σ (if v.op = 0x17 then (none, 4) else src) v.cMode v.c)) {r : Nat} (hr : r < v.rows) :
    vecRow v src.1 as bs cs r = (iota 0 v.n).map fun j => (v.result σ src r j, false) := by
  have hreduces : vReduces v.op = false := by
    rw [vReduces, Bool.and_eq_false_iff]
    exact .inl (decide_eq_false (by omega))
  rw [vecRow]
  simp only [hreduces, Bool.false_eq_true, if_false, if_neg (show v.op ≠ 0x28 by omega), if_neg (show v.op ≠ 0x29 by omega)]
  refine List.map_congr_left fun j hj => ?_
  obtain ⟨-, hj⟩ := mem_iota.mp hj
  rw [Nat.zero_add] at hj
  have hB : (if vNeedsB v.op = true then elemAt (bs.getD r []) j else (.nan, false))
      = (if vNeedsB v.op then v.operand σ src v.bMode v.b r j else .nan, false) := by
    split
    · next hneeds => exact (hb hneeds).elem r j hr hj
    · rfl
  have hC : (if vNeedsC v.op = true then elemAt (cs.getD r []) j else (.nan, false))
      = (if vNeedsC v.op then v.operand σ (if v.op = 0x17 then (none, 4) else src) v.cMode v.c r j else .nan, false) := by
    split
    · next hneeds => exact (hc hneeds).elem r j hr hj
    · rfl
  rw [ha.elem r j hr hj, hB, hC]
  rfl

/-- An elementwise command reads its operands, and then writes its results (R149; assumption log 14). -/
theorem State.doVec_elementwise (h : ∀ i, s.wordSt c i = {}) {v : VCmd} {src out : VFmt} (hbad : v.bad = false)
    (hmodes : v.bMode < 4 ∧ v.cMode < 4) (hsrc : vSrc v.fmt = some src) (hout : vOut v.out = some out) (hop : v.op ≤ 0x17) :
    ∃ x, s.doVec c v = (s.setPmc x).writeVec c v src.1 out v.d (v.step out.2)
      ((iota 0 v.rows).map fun r => (iota 0 v.n).map fun j => (v.result (s.core c).store src r j, false)) := by
  obtain ⟨hbMode, hcMode⟩ := VCmd.modes_of_ok hbad
  have hreduces : vReduces v.op = false := by
    rw [vReduces, Bool.and_eq_false_iff]
    exact .inl (decide_eq_false (by omega))
  obtain ⟨as, x, hA, ha⟩ := State.readOpd_of_clean h v src (mode := 0) (by omega) v.a
  have hB : ∃ bs y, (if vNeedsB v.op then (s.setPmc x).readOpd c v src v.bMode v.b else ([], s.setPmc x)) = (bs, s.setPmc y)
      ∧ (∀ row ∈ bs, ∀ e ∈ row, e.2 = false)
      ∧ (vNeedsB v.op = true → OpdGives bs v.rows v.n (v.operand (s.core c).store src v.bMode v.b)) := by
    split
    · next hneeds =>
      obtain ⟨bs, y, hy, hb⟩ := State.readOpd_of_clean (s := s.setPmc x) h v src
        (mode := v.bMode) (by have := hbMode hneeds; omega) v.b
      exact ⟨bs, y, hy, hb.clean, fun _ => hb⟩
    · next hneeds => exact ⟨[], x, rfl, nofun, fun hn => absurd hn hneeds⟩
  obtain ⟨bs, y, hB, hbclean, hb⟩ := hB
  have hC : ∃ cs z, (if vNeedsC v.op then (s.setPmc y).readOpd c v (if v.op = 0x17 then (none, 4) else src) v.cMode v.c
        else ([], s.setPmc y)) = (cs, s.setPmc z)
      ∧ (∀ row ∈ cs, ∀ e ∈ row, e.2 = false)
      ∧ (vNeedsC v.op = true → OpdGives cs v.rows v.n
        (v.operand (s.core c).store (if v.op = 0x17 then (none, 4) else src) v.cMode v.c)) := by
    split
    · next hneeds =>
      obtain ⟨cs, z, hz, hc⟩ := State.readOpd_of_clean (s := s.setPmc y) h v (if v.op = 0x17 then (none, 4) else src)
        (mode := v.cMode) (by have := hcMode hneeds; omega) v.c
      exact ⟨cs, z, hz, hc.clean, fun _ => hc⟩
    · next hneeds => exact ⟨[], y, rfl, nofun, fun hn => absurd hn hneeds⟩
  obtain ⟨cs, z, hC, hcclean, hc⟩ := hC
  have hclean : ((as ++ bs ++ cs).any fun r => r.any fun e => e.2) = false := by
    simp only [List.any_eq_false, List.mem_append]
    rintro row ((hrow | hrow) | hrow)
    · simpa using ha.clean row hrow
    · simpa using hbclean row hrow
    · simpa using hcclean row hrow
  have hrows : ((iota 0 v.rows).map fun r => vecRow v src.1 as bs cs r) =
      (iota 0 v.rows).map fun r => (iota 0 v.n).map fun j => (v.result (s.core c).store src r j, false) :=
    List.map_congr_left fun r hr => vecRow_elementwise hop ha hb hc (by simpa using (mem_iota.mp hr).2)
  have hpos : (decide (v.op = 0x28) || decide (v.op = 0x29)) = false := by
    rw [Bool.or_eq_false_iff]
    exact ⟨decide_eq_false (by omega), decide_eq_false (by omega)⟩
  refine ⟨z, ?_⟩
  unfold State.doVec
  rw [hsrc, hout]
  simp only [hA, hpos, if_neg (show v.op ≠ 0x28 by omega), hB, Bool.false_and, Bool.false_eq_true, if_false, hC, hclean, hrows,
    hreduces]

/-! ### The rows written -/

theorem encoded_length (out : VFmt) (src : Option Fmt) (rz : Bool) (x : FVal × Bool) :
    ((natLe out.2 (encodeV src out.1 rz x.1)).map fun b => (b, x.2)).length = out.2 := by
  rw [List.length_map, length_natLe]

/-- Byte m of row r of a result in the output format. -/
def VCmd.rowByte (v : VCmd) (src out : VFmt) (val : Nat → Nat → FVal) (r m : Nat) : Byte :=
  (natLe out.2 (encodeV src.1 out.1 v.rz (val r (m / out.2)))).getD (m % out.2) 0

/-- The bytes of a row of results are those of its elements, one after another, without poison. -/
theorem VCmd.rowBytes_spec (v : VCmd) (src out : VFmt) (val : Nat → Nat → FVal) (r : Nat) {bytes : List (Byte × Bool)}
    (hbytes : bytes = ((iota 0 v.n).map fun j => (val r j, false)).flatMap fun x =>
      (natLe out.2 (encodeV src.1 out.1 v.rz x.1)).map fun b => (b, x.2)) :
    bytes.length = v.n * out.2 ∧ anyPoison bytes = false
      ∧ ∀ m (hm : m < bytes.length), bytes[m].1 = v.rowByte src out val r m := by
  have hlen : bytes.length = v.n * out.2 := by
    rw [hbytes, length_flatMap_of_length (encoded_length out src.1 v.rz), List.length_map, length_iota]
  refine ⟨hlen, anyPoison_eq_false fun y hy => ?_, fun m hm => ?_⟩
  · obtain ⟨x, hx, hy⟩ := List.mem_flatMap.mp (hbytes ▸ hy)
    obtain ⟨j, -, rfl⟩ := List.mem_map.mp hx
    obtain ⟨b, -, rfl⟩ := List.mem_map.mp hy
    rfl
  · have hsize : 0 < out.2 := Nat.pos_of_ne_zero fun h0 => by rw [hlen, h0, Nat.mul_zero] at hm; omega
    have hj : m / out.2 < v.n := Nat.div_lt_of_lt_mul (by rw [Nat.mul_comm]; omega)
    have hi : m % out.2 < out.2 := Nat.mod_lt _ hsize
    have hget := getElem?_flatMap_of_length (encoded_length out src.1 v.rz) hi
      ((iota 0 v.n).map fun j => (val r j, false)) (m / out.2)
    rw [← hbytes, Nat.div_add_mod', List.getElem?_eq_getElem hm, List.getElem?_map, getElem?_iota hj, Nat.zero_add] at hget
    have hbyte := Option.some.inj (hget.trans (List.getElem?_eq_getElem (by simpa using hi)))
    rw [hbyte, List.getElem_map, VCmd.rowByte, List.getD_eq_getElem _ _ (by simpa using hi)]

/-- The result rows are written one step apart. -/
theorem State.RowsPut.writeVec {v : VCmd} {src out : VFmt} {val : Nat → Nat → FVal} {step : Nat}
    (hstep : v.n * out.2 ≤ step) {t : State} {k m : Nat}
    (h : s.RowsPut c k (fun r => v.d + r * step) (v.n * out.2) (v.rowByte src out val) t) :
    s.RowsPut c (k + m) (fun r => v.d + r * step) (v.n * out.2) (v.rowByte src out val)
      (t.writeVec c v src.1 out (v.d + k * step) step
        ((iota k m).map fun r => (iota 0 v.n).map fun j => (val r j, false))) := by
  induction m generalizing t k with
  | zero => exact h
  | succ m ih =>
    obtain ⟨hlen, hpoison, hbyte⟩ := v.rowBytes_spec src out val k rfl
    have hapart : RowApart (fun r => v.d + r * step) (v.n * out.2) k := fun i hi => by
      have := Nat.mul_le_mul_right step (Nat.succ_le_of_lt hi)
      rw [Nat.succ_mul] at this
      dsimp only
      omega
    have hnext := ih (h.succ hapart hlen hpoison hbyte)
    have hplace : v.d + (k + 1) * step = v.d + k * step + step := by rw [Nat.add_mul]; omega
    rw [hplace] at hnext
    rw [show k + (m + 1) = k + 1 + m by omega]
    exact hnext

/-! ### The commands -/

/-- The elementwise commands by op with their results, for operands that round to g (06 R145; 05 table Vector operations). -/
def elementCmds (c : Nat) (g : Fmt) : List (Nat × Instr × (FVal → FVal → FVal → FVal)) :=
  let fn := fun (op : Nat) (a : FVal) => narrow g (functionValue op (workFmt g) a)
  [(0x00, .vecAdd c, fun a b _ => a.add b), (0x01, .vecSub c, fun a b _ => a.add b.neg),
    (0x02, .vecMul c, fun a b _ => a.mul b), (0x03, .vecFma c, fun a b k => (a.mul b).add k),
    (0x04, .vecDiv c, fun a b _ => narrow g (a.div b)), (0x05, .vecMin c, fun a b _ => a.min b),
    (0x06, .vecMax c, fun a b _ => a.max b), (0x07, .vecSqrt c, fun a _ _ => narrow g a.sqrt),
    (0x08, .vecRecip c, fun a _ _ => narrow g (FVal.div (.fin false 1 0) a)), (0x09, .vecRsqrt c, fun a _ _ => fn 0x09 a),
    (0x0A, .vecExp2 c, fun a _ _ => fn 0x0A a), (0x0B, .vecExp c, fun a _ _ => fn 0x0B a),
    (0x0C, .vecLog2 c, fun a _ _ => fn 0x0C a), (0x0D, .vecLn c, fun a _ _ => fn 0x0D a),
    (0x0E, .vecSin c, fun a _ _ => fn 0x0E a), (0x0F, .vecCos c, fun a _ _ => fn 0x0F a),
    (0x10, .vecTanh c, fun a _ _ => fn 0x10 a), (0x11, .vecSigmoid c, fun a _ _ => fn 0x11 a),
    (0x12, .vecErf c, fun a _ _ => fn 0x12 a), (0x13, .vecCvt c, fun a _ _ => a),
    (0x14, .vecCmplt c, fun a b _ => truth (!a.isNan && !b.isNan && a.lt b)),
    (0x15, .vecCmple c, fun a b _ => truth (!a.isNan && !b.isNan && !b.lt a)),
    (0x16, .vecCmpeq c, fun a b _ => truth (a.eqv b)), (0x17, .vecSelect c, fun a b k => if k.isZero then b else a)]

theorem elementCmds_spec {c : Nat} {src : Option Fmt} {x : Nat × Instr × (FVal → FVal → FVal → FVal)}
    (h : x ∈ elementCmds c (src.getD fFP32)) : (x.1, x.2.1) ∈ vecCmds c ∧ x.1 ≤ 0x17 ∧ vecElem x.1 src = x.2.2 := by
  have helem : vecElem x.1 src = vecElem x.1 (some (src.getD fFP32)) := by cases src <;> rfl
  rw [helem]
  generalize src.getD fFP32 = g at h ⊢
  unfold elementCmds at h
  fin_cases h <;> exact ⟨by simp [vecCmds], Nat.le_of_ble_eq_true rfl, rfl⟩

/-- The state in which a vector command has left its queue and is about to work. -/
def State.vecBegun (s : State) (c : Nat) (q : QCmd) (rest : List QCmd) : State :=
  (s.modCore c fun k => { k with vecq := rest }).traceBegin c q

/-- The state in which a vector command has ended: `u` after its rows. -/
def State.vecEnded (u : State) (c : Nat) (q : QCmd) : State :=
  ((u.traceEnd c 0 (vcmd q.word).rows q).showVec c).settleCore c

theorem State.runVec_of_ok {q : QCmd} {rest : List QCmd} (hq : (s.core c).vecq = q :: rest)
    (hruns : s.unitRuns c 0xC q.tag = true) (hok : (vcmd q.word).bad = false) :
    (s.runVec c (vcmd q.word).op).settleCore c = ((s.vecBegun c q rest).doVec c (vcmd q.word)).vecEnded c q := by
  simp [State.runVec, hq, hruns, hok, State.vecBegun, State.vecEnded]

theorem State.vecBegun_spec (s : State) (c : Nat) (q : QCmd) (rest : List QCmd) :
    ((s.vecBegun c q rest).core c).unheld = ({ s.core c with vecq := rest } : Core).unheld
      ∧ (s.vecBegun c q rest).besideCore c = s.besideCore c := by
  refine ⟨(State.unheld_traceBegin _ c q).trans (congrArg Core.unheld (State.core_modCore_same s c _)), ?_⟩
  rw [State.vecBegun, State.besideCore_traceBegin, State.besideCore_modCore]

theorem State.vecEnded_spec (u : State) (c : Nat) (q : QCmd) :
    ((u.vecEnded c q).core c).unheld = (u.core c).unheld ∧ (u.vecEnded c q).besideCore c = u.besideCore c := by
  have hshow : ∀ u : State, (u.showVec c).core c = u.core c := fun u =>
    u.showVec_keeps (fun t => t.core c) (fun _ _ => rfl) (fun _ _ => rfl) c
  have hbeside : ∀ u : State, (u.showVec c).besideCore c = u.besideCore c := fun u =>
    u.showVec_keeps (·.besideCore c) (fun _ _ => rfl) (fun _ _ => rfl) c
  refine ⟨?_, ?_⟩
  · rw [State.vecEnded, State.unheld_settleCore, hshow, State.unheld_traceEnd]
  · rw [State.vecEnded, State.besideCore_settleCore, hbeside, State.besideCore_traceEnd]

end Sys2Proof.Machine

namespace Sys2Proof.Proofs
open Sys2Proof.Machine

/-- Settles O17: clean words give the operands of R144 (`State.readOpd_of_clean`), every source is read before the first write
(`State.doVec_elementwise`; assumption log 14), and the rows of the destination, which do not meet in a command in order
(`VCmd.row_le_step`), hold the results (`State.RowsPut.writeVec`). A function's value is that of assumption log 10. -/
theorem vectorElementwiseResult : Obligations.VectorElementwiseResult := by
  intro s c q rest src out _ hq hruns hclean v hok hsrc hout g fn opd x hx hop
  obtain ⟨hcmd, hle, helem⟩ := elementCmds_spec (src := src.1) hx
  have hop' : v.op ≤ 0x17 := hop ▸ hle
  obtain ⟨hbegun, hbeside⟩ := s.vecBegun_spec c q rest
  obtain ⟨hstore, hwords, hvecq, -⟩ := Core.unheld_units hbegun
  have hcleanB : ∀ i, (s.vecBegun c q rest).wordSt c i = {} := fun i => by
    rw [State.wordSt, hwords]
    exact hclean i
  have hmodes : v.bMode < 4 ∧ v.cMode < 4 := ⟨wbits_lt q.word 223 222, wbits_lt q.word 221 220⟩
  obtain ⟨y, hdo⟩ := State.doVec_elementwise hcleanB hok hmodes hsrc hout hop'
  rw [hstore] at hdo
  have hrows := State.RowsPut.writeVec (v := v) (src := src) (out := out) (val := v.result (s.core c).store src) (m := v.rows)
    (VCmd.row_le_step hok hout hop') ((State.RowsPut.zero hcleanB).setPmc y)
  rw [Nat.zero_add, Nat.zero_mul, Nat.add_zero, ← hdo] at hrows
  obtain ⟨hended, hbesideE⟩ := ((s.vecBegun c q rest).doVec c v).vecEnded_spec c q
  obtain ⟨-, -, hvecqE, -⟩ := Core.unheld_units hended
  obtain ⟨hvecqR, -⟩ := Core.unwritten_parts hrows.core
  obtain ⟨hmem, htallies, hcores⟩ := State.besideCore_frame ((hbesideE.trans hrows.beside).trans hbeside)
  have hexec : exec x.2.1 s = .next (((s.vecBegun c q rest).doVec c v).vecEnded c q) := by
    rw [exec_vecCmds s hcmd, ← State.runVec_of_ok hq hruns hok]
    dsimp only
    rw [← hop]
  refine ⟨_, hexec, (hvecqE.trans hvecqR).trans hvecq, htallies, hmem, hcores, fun r j i hr hj hi => ?_, fun a ha => ?_⟩
  · have hbyte := hrows.put r (j * out.2 + i) hr (by
      have := Nat.mul_le_mul_right out.2 (Nat.succ_le_of_lt hj)
      rw [Nat.succ_mul] at this
      omega)
    have hj' : (j * out.2 + i) / out.2 = j := by
      rw [Nat.mul_comm, Nat.mul_add_div (by omega), Nat.div_eq_of_lt hi, Nat.add_zero]
    have hi' : (j * out.2 + i) % out.2 = i := by rw [Nat.mul_comm, Nat.mul_add_mod, Nat.mod_eq_of_lt hi]
    rw [State.storeAt_of_unheld hended, Nat.add_assoc, hbyte, VCmd.rowByte, hj', hi', VCmd.result, hop, helem, ← hop]
    rfl
  · rw [State.storeAt_of_unheld hended, hrows.out a ha, State.storeAt, hstore]
    rfl

end Sys2Proof.Proofs
end

section
/-!
PROOFS. What a DMA command does at its turn (06 R150 to R153, R160): a format error, or its rows and its end.
-/
namespace Sys2Proof.Machine

variable (s : State) {c slot n : Nat} {q : QCmd} {d : DCmd}

/-- A COPY that is no write to the collective port, or that is in error, runs as every other DMA command does. -/
theorem State.exec_dmaCopy (hready : s.dmaReady c slot = some (n, q, d))
    (h : s.toPort n d = false ∨ s.dmaBad c n d = true) :
    exec (.dmaCopy c slot) s = .next (s.runDma c slot 0) := by
  have hguard : (!q.started && s.toPort n d && decide (0 < d.rows) && !s.dmaBad c n d) = false := by
    rcases h with h | h <;> simp [h]
  have hexec : exec (.dmaCopy c slot) s = execDmaCopy c slot s := rfl
  rw [hexec, execDmaCopy, hready]
  simp [hguard]

end Sys2Proof.Machine
end

section
/-!
PROOFS. A COPY into the collective port of another crew (O21): 06 R150, R151; 08 R215.
-/
namespace Sys2Proof.Machine

/-- A COPY of one row of 16 bytes from core store at 0x1000 to HBM at 0x1000. -/
def portCopy : CmdWord :=
  BitVec.ofNat 256 (3 * 2 ^ 252 + 13 * 2 ^ 236 + 1 * 2 ^ 226 + 0x1000 * 2 ^ 178 + 0x1000 * 2 ^ 139 + 16 * 2 ^ 101 + 1 * 2 ^ 85)

/-- The COPY as core 0 holds it. -/
def portCmd : QCmd := { word := portCopy, accept := 7, stroke := 95 }

/-- The drive of stroke 100. Core 0 of crew 0, which has 64 GiB of HBM and no collective port, holds the byte 1 at 0x1000, and
the COPY; the collective port of crew 1 is the page at 0x1000, in the range of crew 0. -/
def portInRange : State :=
  let s := State.reset.setPow { State.reset.pow with step := 11 }
  let s := (s.setFld F.RIG_CREW_valid [0] 1).setFld F.RIG_CREW_size_gib [0] 64
  let s := (s.setFld F.SEQ_CREW_member [0] 1).setFld F.LNK_COLL_port [1] 1
  (s.setStk { s.stk with num := 100, drive := true }).modCore 0 fun k => { k with dmaq := [portCmd], store := [(0x1000, 1)] }

/-- The COPY is at its turn, in order, and of the shape of the statement; nothing is prefetched. -/
theorem portCopy_shape :
    portInRange.dmaReady 0 0 = some (0, portCmd, dcmd portCopy) ∧ (portInRange.core 0).pre = []
      ∧ portInRange.dmaBad 0 0 (dcmd portCopy) = false ∧ portInRange.toPort 0 (dcmd portCopy) = false
      ∧ (dcmd portCopy).codec = 0 ∧ (dcmd portCopy).op = 0 ∧ (dcmd portCopy).rows = 1 ∧ (dcmd portCopy).src = 0
      ∧ (dcmd portCopy).dst = 1 ∧ 0 < (dcmd portCopy).rowBytes ∧ (dcmd portCopy).srcA = 0x1000
      ∧ (dcmd portCopy).dstA = 0x1000 := by decide +kernel

theorem portInRange_windows :
    (∀ w, w < 64 → portInRange.isSet F.ATM_WIN_LO_valid [w] = false)
      ∧ ∀ k, k < 16 → portInRange.isSet F.PMC_CREW_permit [k] = false := by decide +kernel

theorem wordSt_portInRange (k i : Nat) : portInRange.wordSt k i = {} := by
  have hcores : portInRange.cores = [(0, { dmaq := [portCmd], store := [(0x1000, 1)] })] := by decide +kernel
  have hwords : (portInRange.core k).words = [] := by
    rw [State.core, hcores, Map.getD, Map.find]
    split <;> rfl
  rw [State.wordSt, hwords, Map.getD_nil]

theorem isState_portInRange (a : Nat) : portInRange.isState a = false := by
  have hpages : ∀ n, (portInRange.crew n).pages = [] := fun _ => rfl
  unfold State.isState State.pageAt
  split
  · rw [hpages]; rfl
  · rfl

theorem inPort_portInRange (a : Nat) : portInRange.inPort 0 a = false := by
  have hport : portInRange.fld F.LNK_COLL_port [0] = 0 := by decide +kernel
  rw [State.inPort, hport]
  rfl

/-- The bytes for the port of crew 1 reach no memory (08 R215; assumption log 30). -/
theorem portInRange_stays : (portInRange.runDma 0 0 0).hbmAt 0x1000 = 0 ∧ portInRange.storeAt 0 0x1000 = 1 := by
  decide +kernel

end Sys2Proof.Machine

namespace Sys2Proof.Proofs
open Sys2Proof.Machine

/-- Refutes O21: the statement keeps the row out of the collective port of the core's own crew, not of another's. Where the
port of crew 1 lies in the range of crew 0, a COPY of crew 0 into it leaves HBM as it is (`portInRange_stays`). -/
theorem not_dmaReachesEverySpace : ¬ Obligations.DmaReachesEverySpace := by
  intro h
  obtain ⟨hready, hpre, hbad, hport, hcodec, hop, hrows, hsrc, hdst, hbytes, hsrcA, hdstA⟩ := portCopy_shape
  obtain ⟨hwindows, hcounters⟩ := portInRange_windows
  have hprefetched : ∀ p ∈ (portInRange.core 0).pre, p.entry ≠ portCmd.entry := by rw [hpre]; nofun
  obtain ⟨htoHbm, -⟩ := h portInRange 0 0 0 portCmd (dcmd portCopy) (by decide) hready hprefetched rfl hbad hport hcodec hop
    hrows wordSt_portInRange (fun _ => rfl) rfl isState_portInRange hwindows hcounters inPort_portInRange
  obtain ⟨t, hexec, -, ⟨hmoved, -⟩, -⟩ := htoHbm hsrc hdst
  obtain rfl : portInRange.runDma 0 0 0 = t :=
    Host.Outcome.next.inj ((portInRange.exec_dmaCopy hready (.inl hport)).symm.trans hexec)
  obtain ⟨hkept, hbyte⟩ := portInRange_stays
  have hfirst := hmoved 0 hbytes
  rw [hsrcA, hdstA, Nat.add_zero, hkept, hbyte] at hfirst
  exact absurd hfirst (by decide)

end Sys2Proof.Proofs
end

section
/-!
PROOFS. DMA commands of core store (O20): their end, a format error (06 R160; 03 R71), and rows moved one after another
(06 R150, R151).
-/
namespace Sys2Proof.Machine

variable {s t : State} {c n slot : Nat} {q : QCmd} {d : DCmd}

/-! ### A command leaves its queue -/

/-- A core but for its postings, what holds its units, and its trace buffer. -/
def Core.unposted (k : Core) : Core := { k.unheld with posts := [] }

theorem Core.unposted_congr {k l : Core} (h : k.unheld = l.unheld) : k.unposted = l.unposted :=
  congrArg (fun k : Core => { k with posts := [] }) h

theorem Core.unposted_parts {k l : Core} (h : k.unposted = l.unposted) :
    k.store = l.store ∧ k.words = l.words ∧ k.dmaq = l.dmaq ∧ k.seq.stopped = l.seq.stopped :=
  ⟨(congrArg Core.store h :), (congrArg Core.words h :), (congrArg Core.dmaq h :),
    (congrArg (fun k : Core => k.seq.stopped) h :)⟩

/-- A core whose DMA command has left the queue, with what was prefetched for it. -/
def Core.dmaLeft (k : Core) (q : QCmd) : Core :=
  { k with
    dmaq := k.dmaq.filter fun x => decide (x.tag ≠ q.tag)
    pre := k.pre.filter fun p => decide (p.entry ≠ q.entry ∨ p.word ≠ q.word) }

theorem Core.dmaLeft_congr {k l : Core} (h : k.unheld = l.unheld) (q : QCmd) :
    (k.dmaLeft q).unposted = (l.dmaLeft q).unposted := (congrArg (fun u : Core => (u.dmaLeft q).unposted) h :)

/-- The state in which a DMA command has left its queue and the core's waits are settled. -/
def State.dmaDone (s : State) (c : Nat) (q : QCmd) (how bytes : Nat) : State := (s.dmaEnd c q how bytes).settleCore c

theorem State.dmaDone_keeps {β : Type} (p : State → β) (hregs : ∀ s x, p (State.setRegs s x) = p s)
    (hconv : ∀ s x, p (State.setConv s x) = p s) (hcores : ∀ s x, p (State.setCores s x) = p s) (s : State) (c : Nat) (q : QCmd)
    (how bytes : Nat) : p (s.dmaDone c q how bytes) = p s := by
  have hview : State.CoreView Core.unheld p := .of_blind hregs hcores
  have hwindows : ∀ (s : State) d, p (s.endWindows c d) = p s := fun s d =>
    State.each_keeps s p _ _ fun s w => hcores s _
  exact (hview.settleCore _ c).trans ((State.showDma_keeps _ p hregs hconv c).trans
    ((hwindows _ _).trans ((hcores _ _).trans (hview.untraced.traceEnd s c how bytes q))))

theorem State.dmaDone_spec (s : State) (c : Nat) (q : QCmd) (how bytes : Nat) :
    ((s.dmaDone c q how bytes).core c).unposted = ((s.core c).dmaLeft q).unposted
      ∧ (s.dmaDone c q how bytes).besideCore c = s.besideCore c := by
  have hshow : ∀ u : State, (u.showDma c).core c = u.core c := fun u =>
    u.showDma_keeps (fun t => t.core c) (fun _ _ => rfl) (fun _ _ => rfl) c
  have hwindows : ∀ (u : State) d, ((u.endWindows c d).core c).unposted = (u.core c).unposted := fun u d =>
    State.each_keeps u (fun t => (t.core c).unposted) _ _ fun u w => State.core_modCore_part Core.unposted fun _ => rfl
  refine ⟨?_, ?_⟩
  · rw [State.dmaDone, Core.unposted_congr (State.unheld_settleCore _ c), State.dmaEnd, hshow, hwindows,
      State.core_modCore_same]
    exact Core.dmaLeft_congr (State.unheld_traceEnd s c how bytes q) q
  · have hbeside : ∀ u : State, (u.showDma c).besideCore c = u.besideCore c := fun u =>
      u.showDma_keeps (·.besideCore c) (fun _ _ => rfl) (fun _ _ => rfl) c
    have hwindows' : ∀ (u : State) d, (u.endWindows c d).besideCore c = u.besideCore c := fun u d =>
      State.each_keeps u (·.besideCore c) _ _ fun u w => u.besideCore_modCore c _
    rw [State.dmaDone, State.besideCore_settleCore, State.dmaEnd, hbeside, hwindows', State.besideCore_modCore,
      State.besideCore_traceEnd]

/-! ### The command at its turn -/

/-- A command at its turn is one of its core's queue, decoded, and the core is in a crew. -/
theorem State.dmaReady_spec (h : s.dmaReady c slot = some (n, q, d)) : s.crewOf c = some n ∧ dcmd q.word = d := by
  unfold State.dmaReady at h
  split at h
  · next hcrew hq =>
    dsimp only at h
    split at h
    · cases h
      exact ⟨hcrew, rfl⟩
    · cases h
  · cases h

/-- The DMA commands by op (R151). -/
def dmaCmds (c slot : Nat) : List (Nat × Instr) :=
  [(0, .dmaCopy c slot), (1, .dmaGather c slot), (2, .dmaScatter c slot), (3, .dmaRingAppend c slot), (4, .dmaFill c slot),
    (5, .dmaSend c slot)]

/-- The state in which a DMA command in error has left its queue (R160). -/
def State.dmaRefused (s : State) (c : Nat) (q : QCmd) : State := (s.formatError c q.accept).dmaDone c q 2 0

theorem State.runDma_of_bad (hready : s.dmaReady c slot = some (n, q, d)) (hstarted : q.started = false)
    (hbad : s.dmaBad c n d = true) : s.runDma c slot d.op = s.dmaRefused c q := by
  simp [State.runDma, hready, hstarted, hbad, State.dmaRefused, State.dmaDone]

theorem State.exec_dmaCmds_of_bad (hready : s.dmaReady c slot = some (n, q, d)) (hstarted : q.started = false)
    (hbad : s.dmaBad c n d = true) {x : Nat × Instr} (hx : x ∈ dmaCmds c slot) (hop : d.op = x.1) :
    exec x.2 s = .next (s.dmaRefused c q) := by
  have hrun := State.runDma_of_bad hready hstarted hbad
  simp only [dmaCmds, List.mem_cons, List.not_mem_nil, or_false] at hx
  rcases hx with rfl | rfl | rfl | rfl | rfl | rfl
  case inr.inr.inr.inl =>
    have hexec : exec (.dmaRingAppend c slot) s = execDmaRingAppend c slot s := rfl
    rw [hexec, execDmaRingAppend, hready]
    simp [hop, hstarted, hbad, State.dmaRefused, State.dmaDone]
  case inl => rw [State.exec_dmaCopy s hready (.inr hbad), ← hrun, hop]
  all_goals
    rw [← hrun, hop]
    rfl

/-- What a refused DMA command leaves (06 R160; 03 R71). -/
theorem State.dmaRefused_effect (hcrew : s.crewOf c = some n) :
    ((s.dmaRefused c q).core c).dmaq = (s.core c).dmaq.filter (fun x => decide (x.tag ≠ q.tag))
      ∧ ((s.dmaRefused c q).core c).seq.stopped = true
      ∧ (∀ l ∈ ((s.dmaRefused c q).crew n).launches, l.accept = q.accept → 4 ∈ l.statuses)
      ∧ (∀ a, (s.dmaRefused c q).storeAt c a = s.storeAt c a) ∧ (s.dmaRefused c q).tallies = s.tallies
      ∧ s.sameMemory (s.dmaRefused c q) := by
  obtain ⟨hcore, hbeside⟩ := (s.formatError c q.accept).dmaDone_spec c q 2 0
  rw [State.core_formatError] at hcore
  obtain ⟨hstore, -, hdmaq, hstopped⟩ := Core.unposted_parts hcore
  obtain ⟨hmem, htallies, -⟩ := State.besideCore_frame (hbeside.trans (s.besideCore_formatError c _))
  have hlaunches : ((s.dmaRefused c q).crew n).launches = ((s.formatError c q.accept).crew n).launches :=
    State.dmaDone_keeps (fun t => (t.crew n).launches) (fun _ _ => rfl) (fun _ _ => rfl) (fun _ _ => rfl) _ c q 2 0
  refine ⟨hdmaq, hstopped, ?_, fun a => congrArg (Map.getD unlisted · a) hstore, htallies, hmem⟩
  rw [hlaunches]
  exact s.statuses_formatError hcrew

/-- A command of core store in order moves its data and ends (R151). -/
theorem State.runDma_of_ok (hready : s.dmaReady c slot = some (n, q, d)) (hstarted : q.started = false)
    (hok : s.dmaBad c n d = false) (hdst : d.dst = 0) :
    s.runDma c slot d.op =
      (((s.traceBegin c q).moveAll c n q d).2.dmaFinish c n q ((s.traceBegin c q).moveAll c n q d).1).settleCore c := by
  have hport : s.toPort n d = false := by simp [State.toPort, hdst]
  simp [State.runDma, hready, hstarted, hok, hport]

/-- With no poison, no bad index and nothing for another package the command is complete. -/
theorem State.dmaFinish_of_plain (s : State) (c n : Nat) (q : QCmd) (b : Nat) :
    s.dmaFinish c n q { bytes := b } = s.dmaEnd c q 0 b := by
  simp [State.dmaFinish, State.dmaPoison, State.carryPoison, State.sendRows]

/-! ### One row -/

/-- Index i of a command's list, as the core's store gives it. -/
def DCmd.index (d : DCmd) (σ : List (Nat × Byte)) (i : Nat) : Nat := leNat (Map.bytes unlisted σ (d.aux + 8 * i) 8)

/-- The address of source row i (R151). -/
def DCmd.srcAt (d : DCmd) (σ : List (Nat × Byte)) (i : Nat) : Nat := d.srcA + (if d.op = 1 then d.index σ i else i) * d.srcS

/-- The address of destination row i (R151). -/
def DCmd.dstAt (d : DCmd) (σ : List (Nat × Byte)) (i : Nat) : Nat := d.dstA + (if d.op = 2 then d.index σ i else i) * d.dstS

/-- The bytes of row i: the pattern of a FILL, else those of the source row. -/
def DCmd.rowData (d : DCmd) (σ : List (Nat × Byte)) (i : Nat) : List (Byte × Bool) :=
  if d.op = 4 then fillRow d.srcA d.rowBytes else clean (Map.bytes unlisted σ (d.srcAt σ i) d.rowBytes)

/-- Byte j of row i. -/
def DCmd.rowByte (d : DCmd) (σ : List (Nat × Byte)) (i j : Nat) : Byte :=
  if d.op = 4 then BitVec.ofNat 8 (d.srcA / 256 ^ (j % 4)) else Map.getD unlisted σ (d.srcAt σ i + j)

theorem DCmd.rowData_spec (d : DCmd) (σ : List (Nat × Byte)) (i : Nat) :
    (d.rowData σ i).length = d.rowBytes ∧ anyPoison (d.rowData σ i) = false
      ∧ ∀ j (hj : j < (d.rowData σ i).length), (d.rowData σ i)[j].1 = d.rowByte σ i j := by
  unfold DCmd.rowData DCmd.rowByte
  split
  · refine ⟨by simp [fillRow], anyPoison_eq_false fun x hx => ?_, fun j hj => ?_⟩
    · obtain ⟨j, -, rfl⟩ := List.mem_map.mp hx
      rfl
    · have hj' : j < d.rowBytes := by simpa [fillRow] using hj
      have hget : (fillRow d.srcA d.rowBytes)[j]? = some (BitVec.ofNat 8 (d.srcA / 256 ^ (j % 4)), false) := by
        rw [fillRow, List.getElem?_map, getElem?_iota hj', Nat.zero_add]
        rfl
      rw [List.getElem?_eq_getElem hj] at hget
      rw [Option.some.inj hget]
  · refine ⟨by simp [clean], anyPoison_clean _, fun j hj => ?_⟩
    simp [clean, Map.getElem_bytes]

/-- What a COPY, GATHER, SCATTER or FILL of core store without codec meets on the way: its source is core store, nothing of it
is prefetched, and the rows that its list names exist. -/
structure DCmd.StoreRows (d : DCmd) (q : QCmd) (s : State) (c : Nat) : Prop where
  dst : d.dst = 0
  codec : d.codec = 0
  src : d.op ≠ 4 → d.src = 0
  pre : ∀ p ∈ (s.core c).pre, p.entry ≠ q.entry
  gather : d.op = 1 → ∀ i, i < d.rows → d.srcAt (s.core c).store i + d.rowBytes ≤ storeEnd
  scatter : d.op = 2 → ∀ i, i < d.rows → d.dstAt (s.core c).store i + d.rowBytes ≤ storeEnd

/-- With nothing prefetched the source is read at its place. -/
theorem State.dmaSrc_of_store (h : ∀ i, t.wordSt c i = {}) (hpre : ∀ p ∈ (t.core c).pre, p.entry ≠ q.entry) (hsrc : d.src = 0)
    (n a len : Nat) : ∃ x, t.dmaSrc c n q d a len = (clean (Map.bytes unlisted (t.core c).store a len), t.setPmc x) := by
  have hnone : (t.core c).pre.find? (fun p => decide (p.entry = q.entry ∧ p.word = q.word ∧ p.addr = a)) = none :=
    List.find?_eq_none.mpr fun p hp => by simp [hpre p hp]
  unfold State.dmaSrc
  rw [hnone]
  simp only [State.dmaRead, hsrc, if_true]
  exact t.storeRead_of_clean h a len

/-- The index of a GATHER or SCATTER row is read from clean words; other commands have none. -/
theorem State.indexRead_of_clean (h : ∀ i, t.wordSt c i = {}) (d : DCmd) (i : Nat) :
    ∃ b x, (if decide (d.op = 1) || decide (d.op = 2) then t.storeRead c (d.aux + 8 * i) 8 else ([], t)) = (b, t.setPmc x)
      ∧ anyPoison b = false ∧ (d.op = 1 ∨ d.op = 2 → leNat (plain b) = d.index (t.core c).store i) := by
  by_cases hlist : d.op = 1 ∨ d.op = 2
  · obtain ⟨x, hx⟩ := t.storeRead_of_clean h (d.aux + 8 * i) 8
    refine ⟨_, x, ?_, anyPoison_clean _, fun _ => congrArg leNat (plain_clean _)⟩
    rw [if_pos (by simpa using hlist), hx]
  · refine ⟨[], t.pmc, ?_, rfl, fun hl => absurd hl hlist⟩
    rw [if_neg (by simpa using hlist)]
    rfl

theorem State.moveRow_of_clean (h : ∀ i, t.wordSt c i = {}) (hd : d.StoreRows q t c) (n b : Nat) {i : Nat} (hi : i < d.rows) :
    ∃ b' x, t.moveRow c n q d { bytes := b } i =
      ({ bytes := b' }, (t.setPmc x).storeWrite c (d.dstAt (t.core c).store i) (d.rowData (t.core c).store i)) := by
  obtain ⟨ib, x, hread, hclean, hindex⟩ := State.indexRead_of_clean h d i
  have hsrcAt : d.srcA + (if d.op = 1 then leNat (plain ib) else i) * d.srcS = d.srcAt (t.core c).store i := by
    rw [DCmd.srcAt]
    split
    · next hop => rw [hindex (.inl hop)]
    · rfl
  have hdstAt : d.dstA + (if d.op = 2 then leNat (plain ib) else i) * d.dstS = d.dstAt (t.core c).store i := by
    rw [DCmd.dstAt]
    split
    · next hop => rw [hindex (.inr hop)]
    · rfl
  have hbytes : ∀ u : State, u.dstLen d (d.dstAt (t.core c).store i) = d.rowBytes := fun u => by
    have hplain : d.dstBytes = d.rowBytes := by simp [DCmd.dstBytes, hd.codec]
    unfold State.dstLen
    split <;> simp [hd.dst, hplain]
  have hexists : ((d.op = 1 && !(t.setPmc x).extOk c n d.src (d.srcAt (t.core c).store i) d.rowBytes)
      || (d.op = 2 && !(t.setPmc x).rowDstOk c n d (d.dstAt (t.core c).store i))) = false := by
    rw [Bool.or_eq_false_iff, Bool.and_eq_false_iff, Bool.and_eq_false_iff]
    refine ⟨?_, ?_⟩
    · by_cases hop : d.op = 1
      · exact .inr (by simp [State.extOk, hd.src (by omega), hd.gather hop i hi])
      · exact .inl (by simpa using hop)
    · by_cases hop : d.op = 2
      · exact .inr (by simp [State.rowDstOk, hbytes, State.extOk, hd.dst, hd.scatter hop i hi])
      · exact .inl (by simpa using hop)
  have hgrain : (if d.op = 1 && decide (d.src = 1) then (t.setPmc x).countGrain d false (d.srcAt (t.core c).store i)
      else if d.op = 2 && decide (d.dst = 1) then (t.setPmc x).countGrain d true (d.dstAt (t.core c).store i) else t.setPmc x)
      = t.setPmc x := by
    have hsrc : ¬ (d.op = 1 && decide (d.src = 1)) = true := by
      simp only [Bool.and_eq_true, decide_eq_true_eq, not_and]
      intro hop
      rw [hd.src (by omega)]
      decide
    rw [if_neg hsrc, if_neg (by simp [hd.dst])]
  have hdata : ∃ y, (if d.op = 4 then (fillRow d.srcA d.rowBytes, t.setPmc x)
      else (t.setPmc x).dmaSrc c n q d (d.srcAt (t.core c).store i) d.rowBytes) =
        (d.rowData (t.core c).store i, t.setPmc y) := by
    unfold DCmd.rowData
    split
    · exact ⟨x, rfl⟩
    · next hop => exact State.dmaSrc_of_store (t := t.setPmc x) h hd.pre (hd.src hop) n _ _
  obtain ⟨y, hdata⟩ := hdata
  obtain ⟨-, hpoison, -⟩ := d.rowData_spec (t.core c).store i
  refine ⟨b + (d.rowData (t.core c).store i).length, y, ?_⟩
  unfold State.moveRow
  simp only [hread, hclean, hsrcAt, hdstAt, hexists, Bool.false_eq_true, if_false]
  rw [hgrain, hdata]
  simp only [State.dmaWrite, hd.dst, hpoison, ne_eq, not_true, if_true, if_false, Bool.or_false]

/-! ### Every row -/

/-- Bytes that no row put so far meets are still those of the start. -/
theorem State.RowsPut.bytes_eq {k len : Nat} {at_ : Nat → Nat} {row : Nat → Nat → Byte} (h : s.RowsPut c k at_ len row t) {a m : Nat}
    (hapart : ∀ i, i < k → a + m ≤ at_ i ∨ at_ i + len ≤ a) :
    Map.bytes unlisted (t.core c).store a m = Map.bytes unlisted (s.core c).store a m :=
  Map.bytes_congr fun x hlo hhi => h.out x fun i hi => by have := hapart i hi; omega

/-- No destination row meets the source rows or the index list of the command, or another destination row. -/
structure DCmd.RowsApart (d : DCmd) (σ : List (Nat × Byte)) : Prop where
  dst : ∀ i j, i < d.rows → j < d.rows → i ≠ j →
    d.dstAt σ i + d.rowBytes ≤ d.dstAt σ j ∨ d.dstAt σ j + d.rowBytes ≤ d.dstAt σ i
  src : d.op ≠ 4 → ∀ i j, i < d.rows → j < d.rows →
    d.srcAt σ i + d.rowBytes ≤ d.dstAt σ j ∨ d.dstAt σ j + d.rowBytes ≤ d.srcAt σ i
  list : d.op = 1 ∨ d.op = 2 → ∀ j, j < d.rows → d.aux + 8 * d.rows ≤ d.dstAt σ j ∨ d.dstAt σ j + d.rowBytes ≤ d.aux

variable {σ : List (Nat × Byte)} {k : Nat}

theorem DCmd.RowsApart.index_eq (ha : d.RowsApart (s.core c).store)
    (h : s.RowsPut c k (d.dstAt (s.core c).store) d.rowBytes (d.rowByte (s.core c).store) t) (hlist : d.op = 1 ∨ d.op = 2)
    {i : Nat} (hk : k ≤ d.rows) (hi : i < d.rows) : d.index (t.core c).store i = d.index (s.core c).store i :=
  congrArg leNat (h.bytes_eq fun j hj => by have := ha.list hlist j (by omega); omega)

/-- What the command reads and where it writes is as it was at the start, whatever rows have been put. -/
theorem DCmd.RowsApart.rows_eq (ha : d.RowsApart (s.core c).store)
    (h : s.RowsPut c k (d.dstAt (s.core c).store) d.rowBytes (d.rowByte (s.core c).store) t) (hk : k ≤ d.rows) {i : Nat}
    (hi : i < d.rows) :
    d.srcAt (t.core c).store i = d.srcAt (s.core c).store i ∧ d.dstAt (t.core c).store i = d.dstAt (s.core c).store i
      ∧ d.rowData (t.core c).store i = d.rowData (s.core c).store i := by
  have hsrc : d.srcAt (t.core c).store i = d.srcAt (s.core c).store i := by
    unfold DCmd.srcAt
    split
    · next hop => rw [ha.index_eq h (.inl hop) hk hi]
    · rfl
  have hdst : d.dstAt (t.core c).store i = d.dstAt (s.core c).store i := by
    unfold DCmd.dstAt
    split
    · next hop => rw [ha.index_eq h (.inr hop) hk hi]
    · rfl
  refine ⟨hsrc, hdst, ?_⟩
  unfold DCmd.rowData
  split
  · rfl
  · next hop => rw [hsrc, h.bytes_eq fun j hj => ha.src hop i j hi (by omega)]

/-- Rows k to k + m - 1 moved in ascending order. -/
theorem State.RowsPut.moveRows (ha : d.RowsApart (s.core c).store) (hd : d.StoreRows q s c) (n b : Nat) {m : Nat}
    (h : s.RowsPut c k (d.dstAt (s.core c).store) d.rowBytes (d.rowByte (s.core c).store) t) (hm : k + m = d.rows) :
    ∃ b' u, t.eachWith { bytes := b } (iota k m) (fun mv t i => t.moveRow c n q d mv i) = ({ bytes := b' }, u)
      ∧ s.RowsPut c d.rows (d.dstAt (s.core c).store) d.rowBytes (d.rowByte (s.core c).store) u := by
  induction m generalizing t k b with
  | zero => exact ⟨b, t, rfl, by rwa [← hm]⟩
  | succ m ih =>
    have hk : k < d.rows := by omega
    obtain ⟨-, hdst, hdata⟩ := ha.rows_eq h (Nat.le_of_lt hk) hk
    have hd' : d.StoreRows q t c :=
      { hd with
        pre := by
          obtain ⟨-, -, hpre⟩ := Core.unwritten_parts h.core
          rw [hpre]
          exact hd.pre
        gather := fun hop i hi => by
          rw [(ha.rows_eq h (Nat.le_of_lt hk) hi).1]
          exact hd.gather hop i hi
        scatter := fun hop i hi => by
          rw [(ha.rows_eq h (Nat.le_of_lt hk) hi).2.1]
          exact hd.scatter hop i hi }
    obtain ⟨b', x, hrow⟩ := State.moveRow_of_clean h.words hd' n b hk
    rw [hdst, hdata] at hrow
    obtain ⟨hlen, hpoison, hbyte⟩ := d.rowData_spec (s.core c).store k
    have hnext := (h.setPmc x).succ (fun i hi => ha.dst i k (by omega) hk (Nat.ne_of_lt hi)) hlen hpoison hbyte
    obtain ⟨b'', u, hrest, hu⟩ := ih b' hnext (by omega)
    refine ⟨b'', u, ?_, hu⟩
    rw [State.eachWith, iota, List.foldl_cons]
    dsimp only
    rw [hrow]
    exact hrest

/-- Beside the bytes of core store, a command that ends changes only its core's queue. -/
theorem State.dmaDone_frame (hqueue : (t.core c).dmaq = (s.core c).dmaq) (hbeside : t.besideCore c = s.besideCore c) (how b : Nat) :
    ((t.dmaDone c q how b).core c).dmaq = (s.core c).dmaq.filter (fun x => decide (x.tag ≠ q.tag))
      ∧ (t.dmaDone c q how b).tallies = s.tallies ∧ s.sameMemory (t.dmaDone c q how b)
      ∧ ∀ e, e ≠ c → (t.dmaDone c q how b).core e = s.core e := by
  obtain ⟨hcore, hbesideEnd⟩ := t.dmaDone_spec c q how b
  obtain ⟨-, -, hleft, -⟩ := Core.unposted_parts hcore
  obtain ⟨hmem, htallies, hcores⟩ := State.besideCore_frame (hbesideEnd.trans hbeside)
  exact ⟨by rw [hleft, Core.dmaLeft, hqueue], htallies, hmem, hcores⟩

theorem State.storeAt_dmaDone (t : State) (c : Nat) (q : QCmd) (how b a : Nat) :
    (t.dmaDone c q how b).storeAt c a = t.storeAt c a := by
  obtain ⟨hcore, -⟩ := t.dmaDone_spec c q how b
  obtain ⟨hstore, -⟩ := Core.unposted_parts hcore
  exact congrArg (Map.getD unlisted · a) hstore

/-- Rows put after a command's BEGIN move neither its queue nor what is beside its core. -/
theorem State.RowsPut.of_begun {len : Nat} {at_ : Nat → Nat} {row : Nat → Nat → Byte}
    (h : (s.traceBegin c q).RowsPut c k at_ len row t) :
    (t.core c).dmaq = (s.core c).dmaq ∧ t.besideCore c = s.besideCore c
      ∧ ∀ a, (∀ i, i < k → a < at_ i ∨ at_ i + len ≤ a) → t.storeAt c a = s.storeAt c a := by
  obtain ⟨-, hqueue, -⟩ := Core.unwritten_parts h.core
  have hbegun := s.unheld_traceBegin c q
  obtain ⟨-, -, -, hqueueB, -⟩ := Core.unheld_units hbegun
  exact ⟨hqueue.trans hqueueB, h.beside.trans (s.besideCore_traceBegin c q),
    fun a ha => (h.out a ha).trans (State.storeAt_of_unheld hbegun a)⟩

/-- What a command leaves that has put its rows and ended. -/
theorem State.RowsPut.dmaDone_effect {len : Nat} {at_ : Nat → Nat} {row : Nat → Nat → Byte}
    (h : (s.traceBegin c q).RowsPut c k at_ len row t) (how b : Nat) :
    (((t.dmaDone c q how b).core c).dmaq = (s.core c).dmaq.filter (fun x => decide (x.tag ≠ q.tag))
      ∧ (t.dmaDone c q how b).tallies = s.tallies ∧ s.sameMemory (t.dmaDone c q how b)
      ∧ ∀ e, e ≠ c → (t.dmaDone c q how b).core e = s.core e)
      ∧ (∀ a, (∀ i, i < k → a < at_ i ∨ at_ i + len ≤ a) → (t.dmaDone c q how b).storeAt c a = s.storeAt c a)
      ∧ ∀ i j, i < k → j < len → (t.dmaDone c q how b).storeAt c (at_ i + j) = row i j := by
  obtain ⟨hqueue, hbeside, hout⟩ := h.of_begun
  exact ⟨State.dmaDone_frame hqueue hbeside how b, fun a ha => (t.storeAt_dmaDone c q how b a).trans (hout a ha),
    fun i j hi hj => (t.storeAt_dmaDone c q how b _).trans (h.put i j hi hj)⟩

/-- COPY, GATHER, SCATTER and FILL of core store in order: every row is moved, and the command leaves its queue. -/
theorem State.runDma_moves (hready : s.dmaReady c slot = some (n, q, d)) (hstarted : q.started = false)
    (hok : s.dmaBad c n d = false) (hclean : ∀ i, s.wordSt c i = {}) (hd : d.StoreRows q s c)
    (ha : d.RowsApart (s.core c).store) :
    ∃ b t, s.runDma c slot d.op = t.dmaDone c q 0 b ∧
      (s.traceBegin c q).RowsPut c d.rows (d.dstAt (s.core c).store) d.rowBytes (d.rowByte (s.core c).store) t := by
  have hbegun := s.unheld_traceBegin c q
  obtain ⟨hstore, -, -, -, hpre⟩ := Core.unheld_units hbegun
  have hcleanB : ∀ i, (s.traceBegin c q).wordSt c i = {} := fun i => (State.wordSt_of_unheld hbegun i).trans (hclean i)
  have hdB : d.StoreRows q (s.traceBegin c q) c :=
    { hd with
      pre := by rw [hpre]; exact hd.pre
      gather := by rw [hstore]; exact hd.gather
      scatter := by rw [hstore]; exact hd.scatter }
  have haB : d.RowsApart ((s.traceBegin c q).core c).store := by rw [hstore]; exact ha
  obtain ⟨b, t, hmoved, ht⟩ := (State.RowsPut.zero hcleanB).moveRows haB hdB n 0 (Nat.zero_add d.rows)
  rw [hstore] at ht
  refine ⟨b, t, ?_, ht⟩
  have hall : (s.traceBegin c q).moveAll c n q d = ({ bytes := b }, t) := by
    rw [State.moveAll, if_pos hd.codec]
    exact hmoved
  rw [State.runDma_of_ok hready hstarted hok hd.dst, hall, State.dmaFinish_of_plain, State.dmaDone]

end Sys2Proof.Machine

namespace Sys2Proof.Proofs
open Sys2Proof.Machine

/-- Settles O20: each row is read from words that no row before it has touched (`DCmd.RowsApart.rows_eq`), so the rows stand
where the state before the command puts them (`State.runDma_moves`); a command in error is `State.dmaRefused`. -/
theorem dmaMovesRowsInCoreStore : Obligations.DmaMovesRowsInCoreStore := by
  intro s c n slot q d _ hready hstarted idx gone apart frame
  obtain ⟨hcrew, -⟩ := State.dmaReady_spec hready
  refine ⟨fun hok hcodec hdst hclean hpre => ⟨fun x hx hop hsrc hapart hext hdisjoint hlist => ?_, fun hop hapart => ?_⟩,
    fun hbad x hx hop => ⟨_, State.exec_dmaCmds_of_bad hready hstarted hbad hx hop, State.dmaRefused_effect hcrew⟩⟩
  · have hrows : d.srcAt (s.core c).store = x.2.2.1 ∧ d.dstAt (s.core c).store = x.2.2.2 ∧ d.op ≤ 2
        ∧ exec x.2.1 s = .next (s.runDma c slot d.op) := by
      simp only [List.mem_cons, List.not_mem_nil, or_false] at hx
      rcases hx with rfl | rfl | rfl
      · refine ⟨funext fun i => ?_, funext fun i => ?_, by rw [hop]; exact Nat.zero_le 2, ?_⟩
        · simp [DCmd.srcAt, hop]
        · simp [DCmd.dstAt, hop]
        · rw [hop]
          exact s.exec_dmaCopy hready (.inl (by simp [State.toPort, hdst]))
      · refine ⟨funext fun i => ?_, funext fun i => ?_, by rw [hop]; exact Nat.le_succ 1, by rw [hop]; rfl⟩
        · simp [DCmd.srcAt, hop, DCmd.index, idx]
        · simp [DCmd.dstAt, hop]
      · refine ⟨funext fun i => ?_, funext fun i => ?_, by rw [hop], by rw [hop]; rfl⟩
        · simp [DCmd.srcAt, hop]
        · simp [DCmd.dstAt, hop, DCmd.index, idx]
    obtain ⟨hsrcAt, hdstAt, hle, hexec⟩ := hrows
    have hd : d.StoreRows q s c :=
      ⟨hdst, hcodec, fun _ => hsrc, hpre, fun _ i hi => by simpa [State.extOk, ← hsrcAt] using (hext i hi).1,
        fun _ i hi => by simpa [State.extOk, ← hdstAt] using (hext i hi).2⟩
    have ha : d.RowsApart (s.core c).store :=
      ⟨hdstAt ▸ hapart, fun _ => by rw [hsrcAt, hdstAt]; exact hdisjoint, fun hop' => hdstAt ▸ hlist (by omega)⟩
    obtain ⟨b, t, hrun, ht⟩ := State.runDma_moves hready hstarted hok hclean hd ha
    obtain ⟨hgone, hframe, hput⟩ := ht.dmaDone_effect 0 b
    refine ⟨_, hexec.trans (congrArg _ hrun), hgone, hdstAt ▸ hframe, fun i j hi hj => ?_⟩
    rw [← hdstAt, hput i j hi hj, DCmd.rowByte, if_neg (by omega), hsrcAt]
    rfl
  · have hdstAt : d.dstAt (s.core c).store = fun i => d.dstA + i * d.dstS := funext fun i => by simp [DCmd.dstAt, hop]
    have hd : d.StoreRows q s c :=
      ⟨hdst, hcodec, fun h => absurd hop h, hpre, fun h => absurd (hop.symm.trans h) (by decide),
        fun h => absurd (hop.symm.trans h) (by decide)⟩
    have ha : d.RowsApart (s.core c).store :=
      ⟨hdstAt ▸ hapart, fun h => absurd hop h, fun h => by omega⟩
    obtain ⟨b, t, hrun, ht⟩ := State.runDma_moves hready hstarted hok hclean hd ha
    obtain ⟨hgone, hframe, hput⟩ := ht.dmaDone_effect 0 b
    have hexec : exec (.dmaFill c slot) s = .next (s.runDma c slot d.op) := hop ▸ rfl
    refine ⟨_, hexec.trans (congrArg _ hrun), hgone, hdstAt ▸ hframe, fun i j hi hj => ?_⟩
    have hbyte := hput i j hi hj
    rw [hdstAt, DCmd.rowByte, if_pos hop] at hbyte
    exact hbyte

end Sys2Proof.Proofs
end

section
/-!
PROOFS. A quantising COPY of one block (O23; 06 R157, R159): the elements of its row, their codes and scale byte, and the two
writes.
-/
namespace Sys2Proof.Machine

variable {s t : State} {c n slot : Nat} {q : QCmd} {d : DCmd}

/-! ### Source rows -/

/-- The source rows of a command of core store, as clean words give them. -/
def DCmd.srcRows (d : DCmd) (σ : List (Nat × Byte)) : List (List (Byte × Bool)) :=
  (iota 0 d.rows).map fun i => clean (Map.bytes unlisted σ (d.srcA + i * d.srcS) d.rowBytes)

theorem State.readSrc_of_clean (h : ∀ i, t.wordSt c i = {}) (hpre : ∀ p ∈ (t.core c).pre, p.entry ≠ q.entry) (hsrc : d.src = 0)
    (n : Nat) : ∃ x, t.readSrc c n q d = (d.srcRows (t.core c).store, t.setPmc x) := by
  have hrows : ∀ (rows : List Nat) (l : List (List (Byte × Bool))) (y : Pmc), ∃ x,
      (t.setPmc y).eachWith l rows (fun l s i =>
        (l ++ [(s.dmaSrc c n q d (d.srcA + i * d.srcS) d.rowBytes).1], (s.dmaSrc c n q d (d.srcA + i * d.srcS) d.rowBytes).2))
      = (l ++ rows.map (fun i => clean (Map.bytes unlisted (t.core c).store (d.srcA + i * d.srcS) d.rowBytes)), t.setPmc x) := by
    intro rows
    induction rows with
    | nil => exact fun l y => ⟨y, by simp [State.eachWith]⟩
    | cons i rows ih =>
      intro l y
      obtain ⟨z, hz⟩ := State.dmaSrc_of_store (t := t.setPmc y) h hpre hsrc n (d.srcA + i * d.srcS) d.rowBytes
      obtain ⟨x, hx⟩ := ih (l ++ [clean (Map.bytes unlisted (t.core c).store (d.srcA + i * d.srcS) d.rowBytes)]) z
      refine ⟨x, ?_⟩
      rw [State.eachWith, List.foldl_cons]
      dsimp only
      rw [hz]
      refine hx.trans ?_
      rw [List.append_assoc, List.map_cons, List.singleton_append]
  obtain ⟨x, hx⟩ := hrows (iota 0 d.rows) [] t.pmc
  exact ⟨x, hx⟩

/-! ### Elements of a packed row -/

theorem leNat_drop (b : Bytes) (k : Nat) : leNat (b.drop k) = leNat b / 256 ^ k := by
  induction k generalizing b with
  | zero => simp
  | succ k ih =>
    cases b with
    | nil => simp [leNat]
    | cons x b =>
      have hx : (x.toNat + 256 * leNat b) / 256 = leNat b := by have := x.isLt; omega
      rw [List.drop_succ_cons, ih, leNat, Nat.pow_succ', ← Nat.div_div_eq_div_mul, hx]

theorem leNat_take (b : Bytes) (k : Nat) : leNat (b.take k) = leNat b % 256 ^ k := by
  induction k generalizing b with
  | zero => simp [leNat, Nat.mod_one]
  | succ k ih =>
    cases b with
    | nil => simp [leNat]
    | cons x b =>
      have hlow : (x.toNat + 256 * leNat b) % 256 = x.toNat := by have := x.isLt; omega
      have hhigh : (x.toNat + 256 * leNat b) / 256 = leNat b := by have := x.isLt; omega
      rw [List.take_succ_cons, leNat, leNat, ih, Nat.pow_succ', Nat.mod_mul, hlow, hhigh]

/-- Element i of a row of 32-bit elements is the number in its four bytes. -/
theorem bits_leNat_word (b : Bytes) (i : Nat) : bits (leNat b) (32 * i + 32 - 1) (32 * i) = leNat ((b.drop (4 * i)).take 4) := by
  have hwidth : 32 * i + 32 - 1 + 1 - 32 * i = 32 := by omega
  have hpow : 2 ^ (32 * i) = 256 ^ (4 * i) := by
    rw [show 256 = 2 ^ 8 from rfl, ← Nat.pow_mul]
    congr 1
    omega
  rw [leNat_take, leNat_drop, bits, hwidth, hpow, show 256 ^ 4 = 2 ^ 32 from rfl]

/-- The elements of a clean row of 32 words of core store. -/
theorem unpackBits_words (σ : List (Nat × Byte)) (a : Nat) :
    unpackBits 32 32 (clean (Map.bytes unlisted σ a 128)) =
      (iota 0 32).map fun i => (leNat (Map.bytes unlisted σ (a + 4 * i) 4), false) := by
  refine List.map_congr_left fun i hi => ?_
  have hi : i < 32 := by simpa using (mem_iota.mp hi).2
  have hlen : 128 = 4 * i + (4 + (124 - 4 * i)) := by omega
  have hclean : ∀ lo m, anyPoison (((clean (Map.bytes unlisted σ a 128)).drop lo).take m) = false := by
    refine fun lo m => anyPoison_eq_false fun x hx => ?_
    obtain ⟨y, -, rfl⟩ := List.mem_map.mp (List.mem_of_mem_drop (List.mem_of_mem_take hx))
    rfl
  have hword : ((Map.bytes unlisted σ a 128).drop (4 * i)).take 4 = Map.bytes unlisted σ (a + 4 * i) 4 := by
    rw [hlen, Map.drop_bytes, Map.take_bytes]
  rw [plain_clean, bits_leNat_word, hword, hclean]

/-! ### One block -/

/-- Codes without poison pack into bytes without poison. -/
theorem packBits_of_clean (w : Nat) (l : List Nat) :
    packBits w (l.map fun x => (x, false)) =
      clean (natLe ((l.length * w + 7) / 8) (l.foldr (fun y acc => acc * 2 ^ w + y % 2 ^ w) 0)) := by
  have hclean : ∀ lo m, (((l.map fun x => (x, false)).drop lo).take m).any (fun x => x.2) = false := by
    intro lo m
    rw [List.any_eq_false]
    intro x hx
    obtain ⟨y, -, rfl⟩ := List.mem_map.mp (List.mem_of_mem_drop (List.mem_of_mem_take hx))
    exact Bool.false_ne_true
  simp only [packBits, hclean, List.length_map, List.foldr_map, clean]
  conv_rhs => rw [← List.zipIdx_map_fst 0 (natLe _ _), List.map_map]
  rfl

theorem length_quantBlock (f : Fmt) (emax : Int) (x : List FVal) : (quantBlock f emax x).2.length = x.length := by
  unfold quantBlock
  split
  · simp
  · dsimp only
    split
    · split <;> simp
    · simp

/-- One clean block along its row: its packed codes and its scale byte. -/
theorem quantRows_block (f : Fmt) (w : Nat) (emax : Int) {x : List FVal} (hx : x.length = 32) :
    quantRows f w emax 0 32 [x.map fun v => (v, false)] =
      ([clean (natLe (4 * w) ((quantBlock f emax x).2.foldr (fun y acc => acc * 2 ^ w + y % 2 ^ w) 0))],
        clean [BitVec.ofNat 8 (quantBlock f emax x).1]) := by
  have hbytes : ((quantBlock f emax x).2.length * w + 7) / 8 = 4 * w := by rw [length_quantBlock, hx]; omega
  have htake : (x.map fun v => (v, false)).take 32 = x.map fun v => (v, false) :=
    List.take_of_length_le (by rw [List.length_map, hx])
  have hpoison : (x.map fun v => (v, false)).any (fun y => y.2) = false := by simp
  have hvals : (x.map fun v => (v, false)).map (fun y => y.1) = x := by simp [Function.comp_def]
  simp only [quantRows, blocksOf, rowsOf, if_true, List.flatMap_cons, List.flatMap_nil, runsOf, htake, List.append_nil,
    List.map_cons, List.map_nil, hpoison, hvals, List.length_cons, List.length_nil, Nat.zero_add,
    List.take_succ_cons, List.take_zero, List.flatten_cons, List.flatten_nil, packBits_of_clean, hbytes]
  rfl

/-! ### The command -/

/-- What a quantising COPY of one row of 32 FP32 elements of core store works with. -/
structure DCmd.OneBlock (d : DCmd) (f : Fmt) (w : Nat) (emax : Int) : Prop where
  codec : d.codec = 1
  wide : d.wide = true
  axis : d.axis = 0
  src : d.src = 0
  dst : d.dst = 0
  rows : d.rows = 1
  rowBytes : d.rowBytes = 128
  format : mxFmt d.mx = some (f, w, emax)

/-- The elements of the block. -/
def DCmd.block (d : DCmd) (σ : List (Nat × Byte)) : List FVal :=
  (iota 0 32).map fun i => fFP32.decode (leNat (Map.bytes unlisted σ (d.srcA + 4 * i) 4))

/-- The packed codes of a block. -/
def packedCodes (f : Fmt) (w : Nat) (emax : Int) (x : List FVal) : Bytes :=
  natLe (4 * w) ((quantBlock f emax x).2.foldr (fun y acc => acc * 2 ^ w + y % 2 ^ w) 0)

variable {f : Fmt} {w : Nat} {emax : Int}

theorem DCmd.OneBlock.converted (hd : d.OneBlock f w emax) (h : ∀ i, t.wordSt c i = {})
    (hpre : ∀ p ∈ (t.core c).pre, p.entry ≠ q.entry) (n : Nat) :
    ∃ x, t.converted c n q d = (([clean (packedCodes f w emax (d.block (t.core c).store))],
      clean [BitVec.ofNat 8 (quantBlock f emax (d.block (t.core c).store)).1]), t.setPmc x) := by
  obtain ⟨x, hread⟩ := State.readSrc_of_clean (d := d) h hpre hd.src n
  have hsrc : d.srcRows (t.core c).store = [clean (Map.bytes unlisted (t.core c).store d.srcA 128)] := by
    simp [DCmd.srcRows, hd.rows, hd.rowBytes, iota]
  have helems : d.elems = 32 := by simp [DCmd.elems, DCmd.wideBytes, hd.codec, hd.wide, hd.rowBytes]
  have hvals : (unpackBits 32 32 (clean (Map.bytes unlisted (t.core c).store d.srcA 128))).map
      (fun y => (fFP32.decode y.1, y.2)) = (d.block (t.core c).store).map fun v => (v, false) := by
    rw [unpackBits_words, DCmd.block, List.map_map, List.map_map]
    rfl
  have hbits : 8 * d.wideBytes = 32 := by simp [DCmd.wideBytes, hd.wide]
  refine ⟨x, ?_⟩
  rw [State.converted, hread]
  simp only [hd.format, hd.codec, hd.wide, hd.axis, hsrc, helems, hbits, if_true, List.map_cons, List.map_nil, hvals,
    packedCodes, ← quantRows_block f w emax (x := d.block (t.core c).store) (by simp [DCmd.block])]

/-- One row of clean bytes. -/
theorem State.RowsPut.one {a : Nat} {row : Bytes} (h : s.RowsPut c 0 (fun _ => a) row.length (fun _ j => row.getD j 0) t) :
    s.RowsPut c 1 (fun _ => a) row.length (fun _ j => row.getD j 0) (t.storeWrite c a (clean row)) :=
  h.succ (fun i hi => absurd hi (Nat.not_lt_zero i)) (by simp [clean]) (anyPoison_clean row)
    fun j hj => by
      have hj : j < row.length := by simpa [clean] using hj
      simp [clean, hj]

/-- A converted row goes to the destination, then its scale byte to the scale area. -/
theorem State.writeRowsD_block (t : State) (c n : Nat) (hdst : d.dst = 0) (row : Bytes) (y : Byte) :
    t.writeRowsD c n d [clean row] (clean [y]) =
      ({ bytes := row.length + 1 }, (t.storeWrite c d.dstA (clean row)).storeWrite c d.aux (clean [y])) := by
  have hlen : (clean row).length = row.length := by simp [clean]
  simp [State.writeRowsD, State.eachWith, State.dmaWrite, hdst, hlen]
  simp [clean]

/-- A quantising COPY of one block: the packed codes stand at the destination, then the scale byte in the scale area. -/
theorem State.runDma_quantises (hready : s.dmaReady c slot = some (n, q, d)) (hstarted : q.started = false)
    (hok : s.dmaBad c n d = false) (hclean : ∀ i, s.wordSt c i = {}) (hpre : ∀ p ∈ (s.core c).pre, p.entry ≠ q.entry)
    (hd : d.OneBlock f w emax) {codes : Bytes} (hcodes : packedCodes f w emax (d.block (s.core c).store) = codes) {y : Byte}
    (hy : BitVec.ofNat 8 (quantBlock f emax (d.block (s.core c).store)).1 = y) :
    ∃ b t u, s.runDma c slot d.op = u.dmaDone c q 0 b
      ∧ (s.traceBegin c q).RowsPut c 1 (fun _ => d.dstA) codes.length (fun _ j => codes.getD j 0) t
      ∧ t.RowsPut c 1 (fun _ => d.aux) 1 (fun _ j => [y].getD j 0) u := by
  have hbegun := s.unheld_traceBegin c q
  obtain ⟨hstore, -, -, -, hpreB⟩ := Core.unheld_units hbegun
  have hcleanB : ∀ i, (s.traceBegin c q).wordSt c i = {} := fun i => (State.wordSt_of_unheld hbegun i).trans (hclean i)
  obtain ⟨x, hconv⟩ := hd.converted hcleanB (by rw [hpreB]; exact hpre) n
  rw [hstore, hcodes, hy] at hconv
  have hrow := ((State.RowsPut.zero hcleanB).setPmc x).one (a := d.dstA) (row := codes)
  refine ⟨codes.length + 1, _, _, ?_, hrow, (State.RowsPut.zero hrow.words).one (row := [y])⟩
  have hall := ((s.traceBegin c q).setPmc x).writeRowsD_block c n hd.dst codes y
  rw [State.runDma_of_ok hready hstarted hok hd.dst, State.moveAll, if_neg (by rw [hd.codec]; exact Nat.one_ne_zero), hconv]
  dsimp only
  rw [hall, State.dmaFinish_of_plain, State.dmaDone]

end Sys2Proof.Machine

namespace Sys2Proof.Proofs
open Sys2Proof.Machine

/-- Settles O23: the row's elements are read before the two writes, and the writes lie apart. -/
theorem quantiseWritesCodesAndScales : Obligations.QuantiseWritesCodesAndScales := by
  intro s c n slot q d f w emax _ hready hpre hstarted hok hop hcodec hwide haxis hsrc hdst hrows hrowBytes hformat hclean hapart x b
  have hd : d.OneBlock f w emax := ⟨hcodec, hwide, haxis, hsrc, hdst, hrows, hrowBytes, hformat⟩
  obtain ⟨k, t, u, hrun, ht, hu⟩ := State.runDma_quantises hready hstarted hok hclean hpre hd rfl rfl
  have hlen : (packedCodes f w emax (d.block (s.core c).store)).length = 4 * w := length_natLe _ _
  rw [hlen] at ht
  obtain ⟨hqueue, hbeside, hout⟩ := ht.of_begun
  obtain ⟨-, hqueueU, -⟩ := Core.unwritten_parts hu.core
  obtain ⟨hgone, htallies, hmem, -⟩ := State.dmaDone_frame (q := q) (hqueueU.trans hqueue) (hu.beside.trans hbeside) 0 k
  have hexec : exec (.dmaCopy c slot) s = .next (s.runDma c slot d.op) := by
    rw [hop]
    exact s.exec_dmaCopy hready (.inl (by simp [State.toPort, hdst]))
  refine ⟨_, hexec.trans (congrArg _ hrun), ?_, fun i hi => ?_, fun a hne ha => ?_, hgone, htallies, hmem⟩
  · exact (u.storeAt_dmaDone c q 0 k _).trans (hu.put 0 0 Nat.one_pos Nat.one_pos)
  · rw [State.storeAt_dmaDone, hu.out _ fun _ _ => by omega, ht.put 0 i Nat.one_pos hi]
    rfl
  · rw [State.storeAt_dmaDone, hu.out _ fun _ _ => by omega, hout a fun _ _ => ha]

end Sys2Proof.Proofs
end

section
/-!
PROOFS. RING_APPEND (O22; 06 R152; 04 R106): the registers that the end of a command leaves alone, a command held in progress,
the room and the places of a ring, and lines appended one after another.
-/
namespace Sys2Proof.Machine

variable {s t : State} {c n slot ring k : Nat} {q : QCmd} {d : DCmd}

/-! ### Registers beside a command's end -/

/-- A register that is neither a trace's count of lost records nor the status of core c's DMA engine. -/
structure RegDef.OffDma (r : RegDef) (ix : List Nat) (c : Nat) : Prop where
  trace : ∀ n, n < 16 → r.addr ix ≠ R.TRC_LOST.addr [n]
  status : r.addr ix ≠ R.DMA_STATUS.addr [c]

variable {r : RegDef} {ix : List Nat}

/-- A register is its own whole field. -/
theorem State.reg_of_fld (h : t.fld ⟨r, 31, 0, .ro⟩ ix = s.fld ⟨r, 31, 0, .ro⟩ ix) : t.reg r ix = s.reg r ix := by
  have hwhole : ∀ u : State, u.fld ⟨r, 31, 0, .ro⟩ ix = (u.reg r ix).toNat := fun u => by
    rw [State.fld, bits, Nat.pow_zero, Nat.div_one]
    exact Nat.mod_eq_of_lt (u.reg r ix).isLt
  exact BitVec.eq_of_toNat_eq (by rw [← hwhole, h, hwhole])

theorem State.reg_trace (h : r.OffDma ix c) (s : State) (c' kind how : Nat) (word : CmdWord) (entry accept detail : Nat) :
    (s.trace c' kind how word entry accept detail).reg r ix = s.reg r ix :=
  State.reg_of_fld (State.fld_trace s h.trace _ _ _ _ _ _ _)

theorem State.reg_settleCore (h : r.OffDma ix c) (s : State) (c' : Nat) : (s.settleCore c').reg r ix = s.reg r ix :=
  State.reg_of_fld (State.fld_settleCore s h.trace c')

theorem State.reg_showDma (h : r.OffDma ix c) (s : State) : (s.showDma c).reg r ix = s.reg r ix := by
  refine State.reg_of_fld ?_
  have hset : ∀ (u : State) (f : Fld) (v : Nat), f.reg = R.DMA_STATUS →
      (u.setFld f [c] v).fld ⟨r, 31, 0, .ro⟩ ix = u.fld ⟨r, 31, 0, .ro⟩ ix := fun u f v hf =>
    State.fld_setFld_reg u (by rw [hf]; exact h.status) v
  have hlive : ∀ (u : State) (f : Fld) (on : Bool), f.reg = R.DMA_STATUS →
      (u.liveBit f [c] on).fld ⟨r, 31, 0, .ro⟩ ix = u.fld ⟨r, 31, 0, .ro⟩ ix := fun u f on hf =>
    State.fld_liveBit_reg u (by rw [hf]; exact h.status) on
  simp only [State.showDma]
  rw [hset _ _ _ rfl, hlive _ _ _ rfl, hlive _ _ _ rfl, hset _ _ _ rfl, hset _ _ _ rfl, hset _ _ _ rfl]

theorem State.reg_dmaDone (h : r.OffDma ix c) (s : State) (q : QCmd) (how b : Nat) :
    (s.dmaDone c q how b).reg r ix = s.reg r ix := by
  have hwindows : ∀ (u : State) d, (u.endWindows c d).reg r ix = u.reg r ix := fun u d =>
    State.each_keeps u (fun t => t.reg r ix) _ _ fun u w => rfl
  rw [State.dmaDone, State.reg_settleCore h, State.dmaEnd, State.reg_showDma h, hwindows]
  exact State.reg_trace h s c _ _ _ _ _ _

/-! ### A command held in progress -/

/-- The state in which a started command stays in its queue with its progress and the core's waits are settled. -/
def State.dmaHeld (s : State) (c : Nat) (q : QCmd) (done rows : Nat) (dirty : Bool) : State :=
  (s.dmaHold c q done rows dirty).settleCore c

theorem State.reg_dmaHeld (h : r.OffDma ix c) (s : State) (q : QCmd) (done rows : Nat) (dirty : Bool) :
    (s.dmaHeld c q done rows dirty).reg r ix = s.reg r ix := by
  rw [State.dmaHeld, State.reg_settleCore h, State.dmaHold, State.reg_showDma h]
  rfl

/-- A command held in progress: its entry says so, and no byte, tally or memory has moved. -/
theorem State.dmaHeld_effect (s : State) (c : Nat) (q : QCmd) (done rows : Nat) (dirty : Bool) :
    (∀ x ∈ ((s.dmaHeld c q done rows dirty).core c).dmaq, x.tag = q.tag → x.started = true ∧ x.done = done)
      ∧ (∀ a, (s.dmaHeld c q done rows dirty).storeAt c a = s.storeAt c a)
      ∧ (s.dmaHeld c q done rows dirty).besideCore c = s.besideCore c := by
  have hshow : ∀ u : State, (u.showDma c).core c = u.core c := fun u =>
    u.showDma_keeps (fun t => t.core c) (fun _ _ => rfl) (fun _ _ => rfl) c
  have hbeside : ∀ u : State, (u.showDma c).besideCore c = u.besideCore c := fun u =>
    u.showDma_keeps (·.besideCore c) (fun _ _ => rfl) (fun _ _ => rfl) c
  obtain ⟨hstore, -, -, hqueue, -⟩ := Core.unheld_units (State.unheld_settleCore (s.dmaHold c q done rows dirty) c)
  rw [State.dmaHold, hshow, State.core_modCore_same] at hstore hqueue
  refine ⟨fun x hx htag => ?_, fun a => congrArg (Map.getD unlisted · a) hstore, ?_⟩
  · rw [State.dmaHeld, State.dmaHold, hqueue] at hx
    obtain ⟨y, -, rfl⟩ := List.mem_map.mp hx
    by_cases hy : y.tag = q.tag
    · simp [hy]
    · simp [hy] at htag
  · rw [State.dmaHeld, State.besideCore_settleCore, State.dmaHold, hbeside, State.besideCore_modCore]

/-! ### Room and places of a ring -/

/-- A fill that advances by y bytes shows at most y bytes more. -/
theorem serial32_add_le (v u : BitVec 32) (y : Nat) : (serial32 (v + BitVec.ofNat 32 y) u).toNat ≤ (serial32 v u).toNat + y := by
  have hv := v.isLt
  have hu := u.isLt
  simp only [serial32, toSigned, BitVec.toNat_sub, BitVec.toNat_add, BitVec.toNat_ofNat, Int.ofNat_eq_natCast]
  split <;> split <;> omega

/-- The place of byte i of those that the ring takes from now on. -/
def State.ringAt (s : State) (c ring i : Nat) : Nat :=
  s.ringBase c ring + ((s.reg R.ENG_RFILL [c, ring]).toNat + i) % s.ringSize c ring

/-- A ring of whole lines whose fill stands at the start of one. -/
structure State.WholeLines (s : State) (c ring : Nat) : Prop where
  size : 64 ∣ s.ringSize c ring
  fill : 64 ∣ (s.reg R.ENG_RFILL [c, ring]).toNat

theorem State.ringSize_dvd (s : State) (c ring : Nat) : s.ringSize c ring ∣ 2 ^ 32 :=
  Nat.pow_dvd_pow 2 (Nat.le_of_lt (s.fld_lt F.ENG_RING_log2_size [c, ring]))

theorem State.dvd_ringSize (h : 64 ≤ s.ringSize c ring) : 64 ∣ s.ringSize c ring :=
  Nat.pow_dvd_pow 2 (m := 6) ((Nat.pow_le_pow_iff_right (Nat.lt_succ_self 1)).mp h)

/-- Byte j of a 64-byte line at a whole number of lines, in a ring of whole lines. -/
theorem line_mod {x y j : Nat} (hj : j < 64) (hx : 64 ∣ x) (hy : 64 ∣ y) : (x + j) % y = x % y + j := by
  obtain ⟨x, rfl⟩ := hx
  obtain ⟨y, rfl⟩ := hy
  have hlow : (64 * x + j) % 64 = j := by omega
  have hhigh : (64 * x + j) / 64 = x := by omega
  rw [Nat.mod_mul, hlow, hhigh, Nat.mul_mod_mul_left, Nat.add_comm]

/-- Two lines of a ring are whole lines apart. -/
theorem mod_apart {x y z : Nat} (hx : 64 ∣ x) (hz : 64 ∣ z) (hlt : x < y) (hy : y < x + z) (hdvd : 64 ∣ y) :
    x % z + 64 ≤ y % z ∨ y % z + 64 ≤ x % z := by
  have hne : x % z ≠ y % z := fun heq => by
    have hle := Nat.le_of_dvd (by omega) (Nat.dvd_of_mod_eq_zero (Nat.sub_mod_eq_zero_of_mod_eq heq.symm))
    omega
  have hxz : 64 ∣ x % z := (Nat.dvd_mod_iff hz).mpr hx
  have hyz : 64 ∣ y % z := (Nat.dvd_mod_iff hz).mpr hdvd
  omega

/-- A line lies in the ring whole. -/
theorem State.WholeLines.ringAt_add (h : s.WholeLines c ring) (i : Nat) {j : Nat} (hj : j < 64) :
    s.ringAt c ring (64 * i + j) = s.ringAt c ring (64 * i) + j := by
  rw [State.ringAt, ← Nat.add_assoc, line_mod hj (Nat.dvd_add h.fill (Nat.dvd_mul_right 64 i)) h.size, State.ringAt, Nat.add_assoc]

theorem State.WholeLines.apart (h : s.WholeLines c ring) (hk : 64 * (k + 1) ≤ s.ringSize c ring) :
    RowApart (fun i => s.ringAt c ring (64 * i)) 64 k := by
  intro i hi
  have happart := mod_apart (x := (s.reg R.ENG_RFILL [c, ring]).toNat + 64 * i) (y := (s.reg R.ENG_RFILL [c, ring]).toNat + 64 * k)
    (Nat.dvd_add h.fill (Nat.dvd_mul_right 64 i)) h.size (by omega) (by omega) (Nat.dvd_add h.fill (Nat.dvd_mul_right 64 k))
  simp only [State.ringAt]
  omega

/-! ### Lines appended -/

/-- `t` is `s` after the ring has taken lines 0 to k - 1: line i has byte `row i j` at place j, and fill has advanced. -/
structure State.RingLines (s : State) (c ring k : Nat) (row : Nat → Nat → Byte) (t : State) : Prop where
  rows : s.RowsPut c k (fun i => s.ringAt c ring (64 * i)) 64 row t
  fill : t.reg R.ENG_RFILL [c, ring] = s.reg R.ENG_RFILL [c, ring] + BitVec.ofNat 32 (64 * k)
  cfg : t.reg R.ENG_RING [c, ring] = s.reg R.ENG_RING [c, ring]
  use : t.reg R.ENG_RUSE [c, ring] = s.reg R.ENG_RUSE [c, ring]

variable {row : Nat → Nat → Byte}

theorem State.RingLines.zero (h : ∀ i, s.wordSt c i = {}) : s.RingLines c ring 0 row s :=
  ⟨.zero h, by simp, rfl, rfl⟩

theorem State.RingLines.setPmc (h : s.RingLines c ring k row t) (x : Pmc) : s.RingLines c ring k row (t.setPmc x) :=
  ⟨h.rows.setPmc x, h.fill, h.cfg, h.use⟩

theorem State.RingLines.base (h : s.RingLines c ring k row t) : t.ringBase c ring = s.ringBase c ring :=
  congrArg (fun w : Word => bits w.toNat 21 12 * 2 ^ 12) h.cfg

theorem State.RingLines.size (h : s.RingLines c ring k row t) : t.ringSize c ring = s.ringSize c ring :=
  congrArg (fun w : Word => 2 ^ bits w.toNat 30 26) h.cfg

/-- The next line goes to its place. -/
theorem State.RingLines.next (h : s.RingLines c ring k row t) :
    t.ringBase c ring + (t.reg R.ENG_RFILL [c, ring]).toNat % t.ringSize c ring = s.ringAt c ring (64 * k) := by
  rw [h.base, h.size, h.fill, BitVec.toNat_add, BitVec.toNat_ofNat, Nat.add_mod_mod, Nat.mod_mod_of_dvd _ (s.ringSize_dvd c ring),
    State.ringAt]

theorem State.RingLines.room (h : s.RingLines c ring k row t) (hroom : s.ringFill c ring + 64 * (k + 1) ≤ s.ringSize c ring) :
    t.ringRoom c ring = true := by
  have hle := serial32_add_le (s.reg R.ENG_RFILL [c, ring]) (s.reg R.ENG_RUSE [c, ring]) (64 * k)
  rw [State.ringRoom, State.ringFill, h.size, h.fill, h.use, decide_eq_true_eq]
  unfold State.ringFill at hroom
  omega

/-- The ring's configuration and use are other registers than its fill. -/
theorem ring_addrs (c ring : Nat) : R.ENG_RING.addr [c, ring] ≠ R.ENG_RFILL.addr [c, ring]
    ∧ R.ENG_RUSE.addr [c, ring] ≠ R.ENG_RFILL.addr [c, ring] := by
  simp [RegDef.addr, R.ENG_RING, R.ENG_RFILL, R.ENG_RUSE, addrFrom]

/-- One line more. -/
theorem State.RingLines.succ (h : s.RingLines c ring k row t) (hwhole : s.WholeLines c ring)
    (hroom : s.ringFill c ring + 64 * (k + 1) ≤ s.ringSize c ring) {data : List (Byte × Bool)} (hlen : data.length = 64)
    (hpoison : anyPoison data = false) (hdata : ∀ j (hj : j < data.length), data[j].1 = row k j) :
    s.RingLines c ring (k + 1) row (t.ringLine c ring data) := by
  have hregs : (t.storeWrite c (s.ringAt c ring (64 * k)) data).regs = t.regs :=
    (State.storeWrite_overwrites h.rows.words hpoison).view ⟨rfl, fun _ => rfl⟩
  obtain ⟨hcfg, huse⟩ := ring_addrs c ring
  rw [State.ringLine]
  rw [h.next]
  refine ⟨(h.rows.succ (hwhole.apart (by omega)) hlen hpoison hdata).setReg _ _ _, ?_, ?_, ?_⟩
  · rw [State.reg_setReg_same, h.fill, BitVec.add_assoc, Nat.mul_succ, BitVec.ofNat_add]
    rfl
  · rw [State.reg_setReg_ne _ hcfg, State.reg_congr hregs, h.cfg]
  · rw [State.reg_setReg_ne _ huse, State.reg_congr hregs, h.use]

/-- Byte j of line i of a run of bytes, counted from line `done`. -/
def lineByte (b : Bytes) (done i j : Nat) : Byte := b.getD (64 * (done + i) + j) 0

theorem lineByte_spec {b : Bytes} {m : Nat} (hm : 64 * (m + 1) ≤ b.length) :
    (((clean b).drop (64 * m)).take 64).length = 64 ∧ anyPoison (((clean b).drop (64 * m)).take 64) = false
      ∧ ∀ j (hj : j < (((clean b).drop (64 * m)).take 64).length),
        (((clean b).drop (64 * m)).take 64)[j].1 = b.getD (64 * m + j) 0 := by
  have hline : ((clean b).drop (64 * m)).take 64 = clean ((b.drop (64 * m)).take 64) := by
    simp only [clean, List.map_drop, List.map_take]
  rw [hline]
  refine ⟨by simp [clean]; omega, anyPoison_clean _, fun j hj => ?_⟩
  have hj : j < 64 := by simp [clean] at hj; omega
  have hin : 64 * m + j < b.length := by omega
  simp [clean, hin]

variable {b : Bytes} {done : Nat}

/-- As many lines as there is room and data for. -/
theorem State.RingLines.appendLines {m : Nat} (h : s.RingLines c ring k (lineByte b done) t) (hwhole : s.WholeLines c ring)
    (hdata : 64 * (done + k + m) ≤ b.length) (hroom : s.ringFill c ring + 64 * (k + m) ≤ s.ringSize c ring) :
    ∃ u, t.appendLines c ring (clean b) (done + k) m = (done + k + m, u) ∧ s.RingLines c ring (k + m) (lineByte b done) u := by
  induction m generalizing t k with
  | zero => exact ⟨t, rfl, h⟩
  | succ m ih =>
    have hlen : (clean b).length = b.length := by simp [clean]
    obtain ⟨hline, hpoison, hbyte⟩ := lineByte_spec (b := b) (m := done + k) (by omega)
    have hnext := h.succ hwhole (by omega) hline hpoison hbyte
    obtain ⟨u, hu, hlines⟩ := ih hnext (by omega) (by omega)
    refine ⟨u, ?_, by rwa [show k + (m + 1) = k + 1 + m by omega]⟩
    have hgo : (decide ((clean b).length ≤ 64 * (done + k)) || !t.ringRoom c ring) = false := by
      rw [hlen, h.room (by omega)]
      simp
      omega
    rw [State.appendLines, hgo, if_neg Bool.false_ne_true]
    refine hu.trans ?_
    rw [show done + (k + 1) + m = done + k + (m + 1) by omega]

/-- With no room no line is appended. -/
theorem State.appendLines_of_full (h : t.ringRoom c ring = false) (data : List (Byte × Bool)) (done fuel : Nat) :
    t.appendLines c ring data done fuel = (done, t) := by
  cases fuel with
  | zero => rfl
  | succ fuel => simp [State.appendLines, h]

/-- The bytes that the ring has taken, and those that it has not touched. -/
theorem State.RingLines.bytes {m : Nat} (h : s.RingLines c ring m (lineByte b done) t) (hwhole : s.WholeLines c ring) :
    (∀ i, i < 64 * m → t.storeAt c (s.ringAt c ring i) = b.getD (64 * done + i) 0)
      ∧ ∀ a, (∀ i, i < 64 * m → a ≠ s.ringAt c ring i) → t.storeAt c a = s.storeAt c a := by
  refine ⟨fun i hi => ?_, fun a ha => h.rows.out a fun i hi => ?_⟩
  · have hj : i % 64 < 64 := Nat.mod_lt i (by omega)
    have hplace := hwhole.ringAt_add (i / 64) hj
    rw [Nat.div_add_mod] at hplace
    rw [hplace, h.rows.put (i / 64) (i % 64) (by omega) hj, lineByte]
    congr 1
    omega
  · by_contra hin
    have hj : a - s.ringAt c ring (64 * i) < 64 := by omega
    refine ha (64 * i + (a - s.ringAt c ring (64 * i))) (by omega) ?_
    rw [hwhole.ringAt_add i hj]
    omega

/-! ### The bytes of a RING_APPEND -/

/-- The rows of a command of core store, one after another. -/
def DCmd.ringData (d : DCmd) (σ : List (Nat × Byte)) : Bytes :=
  (iota 0 d.rows).flatMap fun i => Map.bytes unlisted σ (d.srcA + i * d.srcS) d.rowBytes

theorem DCmd.flatten_srcRows (d : DCmd) (σ : List (Nat × Byte)) : (d.srcRows σ).flatten = clean (d.ringData σ) := by
  simp only [DCmd.srcRows, DCmd.ringData, clean, ← List.flatMap_def, List.map_flatMap]

theorem DCmd.length_ringData (d : DCmd) (σ : List (Nat × Byte)) : (d.ringData σ).length = d.rows * d.rowBytes := by
  rw [DCmd.ringData, length_flatMap_of_length (fun _ => Map.length_bytes _ _ _ _), length_iota]

theorem DCmd.getD_ringData (d : DCmd) (σ : List (Nat × Byte)) {i : Nat} (hi : i < d.rows * d.rowBytes) :
    (d.ringData σ).getD i 0 = Map.getD unlisted σ (d.srcA + i / d.rowBytes * d.srcS + i % d.rowBytes) := by
  have hsize : 0 < d.rowBytes := Nat.pos_of_ne_zero fun h0 => by rw [h0, Nat.mul_zero] at hi; omega
  have hrow : i / d.rowBytes < d.rows := Nat.div_lt_of_lt_mul (by rwa [Nat.mul_comm])
  have hlen : i % d.rowBytes < (Map.bytes unlisted σ (d.srcA + i / d.rowBytes * d.srcS) d.rowBytes).length := by
    rw [Map.length_bytes]
    exact Nat.mod_lt i hsize
  have hget := getElem?_flatMap_of_length
    (f := fun i => Map.bytes unlisted σ (d.srcA + i * d.srcS) d.rowBytes) (fun _ => Map.length_bytes _ _ _ _)
    (Nat.mod_lt i hsize) (iota 0 d.rows) (i / d.rowBytes)
  rw [Nat.div_add_mod', getElem?_iota hrow, Nat.zero_add, Option.bind_some, List.getElem?_eq_getElem hlen,
    Map.getElem_bytes] at hget
  rw [DCmd.ringData, List.getD_eq_getElem?_getD, hget, Option.getD_some]

/-- A RING_APPEND run without codec: read the rows, append lines, and end or stay in progress. -/
theorem State.appendRun_of_clean (hclean : ∀ i, t.wordSt c i = {}) (hpre : ∀ p ∈ (t.core c).pre, p.entry ≠ q.entry)
    (hsrc : d.src = 0) (hcodec : d.codec = 0) (n k : Nat) :
    ∃ x, ∀ done u, (t.setPmc x).appendLines c d.ring (clean (d.ringData (t.core c).store)) q.done k = (done, u) →
      t.appendRun c n q d k = if d.rows * d.rowBytes ≤ 64 * done then u.dmaEnd c q 0 (d.rows * d.rowBytes)
        else u.dmaHold c q done (64 * done / d.dstBytes) false := by
  obtain ⟨x, hread⟩ := State.readSrc_of_clean (d := d) hclean hpre hsrc n
  refine ⟨x, fun done u hlines => ?_⟩
  have hconv : t.converted c n q d = ((d.srcRows (t.core c).store, []), t.setPmc x) := by
    rw [State.converted, hread]
    dsimp only
    split
    · rfl
    · simp [hcodec]
  have hlen : (clean (d.ringData (t.core c).store)).length = d.rows * d.rowBytes := by simp [clean, d.length_ringData]
  have hpoison : ∀ m, anyPoison ((clean (d.ringData (t.core c).store)).take m) = false := fun m => by
    rw [clean, ← List.map_take]
    exact anyPoison_clean _
  rw [State.appendRun, hconv]
  dsimp only
  rw [d.flatten_srcRows, hlines]
  simp [hcodec, hlen, hpoison, State.carryPoison]

/-! ### What a step leaves of a ring -/

/-- `t` has the registers of core c's ring, the bytes of its store, and all beside the core as `s` has them. -/
structure State.SameRing (s : State) (c ring : Nat) (t : State) : Prop where
  fill : t.reg R.ENG_RFILL [c, ring] = s.reg R.ENG_RFILL [c, ring]
  cfg : t.reg R.ENG_RING [c, ring] = s.reg R.ENG_RING [c, ring]
  use : t.reg R.ENG_RUSE [c, ring] = s.reg R.ENG_RUSE [c, ring]
  store : ∀ a, t.storeAt c a = s.storeAt c a
  beside : t.besideCore c = s.besideCore c

theorem State.SameRing.refl (s : State) (c ring : Nat) : s.SameRing c ring s := ⟨rfl, rfl, rfl, fun _ => rfl, rfl⟩

theorem State.SameRing.ringSize (h : s.SameRing c ring t) : t.ringSize c ring = s.ringSize c ring :=
  congrArg (fun w : Word => 2 ^ bits w.toNat 30 26) h.cfg

theorem State.SameRing.ringFill (h : s.SameRing c ring t) : t.ringFill c ring = s.ringFill c ring := by
  rw [State.ringFill, h.fill, h.use, State.ringFill]

theorem State.SameRing.ringRoom (h : s.SameRing c ring t) : t.ringRoom c ring = s.ringRoom c ring := by
  rw [State.ringRoom, h.ringFill, h.ringSize, State.ringRoom]

theorem State.SameRing.ringAt (h : s.SameRing c ring t) (i : Nat) : t.ringAt c ring i = s.ringAt c ring i := by
  have hbase : t.ringBase c ring = s.ringBase c ring := congrArg (fun w : Word => bits w.toNat 21 12 * 2 ^ 12) h.cfg
  rw [State.ringAt, hbase, h.fill, h.ringSize, State.ringAt]

theorem State.SameRing.wholeLines (h : s.SameRing c ring t) (hwhole : s.WholeLines c ring) : t.WholeLines c ring :=
  ⟨by rw [h.ringSize]; exact hwhole.size, by rw [h.fill]; exact hwhole.fill⟩

/-- A ring's registers lie apart from the trace's and the DMA engine's. -/
theorem ring_offDma (hring : ring < 8) :
    R.ENG_RFILL.OffDma [c, ring] c ∧ R.ENG_RING.OffDma [c, ring] c ∧ R.ENG_RUSE.OffDma [c, ring] c := by
  refine ⟨⟨fun n hn => ?_, ?_⟩, ⟨fun n hn => ?_, ?_⟩, ⟨fun n hn => ?_, ?_⟩⟩ <;>
    simp only [RegDef.addr, addrFrom, R.ENG_RFILL, R.ENG_RING, R.ENG_RUSE, R.TRC_LOST, R.DMA_STATUS] <;> omega

theorem State.sameRing_traceBegin (hring : ring < 8) (s : State) (q : QCmd) :
    s.SameRing c ring (s.traceBegin c q) := by
  obtain ⟨hfill, hcfg, huse⟩ := ring_offDma (c := c) hring
  exact ⟨State.reg_trace hfill s c _ _ _ _ _ _, State.reg_trace hcfg s c _ _ _ _ _ _, State.reg_trace huse s c _ _ _ _ _ _,
    State.storeAt_of_unheld (s.unheld_traceBegin c q), s.besideCore_traceBegin c q⟩

theorem State.sameRing_dmaDone (hring : ring < 8) (s : State) (q : QCmd) (how b : Nat) :
    s.SameRing c ring (s.dmaDone c q how b) := by
  obtain ⟨hfill, hcfg, huse⟩ := ring_offDma (c := c) hring
  obtain ⟨-, hbeside⟩ := s.dmaDone_spec c q how b
  exact ⟨State.reg_dmaDone hfill s q how b, State.reg_dmaDone hcfg s q how b, State.reg_dmaDone huse s q how b,
    s.storeAt_dmaDone c q how b, hbeside⟩

theorem State.sameRing_dmaHeld (hring : ring < 8) (s : State) (q : QCmd) (done rows : Nat) (dirty : Bool) :
    s.SameRing c ring (s.dmaHeld c q done rows dirty) := by
  obtain ⟨hfill, hcfg, huse⟩ := ring_offDma (c := c) hring
  obtain ⟨-, hstore, hbeside⟩ := s.dmaHeld_effect c q done rows dirty
  exact ⟨State.reg_dmaHeld hfill s q done rows dirty, State.reg_dmaHeld hcfg s q done rows dirty,
    State.reg_dmaHeld huse s q done rows dirty, hstore, hbeside⟩

/-- m lines appended between steps that leave the ring as it is: fill, bytes, and what is beside them. -/
theorem State.RingLines.effect {m : Nat} {u v : State} (h : t.RingLines c ring m (lineByte b done) u)
    (hwhole : s.WholeLines c ring) (hbefore : s.SameRing c ring t) (hafter : u.SameRing c ring v) :
    v.reg R.ENG_RFILL [c, ring] = s.reg R.ENG_RFILL [c, ring] + BitVec.ofNat 32 (64 * m)
      ∧ (∀ i, i < 64 * m → v.storeAt c (s.ringAt c ring i) = b.getD (64 * done + i) 0)
      ∧ (∀ a, (∀ i, i < 64 * m → a ≠ s.ringAt c ring i) → v.storeAt c a = s.storeAt c a)
      ∧ v.tallies = s.tallies ∧ s.sameMemory v := by
  obtain ⟨hput, hout⟩ := h.bytes (hbefore.wholeLines hwhole)
  obtain ⟨hmem, htallies, -⟩ := State.besideCore_frame ((hafter.beside.trans h.rows.beside).trans hbefore.beside)
  refine ⟨by rw [hafter.fill, h.fill, hbefore.fill], fun i hi => ?_, fun a ha => ?_, htallies, hmem⟩
  · rw [hafter.store, ← hbefore.ringAt, hput i hi]
  · rw [hafter.store, hout a fun i hi => by rw [hbefore.ringAt]; exact ha i hi, hbefore.store]

/-! ### The two instructions -/

/-- A RING_APPEND of core store without codec, on clean words, with nothing prefetched for its entry. -/
structure DCmd.StoreAppend (d : DCmd) (q : QCmd) (t : State) (c : Nat) : Prop where
  src : d.src = 0
  codec : d.codec = 0
  words : ∀ i, t.wordSt c i = {}
  pre : ∀ p ∈ (t.core c).pre, p.entry ≠ q.entry

theorem DCmd.StoreAppend.traceBegin (h : d.StoreAppend q s c) : d.StoreAppend q (s.traceBegin c q) c := by
  have hbegun := s.unheld_traceBegin c q
  obtain ⟨-, -, -, -, hpre⟩ := Core.unheld_units hbegun
  exact ⟨h.src, h.codec, fun i => (State.wordSt_of_unheld hbegun i).trans (h.words i), by rw [hpre]; exact h.pre⟩

/-- A run that has room for its m lines appends them. -/
theorem DCmd.StoreAppend.appendRun {m : Nat} (h : d.StoreAppend q t c) (hwhole : t.WholeLines c d.ring) (n : Nat)
    (hdata : 64 * (q.done + m) ≤ d.rows * d.rowBytes) (hroom : t.ringFill c d.ring + 64 * m ≤ t.ringSize c d.ring) :
    ∃ u, t.RingLines c d.ring m (lineByte (d.ringData (t.core c).store) q.done) u ∧
      (t.appendRun c n q d m).settleCore c = if d.rows * d.rowBytes ≤ 64 * (q.done + m) then u.dmaDone c q 0 (d.rows * d.rowBytes)
        else u.dmaHeld c q (q.done + m) (64 * (q.done + m) / d.dstBytes) false := by
  obtain ⟨x, hrun⟩ := State.appendRun_of_clean h.words h.pre h.src h.codec n m
  obtain ⟨u, hu, hlines⟩ := ((State.RingLines.zero h.words).setPmc x).appendLines (m := m) hwhole
    (b := d.ringData (t.core c).store) (done := q.done) (by rw [d.length_ringData]; exact hdata) (by rwa [Nat.zero_add])
  rw [Nat.zero_add] at hlines
  refine ⟨u, hlines, ?_⟩
  rw [hrun _ u hu, apply_ite (State.settleCore · c)]
  rfl

/-- A run with no room for a line leaves the command in progress with no line more. -/
theorem DCmd.StoreAppend.appendRun_of_full (h : d.StoreAppend q t c) (n k : Nat) (hfull : t.ringRoom c d.ring = false)
    (hrest : 64 * q.done < d.rows * d.rowBytes) :
    ∃ x, (t.appendRun c n q d k).settleCore c = (t.setPmc x).dmaHeld c q q.done (64 * q.done / d.dstBytes) false := by
  obtain ⟨x, hrun⟩ := State.appendRun_of_clean h.words h.pre h.src h.codec n k
  refine ⟨x, ?_⟩
  rw [hrun _ _ (State.appendLines_of_full (t := t.setPmc x) hfull _ _ _), if_neg (by omega), State.dmaHeld]

/-- RING_APPEND in order starts and appends what it can (R152). -/
theorem State.exec_dmaRingAppend (hready : s.dmaReady c slot = some (n, q, d)) (hop : d.op = 3) (hstarted : q.started = false)
    (hok : s.dmaBad c n d = false) :
    exec (.dmaRingAppend c slot) s = .next (((s.traceBegin c q).appendRun c n q d (d.rows * d.dstBytes / 64)).settleCore c) := by
  have hexec : exec (.dmaRingAppend c slot) s = execDmaRingAppend c slot s := rfl
  rw [hexec, execDmaRingAppend, hready]
  simp [hop, hstarted, hok]

/-- RING_APPEND_LINE of a command in progress with room appends its next line (R152). -/
theorem State.exec_ringAppendLine (hready : s.dmaReady c slot = some (n, q, d)) (hop : d.op = 3) (hstarted : q.started = true)
    (hroom : s.ringRoom c d.ring = true) :
    exec (.ringAppendLine c slot) s = .next ((s.appendRun c n q d 1).settleCore c) := by
  have hexec : exec (.ringAppendLine c slot) s = execRingAppendLine c slot s := rfl
  rw [hexec, execRingAppendLine, hready]
  simp [hop, hstarted, hroom]

/-- A RING_APPEND in order is of whole lines. -/
theorem State.lines_of_dmaOk (hok : s.dmaBad c n d = false) (hop : d.op = 3) (hcodec : d.codec = 0) :
    d.dstBytes = d.rowBytes ∧ d.rows * d.rowBytes % 64 = 0 := by
  have hplain : d.dstBytes = d.rowBytes := by simp [DCmd.dstBytes, hcodec]
  refine ⟨hplain, ?_⟩
  by_contra hne
  simp [State.dmaBad, hop, hplain, hne] at hok

end Sys2Proof.Machine

namespace Sys2Proof.Proofs
open Sys2Proof.Machine

/-- Settles O22: the rows are read before a line is written, the places of lines fewer than the ring holds lie apart
(`State.WholeLines.apart`), and room for the last line is room for those before it (`State.RingLines.room`). -/
theorem ringAppendFillsItsRing : Obligations.RingAppendFillsItsRing := by
  intro s c n slot q d _ hready hpre hop hok hcodec hsrc hring hclean total data fill at_ htotal hsize hfill _ rest
  obtain ⟨hplain, hmod⟩ := State.lines_of_dmaOk hok hop hcodec
  have hwhole : s.WholeLines c d.ring := ⟨State.dvd_ringSize hsize, Nat.dvd_of_mod_eq_zero hfill⟩
  have happend : d.StoreAppend q s c := ⟨hsrc, hcodec, hclean, hpre⟩
  have hbytes : ∀ i, i < total → (d.ringData (s.core c).store).getD i 0 = data i := fun i hi => d.getD_ringData _ hi
  have hbegin : s.SameRing c d.ring (s.traceBegin c q) := State.sameRing_traceBegin hring s q
  have hbegun := s.unheld_traceBegin c q
  obtain ⟨hstore, -, -, hqueueB, -⟩ := Core.unheld_units hbegun
  refine ⟨fun hstarted hdone hroom => ?_, fun hstarted hdone hfull => ?_, fun hstarted hrest hroom => ?_⟩
  · have hlines : 64 * (total / 64) = total := Nat.mul_div_cancel' (Nat.dvd_of_mod_eq_zero hmod)
    obtain ⟨u, hu, hrun⟩ := happend.traceBegin.appendRun (m := total / 64) (hbegin.wholeLines hwhole) n
      (by rw [hdone, Nat.zero_add]; exact Nat.le_of_eq hlines)
      (by rw [hbegin.ringFill, hbegin.ringSize, hlines]; exact hroom)
    rw [hdone, Nat.zero_add, hlines, if_pos (Nat.le_refl _)] at hrun
    obtain ⟨-, hqueue, -⟩ := Core.unwritten_parts hu.rows.core
    obtain ⟨hreg, hput, hout, htallies, hmem⟩ := hu.effect hwhole hbegin (State.sameRing_dmaDone hring u q 0 total)
    obtain ⟨hgone, -⟩ := State.dmaDone_frame (q := q) hqueue hu.rows.beside 0 total
    rw [hlines] at hreg hput hout
    refine ⟨_, (State.exec_dmaRingAppend hready hop hstarted hok).trans (by rw [hplain]; exact congrArg _ hrun),
      hgone.trans (by rw [hqueueB]), hreg, fun k hk => ?_, hout, htallies, hmem⟩
    refine (hput k hk).trans ?_
    rw [hdone, Nat.mul_zero, Nat.zero_add, hstore, hbytes k hk]
  · obtain ⟨x, hrun⟩ := happend.traceBegin.appendRun_of_full n (d.rows * d.dstBytes / 64) (by rw [hbegin.ringRoom, hfull])
      (by rw [hdone]; exact htotal)
    have hheld := State.sameRing_dmaHeld (c := c) hring ((s.traceBegin c q).setPmc x) q q.done (64 * q.done / d.dstBytes) false
    obtain ⟨hqueue, -, -⟩ := ((s.traceBegin c q).setPmc x).dmaHeld_effect c q q.done (64 * q.done / d.dstBytes) false
    obtain ⟨hmem, htallies, -⟩ := State.besideCore_frame (hheld.beside.trans hbegin.beside)
    refine ⟨_, (State.exec_dmaRingAppend hready hop hstarted hok).trans (congrArg _ hrun), hheld.fill.trans hbegin.fill,
      fun y hy htag => ?_, fun a => (hheld.store a).trans (hbegin.store a), htallies, hmem⟩
    rw [← hdone]
    exact hqueue y hy htag
  · obtain ⟨u, hu, hrun⟩ := happend.appendRun (m := 1) hwhole n (by omega) (by simpa [State.ringRoom] using hroom)
    obtain ⟨-, hqueue, -⟩ := Core.unwritten_parts hu.rows.core
    have hexec := (State.exec_ringAppendLine hready hop hstarted hroom).trans (congrArg _ hrun)
    have hafter : u.SameRing c d.ring (if total ≤ 64 * (q.done + 1) then u.dmaDone c q 0 total
        else u.dmaHeld c q (q.done + 1) (64 * (q.done + 1) / d.dstBytes) false) := by
      split
      · exact State.sameRing_dmaDone hring u q 0 total
      · exact State.sameRing_dmaHeld hring u q _ _ _
    obtain ⟨hreg, hput, hout, htallies, hmem⟩ := hu.effect hwhole (.refl s c d.ring) hafter
    refine ⟨_, hexec, hreg, fun k hk => ?_, hout, htallies, hmem, fun hlast => ?_, fun hmore y hy htag => ?_⟩
    · exact (hput k hk).trans (hbytes _ (by omega))
    · obtain ⟨hgone, -⟩ := State.dmaDone_frame (q := q) hqueue hu.rows.beside 0 total
      rw [if_pos hlast]
      exact hgone
    · obtain ⟨hheld, -, -⟩ := u.dmaHeld_effect c q (q.done + 1) (64 * (q.done + 1) / d.dstBytes) false
      rw [if_neg (Nat.not_le_of_lt hmore)] at hy
      exact hheld y hy htag

end Sys2Proof.Proofs
end

section
/-!
PROOFS. Both memories stay in canonical form under every command (07 R162, R168; 11 R262; 13 R313).

A byte of HBM is written by `State.storeGran` alone and a byte of host memory by `State.hostWrite` alone; both go through
`Memory.store`, which keeps the form (`Memory.wf_store`), and the loss of power empties HBM. `State.Canonical` says that
both memories have the form, and there is one rule for each function of the model that answers a state: from a canonical
state it answers a canonical one. A rule is proved from the rules of the functions that its function calls, so its proof
has the shape of the definition: `h.setFld.raiseBit` for two calls one after the other, `.ite` for a condition, a case
split for a match, `each` for a loop.
-/
namespace Sys2Proof.Machine

/-- HBM and host memory are in canonical form. -/
structure State.Canonical (s : State) : Prop where
  mem : Memory.wf s.mem = true
  host : Memory.wf s.hostMem = true

/-- A step that ends in a canonical state. -/
inductive EndsCanonical : Host.Outcome State Fault Refusal → Prop
  | next {t : State} (h : t.Canonical) : EndsCanonical (.next t)

theorem EndsCanonical.ite {c : Prop} {_ : Decidable c} {a b : Host.Outcome State Fault Refusal} (ha : EndsCanonical a)
    (hb : EndsCanonical b) : EndsCanonical (if c then a else b) := by
  split <;> assumption

namespace State.Canonical
variable {α β : Type} {s t : State}

/-! ### Conditions, pairs and frames -/

theorem ite {c : Prop} {_ : Decidable c} (hs : s.Canonical) (ht : t.Canonical) : (if c then s else t).Canonical := by
  split <;> assumption

theorem ite_snd {c : Prop} {_ : Decidable c} {a b : α × State} (hs : a.2.Canonical) (ht : b.2.Canonical) :
    (if c then a else b).2.Canonical := by
  split <;> assumption

theorem ite_snd_snd {c : Prop} {_ : Decidable c} {a b : α × β × State} (hs : a.2.2.Canonical) (ht : b.2.2.Canonical) :
    (if c then a else b).2.2.Canonical := by
  split <;> assumption

theorem pair {a : α} (h : s.Canonical) : (a, s).2.Canonical := h

theorem snd_of_eq {p : α × State} {a : α} (e : p = (a, t)) (h : p.2.Canonical) : t.Canonical := by
  subst e
  exact h

theorem of_memory (h : s.Canonical) (e : t.memory = s.memory) : t.Canonical := by
  simp only [State.memory, Prod.mk.injEq] at e
  obtain ⟨hmem, -, hhost, -⟩ := e
  exact ⟨hmem ▸ h.mem, hhost ▸ h.host⟩

/-! ### Setters -/

theorem setRegs (h : s.Canonical) {x} : (s.setRegs x).Canonical := ⟨h.mem, h.host⟩

theorem setRaw (h : s.Canonical) {x} : (s.setRaw x).Canonical := ⟨h.mem, h.host⟩

theorem setGran (h : s.Canonical) {x} : (s.setGran x).Canonical := ⟨h.mem, h.host⟩

theorem setWbq (h : s.Canonical) {x} : (s.setWbq x).Canonical := ⟨h.mem, h.host⟩

theorem setAtm (h : s.Canonical) {x} : (s.setAtm x).Canonical := ⟨h.mem, h.host⟩

theorem setAord (h : s.Canonical) {x} : (s.setAord x).Canonical := ⟨h.mem, h.host⟩

theorem setTim (h : s.Canonical) {x} : (s.setTim x).Canonical := ⟨h.mem, h.host⟩

theorem setStk (h : s.Canonical) {x} : (s.setStk x).Canonical := ⟨h.mem, h.host⟩

theorem setPow (h : s.Canonical) {x} : (s.setPow x).Canonical := ⟨h.mem, h.host⟩

theorem setPins (h : s.Canonical) {x} : (s.setPins x).Canonical := ⟨h.mem, h.host⟩

theorem setRecess (h : s.Canonical) {x} : (s.setRecess x).Canonical := ⟨h.mem, h.host⟩

theorem setQueues (h : s.Canonical) {x} : (s.setQueues x).Canonical := ⟨h.mem, h.host⟩

theorem setLastServed (h : s.Canonical) {x} : (s.setLastServed x).Canonical := ⟨h.mem, h.host⟩

theorem setTaken (h : s.Canonical) {x} : (s.setTaken x).Canonical := ⟨h.mem, h.host⟩

theorem setNextAccept (h : s.Canonical) {x} : (s.setNextAccept x).Canonical := ⟨h.mem, h.host⟩

theorem setHostTal (h : s.Canonical) {x} : (s.setHostTal x).Canonical := ⟨h.mem, h.host⟩

theorem setTabSets (h : s.Canonical) {x} : (s.setTabSets x).Canonical := ⟨h.mem, h.host⟩

theorem setTallies (h : s.Canonical) {x} : (s.setTallies x).Canonical := ⟨h.mem, h.host⟩

theorem setCtxs (h : s.Canonical) {x} : (s.setCtxs x).Canonical := ⟨h.mem, h.host⟩

theorem setCrews (h : s.Canonical) {x} : (s.setCrews x).Canonical := ⟨h.mem, h.host⟩

theorem setCores (h : s.Canonical) {x} : (s.setCores x).Canonical := ⟨h.mem, h.host⟩

theorem setLinks (h : s.Canonical) {x} : (s.setLinks x).Canonical := ⟨h.mem, h.host⟩

theorem setFlt (h : s.Canonical) {x} : (s.setFlt x).Canonical := ⟨h.mem, h.host⟩

theorem setCox (h : s.Canonical) {x} : (s.setCox x).Canonical := ⟨h.mem, h.host⟩

theorem setNv (h : s.Canonical) {x} : (s.setNv x).Canonical := ⟨h.mem, h.host⟩

theorem setRig (h : s.Canonical) {x} : (s.setRig x).Canonical := ⟨h.mem, h.host⟩

theorem setConv (h : s.Canonical) {x} : (s.setConv x).Canonical := ⟨h.mem, h.host⟩

theorem setPmc (h : s.Canonical) {x} : (s.setPmc x).Canonical := ⟨h.mem, h.host⟩

theorem setOut (h : s.Canonical) {x} : (s.setOut x).Canonical := ⟨h.mem, h.host⟩

theorem setHostData (h : s.Canonical) {x} : (s.setHostData x).Canonical := ⟨h.mem, h.host⟩

theorem setHostEP (h : s.Canonical) {x} : (s.setHostEP x).Canonical := ⟨h.mem, h.host⟩

theorem setFree (h : s.Canonical) {x} : (s.setFree x).Canonical := ⟨h.mem, h.host⟩

theorem setImages (h : s.Canonical) {x} : (s.setImages x).Canonical := ⟨h.mem, h.host⟩

/-! ### Shared operations -/

theorem setReg (h : s.Canonical) {r ix v} : (s.setReg r ix v).Canonical := h.setRegs

theorem setFld (h : s.Canonical) {f ix v} : (s.setFld f ix v).Canonical := h.setReg

theorem bump (h : s.Canonical) {f ix d} : (s.bump f ix d).Canonical := h.setFld

theorem wrap (h : s.Canonical) {f ix d} : (s.wrap f ix d).Canonical := h.setFld

theorem lower (h : s.Canonical) {f ix d} : (s.lower f ix d).Canonical := h.setFld

theorem noteNf6 (h : s.Canonical) {f ix} : (s.noteNf6 f ix).Canonical := .ite h.setConv h

theorem raiseBit (h : s.Canonical) {f ix} : (s.raiseBit f ix).Canonical := h.setFld.noteNf6

theorem dropBit (h : s.Canonical) {f ix} : (s.dropBit f ix).Canonical := h.setFld

theorem liveBit (h : s.Canonical) {f ix on} : (s.liveBit f ix on).Canonical := .ite (.ite h h.raiseBit) h.dropBit

theorem setPair (h : s.Canonical) {lo hi ix v} : (s.setPair lo hi ix v).Canonical := h.setReg.setReg

theorem modCore (h : s.Canonical) {c f} : (s.modCore c f).Canonical := h.setCores

theorem modEng (h : s.Canonical) {c e f} : (s.modEng c e f).Canonical := h.modCore

theorem modSeq (h : s.Canonical) {c f} : (s.modSeq c f).Canonical := h.modCore

theorem modCrew (h : s.Canonical) {n f} : (s.modCrew n f).Canonical := h.setCrews

theorem modLink (h : s.Canonical) {l f} : (s.modLink l f).Canonical := h.setLinks

theorem modQueue (h : s.Canonical) {q f} : (s.modQueue q f).Canonical := h.setQueues

theorem modTally (h : s.Canonical) {t f} : (s.modTally t f).Canonical := h.setTallies

theorem each {l : List α} {f} (h : s.Canonical) (hf : ∀ t x, t.Canonical → (f t x).Canonical) :
    (s.each l f).Canonical :=
  List.foldlRecOn l f h fun _ ht x _ => hf _ x ht

theorem eachWith {b : β} {l : List α} {f} (h : s.Canonical)
    (hf : ∀ b t x, t.Canonical → (f b t x).2.Canonical) : (s.eachWith b l f).2.Canonical :=
  List.foldlRecOn (motive := fun p : β × State => p.2.Canonical) l _ h fun p hp x _ => hf p.1 p.2 x hp

theorem fresh (h : s.Canonical) : s.fresh.2.Canonical := h.setFree

theorem advance (h : s.Canonical) {t} : (s.advance t).Canonical := h.setRaw

theorem setRate (h : s.Canonical) {rate} : (s.setRate rate).Canonical := h.setReg.setTim

theorem modLaunch (h : s.Canonical) {n accept f} : (s.modLaunch n accept f).Canonical := h.modCrew

theorem launchStatus (h : s.Canonical) {n accept status} : (s.launchStatus n accept status).Canonical := h.modLaunch

theorem count (h : s.Canonical) {lo ix n} : (s.count lo ix n).Canonical := h.setPmc

theorem pmcTick (h : s.Canonical) {cnt sel ovf ix n code sub} : (s.pmcTick cnt sel ovf ix n code sub).Canonical :=
  h.each fun _ _ h => .ite (have h := h.setPmc; .ite h.setReg h) h

theorem pmcCore (h : s.Canonical) {c code sub} : (s.pmcCore c code sub).Canonical := h.pmcTick

theorem pmcDie (h : s.Canonical) {die code sub} : (s.pmcDie die code sub).Canonical := h.pmcTick

theorem nocIn (h : s.Canonical) {c die n} : (s.nocIn c die n).Canonical := h.count.count

theorem nocOut (h : s.Canonical) {c die n} : (s.nocOut c die n).Canonical := h.count.count

theorem fromHost (h : s.Canonical) {n} : (s.fromHost n).Canonical := h.count

theorem stageTrace (h : s.Canonical) {c n r} : (s.stageTrace c n r).Canonical := .ite h.modCore.setReg h.modCore

theorem trace (h : s.Canonical) {c kind how word entry accept detail} :
    (s.trace c kind how word entry accept detail).Canonical := by
  unfold State.trace
  split
  exacts [h, .ite h.stageTrace h]

theorem traceBegin (h : s.Canonical) {c q} : (s.traceBegin c q).Canonical := h.trace

theorem traceEnd (h : s.Canonical) {c how detail q} : (s.traceEnd c how detail q).Canonical := h.trace

theorem send (h : s.Canonical) {m} : (s.send m).Canonical := h.setOut

theorem trigger (h : s.Canonical) {t} : (s.trigger t).Canonical := h.setCox

theorem stopCrew (h : s.Canonical) {n st} : (s.stopCrew n st).Canonical := by
  unfold State.stopCrew
  exact h.modCrew

theorem raiseFault (h : s.Canonical) {f} : (s.raiseFault f).Canonical :=
  h.of_memory (s.raiseFault_keeps State.memory (fun _ _ => rfl) (fun _ _ => rfl) (fun _ _ => rfl) f)

theorem crab (h : s.Canonical) {n event detail} : (s.crab n event detail).Canonical :=
  have h := h.bump.raiseBit; .ite h.raiseFault h

theorem crewFault (h : s.Canonical) {n cls event detail} : (s.crewFault n cls event detail).Canonical := h.raiseFault

theorem poisonFault (h : s.Canonical) {n f} : (s.poisonFault n f).Canonical := by
  unfold State.poisonFault
  split
  exacts [h.modLaunch.raiseFault.stopCrew, h.raiseFault]

theorem formatError (h : s.Canonical) {c accept} : (s.formatError c accept).Canonical := by
  unfold State.formatError
  dsimp only
  exact have h := h.modCore; by split; exacts [h.launchStatus.modLaunch, h]

theorem hardFault (h : s.Canonical) {c cls} : (s.hardFault c cls).Canonical := by
  unfold State.hardFault
  dsimp only
  exact .ite h (have h := h.setFlt; by split; exacts [h.stopCrew, h])

theorem stray (h : s.Canonical) : s.stray.Canonical := h.raiseBit

theorem giveHost (h : s.Canonical) {b ep} : (s.giveHost b ep).Canonical := h.count.setHostData.setHostEP

theorem giveWord (h : s.Canonical) {w} : (s.giveWord w).Canonical := h.giveHost

/-! ### Core stores -/

theorem putWord (h : s.Canonical) {c i data poison} : (s.putWord c i data poison).Canonical := h.modCore

theorem ceRecord (h : s.Canonical) {count event f} : (s.ceRecord count event f).Canonical := .ite h.raiseFault h

theorem countStoreUe (h : s.Canonical) {c} : (s.countStoreUe c).Canonical := have h := h.modCore; .ite h.hardFault h

theorem reportWord (h : s.Canonical) {c i r} : (s.reportWord c i r).Canonical :=
  .ite (.ite h h.bump.raiseBit.setReg.modCore.ceRecord) (.ite h.bump.raiseBit.setReg.putWord.countStoreUe.raiseFault h)

theorem readWord (h : s.Canonical) {c i} : (s.readWord c i).2.Canonical := h.reportWord

theorem readWords {s : State} (h : s.Canonical) {c i : Nat} : ∀ {n : Nat}, (s.readWords c i n).2.Canonical
  | 0 => h
  | _ + 1 => h.readWord.readWords

theorem storeRead (h : s.Canonical) {c a n} : (s.storeRead c a n).2.Canonical := .ite_snd h h.count.readWords

theorem writeWord (h : s.Canonical) {c i pos data} : (s.writeWord c i pos data).Canonical :=
  .ite h.putWord h.count.readWord.putWord

theorem storeWriteFrom {s : State} (h : s.Canonical) {c a : Nat} {data : List (Byte × Bool)} :
    ∀ {fuel : Nat}, (s.storeWriteFrom c a data fuel).Canonical
  | 0 => h
  | _ + 1 => match data with
    | [] => h
    | _ :: _ => h.writeWord.storeWriteFrom

theorem storeWrite (h : s.Canonical) {c a data} : (s.storeWrite c a data).Canonical := h.count.storeWriteFrom

theorem execCeWriteback (h : s.Canonical) {core addr} : EndsCanonical (execCeWriteback core addr s) :=
  .ite (.ite (.next h.count.putWord) (.next h.modCore)) (.next h)

theorem flipWords (h : s.Canonical) {c flips} : (s.flipWords c flips).Canonical := h.each fun _ _ h => h.modCore

theorem patrolNote (h : s.Canonical) {core bank} : (s.patrolNote core bank).Canonical :=
  have h := h.modCore; .ite h (.ite h.setFld.bump h.setFld)

theorem execPatrolRead (h : s.Canonical) {core bank flips} : EndsCanonical (execPatrolRead core bank flips s) :=
  .ite (.next h) (.next (.patrolNote (h.count.flipWords.each fun _ _ h => have h := h.readWord; .ite h.putWord h)))

/-! ### HBM and host memory -/

theorem showFuses (h : s.Canonical) : s.showFuses.Canonical := h.setFld.each fun _ _ h => h.setFld

theorem staleWb (h : s.Canonical) {pa} : (s.staleWb pa).Canonical := h.setWbq

theorem burst (h : s.Canonical) {pa write} : (s.burst pa write).Canonical := h.count.count.pmcDie

/-- The one function that writes bytes of HBM. -/
theorem storeGran (h : s.Canonical) {pa data poison} : (s.storeGran pa data poison).Canonical :=
  ⟨Memory.wf_store h.mem _ _, h.host⟩

theorem putGran (h : s.Canonical) {pa data poison} : (s.putGran pa data poison).Canonical := h.burst.storeGran

theorem queueWb (h : s.Canonical) {pa poisoning} : (s.queueWb pa poisoning).Canonical :=
  .ite h (.setWbq (.ite h h.raiseBit))

theorem hbmErrAddr (h : s.Canonical) {pa kind} : (s.hbmErrAddr pa kind).Canonical := h.setPair

theorem reportGran (h : s.Canonical) {pa name r} : (s.reportGran pa name r).Canonical :=
  .ite h.bump.raiseBit.hbmErrAddr.queueWb.ceRecord
    (.ite (have h := h.bump.raiseBit.hbmErrAddr.queueWb; .ite h h.setFlt.raiseFault) (.ite h.raiseBit h))

theorem readGran (h : s.Canonical) {pa name} : (s.readGran pa name).2.Canonical := h.burst.reportGran

theorem writeGran (h : s.Canonical) {pa name pos data poisoned} :
    (s.writeGran pa name pos data poisoned).Canonical :=
  .ite h.staleWb.putGran (have h := h.burst; .putGran (.staleWb (.ite h h.reportGran)))

theorem hostFetch (h : s.Canonical) {a n} : (s.hostFetch a n).2.Canonical := h.count

/-- The one function that writes bytes of host memory. -/
theorem hostWrite (h : s.Canonical) {a data} : (s.hostWrite a data).Canonical :=
  ⟨h.mem, Memory.wf_store h.host _ _⟩

theorem releaseCopies (h : s.Canonical) {n} : (s.releaseCopies n).Canonical := h.modCrew.setFld

theorem endCkpt (h : s.Canonical) {n status} : (s.endCkpt n status).Canonical :=
  h.modCrew.setFld.setFld.setFld.releaseCopies

theorem chkTrigger (h : s.Canonical) {n} : (s.chkTrigger n).Canonical := h.trigger

theorem unprotect (h : s.Canonical) {n} : (s.unprotect n).Canonical :=
  h.modCrew.raiseBit.raiseBit.setFld.releaseCopies.chkTrigger

theorem takeFrame (h : s.Canonical) {n page f} : (s.takeFrame n page f).Canonical := h.modCrew.setFld

theorem firstWrite (h : s.Canonical) {a} : (s.firstWrite a).Canonical := by
  unfold State.firstWrite
  dsimp only
  split
  · exact h
  · exact .ite
        (by split; exacts [h.takeFrame.pmcDie,
           have h := ite h.endCkpt h;
           by split; exacts [.ite (by split; exacts [h.takeFrame.pmcDie, h.unprotect]) h, h]])
        h

theorem markFilled (h : s.Canonical) {n page line} : (s.markFilled n page line).Canonical := by
  unfold State.markFilled
  split
  exacts [by split; exacts [.ite h.modCrew.releaseCopies h.modCrew, h], h]

theorem copyLine (h : s.Canonical) {src dst name} : (s.copyLine src dst name).Canonical :=
  h.pmcDie.each fun _ _ h => h.readGran.staleWb.putGran

theorem readyLine (h : s.Canonical) {a whole} : (s.readyLine a whole).Canonical := by
  unfold State.readyLine
  split
  exacts [h, by split; exacts [h, .ite h (.markFilled (.ite h h.copyLine))]]

theorem hbmReadFrom {s : State} (h : s.Canonical) {a n : Nat} : ∀ {fuel : Nat}, (s.hbmReadFrom a n fuel).2.Canonical
  | 0 => h
  | _ + 1 => .ite_snd h h.readGran.hbmReadFrom

theorem hbmBytes (h : s.Canonical) {a n} : (s.hbmBytes a n).2.Canonical := h.hbmReadFrom

theorem hbmWriteGran (h : s.Canonical) {a data} : (s.hbmWriteGran a data).Canonical := h.writeGran

theorem hbmWriteIn {s : State} (h : s.Canonical) {a : Nat} {data : List (Byte × Bool)} :
    ∀ {fuel : Nat}, (s.hbmWriteIn a data fuel).Canonical
  | 0 => h
  | _ + 1 => match data with
    | [] => h
    | _ :: _ => h.hbmWriteGran.hbmWriteIn

theorem hbmWriteFrom {s : State} (h : s.Canonical) {a : Nat} {data : List (Byte × Bool)} :
    ∀ {fuel : Nat}, (s.hbmWriteFrom a data fuel).Canonical
  | 0 => h
  | _ + 1 => match data with
    | [] => h
    | _ :: _ => h.firstWrite.readyLine.hbmWriteIn.hbmWriteFrom

theorem hbmPut (h : s.Canonical) {a data} : (s.hbmPut a data).Canonical := h.hbmWriteFrom

/-! ### Charged recovery traffic -/

theorem charge (h : s.Canonical) {k c} : (s.charge k c).Canonical := h.setRecess

/-! ### Memory commands and atomics -/

theorem atomHold (h : s.Canonical) {pa} : (s.atomHold pa).Canonical := h.setAtm

theorem atomGran (h : s.Canonical) {op a data} : (s.atomGran op a data).2.Canonical :=
  have h := h.count.pmcDie.firstWrite.readyLine;
  have h := ite_snd h h.readGran; .atomHold (.storeGran (.staleWb (.ite h h.burst)))

theorem atomRow {s : State} (h : s.Canonical) {op a : Nat} {data : List (Byte × Bool)} :
    ∀ {fuel : Nat}, (s.atomRow op a data fuel).2.Canonical
  | 0 => h
  | _ + 1 => match data with
    | [] => h
    | _ :: _ => h.atomGran.atomRow

theorem stateWritePoison (h : s.Canonical) {n core unit a d} : (s.stateWritePoison n core unit a d).Canonical :=
  .ite h h.poisonFault

theorem endPost (h : s.Canonical) {c isWin id} : (s.endPost c isWin id).Canonical := h.modCore

theorem applyReq (h : s.Canonical) {r} : (s.applyReq r).Canonical := by
  unfold State.applyReq
  dsimp only
  split
  exacts [have h := h.atomRow; have h := ite h.send h; by split; exacts [h.stateWritePoison, .ite h h.poisonFault], h]

theorem requestRow (h : s.Canonical) {core n w addr poisoned data} :
    (s.requestRow core n w addr poisoned data).Canonical :=
  .ite (by split; exacts [h.formatError, h]) (.ite (.ite h.setAord h) h.applyReq)

theorem execAtomicRequest (h : s.Canonical) {core addr poisoned data} :
    EndsCanonical (execAtomicRequest core addr poisoned data s) := by
  unfold Machine.execAtomicRequest
  split
  exacts [.next (.ite h.requestRow h), .next h]

theorem execOrderedAtomicApply (h : s.Canonical) {win} : EndsCanonical (execOrderedAtomicApply win s) := by
  unfold Machine.execOrderedAtomicApply
  dsimp only
  split
  exacts [.next h.setAord.applyReq, .next h]

theorem strikeGran (h : s.Canonical) {pa errs} : (s.strikeGran pa errs).Canonical := h.setGran

theorem pcFault (h : s.Canonical) {a} : (s.pcFault a).Canonical := h.raiseFault

theorem execHbmRead (h : s.Canonical) {addr retries onDie errs} :
    EndsCanonical (execHbmRead addr retries onDie errs s) :=
  .ite (.next h) (.ite (.next h.pcFault) (have h := h.strikeGran; .next (.readGran (.ite h.bump (.ite h.bump h)))))

theorem execHbmWrite (h : s.Canonical) {addr retries poisoned data} :
    EndsCanonical (execHbmWrite addr retries poisoned data s) :=
  .ite (.next h) (.ite (.next h.pcFault) (have h := h.hbmPut; .next (by split; exacts [h.stateWritePoison, h])))

theorem hbmStore (h : s.Canonical) {a data} : (s.hbmStore a data).Canonical :=
  .ite (h.each fun _ _ h => h.hbmPut) h.hbmPut

theorem hbmLoad (h : s.Canonical) {w a len} : (s.hbmLoad w a len).2.Canonical :=
  .ite_snd h.hbmBytes (.ite_snd h h.hbmBytes)

theorem execGrainRead (h : s.Canonical) {core addr} : EndsCanonical (execGrainRead core addr s) :=
  .ite (.next h.count.nocIn.readGran) (.next h)

theorem execGrainWrite (h : s.Canonical) {core addr poisoned data} :
    EndsCanonical (execGrainWrite core addr poisoned data s) := by
  unfold Machine.execGrainWrite
  dsimp only
  exact .ite
      (have h := h.count.nocOut;
       by split; exacts [.next h.requestRow,
         .ite (.next h.hbmStore.stateWritePoison) (.next (by split; exacts [h.formatError, h])), .next h])
      (.next h)

theorem execHbmWriteback (h : s.Canonical) {stack} : EndsCanonical (execHbmWriteback stack s) := by
  unfold Machine.execHbmWriteback
  split
  exacts [.next h, .ite (.next h) (have h := h.charge.setWbq; .ite (.next h.raiseBit) (.next h.putGran))]

theorem scrubLine (h : s.Canonical) {stack errs} : (s.scrubLine stack errs).Canonical :=
  .setFld (h.pmcDie.each fun _ _ h => h.strikeGran.readGran)

theorem floorLine (h : s.Canonical) {stack errs} : (s.floorLine stack errs).Canonical := h.setRecess.scrubLine

theorem execScrubLine (h : s.Canonical) {stack errs} : EndsCanonical (execScrubLine stack errs s) :=
  .ite (.next h.floorLine) (.ite (.next h.charge.scrubLine) (.next h))

theorem floorLines (h : s.Canonical) : s.floorLines.Canonical := h.each fun _ _ h => h.floorLine

theorem execHbmRefresh (h : s.Canonical) {pc} : EndsCanonical (execHbmRefresh pc s) := .next h

theorem execHbmTempChange (h : s.Canonical) {stack temp} : EndsCanonical (execHbmTempChange stack temp s) :=
  have h := h.setFld; .next (.ite h.liveBit (.ite h.liveBit h))

theorem voidAccess (h : s.Canonical) : s.voidAccess.Canonical := h.bump.raiseBit

theorem execBar4Read (h : s.Canonical) {off len} : EndsCanonical (execBar4Read off len s) :=
  .ite (.next h.stray.giveHost) (.ite (.next h.voidAccess.giveHost) (.ite (.next h) (.next h.hbmLoad.giveHost)))

theorem execBar4Write (h : s.Canonical) {off data} : EndsCanonical (execBar4Write off data s) :=
  have h := h.fromHost; .ite (.next h.stray) (.ite (.next h.voidAccess) (.ite (.next h) (.next h.hbmStore)))

/-! ### Tallies -/

theorem settleCore (h : s.Canonical) {c} : (s.settleCore c).Canonical :=
  .ite h (h.modCore.each fun _ _ h => h.traceEnd)

theorem settleAll (h : s.Canonical) : s.settleAll.Canonical := h.each fun _ _ h => h.settleCore

theorem putTally (h : s.Canonical) {t v} : (s.putTally t v).Canonical := h.modTally.settleAll

theorem localAdd (h : s.Canonical) {c n q} : (s.localAdd c n q).Canonical :=
  have h := h.endPost; .ite h.modCore.putTally h.launchStatus

theorem localSet (h : s.Canonical) {c n q} : (s.localSet c n q).Canonical :=
  have h := ite h h.launchStatus; have h := ite h h.launchStatus; .ite h (.ite h.setTabSets h.putTally)

theorem localRead (h : s.Canonical) {c n q} : (s.localRead c n q).Canonical := .ite h.storeWrite h.launchStatus

theorem nextTally (h : s.Canonical) {c q} : (s.nextTally c q).Canonical := h.modCore.traceEnd.settleCore

theorem execTallySetCmd (h : s.Canonical) {core} : EndsCanonical (execTallySetCmd core s) := by
  unfold Machine.execTallySetCmd
  split
  exacts [.ite (.next h.localSet.nextTally) (.next h), .next h]

theorem execTallyReadCmd (h : s.Canonical) {core} : EndsCanonical (execTallyReadCmd core s) := by
  unfold Machine.execTallyReadCmd
  split
  exacts [.ite (.next h.localRead.nextTally) (.next h), .next h]

/-! ### Status flags -/

theorem showDma (h : s.Canonical) {c} : (s.showDma c).Canonical := h.setFld.setFld.setFld.liveBit.liveBit.setFld

theorem showSeq (h : s.Canonical) {c} : (s.showSeq c).Canonical := h.setFld.setFld.setFld.liveBit

/-! ### The clock servo -/

theorem servoState (h : s.Canonical) {st} : (s.servoState st).Canonical :=
  have h := h.setFld.liveBit.liveBit; .ite h.raiseBit.trigger h

theorem steer (h : s.Canonical) {rate} : (s.steer rate).Canonical := h.setRate.liveBit

theorem stepForward (h : s.Canonical) {by_} : (s.stepForward by_).Canonical := h.setTim.raiseBit

theorem setSource (h : s.Canonical) {v} : (s.setSource v).Canonical :=
  have h := h.setReg; .ite h.setRate.liveBit.liveBit.setFld.servoState (.ite h h.setTim.liveBit.setFld.servoState)

theorem servoUpdate (h : s.Canonical) {theta interval} : (s.servoUpdate theta interval).Canonical :=
  .ite h.stepForward h.setTim.steer

theorem servoJudge (h : s.Canonical) {theta} : (s.servoJudge theta).Canonical := by
  unfold State.servoJudge
  dsimp only
  split
  exacts [.ite (.ite h.setTim.servoState h.setTim) h.setTim, .ite h.setTim.servoState h, h.servoState, h.servoState, h]

theorem useSource (h : s.Canonical) {secondary} : (s.useSource secondary).Canonical := h.setTim.liveBit

theorem accept (h : s.Canonical) {secondary theta interval hops} :
    (s.accept secondary theta interval hops).Canonical :=
  have h := h.wrap.setReg.setTim;
  have h := ite h.useSource h; .ite (.servoJudge (.servoUpdate (by split; exacts [h.setFld, h]))) h

theorem ballTime (h : s.Canonical) : s.ballTime.2.Canonical := h.fresh

theorem execTimeReqSend (h : s.Canonical) {secondary t} : EndsCanonical (execTimeReqSend secondary t s) :=
  have h := h.advance; .ite (.next h) (.next h.ballTime.setTim.count.send)

theorem answerTime (h : s.Canonical) {link body} : (s.answerTime link body).Canonical :=
  .ite h.ballTime.fresh.count.send h

theorem execTimeReq (h : s.Canonical) {link t body} : EndsCanonical (execTimeReq link t body s) :=
  .next h.advance.answerTime

theorem clearDMin (h : s.Canonical) {l} : (s.clearDMin l).Canonical := h.setTim

theorem takeTime (h : s.Canonical) {link body} : (s.takeTime link body).Canonical := by
  unfold State.takeTime
  dsimp only
  split
  · exact
      have h := h.setTim.ballTime;
      .ite h (have h := setTim (.ite h.clearDMin h); have h' := h.setTim; .ite h' (.ite h h'.setReg.accept))
  · exact h

theorem execTimeResp (h : s.Canonical) {link t body} : EndsCanonical (execTimeResp link t body s) :=
  .next h.advance.takeTime

theorem timeFlit (h : s.Canonical) {link flit} : (s.timeFlit link flit).Canonical :=
  .ite h.answerTime (.ite h.takeTime h)

theorem execExchangeAbandon (h : s.Canonical) {link t} : EndsCanonical (execExchangeAbandon link t s) :=
  .next h.advance.setTim

theorem execSourceSilence (h : s.Canonical) {t} : EndsCanonical (execSourceSilence t s) :=
  have h := h.advance; .ite (.next h) (.ite (.next h.useSource) (.ite (.next h.servoState.steer) (.next h)))

theorem execHoldoverExpiry (h : s.Canonical) {t} : EndsCanonical (execHoldoverExpiry t s) :=
  have h := h.advance; .ite (.next h.servoState) (.next h)

theorem execReAnchor (h : s.Canonical) {t} : EndsCanonical (execReAnchor t s) := .next h.advance.setRate

theorem enterTs (h : s.Canonical) {x e} : (s.enterTs x e).Canonical := .ite h.raiseBit h.setTim

theorem enterCapture (h : s.Canonical) {ch time unlocked} : (s.enterCapture ch time unlocked).Canonical :=
  .enterTs (.ite h h.setTim)

theorem noteCapture (h : s.Canonical) {src link cls die} : (s.noteCapture src link cls die).Canonical :=
  h.each fun _ _ h => h.setTim

/-! ### Links -/

theorem transmit (h : s.Canonical) {l f} : (s.transmit l f).Canonical := by
  unfold State.transmit
  exact have h := h.count.pmcDie; by split; exacts [h.send, h.send, h.send]

theorem launch (h : s.Canonical) {l f} : (s.launch l f).Canonical := h.modLink.lower.transmit

theorem execFlitLaunch (h : s.Canonical) {link vc} : EndsCanonical (execFlitLaunch link vc s) :=
  .ite (.ite (.next h.pmcDie) (.next h))
    (by split; exacts [.next h, by split; exacts [.next h.modLink.launch, .next h],
       by split; exacts [.next h.modLink.launch, .next h], by split; exacts [.next h.modLink.launch, .next h]])

theorem gateRun {s : State} (h : s.Canonical) {l n : Nat} : ∀ {k : Nat}, (s.gateRun l n k).Canonical
  | 0 => h
  | _ + 1 => by
    unfold State.gateRun
    split
    exacts [h.modLink.launch.gateRun, h.pmcDie.gateRun]

theorem execGateSlot (h : s.Canonical) {link slot} : EndsCanonical (execGateSlot link slot s) :=
  .ite (.next h) (.next h.gateRun)

theorem enqueue (h : s.Canonical) {l f} : (s.enqueue l f).Canonical := h.modLink

theorem sendMsg (h : s.Canonical) {n c unit q cls dst parts} : (s.sendMsg n c unit q cls dst parts).2.Canonical := by
  unfold State.sendMsg
  split
  exacts [h, h.modCore.each fun _ _ h => h.enqueue]

theorem settleSends (h : s.Canonical) {c} : (s.settleSends c).Canonical :=
  .ite h (.settleCore (.showDma (.each (h.modCore.each fun _ _ h => h.traceEnd) fun _ _ h => h.traceEnd)))

theorem acknowledge (h : s.Canonical) {l acked} : (s.acknowledge l acked).Canonical :=
  h.modLink.each fun _ _ h => h.settleSends

theorem execTimedAcknowledgement (h : s.Canonical) {link t} : EndsCanonical (execTimedAcknowledgement link t s) :=
  .next h.advance.acknowledge

theorem landPair (h : s.Canonical) {n link msg} : (s.landPair n link msg).Canonical := by
  unfold State.landPair
  split
  exacts [h.acknowledge, h]

theorem execLandAck (h : s.Canonical) {link pairs} : EndsCanonical (execLandAck link pairs s) := by
  unfold Machine.execLandAck
  split
  exacts [.next (h.modLink.each fun _ _ h => h.landPair), .next h]

theorem execAckTimeout (h : s.Canonical) {link t} : EndsCanonical (execAckTimeout link t s) :=
  .next (h.advance.each fun _ _ h => .ite h h.crewFault)

theorem sendLink (h : s.Canonical) {l} : (s.sendLink l).Canonical := h.modLink.count.send

theorem execLinkFlitSend (h : s.Canonical) {link t} : EndsCanonical (execLinkFlitSend link t s) :=
  have h := h.advance; .ite (.next h.sendLink) (.next h)

theorem credit (h : s.Canonical) {l c} : (s.credit l c).Canonical := h.each fun _ _ h => h.setFld

theorem execLinkFlit (h : s.Canonical) {link lastSeq freed} : EndsCanonical (execLinkFlit link lastSeq freed s) :=
  .ite (.next h) (have h := h.count.modLink; .ite (.next h) (.next h.modLink.credit))

theorem resend (h : s.Canonical) {l i} : (s.resend l i).Canonical :=
  .ite h (h.bump.pmcDie.modLink.each fun _ _ h => h.transmit)

theorem sendSync (h : s.Canonical) {l} : (s.sendSync l).Canonical := h.modLink.count.send

theorem execCreditSync (h : s.Canonical) {link lastSeq free} :
    EndsCanonical (execCreditSync link lastSeq free s) :=
  .ite (.next h) (have h := modLink (h.count.each fun _ _ h => h.setFld); .next (.ite h.resend h))

theorem degradeRecord (h : s.Canonical) {l lane} : (s.degradeRecord l lane).Canonical := h.trigger.raiseFault

theorem linkDown (h : s.Canonical) {l} : (s.linkDown l).Canonical :=
  .ite h (have h := h.setFld.raiseBit.dropBit.modLink.trigger; .ite h (h.each fun _ _ h => h.raiseFault))

theorem laneLost (h : s.Canonical) {l lane} : (s.laneLost l lane).Canonical :=
  have h := h.modLink;
  .ite h.linkDown (.ite (.ite h.linkDown h) (.ite h.setFld.liveBit.setFld.modLink.send.degradeRecord h))

theorem ucwWindow (h : s.Canonical) {l} : (s.ucwWindow l).Canonical := .ite h.setFld.setFld.modLink h

theorem execLaneUnusable (h : s.Canonical) {link lane cause} :
    EndsCanonical (execLaneUnusable link lane cause s) :=
  have h := h.ucwWindow; .ite (.next h.laneLost) (.next h)

theorem execLaneDegrade (h : s.Canonical) {link lane} : EndsCanonical (execLaneDegrade link lane s) :=
  .ite
    (have h := h.modLink;
     .ite (.next h.linkDown)
       (have h := h.setFld.liveBit.setFld.send; .next (.modLink (.ite h.modLink.degradeRecord h))))
    (.next h)

theorem execLaneAck (h : s.Canonical) {link} : EndsCanonical (execLaneAck link s) := .ite (.next h.modLink) (.next h)

theorem recoveryLinks (h : s.Canonical) : s.recoveryLinks.Canonical := h.each fun _ _ h => h.modLink

theorem execRestripe (h : s.Canonical) {link} : EndsCanonical (execRestripe link s) :=
  .ite (.next h.modLink.sendSync) (.next h)

theorem execLinkDown (h : s.Canonical) {link} : EndsCanonical (execLinkDown link s) := .next h.linkDown

theorem execLinkSilenceTimeout (h : s.Canonical) {link t} : EndsCanonical (execLinkSilenceTimeout link t s) :=
  have h := h.advance; .ite (.next h.linkDown) (.next h)

theorem execLinkRetrain (h : s.Canonical) {link ok} : EndsCanonical (execLinkRetrain link ok s) :=
  .ite (.next h)
    (have h := h.modLink; .ite (.next (.ite h.linkDown h)) (.ite (.next h.modLink.sendSync) (.next h.sendSync)))

theorem linkBoundary (h : s.Canonical) {l} : (s.linkBoundary l).Canonical :=
  .ite h.setFld.raiseBit.dropBit.modLink.clearDMin.resend (.ite h.setFld.clearDMin.modLink h)

theorem execLinkRetry (h : s.Canonical) {link seq} : EndsCanonical (execLinkRetry link seq s) := by
  unfold Machine.execLinkRetry
  dsimp only
  exact .ite (.next h)
      (have h := h.count.modLink;
       by split; exacts [.next h,
         .ite (.next h) (.ite (have h := h.ucwWindow; .ite (.next h.linkDown) (.next h.laneLost)) (.next h.resend))])

theorem sendRetry (h : s.Canonical) {l} : (s.sendRetry l).Canonical := h.modLink.count.send

theorem countUcw (h : s.Canonical) {l lane} : (s.countUcw l lane).Canonical :=
  have h := h.ucwWindow; .ite h.bump h.bump

theorem freeSlot (h : s.Canonical) {l vc} : (s.freeSlot l vc).Canonical := h.modLink

theorem leaveSlot (h : s.Canonical) {l n vc slot} : (s.leaveSlot l n vc slot).Canonical :=
  .ite h (.ite h.modLink (.ite h.modLink h.freeSlot))

theorem linkTrigger (h : s.Canonical) {l flit want} : (s.linkTrigger l flit want).Canonical := h.trigger

theorem loseFlit (h : s.Canonical) {l n cls vc last body} : (s.loseFlit l n cls vc last body).Canonical :=
  .ite h.modLink h

theorem receiveChecked (h : s.Canonical) {l flit} : (s.receiveChecked l flit).Canonical :=
  .ite (.ite h h.bump)
    (.ite h.bump.freeSlot
       (.ite h.bump.freeSlot
          (.ite h.bump.freeSlot
             (.ite h.bump.freeSlot.linkTrigger
                (by split; exacts [h.freeSlot,
                   .ite h.bump.freeSlot.loseFlit
                     (.ite h.bump.freeSlot.loseFlit.crab
                        (.ite (have h := h.modLink; .ite h.freeSlot h) h.modLink))])))))

theorem execFlitReceive (h : s.Canonical) {link badLane flit} :
    EndsCanonical (execFlitReceive link badLane flit s) :=
  .ite (.next h)
    (have h := (by split; exacts [h.countUcw, h]);
     .ite (.next (.ite h.sendRetry h))
       (.ite (.next (.ite h h.sendRetry))
          (have h := h.count.pmcDie;
           have h := noteCapture (.ite h.modLink h);
           have h := ite h.modLink h; have h := ite h.timeFlit h.receiveChecked; .next (.ite h.sendLink h))))

theorem landHbm (h : s.Canonical) {n l src core a d} : (s.landHbm n l src core a d).Canonical := by
  unfold State.landHbm
  dsimp only
  split
  exacts [.ite h.setAord (have h := h.atomRow; .ite h h.poisonFault), .ite h.hbmStore h.hbmStore.poisonFault]

theorem queueAck (h : s.Canonical) {l n dst srcLink msg} : (s.queueAck l n dst srcLink msg).Canonical := by
  unfold State.queueAck
  exact h.modLink

theorem deliver (h : s.Canonical) {l n f b} : (s.deliver l n f b).2.Canonical := by
  unfold State.deliver
  extract_lets target count mask src core data drop
  have hdrop : drop.2.Canonical := h.bump
  refine .ite_snd hdrop (.ite_snd (.ite_snd h.poisonFault ?_) (.ite_snd ?_ ?_))
  · exact .ite_snd (.ite_snd h.modCrew.pair h.putTally) hdrop
  · exact .ite_snd h.nocIn.storeWrite hdrop
  · exact .ite_snd hdrop h.landHbm

theorem execFlitDeliver (h : s.Canonical) {link} : EndsCanonical (execFlitDeliver link s) := by
  unfold Machine.execFlitDeliver
  split
  · exact .next h
  · exact
      have h := h.modLink;
      by split; exacts [have h := h.leaveSlot.deliver; have h := ite h.loseFlit h; .ite (.next h.queueAck) (.next h),
        .next h]

/-! ### Collectives -/

theorem modColl (h : s.Canonical) {n id f} : (s.modColl n id f).Canonical := h.modCrew

theorem collSend (h : s.Canonical) {n k rank isResult L i p} : (s.collSend n k rank isResult L i p).Canonical := by
  unfold State.collSend
  dsimp only
  exact have h := h.hbmBytes; by split; exacts [h, h.modLink]

theorem collWrite (h : s.Canonical) {n k i v poison} : (s.collWrite n k i v poison).Canonical :=
  have h := h.hbmStore.modColl; .ite h h.poisonFault

theorem collResult (h : s.Canonical) {n k i v poison} : (s.collResult n k i v poison).Canonical :=
  .ite (.ite h.collWrite h.collSend) (.ite h.collWrite (h.collWrite.each fun _ _ h => .ite h.collSend h))

theorem collAdvance {s : State} (h : s.Canonical) {n : Nat} {id : BitVec 32} {i L : Nat} {acc : Part3} {fuel : Nat} :
    (s.collAdvance n id i fuel L acc).Canonical := by
  induction fuel generalizing s L acc with
  | zero => exact h
  | succ fuel ih =>
    unfold State.collAdvance
    split
    · exact h
    · exact .ite h.collSend (.ite h.collResult (.ite (ih h) (by split; exacts [ih h.modColl, h.modColl])))

theorem collOwn (h : s.Canonical) {k i} : (s.collOwn k i).2.Canonical := h.hbmBytes

theorem collPoison (h : s.Canonical) {n k words} : (s.collPoison n k words).Canonical := .ite h h.poisonFault

theorem collContribute (h : s.Canonical) {n k vals} : (s.collContribute n k vals).Canonical := by
  unfold State.collContribute
  dsimp only
  exact .collPoison (h.eachWith fun _ _ _ h => h.collOwn.collAdvance)

theorem collTake (h : s.Canonical) {n l k f} : (s.collTake n l k f).Canonical :=
  .ite (h.each fun _ _ h => h.collResult)
    (have h := h.each fun _ _ h => h.pmcDie;
     .ite h.collContribute
       (h.each fun _ _ h => by split; exacts [h, by split; exacts [h.modColl.collAdvance, h.modColl]]))

theorem drainColl (h : s.Canonical) {l} : (s.drainColl l).Canonical := by
  unfold State.drainColl
  dsimp only
  exact .ite h (h.modLink.each fun _ _ h => have h := h.modColl; by split; exacts [h.leaveSlot.collTake, h])

theorem execCollPartial (h : s.Canonical) {link crew flit} : EndsCanonical (execCollPartial link crew flit s) := by
  unfold Machine.execCollPartial
  split
  exacts [.next h, have h := h.modLink; .ite (.next h.bump.leaveSlot) (.next h.modLink.drainColl)]

theorem showColl (h : s.Canonical) {n} : (s.showColl n).Canonical := h.setFld

theorem gatherOwn (h : s.Canonical) {n k} : (s.gatherOwn n k).Canonical :=
  .collPoison (h.eachWith fun _ _ _ h => h.hbmBytes.collWrite.each fun _ _ h => h.collSend)

theorem openColl (h : s.Canonical) {n k} : (s.openColl n k).Canonical :=
  have h := h.modCrew.showColl; .each (.ite h.gatherOwn (.ite h.collContribute h)) fun _ _ h => h.drainColl

theorem execCollectiveComplete (h : s.Canonical) {crew collId} :
    EndsCanonical (execCollectiveComplete crew collId s) := by
  unfold Machine.execCollectiveComplete
  split
  exacts [.next h, .ite (have h := h.modCrew.showColl; .ite (.next h.putTally) (.next h.launchStatus)) (.next h)]

theorem abortColls (h : s.Canonical) {n named} : (s.abortColls n named).Canonical :=
  .ite h (.showColl (h.modCrew.each fun _ _ h => h.modLink.each fun _ _ h => h.leaveSlot))

theorem execAbortNotice (h : s.Canonical) {n} : EndsCanonical (execAbortNotice n s) := by
  unfold Machine.execAbortNotice
  split
  exacts [.next h, .ite (.next h) (.next h.abortColls.crewFault.stopCrew)]

/-! ### Matrix engines -/

theorem ringTake {s : State} (h : s.Canonical) {c r : Nat} : ∀ {n : Nat}, (s.ringTake c r n).2.Canonical
  | 0 => h
  | _ + 1 => by
    unfold State.ringTake
    exact (setReg h.storeRead).ringTake

theorem fetchPart (h : s.Canonical) {c e x} : (s.fetchPart c e x).Canonical := by
  unfold State.fetchPart
  split
  exacts [h, h.ringTake.modEng]

theorem streamTake (h : s.Canonical) {c e x} : (s.streamTake c e x).2.Canonical := .ite_snd h.modEng.pair h.storeRead

theorem streamTakeOpt (h : s.Canonical) {c e x} : (s.streamTakeOpt c e x).2.Canonical := by
  unfold State.streamTakeOpt
  split
  exacts [h.streamTake, h]

theorem showEng (h : s.Canonical) {c e} : (s.showEng c e).Canonical :=
  have h := h.setFld.liveBit;
  .setPair (.setFld (.liveBit (.liveBit (by split; exacts [h.setFld.setFld.setFld, h.setFld.setFld.setFld]))))

theorem dropUmpire (h : s.Canonical) {c e} : (s.dropUmpire c e).Canonical := by
  unfold State.dropUmpire
  split
  exacts [.ite h.modCore.modEng.dropBit.showEng h, h]

theorem mirrorUmpire (h : s.Canonical) {c e} : (s.mirrorUmpire c e).Canonical := by
  unfold State.mirrorUmpire
  split
  exacts [.ite h.modEng.modCore.setReg.showEng h, h]

theorem endChain (h : s.Canonical) {c e} : (s.endChain c e).Canonical := h.dropUmpire.modEng.showEng

theorem endChains (h : s.Canonical) {c accept} : (s.endChains c accept).Canonical := h.each fun _ _ h => h.endChain

theorem dropEngine (h : s.Canonical) {c e} : (s.dropEngine c e).Canonical := h.endChain.modEng.setReg.showEng

theorem sampleChain (h : s.Canonical) {c e cmd} : (s.sampleChain c e cmd).2.Canonical :=
  .ite_snd (by split; exacts [h.modCore.raiseBit, h.bump]) h

theorem beginMatrix (h : s.Canonical) {c e cmd ctx desc ps} : (s.beginMatrix c e cmd ctx desc ps).Canonical := by
  unfold State.beginMatrix
  exact .modEng (.setReg (.traceBegin (.ite h h.dropUmpire.sampleChain.modEng)))

theorem readPos (h : s.Canonical) {c e m p k0 i} : (s.readPos c e m p k0 i).2.Canonical := by
  unfold State.readPos
  split
  · dsimp only
    exact modEng h.streamTake.streamTake.streamTakeOpt.streamTakeOpt
  · exact h

theorem readAll {s : State} (h : s.Canonical) {c e : Nat} {m : MCmd} {k0 : Nat → Nat} {i : Nat} :
    ∀ {ps : List Problem}, (s.readAll c e m k0 i ps).2.Canonical
  | [] => h
  | _ :: _ => h.readPos.readAll

theorem runPositions {s : State} (h : s.Canonical) {c e : Nat} {m : MCmd} {ps : List Problem} {k0 : Nat → Nat}
    {len : Nat} : ∀ {fuel : Nat}, (s.runPositions c e m ps k0 len fuel).Canonical
  | 0 => h
  | _ + 1 =>
    have h := h.each fun _ _ h => h.fetchPart
    .ite h h.readAll.modEng.setReg.runPositions

theorem endMatrix (h : s.Canonical) {c e cmd ctx ps} : (s.endMatrix c e cmd ctx ps).Canonical := by
  unfold State.endMatrix
  exact .modEng (.ite h h.traceEnd)

theorem runMatrix (h : s.Canonical) {c e shape} : (s.runMatrix c e shape).Canonical := by
  unfold State.runMatrix
  split
  · exact h
  · extract_lets m ctx
    refine .ite h ?_
    split
    next heq =>
    have h := snd_of_eq heq (ite_snd h.pair (.ite_snd h.storeRead h.pair))
    refine .ite ?_ (.ite h.traceEnd.modEng.formatError.showEng ?_)
    · dsimp only
      split
      · exact h.traceEnd.modEng.poisonFault.showEng
      · exact h.traceEnd.modEng.showEng
    · dsimp only
      split
      · exact .mirrorUmpire (.showEng (.ite (endMatrix (.runPositions (.ite h h.beginMatrix)))
          (.runPositions (.ite h h.beginMatrix))))
      · exact .showEng (.runPositions (.ite h h.beginMatrix))

theorem execMatrixFull (h : s.Canonical) {core eng} : EndsCanonical (execMatrixFull core eng s) :=
  .next h.runMatrix.settleCore.showDma

theorem execMatrixQuad (h : s.Canonical) {core eng} : EndsCanonical (execMatrixQuad core eng s) :=
  .next h.runMatrix.settleCore.showDma

theorem execMatrixWide (h : s.Canonical) {core eng} : EndsCanonical (execMatrixWide core eng s) :=
  .next h.runMatrix.settleCore.showDma

theorem watchTile (h : s.Canonical) {c w outFmt body} : (s.watchTile c w outFmt body).Canonical := by
  unfold State.watchTile
  dsimp only
  split
  exacts [h, .ite h.storeRead.modCore h]

theorem suspect (h : s.Canonical) : s.suspect.Canonical := h.setFlt

theorem unlocalised (h : s.Canonical) {c e accept index} : (s.unlocalised c e accept index).Canonical :=
  h.suspect.trigger

theorem mismatch (h : s.Canonical) {c e byUmpire accept index} :
    (s.mismatch c e byUmpire accept index).Canonical := by
  unfold State.mismatch
  dsimp only
  split
  · exact h
  · exact
      have h := h.raiseFault; by split; exacts [.ite h.unlocalised (.ite h.modCrew h), .ite h.unlocalised h.modCrew]

theorem writeRows {s : State} (h : s.Canonical) {c dst pitch : Nat} :
    ∀ {rows : List (List (Byte × Bool))}, (s.writeRows c dst pitch rows).Canonical
  | [] => h
  | _ :: _ => h.storeWrite.writeRows

theorem commitTiles (h : s.Canonical) {c e b cells} : (s.commitTiles c e b cells).Canonical :=
  have h := h.each fun _ _ h => h.writeRows;
  have h := (by split; exacts [h.each fun _ _ h => h.watchTile, h]); .ite h (by split; exacts [h.poisonFault, h])

theorem countRow (h : s.Canonical) {c e r} : (State.countRow c e s r).Canonical := by
  unfold State.countRow
  split
  exacts [h, h.bump.pmcCore, h.pmcCore, h.pmcCore]

theorem countRows (h : s.Canonical) {c e rows} : (s.countRows c e rows).Canonical := h.each fun _ _ h => h.countRow

theorem noteObs (h : s.Canonical) {c o} : (s.noteObs c o).Canonical := by
  unfold State.noteObs
  split
  exacts [h.modCrew, h]

theorem countFail (h : s.Canonical) {c fail} : (s.countFail c fail).Canonical := .ite h.bump.raiseBit h

theorem freezeEng (h : s.Canonical) {c e accept index} : (s.freezeEng c e accept index).Canonical :=
  h.modEng.mismatch.showEng

theorem emitCommit (h : s.Canonical) {c e ups} : (s.emitCommit c e ups).Canonical := by
  unfold State.emitCommit
  extract_lets en
  split
  · exact h
  · refine .ite h ((fun h => .ite h.traceEnd.freezeEng (have h := h.commitTiles.traceEnd; .showEng (.ite h.modCore h)))
      ((fun h => modEng (.ite h.freezeEng h)) (?_ : State.Canonical _)))
    split
    · exact noteObs (countFail (countFail (.ite h.countRows.countRows h.countRows)))
    · split
      · exact noteObs (countFail (countFail (.ite h.countRows.countRows h.countRows)))
      · exact countFail (countFail (.ite h.countRows.countRows h.countRows))

theorem execEmitCommit (h : s.Canonical) {core eng upsets} : EndsCanonical (execEmitCommit core eng upsets s) :=
  .next h.emitCommit.settleCore

theorem execEngAccDataWrite (h : s.Canonical) {core eng v} : EndsCanonical (execEngAccDataWrite core eng v s) :=
  have h := h.fromHost;
  .ite (.next h.stray) (.ite (.next h) (.ite (.next h.modEng.showEng) (.ite (.next h.modEng.showEng) (.next h))))

theorem putHeld (h : s.Canonical) {x} : (s.putHeld x).Canonical :=
  .each (h.each fun _ _ h => h.modLink) fun _ _ h => h.modLink

/-! ### Counter windows -/

theorem execCounterWindowRead (h : s.Canonical) {crew off len} :
    EndsCanonical (execCounterWindowRead crew off len s) :=
  .ite (.next h.giveHost) (.next h)

/-! ### DMA -/

theorem nocHbm (h : s.Canonical) {c a n write} : (s.nocHbm c a n write).Canonical :=
  h.each fun _ _ h => .ite h.nocOut h.nocIn

theorem dmaRead (h : s.Canonical) {c n space a len} : (s.dmaRead c n space a len).2.Canonical :=
  .ite_snd h.storeRead
    (.ite_snd h.nocHbm.hbmLoad (.ite_snd h.count.count.storeRead (have h := h.nocIn.hostFetch; .ite h h.raiseFault)))

theorem dmaSrc (h : s.Canonical) {c n q d a len} : (s.dmaSrc c n q d a len).2.Canonical := by
  unfold State.dmaSrc
  split
  exacts [.ite_snd h.dmaRead h, h.dmaRead]

theorem casReturn {s : State} (h : s.Canonical) {c a w : Nat} :
    ∀ {old : List (Byte × Bool)} {k : Nat}, (s.casReturn c a w old k).Canonical
  | _, 0 => h
  | _, _ + 1 => h.storeWrite.casReturn

theorem dmaHbm (h : s.Canonical) {c d a src data} : (s.dmaHbm c d a src data).2.Canonical := by
  unfold State.dmaHbm
  split
  exacts [h.hbmStore, have h := h.atomRow; .ite h.casReturn h]

theorem dmaWrite (h : s.Canonical) {c n d mv space a src data} :
    (s.dmaWrite c n d mv space a src data).2.Canonical :=
  .ite_snd h.storeWrite (.ite_snd h.nocHbm.dmaHbm (.ite_snd h.count.count.storeWrite (.ite_snd h.nocOut.hostWrite h)))

theorem countGrain (h : s.Canonical) {d write a} : (s.countGrain d write a).Canonical := .ite (.ite h.count h.count) h

theorem moveRow (h : s.Canonical) {c n q d mv i} : (s.moveRow c n q d mv i).2.Canonical :=
  .ite_snd h
    (have h := ite_snd h.storeRead h;
     .ite_snd h (.ite_snd h (have h := ite h.countGrain (.ite h.countGrain h); .dmaWrite (.ite_snd h h.dmaSrc))))

theorem moveRows (h : s.Canonical) {c n q d} : (s.moveRows c n q d).2.Canonical := h.eachWith fun _ _ _ h => h.moveRow

theorem readSrc (h : s.Canonical) {c n q d} : (s.readSrc c n q d).2.Canonical := h.eachWith fun _ _ _ h => h.dmaSrc

theorem converted (h : s.Canonical) {c n q d} : (s.converted c n q d).2.Canonical := by
  unfold State.converted
  dsimp only
  exact have h := h.readSrc; by split; exacts [h, .ite_snd h (.ite_snd h.dmaRead h)]

theorem writeRowsD (h : s.Canonical) {c n d rows sc} : (s.writeRowsD c n d rows sc).2.Canonical :=
  have h := h.eachWith fun _ _ _ h => h.dmaWrite; .ite_snd h h.dmaWrite

theorem endWindows (h : s.Canonical) {c d} : (s.endWindows c d).Canonical := h.each fun _ _ h => h.endPost

theorem dmaPoison (h : s.Canonical) {c n mv} : (s.dmaPoison c n mv).Canonical :=
  have h := ite h h.poisonFault; .ite h h.poisonFault

theorem dmaEnd (h : s.Canonical) {c q how bytes} : (s.dmaEnd c q how bytes).Canonical :=
  h.traceEnd.modCore.endWindows.showDma

theorem dmaHold (h : s.Canonical) {c q done rows dirty} : (s.dmaHold c q done rows dirty).Canonical :=
  h.modCore.showDma

theorem sendRows (h : s.Canonical) {c n q mv} : (s.sendRows c n q mv).2.Canonical := .ite_snd h h.sendMsg

theorem carryPoison (h : s.Canonical) {c dirty} : (s.carryPoison c dirty).Canonical := .ite h.liveBit h

theorem dmaFinish (h : s.Canonical) {c n q mv} : (s.dmaFinish c n q mv).Canonical :=
  have h := h.dmaPoison.carryPoison.sendRows;
  .ite h.poisonFault.dmaEnd (.ite h.formatError.dmaEnd (.ite h.dmaEnd h.dmaHold))

theorem moveAll (h : s.Canonical) {c n q d} : (s.moveAll c n q d).2.Canonical :=
  .ite_snd h.moveRows h.converted.writeRowsD

theorem runDma (h : s.Canonical) {c slot op} : (s.runDma c slot op).Canonical := by
  unfold State.runDma
  split
  exacts [h, .ite h (.ite h.formatError.dmaEnd.settleCore (.ite h h.traceBegin.moveAll.dmaFinish.settleCore))]

theorem execDmaCopy (h : s.Canonical) {core slot} : EndsCanonical (execDmaCopy core slot s) := by
  unfold Machine.execDmaCopy
  split
  exacts [.ite (.ite (.next h.dmaSrc.formatError.dmaEnd.settleCore) (.next h)) (.next h.runDma), .next h]

theorem execDmaGather (h : s.Canonical) {core slot} : EndsCanonical (execDmaGather core slot s) := .next h.runDma

theorem execDmaScatter (h : s.Canonical) {core slot} : EndsCanonical (execDmaScatter core slot s) := .next h.runDma

theorem execDmaFill (h : s.Canonical) {core slot} : EndsCanonical (execDmaFill core slot s) := .next h.runDma

theorem execDmaSend (h : s.Canonical) {core slot} : EndsCanonical (execDmaSend core slot s) := .next h.runDma

theorem ringLine (h : s.Canonical) {c ring line} : (s.ringLine c ring line).Canonical := h.storeWrite.setReg

theorem appendLines {s : State} (h : s.Canonical) {c ring : Nat} {data : List (Byte × Bool)} {done : Nat} :
    ∀ {fuel : Nat}, (s.appendLines c ring data done fuel).2.Canonical
  | 0 => h
  | _ + 1 => .ite_snd h h.ringLine.appendLines

theorem appendScales (h : s.Canonical) {c d sc lo hi} : (s.appendScales c d sc lo hi).Canonical :=
  h.each fun _ _ h => h.storeWrite

theorem appendRun (h : s.Canonical) {c n q d k} : (s.appendRun c n q d k).Canonical :=
  have h := h.converted.appendLines; have h := carryPoison (.ite h.appendScales h); .ite h.dmaEnd h.dmaHold

theorem execDmaRingAppend (h : s.Canonical) {core slot} : EndsCanonical (execDmaRingAppend core slot s) := by
  unfold Machine.execDmaRingAppend
  split
  · exact .next h
  · exact .ite (.next h) (.ite (.next h.formatError.dmaEnd.settleCore) (.next h.traceBegin.appendRun.settleCore))

theorem execRingAppendLine (h : s.Canonical) {core slot} : EndsCanonical (execRingAppendLine core slot s) := by
  unfold Machine.execRingAppendLine
  split
  exacts [.next h, .ite (.next h) (.next h.appendRun.settleCore)]

theorem startColl (h : s.Canonical) {c slot op} : (s.startColl c slot op).Canonical := by
  unfold State.startColl
  split
  · exact h
  · exact .ite h
        (have h' := h.dmaSrc;
         .ite h (.ite h'.formatError.dmaEnd.settleCore h'.traceBegin.nocOut.openColl.dmaEnd.settleCore))

theorem execAllReduce (h : s.Canonical) {core slot} : EndsCanonical (execAllReduce core slot s) := .next h.startColl

theorem execReduceScatter (h : s.Canonical) {core slot} : EndsCanonical (execReduceScatter core slot s) :=
  .next h.startColl

theorem execAllGather (h : s.Canonical) {core slot} : EndsCanonical (execAllGather core slot s) := .next h.startColl

/-! ### The journal -/

theorem showJnl (h : s.Canonical) : s.showJnl.Canonical := .ite h h.setPair.setPair

theorem journal (h : s.Canonical) {j} : (s.journal j).Canonical := h.setCox.showJnl

theorem stopQueue (h : s.Canonical) {q error} : (s.stopQueue q error).Canonical :=
  have h := h.modQueue; .ite h.noteNf6 h

theorem putRecord (h : s.Canonical) {q ring slot b} : (s.putRecord q ring slot b).Canonical :=
  .ite (.ite h.hbmPut h.stopQueue) h.hostWrite

theorem emitCpl (h : s.Canonical) {c} : (s.emitCpl c).Canonical := h.putRecord.journal

theorem flushCpls (h : s.Canonical) {n} : (s.flushCpls n).Canonical := by
  unfold State.flushCpls
  exact .modCrew (h.each fun _ _ h => h.emitCpl)

theorem addCpl (h : s.Canonical) {n c} : (s.addCpl n c).Canonical := h.modCrew.flushCpls

theorem showPending (h : s.Canonical) {n} : (s.showPending n).Canonical := h.setFld

theorem finishLaunch (h : s.Canonical) {n l} : (s.finishLaunch n l).Canonical :=
  .showPending (.addCpl (.modLaunch (h.each fun _ _ h => h.endChains)))

theorem abortLaunches (h : s.Canonical) {n status} : (s.abortLaunches n status).Canonical :=
  h.each fun _ _ h => h.finishLaunch

/-! ### Host access -/

theorem hostPut (h : s.Canonical) {r ix v} : (s.hostPut r ix v).Canonical :=
  have h := h.setReg.setConv; .ite h.raiseBit h

theorem putRwb (h : s.Canonical) {r ix v} : (s.putRwb r ix v).Canonical := h.hostPut

theorem hostReg (h : s.Canonical) {off v act} (hact : ∀ t, t.Canonical → (act t).Canonical) :
    (s.hostReg off v act).Canonical :=
  .ite h.fromHost.stray (.ite h.fromHost.setConv (hact _ h.fromHost))

theorem ringBell (h : s.Canonical) {q tail} : (s.ringBell q tail).Canonical :=
  .ite h (.ite h.modQueue.stopQueue h.modQueue)

theorem deliverBells (h : s.Canonical) : s.deliverBells.Canonical := h.setPow.each fun _ _ h => h.ringBell

/-! ### Clocks, power modes and temperature -/

theorem disarm (h : s.Canonical) {l} : (s.disarm l).Canonical := h.setPow

theorem clocksUpAt (h : s.Canonical) {at0 l} : (s.clocksUpAt at0 l).Canonical := h.setPow

theorem clocksUp (h : s.Canonical) {l} : (s.clocksUp l).Canonical := h.clocksUpAt

theorem execMonitorRearm (h : s.Canonical) {dom t} : EndsCanonical (execMonitorRearm dom t s) := by
  unfold Machine.execMonitorRearm
  dsimp only
  exact have h := h.advance; by split; exacts [.ite (.next h.setPow) (.next h), .next h]

theorem execClockMonitorTrip (h : s.Canonical) {dom} : EndsCanonical (execClockMonitorTrip dom s) :=
  .ite (.next h.raiseFault) (.next h)

theorem execUcieModuleFailure (h : s.Canonical) {m} : EndsCanonical (execUcieModuleFailure m s) :=
  .next h.setFlt.raiseFault

theorem execModeChangeRequest (h : s.Canonical) {v} : EndsCanonical (execModeChangeRequest v s) :=
  have h := h.fromHost.hostPut; .ite (.next h) (.ite (.next h.raiseBit) (.ite (.next h) (.next h.liveBit.setPow)))

theorem trainPins (h : s.Canonical) : s.trainPins.Canonical := .ite (h.each fun _ _ h => .ite h h.setFld) h

theorem beginMode (h : s.Canonical) : s.beginMode.Canonical := by
  unfold State.beginMode
  split
  exacts [.ite h.setPow.disarm.trainPins h, h]

theorem rampVid (h : s.Canonical) : s.rampVid.Canonical := by
  unfold State.rampVid
  split
  exacts [by split; exacts [h.setPins, h], h]

theorem execModeSettleEnd (h : s.Canonical) {t} : EndsCanonical (execModeSettleEnd t s) := by
  unfold Machine.execModeSettleEnd
  dsimp only
  exact have h := h.advance; by split; exacts [.ite (.next h.setPow.setPins.clocksUp) (.next h), .next h]

theorem endMode (h : s.Canonical) : s.endMode.Canonical := by
  unfold State.endMode
  split
  · exact .ite (have h := h.setFld.liveBit; .each (.setPow (.ite h h.setPins.clocksUp)) fun _ _ h => .ite h h.setFld)
        h
  · exact h

theorem execBlockIdleEnter (h : s.Canonical) {b} : EndsCanonical (execBlockIdleEnter b s) :=
  .ite (.next h.setPow) (.next h)

theorem execBlockIdleExit (h : s.Canonical) {b} : EndsCanonical (execBlockIdleExit b s) := .next h.setPow

theorem tripPower (h : s.Canonical) {watts} : (s.tripPower watts).Canonical := h.raiseFault.setPow.setPins

theorem execOverCurrentTrip (h : s.Canonical) {watts} : EndsCanonical (execOverCurrentTrip watts s) :=
  .ite (.next h.tripPower) (.next h)

theorem execPowerGoodFall (h : s.Canonical) {rail watts} : EndsCanonical (execPowerGoodFall rail watts s) :=
  .ite (.next h.tripPower) (.next h)

theorem planWake (h : s.Canonical) : s.planWake.Canonical := .setPow (.ite h.raiseBit h)

theorem requestWake (h : s.Canonical) : s.requestWake.Canonical := by
  unfold State.requestWake
  split
  exacts [.ite h h.planWake, h.setPow, h]

theorem rewake (h : s.Canonical) : s.rewake.Canonical :=
  .ite (by split; exacts [.ite h.planWake h, .ite h.requestWake h, h]) h

theorem writeEasy (h : s.Canonical) {v} : (s.writeEasy v).Canonical :=
  have h := h.fromHost.hostPut; have h := ite h.setPow h; have h := ite h.requestWake h; .ite h.requestWake h

theorem execEasyEnter (h : s.Canonical) {v} : EndsCanonical (execEasyEnter v s) := .next h.writeEasy

theorem execEasyWake (h : s.Canonical) {v} : EndsCanonical (execEasyWake v s) := .next h.writeEasy

theorem writeWakeAt (h : s.Canonical) {r v} : (s.writeWakeAt r v).Canonical :=
  have h := h.hostPut; .ite h.requestWake h

theorem execWakeAtWrite (h : s.Canonical) {which v} : EndsCanonical (execWakeAtWrite which v s) := by
  unfold Machine.execWakeAtWrite
  split
  exacts [.next h.writeEasy, .next (h.hostReg fun _ h => h.writeWakeAt), .next (h.hostReg fun _ h => h.writeWakeAt)]

theorem execWakeAtReached (h : s.Canonical) {t} : EndsCanonical (execWakeAtReached t s) :=
  have h := h.advance; .ite (.next h.requestWake) (.next h)

theorem enterEasy (h : s.Canonical) : s.enterEasy.Canonical := .ite h (.ite h.setPow.disarm.liveBit h.setPow.raiseBit)

theorem idleLinks (h : s.Canonical) : s.idleLinks.Canonical := h.each fun _ _ h => h.modLink.setFld

theorem unidleLinks (h : s.Canonical) : s.unidleLinks.Canonical :=
  h.each fun _ _ h => by split; exacts [h.modLink.setFld, h]

theorem execEasyEntryComplete (h : s.Canonical) {t} : EndsCanonical (execEasyEntryComplete t s) :=
  have h := h.advance; .ite (have h := h.setPow.setPins.liveBit.liveBit.idleLinks; .next (.ite h.planWake h)) (.next h)

theorem modRx (h : s.Canonical) {n f} : (s.modRx n f).Canonical := h.setStk

theorem execWakeSequence (h : s.Canonical) {t} : EndsCanonical (execWakeSequence t s) :=
  have h := h.advance;
  .ite
    (.next
       (.each (.clocksUpAt (.unidleLinks (.liveBit (.liveBit (h.setPow.setPins.each fun _ _ h => h.modRx)))))
          fun _ _ h => h.sendSync))
    (.next h)

theorem notReady (h : s.Canonical) : ∀ {p : Part}, (s.notReady p).Canonical
  | .link _ => h.linkDown
  | .stack _ => h.raiseFault

theorem wakeUp (h : s.Canonical) {notReady} : (s.wakeUp notReady).Canonical :=
  .each (h.setPow.liveBit.deliverBells.each fun _ _ h => h.modLink) fun _ _ h => h.notReady

theorem execStrayAccess (h : s.Canonical) {write bar4 off} : EndsCanonical (execStrayAccess write bar4 off s) :=
  .ite (.next (.ite h.stray h.stray.giveWord)) (.next h)

theorem reading (h : s.Canonical) {n temp} : (s.reading n temp).Canonical := h.setFld.setFld

theorem thermalFault (h : s.Canonical) {n sev event temp} : (s.thermalFault n sev event temp).Canonical := h.raiseFault

theorem execThermalWarn (h : s.Canonical) {sensor temp} : EndsCanonical (execThermalWarn sensor temp s) :=
  have h := h.reading; .ite (.next h.liveBit.thermalFault) (.next h)

theorem execThermalWarnClear (h : s.Canonical) {sensor temp} :
    EndsCanonical (execThermalWarnClear sensor temp s) :=
  have h := h.reading; .next (.ite h.liveBit h)

theorem execThrottleEnter (h : s.Canonical) {sensor temp} : EndsCanonical (execThrottleEnter sensor temp s) :=
  have h := h.reading; .ite (.next h.liveBit.raiseBit.thermalFault) (.next h)

theorem execThrottleExit (h : s.Canonical) {sensor temp} : EndsCanonical (execThrottleExit sensor temp s) :=
  have h := h.reading; .next (.ite h.liveBit h)

theorem execCriticalTrip (h : s.Canonical) {sensor temp} : EndsCanonical (execCriticalTrip sensor temp s) :=
  have h := h.reading; .ite (.next h.thermalFault.setPow.setCox.setPins) (.next h)

/-! ### Queues and launches -/

theorem execDoorbell (h : s.Canonical) {q tail} : EndsCanonical (execDoorbell q tail s) :=
  have h := h.fromHost; .ite (have h := h.setPow; .next (.ite h.requestWake h)) (.ite (.next h) (.next h.ringBell))

theorem ringFault (h : s.Canonical) {q slot} : (s.ringFault q slot).Canonical := .ite h.stopQueue h.modQueue

theorem execRingEntryFetch (h : s.Canonical) {q bad} : EndsCanonical (execRingEntryFetch q bad s) :=
  .ite (.next h)
    (.ite (.next h.ringFault) (have h := ite_snd h.hbmBytes h.hostFetch; .ite (.next h.ringFault) (.next h.modQueue)))

theorem writeQcfg (h : s.Canonical) {v} : (s.writeQcfg v).Canonical :=
  have h := ite h h.raiseBit; .ite (.ite h h.modQueue) (have h := h.modQueue; .ite h (.ite h.modQueue h.modQueue))

theorem execSeqQcfgWrite (h : s.Canonical) {v} : EndsCanonical (execSeqQcfgWrite v s) :=
  .next (h.hostReg fun _ h => h.writeQcfg)

theorem execTalAddWrite (h : s.Canonical) {n v} : EndsCanonical (execTalAddWrite n v s) :=
  have h := h.fromHost; .ite (.next h.stray) (.next h.setHostTal)

theorem execTalSetWrite (h : s.Canonical) {n v} : EndsCanonical (execTalSetWrite n v s) :=
  have h := h.fromHost; .ite (.next h.stray) (.next h.setHostTal)

theorem doHostTal (h : s.Canonical) : s.doHostTal.Canonical := h.setHostTal.each fun _ _ h => h.putTally

theorem doTal (h : s.Canonical) {c} : (s.doTal c).Canonical := h.putTally

theorem dispatchLaunch (h : s.Canonical) {q slot accept h₁} : (s.dispatchLaunch q slot accept h₁).Canonical :=
  .ite h.emitCpl (.ite h.emitCpl h.modCrew.showPending)

theorem dispatchTally (h : s.Canonical) {q slot accept h₁} : (s.dispatchTally q slot accept h₁).Canonical :=
  .ite h.emitCpl (.ite h.emitCpl (have h := h.modCrew; .ite h h.doTal.addCpl))

theorem dispatch (h : s.Canonical) {q slot accept h₁} : (s.dispatch q slot accept h₁).Canonical :=
  .ite h.emitCpl (.ite h.emitCpl (.ite h.dispatchLaunch (.ite h.dispatchTally (.ite h.emitCpl h.addCpl))))

theorem popHead (h : s.Canonical) {q} : (s.popHead q).Canonical := by
  unfold State.popHead
  dsimp only
  exact have h := h.modQueue; by split; exacts [.ite h.modQueue.stopQueue h, h]

theorem acceptOne (h : s.Canonical) {q} : (s.acceptOne q).Canonical := by
  unfold State.acceptOne
  split
  · exact h
  · exact .ite h
        (.ite h.putRecord.popHead
           (.ite h.stopQueue h.setNextAccept.setTaken.setLastServed.popHead.modQueue.journal.dispatch))

theorem acceptPasses {s : State} (h : s.Canonical) {order : List Nat} :
    ∀ {fuel : Nat}, (s.acceptPasses order fuel).Canonical
  | 0 => h
  | _ + 1 => .ite (h.each fun _ _ h => h.acceptOne).acceptPasses h

theorem acceptAll (h : s.Canonical) : s.acceptAll.Canonical :=
  have h := h.setTaken; .ite h (.ite h.bump.raiseBit h.acceptPasses)

theorem takeOp (h : s.Canonical) {q op} : (s.takeOp q op).Canonical := by
  unfold State.takeOp
  split
  exacts [.ite h.acceptOne h, h]

theorem execHostLaunch (h : s.Canonical) {q} : EndsCanonical (execHostLaunch q s) := .next h.takeOp

theorem execHostTallyAdd (h : s.Canonical) {q} : EndsCanonical (execHostTallyAdd q s) := .next h.takeOp

theorem execHostTallySet (h : s.Canonical) {q} : EndsCanonical (execHostTallySet q s) := .next h.takeOp

theorem execQueueWait (h : s.Canonical) {q} : EndsCanonical (execQueueWait q s) := .next h.takeOp

theorem execHostNop (h : s.Canonical) {q} : EndsCanonical (execHostNop q s) := .next h.takeOp

theorem replayTal (h : s.Canonical) {n} : (s.replayTal n).Canonical :=
  .ite h (h.modCrew.each fun _ _ h => have h := h.doTal; by split; exacts [h.addCpl, h])

theorem poisonLaunch (h : s.Canonical) {n l f} : (s.poisonLaunch n l f).Canonical := h.modLaunch.raiseFault.stopCrew

theorem checkDirectory (h : s.Canonical) {n l} : (s.checkDirectory n l).Canonical := by
  unfold State.checkDirectory
  dsimp only
  exact .ite h (.ite h.modLaunch (have h := h.hbmBytes; .ite h.modLaunch.poisonLaunch (.ite h.modLaunch h.modLaunch)))

theorem execDirectoryCheck (h : s.Canonical) {accept} : EndsCanonical (execDirectoryCheck accept s) := by
  unfold Machine.execDirectoryCheck
  split
  exacts [.ite (.next h) (.next h.checkDirectory), .next h]

theorem execArgumentBlockLanded (h : s.Canonical) {core} : EndsCanonical (execArgumentBlockLanded core s) := by
  unfold Machine.execArgumentBlockLanded
  dsimp only
  split
  · exact .next h
  · exact .ite (.next h)
        (.ite (.next h.formatError.showSeq)
           (.next
              (.showSeq
                 (.modSeq
                    (.modLaunch
                       (.storeWrite
                          (.ite_snd (.ite_snd h.nocHbm.hbmBytes h)
                             (have h := h.nocIn.hostFetch; .ite h h.raiseFault))))))))

/-! ### The vector unit -/

theorem readRows {s : State} (h : s.Canonical) {c : Nat} {f : VFmt} {n a step : Nat} :
    ∀ {r : Nat}, (s.readRows c f n a step r).2.Canonical
  | 0 => h
  | _ + 1 => h.storeRead.readRows

theorem readOpd (h : s.Canonical) {c v f mode a} : (s.readOpd c v f mode a).2.Canonical :=
  .ite_snd h.readRows (.ite_snd h.readRows (.ite_snd h h))

theorem showVec (h : s.Canonical) {c} : (s.showVec c).Canonical := h.setFld.setFld.setFld.liveBit

theorem writeVec {s : State} (h : s.Canonical) {c : Nat} {v : VCmd} {src : Option Fmt} {out : VFmt} {a step : Nat} :
    ∀ {rows : List (List (FVal × Bool))}, (s.writeVec c v src out a step rows).Canonical
  | [] => h
  | _ :: _ => h.storeWrite.writeVec

theorem doVec (h : s.Canonical) {c v} : (s.doVec c v).Canonical := by
  unfold State.doVec
  split
  · extract_lets pos
    split
    next heqA =>
    have h := snd_of_eq heqA h.readOpd
    split
    next heqB =>
    have h := snd_of_eq heqB (ite_snd h.storeRead.pair (.ite_snd h.readOpd h.pair))
    split
    next heqC =>
    have h := snd_of_eq heqC (ite_snd h.readOpd (.ite_snd h.readRows (.ite_snd h.readRows h.pair)))
    exact .writeVec (.ite h.liveBit h)
  · exact h

theorem runVec (h : s.Canonical) {c op} : (s.runVec c op).Canonical := by
  unfold State.runVec
  split
  exacts [h, .ite h (have h := h.modCore; .ite h.traceEnd.formatError.showVec h.traceBegin.doVec.traceEnd.showVec)]

theorem execVecAdd (h : s.Canonical) {core} : EndsCanonical (execVecAdd core s) := .next h.runVec.settleCore

theorem execVecSub (h : s.Canonical) {core} : EndsCanonical (execVecSub core s) := .next h.runVec.settleCore

theorem execVecMul (h : s.Canonical) {core} : EndsCanonical (execVecMul core s) := .next h.runVec.settleCore

theorem execVecFma (h : s.Canonical) {core} : EndsCanonical (execVecFma core s) := .next h.runVec.settleCore

theorem execVecDiv (h : s.Canonical) {core} : EndsCanonical (execVecDiv core s) := .next h.runVec.settleCore

theorem execVecMin (h : s.Canonical) {core} : EndsCanonical (execVecMin core s) := .next h.runVec.settleCore

theorem execVecMax (h : s.Canonical) {core} : EndsCanonical (execVecMax core s) := .next h.runVec.settleCore

theorem execVecSqrt (h : s.Canonical) {core} : EndsCanonical (execVecSqrt core s) := .next h.runVec.settleCore

theorem execVecRecip (h : s.Canonical) {core} : EndsCanonical (execVecRecip core s) := .next h.runVec.settleCore

theorem execVecRsqrt (h : s.Canonical) {core} : EndsCanonical (execVecRsqrt core s) := .next h.runVec.settleCore

theorem execVecExp2 (h : s.Canonical) {core} : EndsCanonical (execVecExp2 core s) := .next h.runVec.settleCore

theorem execVecExp (h : s.Canonical) {core} : EndsCanonical (execVecExp core s) := .next h.runVec.settleCore

theorem execVecLog2 (h : s.Canonical) {core} : EndsCanonical (execVecLog2 core s) := .next h.runVec.settleCore

theorem execVecLn (h : s.Canonical) {core} : EndsCanonical (execVecLn core s) := .next h.runVec.settleCore

theorem execVecSin (h : s.Canonical) {core} : EndsCanonical (execVecSin core s) := .next h.runVec.settleCore

theorem execVecCos (h : s.Canonical) {core} : EndsCanonical (execVecCos core s) := .next h.runVec.settleCore

theorem execVecTanh (h : s.Canonical) {core} : EndsCanonical (execVecTanh core s) := .next h.runVec.settleCore

theorem execVecSigmoid (h : s.Canonical) {core} : EndsCanonical (execVecSigmoid core s) := .next h.runVec.settleCore

theorem execVecErf (h : s.Canonical) {core} : EndsCanonical (execVecErf core s) := .next h.runVec.settleCore

theorem execVecCvt (h : s.Canonical) {core} : EndsCanonical (execVecCvt core s) := .next h.runVec.settleCore

theorem execVecCmplt (h : s.Canonical) {core} : EndsCanonical (execVecCmplt core s) := .next h.runVec.settleCore

theorem execVecCmple (h : s.Canonical) {core} : EndsCanonical (execVecCmple core s) := .next h.runVec.settleCore

theorem execVecCmpeq (h : s.Canonical) {core} : EndsCanonical (execVecCmpeq core s) := .next h.runVec.settleCore

theorem execVecSelect (h : s.Canonical) {core} : EndsCanonical (execVecSelect core s) := .next h.runVec.settleCore

theorem execVecRsum (h : s.Canonical) {core} : EndsCanonical (execVecRsum core s) := .next h.runVec.settleCore

theorem execVecRmax (h : s.Canonical) {core} : EndsCanonical (execVecRmax core s) := .next h.runVec.settleCore

theorem execVecRmin (h : s.Canonical) {core} : EndsCanonical (execVecRmin core s) := .next h.runVec.settleCore

theorem execVecRsumsq (h : s.Canonical) {core} : EndsCanonical (execVecRsumsq core s) := .next h.runVec.settleCore

theorem execVecRsumc (h : s.Canonical) {core} : EndsCanonical (execVecRsumc core s) := .next h.runVec.settleCore

theorem execVecRope (h : s.Canonical) {core} : EndsCanonical (execVecRope core s) := .next h.runVec.settleCore

theorem execVecMask (h : s.Canonical) {core} : EndsCanonical (execVecMask core s) := .next h.runVec.settleCore

/-! ### Sequencers -/

theorem tableWord (h : s.Canonical) {c n t i} : (s.tableWord c n t i).2.Canonical :=
  .ite_snd h (.ite_snd (.ite_snd h.storeRead h) (.ite_snd h.nocIn.hbmBytes h))

theorem tableWords {s : State} (h : s.Canonical) {c n : Nat} {t : TableRef} {i : Nat} :
    ∀ {k : Nat}, (s.tableWords c n t i k).2.Canonical
  | 0 => h
  | _ + 1 => by
    unfold State.tableWords
    dsimp only
    split
    exacts [h.tableWord, h.tableWord.tableWords]

theorem postCore (h : s.Canonical) {n c} : (s.postCore n c).Canonical := by
  unfold State.postCore
  exact h.modCore

theorem endPosts (h : s.Canonical) {c ws} : (s.endPosts c ws).Canonical := h.each fun _ _ h => h.endPost

theorem endPart (h : s.Canonical) {c} : (s.endPart c).Canonical := by
  unfold State.endPart
  dsimp only
  exact have h := h.modCore; by split; exacts [h.modLaunch.showSeq, h.showSeq]

theorem timeoutLaunch (h : s.Canonical) {c accept} : (s.timeoutLaunch c accept).Canonical := by
  unfold State.timeoutLaunch
  dsimp only
  exact have h := h.modCore; by split; exacts [h.launchStatus.modLaunch, h]

theorem seqError (h : s.Canonical) {c} : (s.seqError c).Canonical := by
  unfold State.seqError
  split
  exacts [h.formatError.showSeq, h]

theorem openWaits (h : s.Canonical) {c n a h₁ off} : (s.openWaits c n a h₁ off).Canonical :=
  have h := h.modSeq; have h := ite h.launchStatus h; .showSeq (.ite h.pmcCore h)

theorem openHeader (h : s.Canonical) {c n a h₁ bad} : (s.openHeader c n a h₁ bad).Canonical :=
  .ite h.poisonFault.modSeq.showSeq (.ite h.seqError h.openWaits)

theorem openEntry (h : s.Canonical) {c} : (s.openEntry c).Canonical := by
  unfold State.openEntry
  dsimp only
  split
  exacts [.ite h (have h' := h.tableWord; by split; exacts [h'.seqError, .ite h h'.openHeader]), h]

theorem entryDone (h : s.Canonical) {c} : (s.entryDone c).Canonical :=
  .ite h.showSeq (have h := h.modSeq; .ite h.endPart h.openEntry.showSeq)

theorem dropPre (h : s.Canonical) {c entry} : (s.dropPre c entry).Canonical := h.modCore.each fun _ _ h => h.pmcCore

theorem goOn (h : s.Canonical) {c off k run ws} : (s.goOn c off k run ws).Canonical :=
  have h := h.modSeq; .ite h h.dropPre

theorem takeEntry (h : s.Canonical) {c n h₁ run} : (s.takeEntry c n h₁ run).Canonical :=
  .ite
    (have h := h.tableWords;
     by split; exacts [h.seqError, .entryDone (.goOn (.pmcCore (.modLaunch (.modSeq (.ite h h.poisonFault)))))])
    h.goOn.endPosts.entryDone

theorem execEntryIssue (h : s.Canonical) {core} : EndsCanonical (execEntryIssue core s) := by
  unfold Machine.execEntryIssue
  dsimp only
  exact
    have h := h.openEntry;
    by split; exacts [.ite (.next h)
        (by split; exacts [.next h,
           .ite (.next h.takeEntry)
             (.ite (.next h.takeEntry) (.ite (.next h) (.next (.takeEntry (.ite h h.launchStatus)))))]),
      .next h]

theorem popWord (h : s.Canonical) {c} : (s.popWord c).Canonical := h.modCore

theorem execCommandWordDispatch (h : s.Canonical) {core} : EndsCanonical (execCommandWordDispatch core s) := by
  unfold Machine.execCommandWordDispatch
  split
  · exact .next h
  · exact .ite (.next h)
        (.ite (.next h.seqError)
           (.ite (.ite (.next h) (.next h.popWord.modEng.modSeq.showEng.settleCore.entryDone))
              (.ite (.ite (.next h) (.next h.popWord.modCore.showVec.settleCore.entryDone))
                 (.ite (.ite (.next h) (.next h.popWord.modCore.showDma.settleCore.entryDone))
                    (.ite (.next h.popWord.traceBegin.modCore.entryDone) (.next h))))))

theorem execTallyAddCmd (h : s.Canonical) {core} : EndsCanonical (execTallyAddCmd core s) := by
  unfold Machine.execTallyAddCmd
  split
  · exact .ite (.next h)
        (.ite (.next h.localAdd.nextTally)
           (have h := ite_snd h h.sendMsg; .ite (.next h.modCore) (.next h.modCore.traceEnd.formatError.showSeq)))
  · exact .next h

theorem execWaitGe (h : s.Canonical) {core} : EndsCanonical (execWaitGe core s) := by
  unfold Machine.execWaitGe
  split
  · exact .ite (.next h)
        (.ite (.next h)
           (have h := h.popWord.traceBegin;
            .ite (.next h.launchStatus.traceEnd.entryDone) (.next h.modCore.settleCore.entryDone)))
  · exact .next h

theorem ctlDone (h : s.Canonical) {c w} : (s.ctlDone c w).Canonical := h.popWord.traceBegin.traceEnd

theorem execCtlNop (h : s.Canonical) {core} : EndsCanonical (execCtlNop core s) := by
  unfold Machine.execCtlNop
  split
  exacts [.next h.ctlDone.entryDone, .next h]

theorem execFenceCmd (h : s.Canonical) {core} : EndsCanonical (execFenceCmd core s) := by
  unfold Machine.execFenceCmd
  split
  exacts [.next h.popWord.traceBegin.modCore.settleCore.entryDone, .next h]

theorem execLoopCmd (h : s.Canonical) {core} : EndsCanonical (execLoopCmd core s) := by
  unfold Machine.execLoopCmd
  split
  exacts [.next h, .ite (.next h.seqError) (have h := h.ctlDone; .ite (.next h.entryDone) (.next h.modSeq.entryDone))]

theorem execEndTable (h : s.Canonical) {core} : EndsCanonical (execEndTable core s) := by
  unfold Machine.execEndTable
  split
  exacts [.next h.ctlDone.modSeq.entryDone, .next h]

theorem execStepCmd (h : s.Canonical) {core} : EndsCanonical (execStepCmd core s) := by
  unfold Machine.execStepCmd
  split
  exacts [.next h.ctlDone.modCrew.entryDone, .next h]

theorem execMarkCmd (h : s.Canonical) {core} : EndsCanonical (execMarkCmd core s) := by
  unfold Machine.execMarkCmd
  split
  exacts [.next h.popWord.traceBegin.trace.traceEnd.entryDone, .next h]

theorem modPool (h : s.Canonical) {n p f} : (s.modPool n p f).Canonical := h.modCrew

theorem execPoolTake (h : s.Canonical) {core} : EndsCanonical (execPoolTake core s) := by
  unfold Machine.execPoolTake
  dsimp only
  split
  · exact .ite (.next h.seqError)
        (.ite (.next h)
           (by split; exacts [.next h.ctlDone.storeWrite.entryDone,
              have h := h.nocIn.hbmBytes.modPool;
              .ite (.next h.poisonFault.ctlDone.entryDone) (.next h.ctlDone.storeWrite.modSeq.entryDone)]))
  · exact .next h

theorem execPoolPut (h : s.Canonical) {core} : EndsCanonical (execPoolPut core s) := by
  unfold Machine.execPoolPut
  dsimp only
  split
  · exact .ite (.next h.seqError)
        (.ite (.next h)
           (.ite (.next h.ctlDone.launchStatus.entryDone)
              (.next h.storeRead.nocOut.hbmPut.stateWritePoison.modPool.ctlDone.entryDone)))
  · exact .next h

theorem prefetchRow (h : s.Canonical) {c n entry w i} : (s.prefetchRow c n entry w i).Canonical := by
  unfold State.prefetchRow
  dsimp only
  split
  exacts [h, .ite h h.dmaRead.modCore]

theorem prefetchCmd (h : s.Canonical) {c n entry w} : (s.prefetchCmd c n entry w).Canonical :=
  h.each fun _ _ h => h.prefetchRow

theorem prefetchEntry (h : s.Canonical) {c n t pos k} : (s.prefetchEntry c n t pos k).Canonical :=
  h.each fun _ _ h => h.prefetchCmd

theorem execRunAheadFetch (h : s.Canonical) {core} : EndsCanonical (execRunAheadFetch core s) := by
  unfold Machine.execRunAheadFetch
  dsimp only
  split
  · exact .ite (.next h)
        (by split; exacts [.next h, .ite (.next h) (.next (.showSeq (.modSeq (.ite h.prefetchEntry h))))])
  · exact .next h

theorem startPart (h : s.Canonical) {l c} : (s.startPart l c).Canonical :=
  .showSeq (h.modCore.each fun _ _ h => h.setReg.setReg)

theorem startLaunch (h : s.Canonical) {n} : (s.startLaunch n).Canonical := by
  unfold State.startLaunch
  dsimp only
  exact
    have h := h.modCrew;
    .ite h
      (by split; exacts [h,
         .ite h
           (have h := h.checkDirectory.modLaunch;
            by split; exacts [h, h.modCrew.setFld.each fun _ _ h => h.startPart])])

theorem execLaunchComplete (h : s.Canonical) {crew} : EndsCanonical (execLaunchComplete crew s) := by
  unfold Machine.execLaunchComplete
  split
  exacts [.next h, .ite (.next h.finishLaunch) (.next h)]

theorem expireWaits (h : s.Canonical) {c} : (s.expireWaits c).Canonical := by
  unfold State.expireWaits
  extract_lets k late
  split
  · refine (fun h => .ite h.showSeq (.showSeq (.timeoutLaunch (h.modCore.each fun _ _ h => h.traceEnd))))
      (?_ : State.Canonical _)
    split
    · exact .ite (have h := h.modSeq; .ite h h.timeoutLaunch) h
    · exact h
  · exact h

theorem execWaitTimeout (h : s.Canonical) {core} : EndsCanonical (execWaitTimeout core s) :=
  .next (.ite h.expireWaits h)

/-! ### Verification -/

theorem compareNext (h : s.Canonical) {core} : (s.compareNext core).Canonical := by
  unfold State.compareNext
  split
  · exact h
  · exact
      have h := h.modCore;
      .ite h (have h := h.pmcCore; have h := ite h.modCore h; .ite h (have h := h.bump.raiseBit; .ite h h.mismatch))

theorem execUmpireCompare (h : s.Canonical) {core} : EndsCanonical (execUmpireCompare core s) :=
  .next (.ite h.compareNext h)

theorem compareAll (h : s.Canonical) : s.compareAll.Canonical := .ite (h.each fun _ _ h => h.compareNext) h

theorem execMismatchFault (h : s.Canonical) {core} : EndsCanonical (execMismatchFault core s) := by
  unfold Machine.execMismatchFault
  split
  exacts [.ite (.next h) (.next h.mismatch), .next h]

theorem transient (h : s.Canonical) {c} : (s.transient c).Canonical := have h := h.modCore; .ite h.hardFault h.setFld

theorem verdictStop (h : s.Canonical) {n} : (s.verdictStop n).Canonical := h.stopCrew

theorem verdict (h : s.Canonical) {n d} : (s.verdict n d).Canonical :=
  have h := h.modCrew;
  have h := trigger (.ite h h.raiseFault);
  .ite h.suspect.verdictStop
    (.ite (.verdictStop (.setFld (.suspect (.ite h.lower h))))
       (.ite h.hardFault (.ite h.hardFault (.ite h.transient h))))

theorem verdictDue (h : s.Canonical) {n} : (s.verdictDue n).Canonical := by
  unfold State.verdictDue
  dsimp only
  split
  exacts [.ite h.verdict h, h]

theorem execMismatchVerdict (h : s.Canonical) {crew} : EndsCanonical (execMismatchVerdict crew s) := .next h.verdictDue

theorem verdictsDue (h : s.Canonical) : s.verdictsDue.Canonical := h.each fun _ _ h => h.verdictDue

theorem execTransientWindowClose (h : s.Canonical) {core} : EndsCanonical (execTransientWindowClose core s) := by
  unfold Machine.execTransientWindowClose
  split
  exacts [.ite (.next h.modCore.setFld) (.next h), .next h]

theorem modSlot (h : s.Canonical) {n w f} : (s.modSlot n w f).Canonical := h.modCrew

theorem closeSlot (h : s.Canonical) {n w} : (s.closeSlot n w).Canonical := by
  unfold State.closeSlot
  exact have h := h.each fun _ _ h => h.modCore; .modSlot (.ite h.noteNf6 h)

theorem closeSlots (h : s.Canonical) {n step} : (s.closeSlots n step).Canonical := h.each fun _ _ h => h.closeSlot

theorem execWatchCloseRequest (h : s.Canonical) {v} : EndsCanonical (execWatchCloseRequest v s) :=
  have h := h.fromHost; .ite (.next h.stray) (have h := h.hostPut; .ite (.next h.modSlot.noteNf6) (.next h))

theorem execWatchClose (h : s.Canonical) {crew slot} : EndsCanonical (execWatchClose crew slot s) :=
  .ite (.next h.closeSlot) (.next h)

theorem execWatchMergeComplete (h : s.Canonical) {crew slot} :
    EndsCanonical (execWatchMergeComplete crew slot s) :=
  .ite (.next h.modSlot) (.next h)

/-! ### Checkpoints and restores -/

theorem readStore (h : s.Canonical) {c} : (s.readStore c).Canonical :=
  h.each fun _ _ h => have h := h.readWord; .ite h.putWord h

theorem takeSnap (h : s.Canonical) {n} : (s.takeSnap n).2.Canonical := h.each fun _ _ h => h.readStore

theorem resumeUmpire (h : s.Canonical) {c} : (s.resumeUmpire c).Canonical := by
  unfold State.resumeUmpire
  split
  exacts [h.modCore.liveBit.mirrorUmpire, h.liveBit]

theorem putCore (h : s.Canonical) {delta x} : (s.putCore delta x).Canonical :=
  .showSeq (.showDma (.showVec (.each (h.modCore.each fun _ _ h => h.setReg.setReg) fun _ _ h => h.showEng)))

theorem putSnap (h : s.Canonical) {n delta x} : (s.putSnap n delta x).Canonical :=
  .setAord
    (.modCrew
       (.each
          (.each (.putHeld (.each (h.each fun _ _ h => h.putCore) fun _ _ h => h.resumeUmpire)) fun _ _ h => h.modTally)
          fun _ _ h => h.modCore))

theorem moveStarts (h : s.Canonical) {n d} : (s.moveStarts n d).Canonical := h.modCrew.each fun _ _ h => h.modSeq

theorem startFreeze (h : s.Canonical) {n} : (s.startFreeze n).Canonical := .ite h h.moveStarts.takeSnap.modCrew

theorem newEpoch (h : s.Canonical) {n} : (s.newEpoch n).Canonical := h.modCrew

theorem showPoints (h : s.Canonical) {n} : (s.showPoints n).Canonical := h.setFld

theorem makePoint (h : s.Canonical) {n} : (s.makePoint n).Canonical := h.newEpoch.modCrew.liveBit.startFreeze

theorem clearSlot (h : s.Canonical) {n slot} : (s.clearSlot n slot).Canonical := h.setGran

theorem exchangePoints (h : s.Canonical) {n} : (s.exchangePoints n).Canonical := by
  unfold State.exchangePoints
  split
  exacts [h, h.modCrew.clearSlot.showPoints.releaseCopies.flushCpls]

theorem dropFreeze (h : s.Canonical) {n} : (s.dropFreeze n).Canonical :=
  have h := h.modCrew; .flushCpls (.releaseCopies (by split; exacts [.ite h.endCkpt h, h]))

theorem writeImage (h : s.Canonical) {n x} : (s.writeImage n x).Canonical := by
  unfold State.writeImage
  split
  exacts [h, h.setImages.hbmPut.modCrew.setFld]

theorem beginCrew (h : s.Canonical) {n} : (s.beginCrew n).Canonical :=
  have h := h.replayTal.startLaunch; .each (.ite (h.each fun _ _ h => h.postCore) h) fun _ _ h => h.openEntry

theorem execFreezeEnd (h : s.Canonical) {crew left} : EndsCanonical (execFreezeEnd crew left s) := by
  unfold Machine.execFreezeEnd
  dsimp only
  split
  · exact .ite (.next h)
        (.ite (.next h.dropFreeze.stopCrew)
           (.ite (.next h.bump.raiseBit.crewFault.stopCrew.dropFreeze)
              (have h := ite h.exchangePoints h;
               .next (.beginCrew (.modCrew (by split; exacts [.ite h.writeImage h, h]))))))
  · exact .next h

theorem noteChk (h : s.Canonical) {n tensor status} : (s.noteChk n tensor status).Canonical := h.setFld.setFld

theorem saveList (h : s.Canonical) {n} : (s.saveList n).2.Canonical := h.hbmBytes

theorem clearSync (h : s.Canonical) {n} : (s.clearSync n).Canonical := h.hbmPut

theorem beginCkpt (h : s.Canonical) {n tensor es} : (s.beginCkpt n tensor es).Canonical :=
  have h := h.clearSync.newEpoch.modCrew; .ite h.setFld h.setFld.startFreeze

theorem skipCkpt (h : s.Canonical) {n tensor status} : (s.skipCkpt n tensor status).Canonical := h.noteChk.bump

theorem takeCkpt (h : s.Canonical) {n tensor} : (s.takeCkpt n tensor).Canonical :=
  .ite h
    (.ite h.noteChk
       (.ite h.noteChk
          (.ite h.skipCkpt
             (.ite h.skipCkpt
                (.ite (have h := h.saveList; .ite h.skipCkpt h.beginCkpt) (.ite h.skipCkpt h.beginCkpt))))))

theorem showChkBusy (h : s.Canonical) : s.showChkBusy.Canonical := h.liveBit

theorem dueCkpts (h : s.Canonical) {n step} : (s.dueCkpts n step).Canonical :=
  .ite h (.showChkBusy (h.modCrew.each fun _ _ h => h.takeCkpt))

theorem timerCkpt (h : s.Canonical) {n} : (s.timerCkpt n).Canonical := .ite h h.modCrew

theorem stepCkpt (h : s.Canonical) {n} : (s.stepCkpt n).Canonical := .ite h h.takeCkpt

theorem commitStep (h : s.Canonical) {n} : (s.commitStep n).Canonical := h.modCrew.wrap.setFld

theorem stepBoundary (h : s.Canonical) {n} : (s.stepBoundary n).Canonical :=
  have h := modCrew (.closeSlots (.ite h h.commitStep));
  have h := flushCpls
      (.dueCkpts (.stepCkpt (.ite h.modCrew.liveBit.showPoints.releaseCopies (.ite h.unprotect h.makePoint))));
  .ite h.modCrew.setFld h

theorem crewBoundary (h : s.Canonical) {n} : (s.crewBoundary n).Canonical :=
  have h := h.timerCkpt; have h := dueCkpts (.ite h.stepBoundary h); .ite h.closeSlots h

theorem holdFreeze (h : s.Canonical) {n} : (s.holdFreeze n).Canonical := .ite h.modCrew h

theorem execCheckpointTimer (h : s.Canonical) {crew} : EndsCanonical (execCheckpointTimer crew s) :=
  .ite (.next h.timerCkpt.dueCkpts) (.next h)

theorem execCowLineCopy (h : s.Canonical) {crew page} : EndsCanonical (execCowLineCopy crew page s) := by
  unfold Machine.execCowLineCopy
  split
  · exact .next h
  · split
    · exact .next h
    · exact .ite (.next h) (have h := h.charge.copyLine; by split; exacts [.next h.modCrew.releaseCopies, .next h])

theorem epochRead {s : State} (h : s.Canonical) {fs : List Frame} {a n : Nat} :
    ∀ {fuel : Nat}, (s.epochRead fs a n fuel).2.Canonical
  | 0 => h
  | _ + 1 => .ite_snd h h.readGran.epochRead

theorem pageCopied (h : s.Canonical) {n c} : (s.pageCopied n c).Canonical := h.modCrew.releaseCopies

theorem execCheckpointPageCopy (h : s.Canonical) {crew} : EndsCanonical (execCheckpointPageCopy crew s) := by
  unfold Machine.execCheckpointPageCopy
  dsimp only
  split
  · exact .ite (.next h)
        (have h := h.charge.each fun _ _ h => h.epochRead.hbmPut; .next (by split; exacts [h.modCrew, h.pageCopied]))
  · exact .next (.ite h h.pageCopied)
  · exact .next h

theorem execCheckpointComplete (h : s.Canonical) {crew} : EndsCanonical (execCheckpointComplete crew s) := by
  unfold Machine.execCheckpointComplete
  split
  exacts [.next h, .ite (.next h) (.next (.wrap (.endCkpt (.hbmPut (h.each fun _ _ h => h.hbmPut)))))]

theorem chkRefuse (h : s.Canonical) : s.chkRefuse.Canonical := h.raiseBit

theorem chkCmd (h : s.Canonical) {v act} (hact : ∀ t, t.Canonical → (act t).Canonical) : (s.chkCmd v act).Canonical :=
  have h := h.fromHost
  .ite h.stray (.ite h.hostPut (.ite h.hostPut.chkRefuse (hact _ h.hostPut)))

theorem askCkpt (h : s.Canonical) {n tensor named} : (s.askCkpt n tensor named).Canonical :=
  .ite h.chkRefuse h.modCrew.showChkBusy

theorem execTakeFull (h : s.Canonical) {v} : EndsCanonical (execTakeFull v s) := .next (h.chkCmd fun _ h => h.askCkpt)

theorem execTakeTensor (h : s.Canonical) {v} : EndsCanonical (execTakeTensor v s) :=
  .next (h.chkCmd fun _ h => h.askCkpt)

theorem execChkAbandon (h : s.Canonical) {v} : EndsCanonical (execChkAbandon v s) :=
  .next (h.chkCmd fun _ h => .ite h.chkRefuse (have h := h.endCkpt; .ite h.modCrew h))

theorem execRestoreFull (h : s.Canonical) {v} : EndsCanonical (execRestoreFull v s) := by
  unfold Machine.execRestoreFull
  dsimp only
  exact .next (h.chkCmd fun _ h => .ite h.chkRefuse (have h := h.hbmBytes; .ite h.noteChk h.modCrew.setFld.setFld))

theorem execRestoreTensor (h : s.Canonical) {v} : EndsCanonical (execRestoreTensor v s) :=
  .next (h.chkCmd fun _ h => .ite h.chkRefuse h.modCrew.setFld)

/-- Reading HBM is held opaque here: evaluated over the 2 MiB of a page it does not end. -/
theorem restoreFull (h : s.Canonical) {n a} : (s.restoreFull n a).2.Canonical := by
  obtain ⟨read, hread, hcanonical⟩ : ∃ read, read = State.hbmBytes ∧
      ∀ {t : State}, t.Canonical → ∀ {a n}, (read t a n).2.Canonical := ⟨_, rfl, hbmBytes⟩
  obtain ⟨restore, hrestore⟩ : ∃ f, f = State.restoreFull := ⟨_, rfl⟩
  rw [← hrestore]
  delta State.restoreFull at hrestore
  rw [← hread] at hrestore
  subst hrestore
  refine eachWith ?_ fun _ _ _ h => (hcanonical h).hbmPut
  split
  · exact (hcanonical (hcanonical h)).putSnap.modCrew
  · exact hcanonical (hcanonical h)

theorem fst_of_eq {p : TRes × β} {r : TRes} {b : β} (e : p = (r, b)) (h : p.1.st.Canonical) : r.st.Canonical := by
  subst e
  exact h

theorem shard {r : TRes} (h : r.st.Canonical) {d a} : (r.shard d a).1.st.Canonical := by
  unfold TRes.shard
  split
  next heqHeader =>
  have h := snd_of_eq heqHeader h.hbmBytes
  extract_lets header axes box
  split
  next heqData =>
  have h := snd_of_eq heqData h.hbmBytes
  extract_lets ok
  split
  · exact h
  · exact h.each fun _ _ h => h.hbmPut

theorem descriptor {r : TRes} (h : r.st.Canonical) {a} : (r.descriptor a).st.Canonical := by
  unfold TRes.descriptor
  split
  · exact h
  · split
    next heqDesc =>
    have h := snd_of_eq heqDesc h.hbmBytes
    extract_lets d
    split
    next heqList =>
    have h := snd_of_eq heqList h.hbmBytes
    split
    next heqFold =>
    have h := fst_of_eq heqFold
      (List.foldlRecOn (motive := fun x : TRes × List Box => x.1.st.Canonical) _ _ h fun x hx i _ => by
        split
        exacts [hx, shard hx])
    exact h

theorem restoreTensor (h : s.Canonical) {a count} : (s.restoreTensor a count).2.Canonical :=
  List.foldlRecOn (motive := fun r : TRes => r.st.Canonical) _ _ h fun _ hr _ _ => descriptor hr

theorem execRestoreComplete (h : s.Canonical) {crew} : EndsCanonical (execRestoreComplete crew s) := by
  unfold Machine.execRestoreComplete
  dsimp only
  split
  · exact .next h
  · exact .ite (.next h)
        (have h := noteChk (.setFld (.modCrew (.ite_snd h.restoreTensor h.restoreFull)));
         .ite (.next h) (.next h.hbmBytes.modCrew.setFld.liveBit.showPoints.liveBit.showPending))

/-! ### Stops, rollbacks and replays -/

theorem begun (h : s.Canonical) {d} : (s.begun d).Canonical := .ite h.setFlt.liveBit h

theorem askDump (h : s.Canonical) {d cause} : (s.askDump d cause).Canonical := h.setFlt

theorem dropFlits (h : s.Canonical) {n core} : (s.dropFlits n core).Canonical := h.each fun _ _ h => h.modLink

theorem dropHosted (h : s.Canonical) {c e} : (s.dropHosted c e).Canonical := by
  unfold State.dropHosted
  split
  exacts [.ite h.dropUmpire h, h]

theorem resetCore (h : s.Canonical) {c} : (s.resetCore c).Canonical :=
  have h := modCore (h.dropHosted.each fun _ _ h => h.dropEngine);
  .showSeq
    (.showDma
       (.showVec
          (.each (.each (by split; exacts [h.dropFlits, h]) fun _ _ h => h.setReg.setReg)
             fun _ _ h => h.setReg.showEng)))

theorem resetEngine (h : s.Canonical) {c u} : (s.resetEngine c u).Canonical :=
  .ite h.dropHosted.dropUmpire.modEng.setReg.showEng (.ite h.modCore.showVec h.modCore.showDma)

theorem dropHeld (h : s.Canonical) {n} : (s.dropHeld n).Canonical :=
  h.each
    fun _ _ h =>
      .each (.each (h.modLink.each fun _ _ h => h.leaveSlot.loseFlit) fun _ _ h => h.freeSlot) fun _ _ h => h.leaveSlot

theorem abandon (h : s.Canonical) {c} : (s.abandon c).Canonical :=
  .showSeq (.showDma (.showVec (.modCore (.each (h.each fun _ _ h => h.traceEnd) fun _ _ h => h.dropEngine))))

theorem stopNow (h : s.Canonical) {n st} : (s.stopNow n st).Canonical :=
  have h := each (.setFld (.abortColls (.each (.modCrew (.ite h.dropFreeze h)) fun _ _ h => h.abandon)))
      fun _ _ h => h.finishLaunch;
  .begun (.ite h.askDump h)

theorem execCrewStop (h : s.Canonical) {crew} : EndsCanonical (execCrewStop crew s) := by
  unfold Machine.execCrewStop
  split
  exacts [.ite (.next h.stopNow) (.next h), .next h]

theorem noPoint (h : s.Canonical) {n} : (s.noPoint n).Canonical :=
  h.abortLaunches.modCrew.raiseBit.setFld.showPoints.releaseCopies

theorem beginRollback (h : s.Canonical) {n p st} : (s.beginRollback n p st).Canonical :=
  .flushCpls
    (.releaseCopies
       (.showPoints
          (.setAord (.modCrew (.dropHeld (.dropFlits (h.setFld.raiseBit.bump.setFld.each fun _ _ h => h.resetCore)))))))

theorem execRollbackRun (h : s.Canonical) {crew} : EndsCanonical (execRollbackRun crew s) := by
  unfold Machine.execRollbackRun
  dsimp only
  split
  exacts [.ite (.next h) (by split; exacts [.next h.beginRollback, .next h.noPoint]), .next h]

/-- The fuel of the read is held opaque: it is evaluated otherwise. -/
theorem restorePages (h : s.Canonical) {n p} : (s.restorePages n p).Canonical := by
  unfold State.restorePages
  obtain ⟨fuel, hfuel⟩ : ∃ k, k = 65538 := ⟨_, rfl⟩
  rw [← hfuel]
  refine h.each fun t page h => ?_
  split
  exacts [h.epochRead.hbmPut, h]

theorem takeBackCpls (h : s.Canonical) {n p} : (s.takeBackCpls n p).Canonical := h.modCrew

theorem idleDead (h : s.Canonical) {n c} : (s.idleDead n c).Canonical := by
  unfold State.idleDead
  split
  exacts [.ite h h.modCore.endChains.showSeq, h]

theorem restore (h : s.Canonical) {n p} : (s.restore n p).Canonical := by
  unfold State.restore
  exact .modCrew (.showPending (.takeBackCpls (h.restorePages.putSnap.modCrew.each fun _ _ h => h.idleDead)))

theorem execRestorationComplete (h : s.Canonical) {crew} : EndsCanonical (execRestorationComplete crew s) :=
  .ite (.next h)
    (by split; exacts [.next h,
       .ite (have h := h.modCrew.chkTrigger; .next (.ite h.noPoint h.showPoints)) (.next h.restore)])

theorem renumberLaunches (h : s.Canonical) {n} : (s.renumberLaunches n).Canonical :=
  h.setNextAccept.modCrew.each fun _ _ h => h.modSeq

theorem releaseImage (h : s.Canonical) {n bc} : (s.releaseImage n bc).Canonical :=
  h.renumberLaunches.moveStarts.modCrew.setFld

theorem startReplay (h : s.Canonical) {n p} : (s.startReplay n p).Canonical :=
  .setFld (h.modCrew.each fun _ _ h => h.modSeq)

theorem release (h : s.Canonical) {n} : (s.release n).Canonical := by
  unfold State.release
  dsimp only
  split
  exacts [h.releaseImage, .ite h h.startReplay, h]

theorem reachBr (h : s.Canonical) {n} : (s.reachBr n).Canonical := by
  unfold State.reachBr
  dsimp only
  exact .ite
      (have h := h.modCrew.setFld;
       have h := ite (have h := h.setFlt.askDump; by split; exacts [h.finishLaunch, h]) h; .ite h.abortLaunches h)
      h.release

theorem recoverBoundary (h : s.Canonical) {n} : (s.recoverBoundary n).Canonical :=
  .ite h.modCrew.setFld
    (.ite (by split; exacts [.ite h.reachBr h, h])
       (.ite (by split; exacts [.ite h.release.begun h, h]) (.ite (by split; exacts [.ite h.modCrew.setFld h, h]) h)))

theorem rcvRefuse (h : s.Canonical) : s.rcvRefuse.Canonical := h.raiseBit

theorem rcvCmd (h : s.Canonical) {v act} (hact : ∀ t, t.Canonical → (act t).Canonical) : (s.rcvCmd v act).Canonical :=
  have h := h.fromHost.hostPut
  .ite h (.ite h.rcvRefuse (hact _ h))

theorem waitFor (h : s.Canonical) {d} : (s.waitFor d).Canonical := h.setFlt.liveBit

theorem execHaltCmd (h : s.Canonical) {v} : EndsCanonical (execHaltCmd v s) :=
  .next (h.rcvCmd fun _ h => .ite h.rcvRefuse (.ite h.modCrew (.ite h h.stopCrew.waitFor)))

theorem execReleaseCmd (h : s.Canonical) {v} : EndsCanonical (execReleaseCmd v s) :=
  .next (h.rcvCmd fun _ h => .ite h.rcvRefuse h.modCrew.waitFor)

theorem execRollbackRequest (h : s.Canonical) {v} : EndsCanonical (execRollbackRequest v s) :=
  .next (h.rcvCmd fun _ h => .ite h.rcvRefuse h.stopCrew.waitFor)

theorem execQueueWatchdog (h : s.Canonical) {q t} : EndsCanonical (execQueueWatchdog q t s) := by
  unfold Machine.execQueueWatchdog
  dsimp only
  exact have h := h.advance; by split; exacts [.ite (.next h.crewFault) (.next h), .next h]

theorem execTallyWaitWatchdog (h : s.Canonical) {core t} : EndsCanonical (execTallyWaitWatchdog core t s) := by
  unfold Machine.execTallyWaitWatchdog
  dsimp only
  exact have h := h.advance; by split; exacts [.ite (.next h.raiseFault) (.next h), .next h]

theorem execEngineProgressWatchdog (h : s.Canonical) {core unit} :
    EndsCanonical (execEngineProgressWatchdog core unit s) := by
  unfold Machine.execEngineProgressWatchdog
  dsimp only
  split
  · exact .ite
        (have h := h.raiseFault; by split; exacts [.ite (.next h.hardFault) (.next h.modCore), .next h.modCore])
        (.next h)
  · exact .next h

theorem execCollectiveWatchdog (h : s.Canonical) {crew collId t} :
    EndsCanonical (execCollectiveWatchdog crew collId t s) := by
  unfold Machine.execCollectiveWatchdog
  dsimp only
  exact have h := h.advance; by split; exacts [.ite (.next h.abortColls.crewFault.stopCrew) (.next h), .next h]

theorem execSlipWatchdog (h : s.Canonical) {crew} : EndsCanonical (execSlipWatchdog crew s) :=
  .ite (.next h.crewFault) (.next h)

/-! ### The logbook -/

theorem showLog (h : s.Canonical) : s.showLog.Canonical :=
  have h := h.setFld; .liveBit (by split; exacts [h.setReg.setReg, h])

theorem dropOldest (h : s.Canonical) : s.dropOldest.Canonical := by
  unfold State.dropOldest
  dsimp only
  split
  exacts [have h := h.setCox; .ite h h.raiseBit, h]

theorem logEntry (h : s.Canonical) {cls loc body} : (s.logEntry cls loc body).2.2.Canonical :=
  .ite_snd_snd h.setCox.showLog (.showLog (.setCox (.ite h.dropOldest h)))

theorem execLogbookRecord (h : s.Canonical) : EndsCanonical (execLogbookRecord s) := by
  unfold Machine.execLogbookRecord
  split
  exacts [.next h.setCox.logEntry, .next h]

theorem program (h : s.Canonical) {powerFail recs jnl} : (s.program powerFail recs jnl).Canonical :=
  .ite h h.setNv.setCox.liveBit

theorem execLogbookFlush (h : s.Canonical) : EndsCanonical (execLogbookFlush s) :=
  .ite (.next h.setCox.program) (.ite (.next h.program) (.next h))

theorem showNv (h : s.Canonical) : s.showNv.Canonical := h.liveBit.setFld.setFld.setFld.setFld

theorem nvsTrigger (h : s.Canonical) {x attempts} : (s.nvsTrigger x attempts).Canonical := h.trigger

theorem flushShown (h : s.Canonical) : s.flushShown.Canonical := h.liveBit

theorem execSectorProgram (h : s.Canonical) {verifies} : EndsCanonical (execSectorProgram verifies s) := by
  unfold Machine.execSectorProgram
  split
  · exact .next h
  · exact .ite (.next h.setCox.flushShown)
        (have h := h.setNv;
         .ite (.next h.setNv.setCox.flushShown.showLog.showNv)
           (.ite (.next h.setNv.setCox.showNv)
              (have h := h.setNv.nvsTrigger;
               .ite (.next h.setNv.setCox.nvsTrigger.send.flushShown.showNv) (.next h.setNv.setCox.showNv))))

theorem execLogWinRead (h : s.Canonical) {word} : EndsCanonical (execLogWinRead word s) :=
  .ite (.next h) (have h := ite h.setCox h; .next (.giveWord (.showLog (.ite h.setReg h))))

theorem findJnl (h : s.Canonical) {num} : (s.findJnl num).2.Canonical := by
  unfold State.findJnl
  split
  · exact h
  · refine .ite_snd ?_ h
    split
    next heq => exact snd_of_eq heq h.hbmBytes

theorem showJnlGone (h : s.Canonical) : s.showJnlGone.Canonical := h.liveBit

theorem execJnlWinRead (h : s.Canonical) {word} : EndsCanonical (execJnlWinRead word s) :=
  .ite (.next h) (have h := ite h.findJnl.setCox h; .next (.giveWord (.showJnlGone (.ite h.setPair h))))

theorem execJournalMirror (h : s.Canonical) : EndsCanonical (execJournalMirror s) := by
  unfold Machine.execJournalMirror
  split
  exacts [.ite (.next h.charge.hbmPut.setCox.showJnl) (.next h), .next h]

/-! ### Faults -/

theorem ringPut (h : s.Canonical) {b} : (s.ringPut b).Canonical := .send (.setFld (.ite (.ite h.hbmPut h) h.hostWrite))

theorem ringDeliver (h : s.Canonical) {b} : (s.ringDeliver b).Canonical := .ite h.ringPut h.setFlt

theorem ringFlush (h : s.Canonical) : s.ringFlush.Canonical := .ite (h.setFlt.each fun _ _ h => h.ringDeliver) h

theorem ringRecord (h : s.Canonical) {rec cper} : (s.ringRecord rec cper).Canonical :=
  .ite h (.ite h.setFlt.ringFlush.ringDeliver h.setReg.setFlt)

theorem sendCper (h : s.Canonical) {b} : (s.sendCper b).Canonical := .ite h.send (.ite h.setCox h)

theorem askReset (h : s.Canonical) {d} : (s.askReset d).Canonical := .setFlt (.ite h h.askDump)

theorem autoReset (h : s.Canonical) {f} : (s.autoReset f).Canonical :=
  .ite h (.ite h.askReset (.ite h.askReset h.setFlt.askReset))

theorem recordFault (h : s.Canonical) : s.recordFault.Canonical := by
  unfold State.recordFault
  dsimp only
  split
  · exact h
  · exact
      have h := h.setFlt.logEntry;
      have h := ite h.setCox h;
      .ite h (have h := h.ringRecord; have h := ite h.sendCper h; .autoReset (.ite h.send h))

theorem coreLogicFault (h : s.Canonical) {c f} : (s.coreLogicFault c f).Canonical := by
  unfold State.coreLogicFault
  dsimp only
  exact have h := h.raiseFault; by split; exacts [.ite h.hardFault h.modCore, h.modCore]

theorem ownerFault (h : s.Canonical) {owner f} : (s.ownerFault owner f).Canonical := h.raiseFault

theorem heldError (h : s.Canonical) {a corrected} : (s.heldError a corrected).Canonical :=
  .ite h (.ite h.bump.raiseBit.hbmErrAddr.ceRecord h.bump.raiseBit.hbmErrAddr.storeGran.raiseFault)

theorem hwError (h : s.Canonical) {e} : (s.hwError e).Canonical := by
  unfold State.hwError
  split
  · exact h.coreLogicFault
  · exact h.coreLogicFault
  · exact h.coreLogicFault
  · exact h.coreLogicFault
  · exact h.ownerFault
  · exact .ite h.setFlt.ceRecord h.coreLogicFault
  · exact .ite h.setFlt.ceRecord h.ownerFault
  · exact .ite h.setFlt.ceRecord h.ownerFault
  · exact h.heldError
  · exact .ite h.setFlt.ceRecord h.raiseFault
  · exact h.modCore
  · exact h.raiseFault

theorem execFaultRecord (h : s.Canonical) : EndsCanonical (execFaultRecord s) := .next h.recordFault

theorem recordAll {s : State} (h : s.Canonical) : ∀ {fuel : Nat}, (s.recordAll fuel).Canonical
  | 0 => h
  | _ + 1 => h.recordFault.recordAll

theorem writeFltCtl (h : s.Canonical) {v} : (s.writeFltCtl v).Canonical :=
  .ite h.hostPut
    (have h := h.hostPut; have h := ite h.setFld h; have h := ite h.setFld h; .ite h.setFld.setFld.setReg.setFlt h)

theorem execGlbFltCtlWrite (h : s.Canonical) {v} : EndsCanonical (execGlbFltCtlWrite v s) :=
  .next (h.hostReg fun _ h => h.writeFltCtl)

theorem execPoisonConsumed (h : s.Canonical) {r} : EndsCanonical (execPoisonConsumed r s) := by
  unfold Machine.execPoisonConsumed
  split
  exacts [.ite (.next h.poisonFault) (.next h), .next h.hwError]

theorem switchDone (h : s.Canonical) {core} : (s.switchDone core).Canonical := h.setFlt

theorem execSpareSwitchIn (h : s.Canonical) {core} : EndsCanonical (execSpareSwitchIn core s) := by
  unfold Machine.execSpareSwitchIn
  split
  · exact .next h
  · refine .ite (.next h) ?_
    have h := (h.switchDone (core := core)).bump (f := F.GLB_HEALTH_hard_faults) (ix := []) (d := 1)
    refine .ite (.next (.setFlt (.setNv (.modCore (.lower (.bump (.dropBit (.setFld (.setFld
      (.ite h.setFld h.setReg)))))))))) ?_
    dsimp only
    split
    · refine .ite (.next (modCrew ?_)) (.next (stopCrew ?_))
      all_goals
        split
        · split
          exacts [h.finishLaunch, h.setFlt.finishLaunch]
        · split
          exacts [h, h.setFlt]
    · split
      exacts [.next h, .next h.setFlt]

theorem setReplace (h : s.Canonical) {reason} : (s.setReplace reason).Canonical := h.setNv.setFld.setFld

theorem startDrain (h : s.Canonical) {suspect reason cls} : (s.startDrain suspect reason cls).Canonical :=
  h.setFlt.setNv.setFld.setFld.liveBit.liveBit.each fun _ _ h => h.raiseFault

theorem execSuspectDrain (h : s.Canonical) : EndsCanonical (execSuspectDrain s) := by
  unfold Machine.execSuspectDrain
  split
  exacts [have h := h.setFlt; .ite (.next h) (.next (h.startDrain.each fun _ _ h => h.stopCrew)), .next h]

theorem execOrderlyDrain (h : s.Canonical) {cause} : EndsCanonical (execOrderlyDrain cause s) :=
  .ite (have h := h.setFlt; .next (.ite h h.startDrain)) (.next h)

theorem execDrainStepLimit (h : s.Canonical) {crew} : EndsCanonical (execDrainStepLimit crew s) := by
  unfold Machine.execDrainStepLimit
  split
  exacts [.ite (.next h.stopCrew) (.next h), .next h]

theorem execDrainComplete (h : s.Canonical) : EndsCanonical (execDrainComplete s) :=
  .ite (.next h.liveBit.liveBit) (.next h)

theorem execHardFaultWindowClose (h : s.Canonical) {core} : EndsCanonical (execHardFaultWindowClose core s) :=
  .next h.modCore

/-! ### Dumps and resets -/

theorem showDom (h : s.Canonical) {d} : (s.showDom d).Canonical :=
  h.each fun _ _ h => .showSeq (.showDma (.showVec (h.each fun _ _ h => h.showEng)))

theorem abortTal (h : s.Canonical) {n} : (s.abortTal n).Canonical := h.modCrew.each fun _ _ h => h.addCpl

theorem beginCrewReset (h : s.Canonical) {n} : (s.beginCrewReset n).Canonical :=
  have h := each (.abortColls (.dropHeld (.dropFlits (h.each fun _ _ h => h.resetCore.modCore))))
      fun _ _ h => h.modTally;
  .flushCpls
    (.setFld
       (.setFld
          (.dropBit
             (.showPending
                (.showPoints
                   (.releaseCopies
                      (.modCrew (.abortLaunches (.abortTal (.modCrew (.setAord (.ite h.endCkpt h))))))))))))

theorem clearRemap (h : s.Canonical) : s.clearRemap.Canonical := h.each fun _ _ h => h.setReg.setReg.setFld

theorem endLoad (h : s.Canonical) {status} : (s.endLoad status).Canonical := h.setRig.setFld.setFld.liveBit

theorem abandonLoad (h : s.Canonical) : s.abandonLoad.Canonical := .ite h.endLoad h

theorem beginChip (h : s.Canonical) : s.beginChip.Canonical :=
  have h := h.abandonLoad.clearRemap.setCores.setLinks.setQueues.setHostTal.setTabSets.setAord.setAtm.setWbq;
  have h := h.setTallies.setRegs.setStk.setPmc.setConv.setFlt.setPow;
  (h.each fun _ _ h => h.modCore).setFld.liveBit.liveBit.liveBit.liveBit.disarm.showFuses.setPins

theorem carryRegs {p : State} (h : s.Canonical) : (p.carryRegs s).Canonical :=
  have h := (h.each fun _ _ h => h.setFld).setFld.setFld.setFld.setFld.setFld.setFld.setFld
  have h := h.each fun _ _ h => h.setFld.setFld
  h.showFuses.showNv.showLog.showJnl.flushShown

theorem beginPackage (h : s.Canonical) {kind} : (s.beginPackage kind).Canonical := by
  unfold State.beginPackage
  refine setFld (setFld (carryRegs ?_))
  refine each ?_ fun _ _ h => h.modCore
  exact ⟨h.mem, h.host⟩

/-- The loss of power leaves HBM with no byte listed. -/
theorem powerOff (h : s.Canonical) : s.powerOff.Canonical := ⟨rfl, h.host⟩

theorem beginReset (h : s.Canonical) : ∀ {d}, (s.beginReset d).Canonical
  | .engine .. => h.begun.resetEngine
  | .core _ => h.begun.resetCore
  | .crew _ => h.begun.beginCrewReset.setFlt
  | .chip => h.begun.beginChip.setFlt
  | .package => h.begun.beginPackage
  | .cold => h.begun

theorem pumpFrom {s : State} (h : s.Canonical) : ∀ {fuel : Nat}, (s.pumpFrom fuel).Canonical
  | 0 => h
  | _ + 1 => by
    unfold State.pumpFrom
    split
    exacts [h, .ite h.setFlt.beginReset.pumpFrom h]

theorem pump (h : s.Canonical) : s.pump.Canonical := h.pumpFrom

theorem execDumpStart (h : s.Canonical) : EndsCanonical (execDumpStart s) := by
  unfold Machine.execDumpStart
  split
  exacts [.next h, .ite (.next h) (.ite (.next h.setFlt.raiseBit.pump) (.next h.setFlt.liveBit.showDom))]

theorem execDumpComplete (h : s.Canonical) : EndsCanonical (execDumpComplete s) := by
  unfold Machine.execDumpComplete
  split
  · exact .next h
  · refine .ite (.next h) (.next (.pump (.showDom (liveBit ?_))))
    split
    · exact h.hbmPut.setFlt.setFld.setFld.setFld.setFld
    · exact h.hbmPut.setFlt.setFld.setFld.setFld

theorem resetAsk (h : s.Canonical) {d cause} : (s.resetAsk d cause).Canonical :=
  .pump (.waitFor (.setFlt (.ite h h.askDump)))

theorem execResetEngine (h : s.Canonical) {v} : EndsCanonical (execResetEngine v s) :=
  .next (h.rcvCmd fun _ h => .ite h.resetAsk h.rcvRefuse)

theorem execResetCore (h : s.Canonical) {v} : EndsCanonical (execResetCore v s) :=
  .next (h.rcvCmd fun _ h => .ite h.resetAsk h.rcvRefuse)

theorem execResetCrew (h : s.Canonical) {v} : EndsCanonical (execResetCrew v s) :=
  .next (h.rcvCmd fun _ h => .ite h.resetAsk h.rcvRefuse)

theorem execResetChip (h : s.Canonical) {v} : EndsCanonical (execResetChip v s) :=
  .next (h.rcvCmd fun _ h => h.resetAsk)

theorem bootAs (h : s.Canonical) {kind} : (s.bootAs kind).Canonical := h.setPow

theorem execResetPackage (h : s.Canonical) {v} : EndsCanonical (execResetPackage v s) :=
  .next (h.rcvCmd fun _ h => h.bootAs.resetAsk)

theorem execPkgRstN (h : s.Canonical) {ns} : EndsCanonical (execPkgRstN ns s) :=
  .ite (.next h.bootAs.setFlt.pump) (.next h)

theorem reloadRig (h : s.Canonical) : s.reloadRig.Canonical := by
  unfold State.reloadRig
  split
  exacts [h, .ite h.setRig.setFlt h.setRig.setCrews.setCtxs.setTallies.setRegs.setReg.setFld.setFld]

theorem crewUp (h : s.Canonical) {n} : (s.crewUp n).Canonical := h.setFld.modCrew

theorem execResetComplete (h : s.Canonical) : EndsCanonical (execResetComplete s) := by
  unfold Machine.execResetComplete
  split
  · exact .next (by split; exacts [h.crewUp, h])
  · exact .next h.setFlt.crewUp.pump
  · exact .ite (have h := h.setFlt.setPow; .next (.pump (.ite h.reloadRig h))) (.next h)

theorem execPwrokAonFall (h : s.Canonical) : EndsCanonical (execPwrokAonFall s) := .next h.powerOff

/-! ### Time stamps -/

theorem execTimPtpmWrite (h : s.Canonical) {secondary interval v} :
    EndsCanonical (execTimPtpmWrite secondary interval v s) :=
  .ite (.next h.setTim.accept) (.next h)

theorem execTimSet (h : s.Canonical) {v} : EndsCanonical (execTimSet v s) :=
  have h := h.fromHost; .ite (.next h.stepForward) (.next h.raiseBit)

theorem execTimTsStatRead (h : s.Canonical) {x} : EndsCanonical (execTimTsStatRead x s) :=
  .ite (.next h)
    (.next
       (.giveWord
          (by split; exacts [h.setFld.setFld, h.setTim.setFld.setFld.setFld.setFld.setFld.setFld.setReg.setPair])))

theorem noteMgmt (h : s.Canonical) {e} : (s.noteMgmt e).Canonical := h.setTim

theorem execTransmitDescriptor (h : s.Canonical) {d} : EndsCanonical (execTransmitDescriptor d s) :=
  .ite (.next h) (.ite (.next (.ite h.noteMgmt (.ite h.enterTs h))) (.next h.setTim))

theorem execTimedLaunch (h : s.Canonical) {port t} : EndsCanonical (execTimedLaunch port t s) := by
  unfold Machine.execTimedLaunch
  dsimp only
  exact
    have h := h.advance;
    by split; exacts [.next h,
      .ite (.next h)
        (have h := h.setTim;
         .ite (have h := h.send; .next (.ite h.enterTs h)) (have h := h.fresh; .next (.launch (.ite h.noteMgmt h))))]

theorem execFrameReceive (h : s.Canonical) {port t frame} : EndsCanonical (execFrameReceive port t frame s) :=
  have h := h.advance; .ite (.next h.setTim.setFlt) (.next h)

theorem execCaptureEdge (h : s.Canonical) {ch src link cls t} :
    EndsCanonical (execCaptureEdge ch src link cls t s) :=
  have h := h.advance;
  .ite (.next h) (.ite (.next h.enterCapture) (by split; exacts [.next h.setTim.enterCapture, .next h]))

theorem writeCap (h : s.Canonical) {ch v} : (s.writeCap ch v).Canonical := .ite h.setTim h

theorem execTimCapWrite (h : s.Canonical) {ch v} : EndsCanonical (execTimCapWrite ch v s) :=
  .next (h.hostReg fun _ h => h.writeCap)

theorem capBoundary (h : s.Canonical) : s.capBoundary.Canonical := h.setTim.each fun _ _ h => h.hostPut

/-! ### Rig loads -/

theorem rigRegs (h : s.Canonical) {g} : (s.rigRegs g).Canonical :=
  .each (.each (h.setRegs.setReg.setReg.each fun _ _ h => by split; exacts [h.setReg, h]) fun _ _ h => h.setReg)
    fun _ _ h => h.setReg

theorem failLoad (h : s.Canonical) {f} : (s.failLoad f).Canonical := h.setFld.setFld.setPair.endLoad

theorem goRig (h : s.Canonical) {v} : (s.goRig v).Canonical := .ite h (.ite h.failLoad h.setRig.setFld.liveBit)

theorem writeRigCtl (h : s.Canonical) {v} : (s.writeRigCtl v).Canonical :=
  have h := h.fromHost.hostPut; have h := ite h.abandonLoad h; .ite h.goRig h

theorem execRigLoad (h : s.Canonical) {v} : EndsCanonical (execRigLoad v s) := .next h.writeRigCtl

theorem execRigAbort (h : s.Canonical) {v} : EndsCanonical (execRigAbort v s) := .next h.writeRigCtl

theorem rigBytes (h : s.Canonical) {l n} : (s.rigBytes l n).2.Canonical := .ite_snd h.hbmBytes h.hostFetch

theorem renumber (h : s.Canonical) {g} : (s.renumber g).Canonical := h.setReg.setReg.setReg.setStk.rewake

theorem execRigStaged (h : s.Canonical) {t} : EndsCanonical (execRigStaged t s) := by
  unfold Machine.execRigStaged
  dsimp only
  exact
    have h := h.advance;
    by split; exacts [.next h,
      .ite (.next h)
        (have h := h.rigBytes.rigBytes;
         by split; exacts [.next h.failLoad, .next (.setFld (.setRig (.ite h.renumber h)))])]

theorem rigCtxs (h : s.Canonical) {g} : (s.rigCtxs g).Canonical := h.setCtxs.each fun _ _ h => h.modQueue

theorem rigTallies (h : s.Canonical) {g} : (s.rigTallies g).Canonical := h.setTallies

theorem rigLinks (h : s.Canonical) {old g} : (s.rigLinks old g).Canonical :=
  h.each fun _ _ h => have h := h.modLink; .ite (.ite h h.setFld.dropBit.modLink) (.ite h.setFld.dropBit.modLink h)

theorem rigPers (h : s.Canonical) {old} : (s.rigPers old).Canonical := .ite h.setConv (.ite h h.setConv)

theorem rigCounts (h : s.Canonical) {n} : (s.rigCounts n).Canonical :=
  h.setReg.setReg.setReg.setFld.setReg.setReg.setReg.setFld

theorem rigPhase (h : s.Canonical) {old} : (s.rigPhase old).Canonical := .ite h h.setPair

theorem chipRestore (h : s.Canonical) {n} : (s.chipRestore n).Canonical :=
  have h := h.modCrew; have h := ite h.endCkpt h; .ite h.abortTal.abortLaunches.noPoint h.setFld.showPoints

theorem takeRig (h : s.Canonical) {g} : (s.takeRig g).Canonical :=
  have h := each
      (.rigLinks
         (.each
            (.each
               (.each
                  (h.rigRegs.rigPhase.setReg.setSource.setReg.rigCtxs.rigTallies.rigPers.each
                     fun _ _ h => h.modCrew.rigCounts)
                  fun _ _ h => h.modCrew.rigCounts.beginCrewReset.modCrew)
               fun _ _ h => h.setFld.showPending)
            fun _ _ h => h.releaseCopies))
      fun _ _ h => h.setFld;
  have h := setReg (.setNv (.setPmc (.setFlt (.setRig (.ite (h.each fun _ _ h => h.chipRestore) h)))));
  .ite h.setFld h.setFld.setFld.setFld.setFld.setPair

theorem rigEffect (h : s.Canonical) : s.rigEffect.Canonical := by
  unfold State.rigEffect
  split
  exacts [h, by split; exacts [h.failLoad, h.takeRig]]

theorem execRigShadowed (h : s.Canonical) : EndsCanonical (execRigShadowed s) := by
  unfold Machine.execRigShadowed
  split
  exacts [.next h, .ite (.next h.setNv.setFld.liveBit) (.next h)]

/-! ### Strokes -/

theorem pmcSample (h : s.Canonical) : s.pmcSample.Canonical := .ite (.ite h.setPmc.raiseBit h.setPmc) h

theorem pmcBoundary (h : s.Canonical) : s.pmcBoundary.Canonical :=
  have h := h.pmcSample.setPmc.each fun _ _ h => by split; exacts [h.hostPut, h];
  .ite (.each (h.setPmc.each fun _ _ h => h.setReg) fun _ _ h => h.setReg) h

theorem doTabSets (h : s.Canonical) : s.doTabSets.Canonical := h.setTabSets.each fun _ _ h => h.putTally

theorem doRemote (h : s.Canonical) {n} : (s.doRemote n).Canonical := .ite (h.modCrew.each fun _ _ h => h.putTally) h

theorem poolBoundary (h : s.Canonical) {n} : (s.poolBoundary n).Canonical := by
  unfold State.poolBoundary
  exact h.liveBit.modCrew

theorem stopMembers (h : s.Canonical) {n} : (s.stopMembers n).Canonical := by
  unfold State.stopMembers
  split
  exacts [.ite (h.each fun _ _ h => h.modCore) h, h]

theorem coxBoundary (h : s.Canonical) : s.coxBoundary.Canonical := by
  unfold State.coxBoundary
  split
  exacts [h.setCox, h]

theorem boundaryActions (h : s.Canonical) : s.boundaryActions.Canonical :=
  have h := h.coxBoundary;
  .ite h.pump
    (.pump
       (.each
          (.ringFlush
             (.each
                (.each
                   (.capBoundary
                      (.pmcBoundary
                         (.each
                            (.acceptAll
                               (.each
                                  (.each
                                     (.doHostTal
                                        (.each
                                           (.each
                                              (.each
                                                 (.doTabSets
                                                    (h.endMode.beginMode.rampVid.enterEasy.each
                                                       fun _ _ h => h.holdFreeze))
                                                 fun _ _ h => h.recoverBoundary)
                                              fun _ _ h => h.crewBoundary)
                                           fun _ _ h => h.doRemote))
                                     fun _ _ h => h.poolBoundary.stopMembers)
                                  fun _ _ h => h.modCore))
                            fun _ _ h => h.linkBoundary.drainColl)))
                   fun _ _ h => h.flushCpls)
                fun _ _ h => h.beginCrew))
          fun _ _ h => h.showDom))

theorem countJump (h : s.Canonical) {rx} : (s.countJump rx).Canonical := h.setStk.raiseBit

theorem beginStroke (h : s.Canonical) {n} : (s.beginStroke n).Canonical :=
  have h := h.setStk; .ite (h.each fun _ _ h => h.countJump) h

theorem endRecovery (h : s.Canonical) : s.endRecovery.Canonical := .ite h h.compareAll.verdictsDue.floorLines.setRecess

theorem execStrokeBoundary (h : s.Canonical) {t} : EndsCanonical (execStrokeBoundary t s) := by
  unfold Machine.execStrokeBoundary
  have h := h.advance (t := t)
  dsimp only
  split
  · exact .ite (.next h) (have h := h.endRecovery.beginStroke; .next (.ite h h.boundaryActions))
  · exact .next h

theorem execWakeComplete (h : s.Canonical) {t notReady} : EndsCanonical (execWakeComplete t notReady s) :=
  have h := h.advance; .ite (have h := h.wakeUp; .next (.ite h h.boundaryActions)) (.next h)

theorem execRigTakeEffect (h : s.Canonical) : EndsCanonical (execRigTakeEffect s) :=
  .next (.ite h.rigEffect.boundaryActions h)

theorem pmcRx (h : s.Canonical) {rx event} : (s.pmcRx rx event).Canonical :=
  .ite (h.each fun _ _ h => h.pmcCore) h.pmcDie

theorem anchorReplica (h : s.Canonical) {rx count} : (s.anchorReplica rx count).Canonical := by
  unfold State.anchorReplica
  exact h.modRx

theorem resync (h : s.Canonical) {rx} : (s.resync rx).Canonical := h.bump.setFld.pmcRx

theorem execStrokeMark (h : s.Canonical) {rx t num} : EndsCanonical (execStrokeMark rx t num s) :=
  have h := h.advance;
  .ite (.next h)
    (.ite (have h := h.modRx.anchorReplica; .next (.ite h h.resync))
       (.ite (.next h)
          (.ite (.ite (.next h.anchorReplica.modRx) (have h := h.bump.pmcRx.modRx; .next (.ite h.setFld h)))
             (have h := h.anchorReplica.resync.modRx; .next (.ite h h.countJump)))))

theorem execFlywheelBoundary (h : s.Canonical) {rx t} : EndsCanonical (execFlywheelBoundary rx t s) :=
  have h := h.advance; .ite (.next h) (.next h.noteCapture.modRx)

theorem execMissedMark (h : s.Canonical) {rx t} : EndsCanonical (execMissedMark rx t s) :=
  have h := h.advance;
  .ite (.next h) (have h := h.bump.pmcRx.modRx; .ite (.next h.setFld.raiseBit.raiseFault) (.next h))

theorem slipCrew (h : s.Canonical) {n late} : (s.slipCrew n late).Canonical :=
  .showDom (.liveBit (.ite h.crab.bump.modCrew h.setFld))

theorem discardLate (h : s.Canonical) {n} : (s.discardLate n).Canonical :=
  h.each
    fun _ _ h =>
      .each (.each (h.modLink.each fun _ _ h => h.leaveSlot.loseFlit) fun _ _ h => h.leaveSlot) fun _ _ h => h.leaveSlot

theorem crabCheck (h : s.Canonical) {n} : (s.crabCheck n).Canonical :=
  .ite (have h := h.discardLate; by split; exacts [h.crab, h]) h.slipCrew

theorem jumpCheck (h : s.Canonical) {n} : (s.jumpCheck n).Canonical := by
  unfold State.jumpCheck
  split
  exacts [.ite h.crab h, h]

theorem watchCore (h : s.Canonical) {c} : (s.watchCore c).Canonical := h.modCore

theorem execDriveEnd (h : s.Canonical) {t} : EndsCanonical (execDriveEnd t s) :=
  have h := h.advance;
  .ite (.next h)
    (have h := each (.recoveryLinks (.setStk (.each (h.each fun _ _ h => h.expireWaits) fun _ _ h => h.watchCore)))
         fun _ _ h => h.crabCheck;
     .next (.ite (h.each fun _ _ h => h.jumpCheck) h))

/-! ### Performance counters and trace -/

theorem execPairLoRead (h : s.Canonical) {who off} : EndsCanonical (execPairLoRead who off s) := by
  unfold Machine.execPairLoRead
  split
  exacts [.ite (.next h.stray.giveWord) (.next h.setConv.giveWord), .next h.setCox]

theorem execPmcDumpWrite (h : s.Canonical) : EndsCanonical (execPmcDumpWrite s) := by
  unfold Machine.execPmcDumpWrite
  split
  · exact .ite (have h := h.charge.hbmPut; have h := ite h.setPmc h; .next (.ite h.setPmc h.setReg.setPmc)) (.next h)
  · exact .next h

theorem execPmcClear (h : s.Canonical) {v} : EndsCanonical (execPmcClear v s) :=
  .next (h.hostReg fun _ h => have h := h.hostPut; .ite h.setPmc h)

theorem writeSel (h : s.Canonical) {off v} : (s.writeSel off v).Canonical := h.setPmc

theorem execPmcSelWrite (h : s.Canonical) {off v} : EndsCanonical (execPmcSelWrite off v s) :=
  .ite (.next (h.hostReg fun _ h => h.writeSel)) (.next h)

theorem tracePut (h : s.Canonical) {n r} : (s.tracePut n r).Canonical := h.hbmPut.setReg

theorem drainRecord (h : s.Canonical) {n c r} : (s.drainRecord n c r).Canonical := by
  unfold State.drainRecord
  refine (fun h => .ite h.setPmc.setReg h.tracePut) (?_ : State.Canonical _)
  split
  · exact .ite h h.setPmc.tracePut
  · exact h

theorem execTraceDrain (h : s.Canonical) {crew} : EndsCanonical (execTraceDrain crew s) :=
  .ite
    (by split; exacts [by split; exacts [.next (.drainRecord (.setPmc (.modCore (.ite h h.charge)))), .next h],
       .next h])
    (.next h)

/-! ### Register writes and parity -/

theorem writeQueue (h : s.Canonical) {off v} : (s.writeQueue off v).Canonical := h.modQueue

theorem writeReg (h : s.Canonical) {off v} : (s.writeReg off v).Canonical := by
  unfold State.writeReg
  split
  · exact h
  · exact .ite (have h := h.hostPut; .ite h.rcvRefuse h)
        (.ite (have h := h.hostPut; .ite h.chkRefuse h)
           (.ite h.putRwb.setFld
              (.ite h
                 (.ite h.writeQueue
                    (.ite h (.ite h.setReg (.ite h.hostPut.showLog (.ite h.hostPut.showJnlGone h.hostPut))))))))

theorem execRegisterWrite (h : s.Canonical) {off v} : EndsCanonical (execRegisterWrite off v s) :=
  .next (h.hostReg fun _ h => h.writeReg)

theorem execPciBar4Write (h : s.Canonical) {v} : EndsCanonical (execPciBar4Write v s) :=
  .next (h.hostReg fun _ h => h.hostPut)

theorem execBar0BadAccess (h : s.Canonical) {write off bytes} :
    EndsCanonical (execBar0BadAccess write off bytes s) :=
  .ite (.next h) (.next (.raiseBit (.ite h.fromHost h.giveHost)))

theorem hbmLoop (h : s.Canonical) {stack mode v} : (s.hbmLoop stack mode v).Canonical :=
  have h := h.fromHost;
  .ite h.stray (.ite h.putRwb.setFld (have h := h.hostPut.setFld; .ite h.setFld (.ite h.setFld.liveBit h)))

theorem execHbmLoopNearDigital (h : s.Canonical) {stack v} : EndsCanonical (execHbmLoopNearDigital stack v s) :=
  .next h.hbmLoop

theorem execHbmLoopPhyAnalogue (h : s.Canonical) {stack v} : EndsCanonical (execHbmLoopPhyAnalogue stack v s) :=
  .next h.hbmLoop

theorem execHbmLoopBaseDie (h : s.Canonical) {stack v} : EndsCanonical (execHbmLoopBaseDie stack v s) :=
  .next h.hbmLoop

theorem execHbmLoopOff (h : s.Canonical) {stack v} : EndsCanonical (execHbmLoopOff stack v s) := .next h.hbmLoop

theorem execHbmLoopDone (h : s.Canonical) {stack errors} : EndsCanonical (execHbmLoopDone stack errors s) :=
  .ite (.next h.liveBit.setFld.setFld) (.next h)

theorem execGlbNf6SeqRead (h : s.Canonical) : EndsCanonical (execGlbNf6SeqRead s) :=
  .ite (.next h.setReg.giveWord) (.next h.giveWord)

theorem execGlbNf6Clr (h : s.Canonical) {v} : EndsCanonical (execGlbNf6Clr v s) := by
  unfold Machine.execGlbNf6Clr
  dsimp only
  exact have h := h.fromHost; by split; exacts [.next h, .ite (.next (.setConv (.ite h h.setReg))) (.next h)]

theorem execParityScan (h : s.Canonical) {off bad} : EndsCanonical (execParityScan off bad s) :=
  .ite (.next h.setConv) (.next h)

theorem parityRecords (h : s.Canonical) {off d byRead} : (s.parityRecords off d byRead).Canonical :=
  have h' := h.setConv; .ite h.raiseFault (by split; exacts [h'.raiseFault, h'.each fun _ _ h => h.raiseFault])

theorem execParityFailure (h : s.Canonical) {off byRead} : EndsCanonical (execParityFailure off byRead s) :=
  .ite (.next h)
    (have h := h.parityRecords.setConv.raiseBit.setFld.liveBit; by split; exacts [.next h.resetAsk, .next h])

theorem reloadReg (h : s.Canonical) {off q} : (s.reloadReg off q).Canonical := by
  unfold State.reloadReg
  split
  exacts [h, .ite h.modQueue (.ite h.modQueue (.ite h.modQueue (.ite h.modQueue (.ite h.modQueue h.setReg))))]

theorem performWrite (h : s.Canonical) {p} : (s.performWrite p).Canonical := by
  unfold State.performWrite
  split
  · exact h
  · exact .ite h.writeQcfg
        (.ite h.writeWakeAt (.ite h.writeFltCtl (.ite h.writeCap (.ite h.writeSel (.ite h.hostPut h.writeReg)))))

theorem execParityReloadDone (h : s.Canonical) {off} : EndsCanonical (execParityReloadDone off s) := by
  unfold Machine.execParityReloadDone
  split
  · exact .next h
  · exact .ite (.next h) (.next (h.reloadReg.setConv.liveBit.setConv.each fun _ _ h => .ite h.setConv h.performWrite))

/-! ### The coxswain -/

theorem claimRecord (h : s.Canonical) {event detail} : (s.claimRecord event detail).Canonical := h.raiseFault

theorem presentClaim (h : s.Canonical) : s.presentClaim.Canonical := .ite h h.setNv.setCox.setReg

theorem askRole (h : s.Canonical) : s.askRole.Canonical := .ite h.send h

theorem openGaps (h : s.Canonical) : s.openGaps.Canonical := h.each fun _ _ h => .ite h h.setCox.raiseBit

theorem beginTakeover (h : s.Canonical) {why} : (s.beginTakeover why).Canonical :=
  h.setCox.setFld.bump.raiseBit.setReg.openGaps.disarm.clocksUp.trigger.abandonLoad

theorem startTakeover (h : s.Canonical) {why} : (s.startTakeover why).Canonical := .ite h.setCox h.beginTakeover

theorem sendQueued (h : s.Canonical) : s.sendQueued.Canonical := h.setCox.each fun _ _ h => h.send

theorem coreActive (h : s.Canonical) : s.coreActive.Canonical := h.setFld.setFld.setCox.sendQueued

theorem execCoxBeatWrite (h : s.Canonical) {v t} : EndsCanonical (execCoxBeatWrite v t s) :=
  have h := h.advance; .ite (.next h.setReg.setCox) (.ite (.next h.setReg.setCox.coreActive) (.next h))

theorem execHeartbeatExpiry (h : s.Canonical) {t} : EndsCanonical (execHeartbeatExpiry t s) :=
  have h := h.advance; .ite (.next h.startTakeover) (.next h)

theorem execCoreMemoryUe (h : s.Canonical) : EndsCanonical (execCoreMemoryUe s) := .next (.ite h.startTakeover h)

theorem execFirmwareHandover (h : s.Canonical) : EndsCanonical (execFirmwareHandover s) :=
  .next (.ite h.startTakeover h)

theorem execTakeover (h : s.Canonical) {t imageOk epochOk} : EndsCanonical (execTakeover t imageOk epochOk s) :=
  have h := h.advance; .ite (have h := h.setCox.presentClaim; .ite (.next h.claimRecord.askRole) (.next h)) (.next h)

theorem goHeadless (h : s.Canonical) {n} : (s.goHeadless n).Canonical := h.setFld.setReg.disarm.setCox.claimRecord

theorem execTakeoverFailure (h : s.Canonical) {t} : EndsCanonical (execTakeoverFailure t s) := by
  unfold Machine.execTakeoverFailure
  dsimp only
  exact have h := h.advance; by split; exacts [.ite (.next (.ite h.goHeadless h.startTakeover)) (.next h), .next h]

theorem drive (h : s.Canonical) {g v} : (s.drive g v).Canonical := by
  unfold State.drive
  split
  · exact have h := h.setPins; have h := ite h.resetAsk h; .ite h.resetAsk h
  · exact .ite h h.setPins
  · exact h.setPins
  · exact h.setCox
  · exact .ite h.send h
  · exact h.setPins
  · exact h

theorem execGateCommand (h : s.Canonical) {g claim value} : EndsCanonical (execGateCommand g claim value s) :=
  .ite (.next h)
    (.ite (.next h.raiseBit.claimRecord) (have h := h.setCox.setReg; .next (.drive (.ite h.dropBit.dropBit h))))

theorem safeOutputs (h : s.Canonical) {g} : (s.safeOutputs g).Canonical := by
  unfold State.safeOutputs
  split
  exacts [h.setPins, .ite h h.setPins, h.setPins, h.setCox, h.each fun _ _ h => h.send, h.setPins]

theorem execGapBoundExpiry (h : s.Canonical) {g t} : EndsCanonical (execGapBoundExpiry g t s) :=
  have h := h.advance; .ite (.next h.safeOutputs.raiseBit) (.next h)

theorem execClaimBroadcast (h : s.Canonical) : EndsCanonical (execClaimBroadcast s) :=
  .ite (.next h.setCox.send) (.next h)

theorem execRoleRequest (h : s.Canonical) {claim} : EndsCanonical (execRoleRequest claim s) :=
  .ite (.next h.setCox.dropBit.send.claimRecord) (.next h)

theorem execTraySilence (h : s.Canonical) {t} : EndsCanonical (execTraySilence t s) :=
  have h := h.advance; .ite (.next h.raiseBit.claimRecord) (.next h)

theorem powerRecord (h : s.Canonical) {event detail} : (s.powerRecord event detail).Canonical := h.raiseFault

theorem execPwrWarnAssert (h : s.Canonical) {ns} : EndsCanonical (execPwrWarnAssert ns s) :=
  .ite (.next h) (.next h.advance.setPow.liveBit.powerRecord.recordAll.program.setCox)

theorem execPowerFailFlushDone (h : s.Canonical) : EndsCanonical (execPowerFailFlushDone s) :=
  .ite (.next h.setPow.pump) (.next h)

theorem resumeTakeover (h : s.Canonical) : s.resumeTakeover.Canonical := h.setCox.setReg

theorem execPwrWarnRelease (h : s.Canonical) {ns} : EndsCanonical (execPwrWarnRelease ns s) := by
  unfold Machine.execPwrWarnRelease
  split
  · exact .ite (.next h)
        (have h := h.advance.setPow.liveBit.powerRecord;
         .next (.pump (.ite h.resumeTakeover (.ite h.beginTakeover h))))
  · exact .next h

theorem execMgmtWake (h : s.Canonical) {authentic} : EndsCanonical (execMgmtWake authentic s) :=
  .next (.ite h.requestWake h)

theorem execLogRead (h : s.Canonical) {seq} : EndsCanonical (execLogRead seq s) :=
  .ite (.next h) (by split; exacts [.next h.send, .next h.send])

theorem execJnlRead (h : s.Canonical) {num} : EndsCanonical (execJnlRead num s) := by
  refine .ite (.next h) ?_
  split
  all_goals next heq => exact .next (snd_of_eq heq h.findJnl).send

theorem service (h : s.Canonical) {op m act} (hact : ∀ t, t.Canonical → (act t).Canonical) :
    (s.service op m act).Canonical :=
  .ite (hact _ h.setNv) h

theorem execClearReplace (h : s.Canonical) {m} : EndsCanonical (execClearReplace m s) :=
  .next (h.service fun _ h => h.setNv.setFld.setFld)

theorem execHandover (h : s.Canonical) {m} : EndsCanonical (execHandover m s) :=
  .next (h.service fun _ h => .ite h h.startTakeover)

theorem execSetConfig (h : s.Canonical) {m} : EndsCanonical (execSetConfig m s) :=
  .next (h.service fun _ h => by split; exacts [h.setNv, h])

theorem execSetMgmtKey (h : s.Canonical) {m} : EndsCanonical (execSetMgmtKey m s) :=
  .next (h.service fun _ h => h.setNv.setCox)

theorem execSetPreferred (h : s.Canonical) {m} : EndsCanonical (execSetPreferred m s) :=
  .next (h.service fun _ h => h.setNv)

theorem execPldmFirmwareUpdate (h : s.Canonical) {image sig} :
    EndsCanonical (execPldmFirmwareUpdate image sig s) :=
  .ite (.next h) (.next h.setNv)

/-! ### Power-up -/

theorem execPwrokAonRise (h : s.Canonical) {traySlot testEn} :
    EndsCanonical (execPwrokAonRise traySlot testEn s) :=
  .ite (.next h) (.next h.setRaw.setPow.setPins.setFlt.setCox.carryRegs.clocksUp.liveBit)

theorem powerStep2 (h : s.Canonical) : s.powerStep2.Canonical :=
  h.liveBit.clocksUp.setStk.setCox.setFld.setFld.trigger.journal.bootAs

theorem powerStep3 (h : s.Canonical) : s.powerStep3.Canonical :=
  have h := h.setCox; .ite h.showNv h.raiseBit.powerRecord.showNv

theorem powerStep4 (h : s.Canonical) : s.powerStep4.Canonical := h.setCox.presentClaim.askRole.setReg.setSource

theorem mapRow (h : s.Canonical) {row} : (s.mapRow row).Canonical := by
  unfold State.mapRow
  dsimp only
  exact
    have h := h.setReg.setFld;
    by split; exacts [h.setFld.setFld.liveBit, .liveBit (.setFld (.setFld (.ite h (.ite h.setFld h.setReg))))]

theorem powerStep8 (h : s.Canonical) : s.powerStep8.Canonical := by
  unfold State.powerStep8
  exact have h := setFld (h.each fun _ _ h => h.mapRow); .ite h.setReplace h

theorem trainLink (h : s.Canonical) {l ok} : (s.trainLink l ok).Canonical :=
  have h := h.setReg.modLink.setFld; .ite h.setFld (.ite (.modLink (.setFld (h.each fun _ _ h => h.setFld))) h.linkDown)

theorem endPowerUp (h : s.Canonical) : s.endPowerUp.Canonical := h.setPow

theorem stepPassed (h : s.Canonical) {n bad} : (s.stepPassed n bad).Canonical := by
  unfold State.stepPassed
  split
  · exact h.powerStep2
  · exact h.powerStep3
  · exact h.powerStep4
  · exact h.setPins.clocksUp
  · exact h.setPins.clocksUp.each fun _ _ h => h.setFld
  · exact h.setPins.setPow.setFld.clocksUp
  · exact h.powerStep8
  · exact h.each fun _ _ h => h.trainLink
  · exact h

theorem stepFailed (h : s.Canonical) {n bad} : (s.stepFailed n bad).2.Canonical := by
  unfold State.stepFailed
  split
  · exact h.setPins.endPowerUp
  · exact .ite h.startTakeover h
  · exact setFlt (setPins h) |>.setReplace.endPowerUp
  · exact h.setPins.setReplace.endPowerUp
  · exact h.powerStep8.pair
  · exact h.stepPassed.pair
  · exact h
  · exact h

theorem execPowerUpStep (h : s.Canonical) {t ok bad} : EndsCanonical (execPowerUpStep t ok bad s) := by
  have h := h.advance (t := t)
  refine .ite (.next h) (.ite (.next (.ite (.setSource (.setPow h.setReg)) h)) (.ite (.next h.stepPassed.setPow) ?_))
  split
  next heq => exact .next (snd_of_eq heq h.stepFailed).setPow
  next heq => exact .next (snd_of_eq heq h.stepFailed)

theorem execPciPerstN (h : s.Canonical) : EndsCanonical (execPciPerstN s) := .next h.setPow

theorem execPciPerstNRelease (h : s.Canonical) : EndsCanonical (execPciPerstNRelease s) :=
  .next (h.setPow.ringFlush.each fun _ _ h => h.flushCpls)

theorem linkLoop (h : s.Canonical) {l mode v} : (s.linkLoop l mode v).Canonical :=
  have h := h.fromHost; .ite h.stray (.ite h.putRwb.setFld (have h := h.hostPut.setFld; .ite h.liveBit.setFld h))

theorem execLoopNearDigital (h : s.Canonical) {link v} : EndsCanonical (execLoopNearDigital link v s) :=
  .next h.linkLoop

theorem execLoopNearAnalogue (h : s.Canonical) {link v} : EndsCanonical (execLoopNearAnalogue link v s) :=
  .next h.linkLoop

theorem execLoopEcho (h : s.Canonical) {link v} : EndsCanonical (execLoopEcho link v s) := .next h.linkLoop

theorem execLoopLineCheck (h : s.Canonical) {link v} : EndsCanonical (execLoopLineCheck link v s) := .next h.linkLoop

theorem execLinkLoopDone (h : s.Canonical) {link errs0 errs1} :
    EndsCanonical (execLinkLoopDone link errs0 errs1 s) :=
  .ite (.next h.liveBit.setFld.setFld.setFld) (.next h)

theorem execLinkLoopOff (h : s.Canonical) {link v} : EndsCanonical (execLinkLoopOff link v s) :=
  have h := h.fromHost; .ite (.next h.stray) (have h := h.hostPut.setFld.liveBit; .next (.ite h.setFld.modLink h))

/-! ### Instructions and the step -/

theorem exec (h : s.Canonical) : ∀ c : Instr, EndsCanonical (Machine.exec c s)
  | .strokeBoundary _ => h.execStrokeBoundary
  | .strokeMark .. => h.execStrokeMark
  | .flywheelBoundary .. => h.execFlywheelBoundary
  | .missedMark .. => h.execMissedMark
  | .driveEnd _ => h.execDriveEnd
  | .waitTimeout _ => h.execWaitTimeout
  | .modeChangeRequest _ => h.execModeChangeRequest
  | .modeSettleEnd _ => h.execModeSettleEnd
  | .easyEnter _ => h.execEasyEnter
  | .easyEntryComplete _ => h.execEasyEntryComplete
  | .easyWake _ => h.execEasyWake
  | .wakeAtReached _ => h.execWakeAtReached
  | .wakeAtWrite .. => h.execWakeAtWrite
  | .wakeSequence _ => h.execWakeSequence
  | .wakeComplete .. => h.execWakeComplete
  | .strayAccess .. => h.execStrayAccess
  | .clockMonitorTrip _ => h.execClockMonitorTrip
  | .monitorRearm .. => h.execMonitorRearm
  | .blockIdleEnter _ => h.execBlockIdleEnter
  | .blockIdleExit _ => h.execBlockIdleExit
  | .overCurrentTrip _ => h.execOverCurrentTrip
  | .powerGoodFall .. => h.execPowerGoodFall
  | .doorbell .. => h.execDoorbell
  | .ringEntryFetch .. => h.execRingEntryFetch
  | .hostLaunch _ => h.execHostLaunch
  | .hostTallyAdd _ => h.execHostTallyAdd
  | .hostTallySet _ => h.execHostTallySet
  | .queueWait _ => h.execQueueWait
  | .hostNop _ => h.execHostNop
  | .directoryCheck _ => h.execDirectoryCheck
  | .argumentBlockLanded _ => h.execArgumentBlockLanded
  | .launchComplete _ => h.execLaunchComplete
  | .entryIssue _ => h.execEntryIssue
  | .commandWordDispatch _ => h.execCommandWordDispatch
  | .runAheadFetch _ => h.execRunAheadFetch
  | .tallyAddCmd _ => h.execTallyAddCmd
  | .waitGe _ => h.execWaitGe
  | .tallySetCmd _ => h.execTallySetCmd
  | .tallyReadCmd _ => h.execTallyReadCmd
  | .ctlNop _ => h.execCtlNop
  | .fenceCmd _ => h.execFenceCmd
  | .loopCmd _ => h.execLoopCmd
  | .endTable _ => h.execEndTable
  | .stepCmd _ => h.execStepCmd
  | .poolTake _ => h.execPoolTake
  | .poolPut _ => h.execPoolPut
  | .markCmd _ => h.execMarkCmd
  | .talAddWrite .. => h.execTalAddWrite
  | .talSetWrite .. => h.execTalSetWrite
  | .seqQcfgWrite _ => h.execSeqQcfgWrite
  | .matrixFull .. => h.execMatrixFull
  | .matrixQuad .. => h.execMatrixQuad
  | .matrixWide .. => h.execMatrixWide
  | .emitCommit .. => h.execEmitCommit
  | .engAccDataWrite .. => h.execEngAccDataWrite
  | .ceWriteback .. => h.execCeWriteback
  | .patrolRead .. => h.execPatrolRead
  | .vecAdd _ => h.execVecAdd
  | .vecSub _ => h.execVecSub
  | .vecMul _ => h.execVecMul
  | .vecFma _ => h.execVecFma
  | .vecDiv _ => h.execVecDiv
  | .vecMin _ => h.execVecMin
  | .vecMax _ => h.execVecMax
  | .vecSqrt _ => h.execVecSqrt
  | .vecRecip _ => h.execVecRecip
  | .vecRsqrt _ => h.execVecRsqrt
  | .vecExp2 _ => h.execVecExp2
  | .vecExp _ => h.execVecExp
  | .vecLog2 _ => h.execVecLog2
  | .vecLn _ => h.execVecLn
  | .vecSin _ => h.execVecSin
  | .vecCos _ => h.execVecCos
  | .vecTanh _ => h.execVecTanh
  | .vecSigmoid _ => h.execVecSigmoid
  | .vecErf _ => h.execVecErf
  | .vecCvt _ => h.execVecCvt
  | .vecCmplt _ => h.execVecCmplt
  | .vecCmple _ => h.execVecCmple
  | .vecCmpeq _ => h.execVecCmpeq
  | .vecSelect _ => h.execVecSelect
  | .vecRsum _ => h.execVecRsum
  | .vecRmax _ => h.execVecRmax
  | .vecRmin _ => h.execVecRmin
  | .vecRsumsq _ => h.execVecRsumsq
  | .vecRsumc _ => h.execVecRsumc
  | .vecRope _ => h.execVecRope
  | .vecMask _ => h.execVecMask
  | .dmaCopy .. => h.execDmaCopy
  | .dmaGather .. => h.execDmaGather
  | .dmaScatter .. => h.execDmaScatter
  | .dmaRingAppend .. => h.execDmaRingAppend
  | .ringAppendLine .. => h.execRingAppendLine
  | .dmaFill .. => h.execDmaFill
  | .dmaSend .. => h.execDmaSend
  | .hbmRead .. => h.execHbmRead
  | .hbmWrite .. => h.execHbmWrite
  | .hbmWriteback _ => h.execHbmWriteback
  | .scrubLine .. => h.execScrubLine
  | .hbmRefresh pc => h.execHbmRefresh (pc := pc)
  | .hbmTempChange .. => h.execHbmTempChange
  | .grainRead .. => h.execGrainRead
  | .grainWrite .. => h.execGrainWrite
  | .atomicRequest .. => h.execAtomicRequest
  | .orderedAtomicApply _ => h.execOrderedAtomicApply
  | .bar4Read .. => h.execBar4Read
  | .bar4Write .. => h.execBar4Write
  | .hbmLoopNearDigital .. => h.execHbmLoopNearDigital
  | .hbmLoopPhyAnalogue .. => h.execHbmLoopPhyAnalogue
  | .hbmLoopBaseDie .. => h.execHbmLoopBaseDie
  | .hbmLoopDone .. => h.execHbmLoopDone
  | .hbmLoopOff .. => h.execHbmLoopOff
  | .gateSlot .. => h.execGateSlot
  | .flitLaunch .. => h.execFlitLaunch
  | .flitReceive .. => h.execFlitReceive
  | .flitDeliver _ => h.execFlitDeliver
  | .linkFlit .. => h.execLinkFlit
  | .linkFlitSend .. => h.execLinkFlitSend
  | .linkRetry .. => h.execLinkRetry
  | .creditSync .. => h.execCreditSync
  | .landAck .. => h.execLandAck
  | .ackTimeout .. => h.execAckTimeout
  | .laneUnusable .. => h.execLaneUnusable
  | .laneDegrade .. => h.execLaneDegrade
  | .laneAck _ => h.execLaneAck
  | .restripe _ => h.execRestripe
  | .linkDown _ => h.execLinkDown
  | .linkSilenceTimeout .. => h.execLinkSilenceTimeout
  | .linkRetrain .. => h.execLinkRetrain
  | .allReduce .. => h.execAllReduce
  | .reduceScatter .. => h.execReduceScatter
  | .allGather .. => h.execAllGather
  | .collPartial .. => h.execCollPartial
  | .collectiveComplete .. => h.execCollectiveComplete
  | .abortNotice _ => h.execAbortNotice
  | .timeReqSend .. => h.execTimeReqSend
  | .timeReq .. => h.execTimeReq
  | .timeResp .. => h.execTimeResp
  | .exchangeAbandon .. => h.execExchangeAbandon
  | .timPtpmWrite .. => h.execTimPtpmWrite
  | .sourceSilence _ => h.execSourceSilence
  | .holdoverExpiry _ => h.execHoldoverExpiry
  | .reAnchor _ => h.execReAnchor
  | .timSet _ => h.execTimSet
  | .timTsStatRead _ => h.execTimTsStatRead
  | .timedLaunch .. => h.execTimedLaunch
  | .transmitDescriptor _ => h.execTransmitDescriptor
  | .frameReceive .. => h.execFrameReceive
  | .captureEdge .. => h.execCaptureEdge
  | .timCapWrite .. => h.execTimCapWrite
  | .pairLoRead .. => h.execPairLoRead
  | .umpireCompare _ => h.execUmpireCompare
  | .mismatchFault _ => h.execMismatchFault
  | .mismatchVerdict _ => h.execMismatchVerdict
  | .transientWindowClose _ => h.execTransientWindowClose
  | .watchCloseRequest _ => h.execWatchCloseRequest
  | .watchClose .. => h.execWatchClose
  | .watchMergeComplete .. => h.execWatchMergeComplete
  | .faultRecord => h.execFaultRecord
  | .glbFltCtlWrite _ => h.execGlbFltCtlWrite
  | .poisonConsumed _ => h.execPoisonConsumed
  | .spareSwitchIn _ => h.execSpareSwitchIn
  | .suspectDrain => h.execSuspectDrain
  | .orderlyDrain _ => h.execOrderlyDrain
  | .drainStepLimit _ => h.execDrainStepLimit
  | .drainComplete => h.execDrainComplete
  | .hardFaultWindowClose _ => h.execHardFaultWindowClose
  | .crewStop _ => h.execCrewStop
  | .rollbackRun _ => h.execRollbackRun
  | .restorationComplete _ => h.execRestorationComplete
  | .queueWatchdog .. => h.execQueueWatchdog
  | .tallyWaitWatchdog .. => h.execTallyWaitWatchdog
  | .engineProgressWatchdog .. => h.execEngineProgressWatchdog
  | .collectiveWatchdog .. => h.execCollectiveWatchdog
  | .slipWatchdog _ => h.execSlipWatchdog
  | .dumpStart => h.execDumpStart
  | .dumpComplete => h.execDumpComplete
  | .haltCmd _ => h.execHaltCmd
  | .releaseCmd _ => h.execReleaseCmd
  | .rollbackRequest _ => h.execRollbackRequest
  | .resetEngine _ => h.execResetEngine
  | .resetCore _ => h.execResetCore
  | .resetCrew _ => h.execResetCrew
  | .resetChip _ => h.execResetChip
  | .resetPackage _ => h.execResetPackage
  | .resetComplete => h.execResetComplete
  | .pkgRstN _ => h.execPkgRstN
  | .freezeEnd .. => h.execFreezeEnd
  | .cowLineCopy .. => h.execCowLineCopy
  | .checkpointTimer _ => h.execCheckpointTimer
  | .takeFull _ => h.execTakeFull
  | .takeTensor _ => h.execTakeTensor
  | .restoreFull _ => h.execRestoreFull
  | .restoreTensor _ => h.execRestoreTensor
  | .chkAbandon _ => h.execChkAbandon
  | .checkpointPageCopy _ => h.execCheckpointPageCopy
  | .checkpointComplete _ => h.execCheckpointComplete
  | .coxBeatWrite .. => h.execCoxBeatWrite
  | .heartbeatExpiry _ => h.execHeartbeatExpiry
  | .coreMemoryUe => h.execCoreMemoryUe
  | .firmwareHandover => h.execFirmwareHandover
  | .takeover .. => h.execTakeover
  | .takeoverFailure _ => h.execTakeoverFailure
  | .gateCommand .. => h.execGateCommand
  | .gapBoundExpiry .. => h.execGapBoundExpiry
  | .claimBroadcast => h.execClaimBroadcast
  | .roleRequest _ => h.execRoleRequest
  | .traySilence _ => h.execTraySilence
  | .logbookRecord => h.execLogbookRecord
  | .logbookFlush => h.execLogbookFlush
  | .sectorProgram _ => h.execSectorProgram
  | .logWinRead _ => h.execLogWinRead
  | .jnlWinRead _ => h.execJnlWinRead
  | .journalMirror => h.execJournalMirror
  | .pwrWarnAssert _ => h.execPwrWarnAssert
  | .powerFailFlushDone => h.execPowerFailFlushDone
  | .pwrWarnRelease _ => h.execPwrWarnRelease
  | .mgmtWake _ => h.execMgmtWake
  | .logRead _ => h.execLogRead
  | .jnlRead _ => h.execJnlRead
  | .clearReplace _ => h.execClearReplace
  | .handover _ => h.execHandover
  | .setConfig _ => h.execSetConfig
  | .setMgmtKey _ => h.execSetMgmtKey
  | .setPreferred _ => h.execSetPreferred
  | .pmcDumpWrite => h.execPmcDumpWrite
  | .pmcClear _ => h.execPmcClear
  | .pmcSelWrite .. => h.execPmcSelWrite
  | .counterWindowRead .. => h.execCounterWindowRead
  | .traceDrain _ => h.execTraceDrain
  | .registerWrite .. => h.execRegisterWrite
  | .bar0BadAccess .. => h.execBar0BadAccess
  | .glbNf6SeqRead => h.execGlbNf6SeqRead
  | .glbNf6Clr _ => h.execGlbNf6Clr
  | .parityScan .. => h.execParityScan
  | .parityFailure .. => h.execParityFailure
  | .parityReloadDone _ => h.execParityReloadDone
  | .pciBar4Write _ => h.execPciBar4Write
  | .rigLoad _ => h.execRigLoad
  | .rigStaged _ => h.execRigStaged
  | .rigTakeEffect => h.execRigTakeEffect
  | .rigShadowed => h.execRigShadowed
  | .rigAbort _ => h.execRigAbort
  | .pwrokAonRise .. => h.execPwrokAonRise
  | .powerUpStep .. => h.execPowerUpStep
  | .pciPerstN => h.execPciPerstN
  | .thermalWarn .. => h.execThermalWarn
  | .throttleEnter .. => h.execThrottleEnter
  | .throttleExit .. => h.execThrottleExit
  | .criticalTrip .. => h.execCriticalTrip
  | .loopNearDigital .. => h.execLoopNearDigital
  | .loopNearAnalogue .. => h.execLoopNearAnalogue
  | .loopEcho .. => h.execLoopEcho
  | .loopLineCheck .. => h.execLoopLineCheck
  | .linkLoopDone .. => h.execLinkLoopDone
  | .linkLoopOff .. => h.execLinkLoopOff
  | .timedAcknowledgement .. => h.execTimedAcknowledgement
  | .pwrokAonFall => h.execPwrokAonFall
  | .pciPerstNRelease => h.execPciPerstNRelease
  | .ucieModuleFailure _ => h.execUcieModuleFailure
  | .restoreComplete _ => h.execRestoreComplete
  | .pldmFirmwareUpdate .. => h.execPldmFirmwareUpdate
  | .thermalWarnClear .. => h.execThermalWarnClear

theorem step (h : s.Canonical) : EndsCanonical (Machine.step s) := by
  unfold Machine.step
  split
  · exact .next (.ite h h.setRaw)
  · refine exec (s := { s with pending := _ }) ?_ _
    exact ⟨h.mem, h.host⟩

end State.Canonical
end Sys2Proof.Machine

namespace Sys2Proof.Proofs
open Sys2Proof.Machine

/-- Settles O59: `State.Canonical` is kept by each instruction's function, and a step is one of them or a tick of the raw
counter. -/
theorem everyStepKeepsTheMemoriesCanonical : Obligations.EveryStepKeepsTheMemoriesCanonical := by
  intro s t hmem hhost hstep
  have hends := State.Canonical.step ⟨hmem, hhost⟩
  rw [hstep] at hends
  obtain ⟨ht⟩ := hends
  exact ⟨ht.mem, ht.host⟩

end Sys2Proof.Proofs
end

section
/-!
PROOFS. The registers of the stacks (07 R175, R185), and the loop-back tests of their pins (07 R185).
-/
namespace Sys2Proof.Machine

variable (s : State)

/-! ### The registers of a stack -/

/-- Where a register that every stack has one of stands. -/
theorem RegDef.addr_stk4 {r : RegDef} (hr : r.dims = [(2, 0x800000), (4, 0x1000)]) (k : Nat) :
    r.addr (stk4 k) = r.base + 0x800000 * (k / 4) + 0x1000 * (k % 4) := by
  rw [RegDef.addr, hr]
  rfl

/-- Two registers of a stack stand apart. -/
theorem RegDef.addr_stk4_ne {r r' : RegDef} (hr : r.dims = [(2, 0x800000), (4, 0x1000)]) (hr' : r'.dims = r.dims)
    (hbase : r'.base ≠ r.base) (k : Nat) : r'.addr (stk4 k) ≠ r.addr (stk4 k) := by
  rw [RegDef.addr_stk4 hr, RegDef.addr_stk4 (hr'.trans hr)]
  omega

/-- A register of a stack stands above the global registers that lie below its base. -/
theorem RegDef.addr_stk4_ne_global {r r' : RegDef} (hr' : r'.dims = []) (hbase : r'.base < r.base) (k : Nat) :
    r.addr (stk4 k) ≠ r'.addr [] := by
  have hle := r.base_le_addr (stk4 k)
  have hglobal : r'.addr [] = r'.base := by
    rw [RegDef.addr, hr']
    rfl
  omega

/-! ### What a host write takes -/

/-- Bits that a write takes read as written. -/
theorem bits_merge_of_masked {old v take clear : Word} {hi lo : Nat}
    (ht : bits take.toNat hi lo = 2 ^ (hi + 1 - lo) - 1) :
    bits ((old &&& ~~~take &&& ~~~clear) ||| (v &&& take)).toNat hi lo = bits v.toNat hi lo := by
  refine Nat.eq_of_testBit_eq fun i => ?_
  have hbit := testBit_bits take.toNat hi lo i
  rw [ht, Nat.testBit_two_pow_sub_one, BitVec.testBit_toNat] at hbit
  rw [testBit_bits, testBit_bits]
  by_cases hlt : i < hi + 1 - lo
  · have htake : take.getLsbD (lo + i) = true := by simpa only [hlt, decide_true, Bool.true_and, eq_comm] using hbit
    simp only [BitVec.testBit_toNat, BitVec.getLsbD_or, BitVec.getLsbD_and, BitVec.getLsbD_not, htake, Bool.not_true,
      Bool.and_false, Bool.false_and, Bool.false_or, Bool.and_true]
  · simp only [hlt, decide_false, Bool.false_and]

/-- A field that the host writes reads as written. -/
theorem State.fld_hostPut_taken {f : Fld} {ix : List Nat} (hpar : f.reg.addr ix ≠ R.GLB_CFGPAR.addr [])
    (h : ∀ test : Bool, bits (f.reg.maskOf fun a => match a with | .rw => true | .rwb => test | _ => false).toNat f.hi f.lo
      = 2 ^ (f.hi + 1 - f.lo) - 1) (v : Word) : (s.hostPut f.reg ix v).fld f ix = bits v.toNat f.hi f.lo := by
  simp only [State.fld, State.hostPut]
  rw [State.reg_rwbNote _ hpar, State.reg_congr (State.setConv_regs _ _), State.reg_setReg_same]
  exact bits_merge_of_masked (h _)

/-- A field of another register reads as before a host write. -/
theorem State.fld_hostPut_reg {f : Fld} {r : RegDef} {ix jx : List Nat} (h : f.reg.addr jx ≠ r.addr ix)
    (hpar : f.reg.addr jx ≠ R.GLB_CFGPAR.addr []) (v : Word) : (s.hostPut r ix v).fld f jx = s.fld f jx := by
  rw [State.fld, State.reg_hostPut_ne s h hpar v, State.fld]

/-! ### HBM_LOOP -/

theorem State.hbmLoop_keeps {β : Type} (p : State → β) (hregs : ∀ s x, p (State.setRegs s x) = p s)
    (hconv : ∀ s x, p (State.setConv s x) = p s) (hpmc : ∀ s x, p (State.setPmc s x) = p s) (k mode : Nat) (v : Word) :
    p (s.hbmLoop k mode v) = p s := by
  have hhost := State.fromHost_keeps s p hpmc 4
  have hput : ∀ s : State, ∀ v : Word, p (s.hostPut R.HBM_LOOP (stk4 k) v) = p s := fun s v =>
    State.hostPut_keeps s p hregs hconv _ _ v
  have hlive : ∀ s : State, p (s.liveBit F.HBM_LOOP_busy (stk4 k) true) = p s := fun s =>
    State.liveBit_keeps s p hregs hconv _ _ _
  unfold State.hbmLoop
  dsimp only
  split_ifs
  · exact (State.raiseBit_keeps _ p hregs hconv _ _).trans hhost
  · exact (hregs _ _).trans ((hput _ _).trans hhost)
  · exact (hregs _ _).trans ((hregs _ _).trans ((hput _ _).trans hhost))
  · exact (hlive _).trans ((hregs _ _).trans ((hregs _ _).trans ((hput _ _).trans hhost)))
  · exact (hregs _ _).trans ((hput _ _).trans hhost)

/-- No command of HBM_LOOP touches a memory, a job or a fault. -/
theorem State.sameWork_hbmLoop (k mode : Nat) (v : Word) :
    s.sameMemory (s.hbmLoop k mode v) ∧ s.sameJobs (s.hbmLoop k mode v) ∧ (s.hbmLoop k mode v).flt = s.flt := by
  have hwork := s.hbmLoop_keeps (fun t => (t.memoryAndJobs, t.flt)) (fun _ _ => rfl) (fun _ _ => rfl) (fun _ _ => rfl) k mode v
  obtain ⟨hkeep, hflt⟩ := Prod.mk.inj hwork
  obtain ⟨hmem, hjobs⟩ := State.sameMemory_sameJobs_of_eq hkeep
  exact ⟨hmem, hjobs, hflt⟩

/-- The state once an admitted write of HBM_LOOP has put its fields (R185). -/
def State.loopPut (s : State) (k mode : Nat) (v : Word) : State :=
  ((s.fromHost 4).hostPut R.HBM_LOOP (stk4 k) v).setFld F.HBM_LOOP_mode (stk4 k) mode

section
variable {s} {k mode : Nat} {v : Word} (hstray : s.strayAt (R.HBM_LOOP.addr (stk4 k)) = false)
include hstray

theorem State.hbmLoop_admitted (hrig : s.rig.inForce = none) (hbusy : s.isSet F.HBM_LOOP_busy (stk4 k) = false) :
    s.hbmLoop k mode v = if mode = 0 then (s.loopPut k mode v).setFld F.HBM_STAT_rate (stk4 k) (s.loopPut k mode v).pinRate
      else if v.toNat % 2 = 1 then
        ((s.loopPut k mode v).setFld F.HBM_STAT_rate (stk4 k) 3).liveBit F.HBM_LOOP_busy (stk4 k) true
      else s.loopPut k mode v := by
  have hstray' : (s.fromHost 4).strayAt (R.HBM_LOOP.addr (stk4 k)) = false := hstray
  have hfree : ((s.fromHost 4).rig.inForce.isSome || (s.fromHost 4).isSet F.HBM_LOOP_busy (stk4 k)) = false := by
    rw [Bool.or_eq_false_iff]
    exact ⟨by rw [Option.isSome_eq_false_iff, Option.isNone_iff_eq_none]; exact hrig, hbusy⟩
  simp only [State.hbmLoop, hstray', hfree, Bool.false_eq_true, if_false]
  rfl

theorem State.hbmLoop_refused (h : s.rig.inForce ≠ none ∨ s.isSet F.HBM_LOOP_busy (stk4 k) = true) :
    s.hbmLoop k mode v = ((s.fromHost 4).putRwb R.HBM_LOOP (stk4 k) v).setFld F.HBM_LOOP_result (stk4 k) 3 := by
  have hstray' : (s.fromHost 4).strayAt (R.HBM_LOOP.addr (stk4 k)) = false := hstray
  have hheld : ((s.fromHost 4).rig.inForce.isSome || (s.fromHost 4).isSet F.HBM_LOOP_busy (stk4 k)) = true := by
    rw [Bool.or_eq_true, Option.isSome_iff_ne_none]
    exact h
  simp only [State.hbmLoop, hstray', hheld, Bool.false_eq_true, if_false, if_true]

end

/-! ### The fields of HBM_LOOP and of its stack's HBM_STAT -/

theorem loop_ne_parity (k : Nat) : R.HBM_LOOP.addr (stk4 k) ≠ R.GLB_CFGPAR.addr [] :=
  RegDef.addr_stk4_ne_global (r := R.HBM_LOOP) rfl (by decide) k

theorem stat_ne_parity (k : Nat) : R.HBM_STAT.addr (stk4 k) ≠ R.GLB_CFGPAR.addr [] :=
  RegDef.addr_stk4_ne_global (r := R.HBM_STAT) rfl (by decide) k

theorem stat_ne_loop (k : Nat) : R.HBM_STAT.addr (stk4 k) ≠ R.HBM_LOOP.addr (stk4 k) :=
  RegDef.addr_stk4_ne (r := R.HBM_LOOP) (r' := R.HBM_STAT) rfl rfl (by decide) k

theorem State.mode_loopPut (k mode : Nat) (v : Word) (hmode : mode < 4) :
    (s.loopPut k mode v).fld F.HBM_LOOP_mode (stk4 k) = mode := by
  rw [State.loopPut, State.fld_setFld_same _ _ _ _ (by decide)]
  exact Nat.mod_eq_of_lt hmode

theorem State.pc_loopPut (k mode : Nat) (v : Word) :
    (s.loopPut k mode v).fld F.HBM_LOOP_pc (stk4 k) = bits v.toNat 15 8 := by
  rw [State.loopPut, State.fld_setFld_other (f := F.HBM_LOOP_mode) (g := F.HBM_LOOP_pc) _ rfl (by decide) (by decide) (by decide)]
  exact State.fld_hostPut_taken (f := F.HBM_LOOP_pc) (s.fromHost 4) (loop_ne_parity k) (by decide) v

theorem State.busy_loopPut (k mode : Nat) (v : Word) :
    (s.loopPut k mode v).fld F.HBM_LOOP_busy (stk4 k) = s.fld F.HBM_LOOP_busy (stk4 k) := by
  rw [State.loopPut, State.fld_setFld_other (f := F.HBM_LOOP_mode) (g := F.HBM_LOOP_busy) _ rfl (by decide) (by decide) (by decide)]
  exact State.fld_hostPut_apart (f := F.HBM_LOOP_busy) (s.fromHost 4) (by decide) (loop_ne_parity k) (by decide) v

theorem State.pinRate_lt : s.pinRate < 4 := by
  unfold State.pinRate
  split <;> decide

theorem State.pinRate_loopPut (k mode : Nat) (v : Word) : (s.loopPut k mode v).pinRate = s.pinRate := by
  have hne : R.GLB_MODE.addr [] ≠ R.HBM_LOOP.addr (stk4 k) := (RegDef.addr_stk4_ne_global rfl (by decide) k).symm
  have hmode : (s.loopPut k mode v).fld F.GLB_MODE_current [] = s.fld F.GLB_MODE_current [] := by
    rw [State.loopPut, State.fld_setFld_reg _ hne, State.fld_hostPut_reg (f := F.GLB_MODE_current) _ hne (by decide)]
    rfl
  rw [State.pinRate, hmode]
  rfl

/-- What a refused write of HBM_LOOP leaves of the mode. -/
theorem State.mode_putRwb (k : Nat) (v : Word) :
    (s.putRwb R.HBM_LOOP (stk4 k) v).fld F.HBM_LOOP_mode (stk4 k) = s.fld F.HBM_LOOP_mode (stk4 k) :=
  (State.fld_hostPut_taken (f := F.HBM_LOOP_mode) s (loop_ne_parity k) (by decide) _).trans
    (bits_merge_of_unmasked (by decide) (by decide))

theorem State.busy_putRwb (k : Nat) (v : Word) :
    (s.putRwb R.HBM_LOOP (stk4 k) v).fld F.HBM_LOOP_busy (stk4 k) = s.fld F.HBM_LOOP_busy (stk4 k) :=
  State.fld_hostPut_apart (f := F.HBM_LOOP_busy) s (by decide) (loop_ne_parity k) (by decide) _

theorem State.rate_putRwb (k : Nat) (v : Word) :
    (s.putRwb R.HBM_LOOP (stk4 k) v).fld F.HBM_STAT_rate (stk4 k) = s.fld F.HBM_STAT_rate (stk4 k) :=
  State.fld_hostPut_reg (f := F.HBM_STAT_rate) s (stat_ne_loop k) (stat_ne_parity k) _

/-! ### What each command of HBM_LOOP does -/

/-- A write of the mode, or one without go, puts its fields and starts nothing. -/
theorem State.fields_hbmLoop {k mode : Nat} {v : Word} (hmode : mode < 4)
    (hstray : s.strayAt (R.HBM_LOOP.addr (stk4 k)) = false) (hrig : s.rig.inForce = none)
    (hbusy : s.isSet F.HBM_LOOP_busy (stk4 k) = false) :
    (s.hbmLoop k mode v).fld F.HBM_LOOP_mode (stk4 k) = mode
      ∧ (s.hbmLoop k mode v).fld F.HBM_LOOP_pc (stk4 k) = bits v.toNat 15 8 := by
  have hne : R.HBM_LOOP.addr (stk4 k) ≠ R.HBM_STAT.addr (stk4 k) := (stat_ne_loop k).symm
  rw [State.hbmLoop_admitted hstray hrig hbusy]
  split_ifs
  · rw [State.fld_setFld_reg _ hne, State.fld_setFld_reg _ hne]
    exact ⟨s.mode_loopPut k mode v hmode, s.pc_loopPut k mode v⟩
  · rw [State.fld_liveBit_other (f := F.HBM_LOOP_busy) (g := F.HBM_LOOP_mode) _ rfl (by decide) (by decide) (by decide),
      State.fld_liveBit_other (f := F.HBM_LOOP_busy) (g := F.HBM_LOOP_pc) _ rfl (by decide) (by decide) (by decide),
      State.fld_setFld_reg _ hne, State.fld_setFld_reg _ hne]
    exact ⟨s.mode_loopPut k mode v hmode, s.pc_loopPut k mode v⟩
  · exact ⟨s.mode_loopPut k mode v hmode, s.pc_loopPut k mode v⟩

/-- Mode 0 returns the stack to the pin rate of its power mode. -/
theorem State.hbmLoop_off {k : Nat} {v : Word} (hstray : s.strayAt (R.HBM_LOOP.addr (stk4 k)) = false)
    (hrig : s.rig.inForce = none) (hbusy : s.isSet F.HBM_LOOP_busy (stk4 k) = false) :
    (s.hbmLoop k 0 v).fld F.HBM_STAT_rate (stk4 k) = s.pinRate ∧ (s.hbmLoop k 0 v).isSet F.HBM_LOOP_busy (stk4 k) = false := by
  rw [State.hbmLoop_admitted hstray hrig hbusy, if_pos rfl, State.pinRate_loopPut]
  constructor
  · rw [State.fld_setFld_same _ _ _ _ (by decide)]
    exact Nat.mod_eq_of_lt s.pinRate_lt
  · rw [State.isSet, State.fld_setFld_reg _ (stat_ne_loop k).symm, State.busy_loopPut]
    exact hbusy

/-- A written go with a mode takes the stack out of service and shows busy. -/
theorem State.hbmLoop_started {k mode : Nat} {v : Word} (hstray : s.strayAt (R.HBM_LOOP.addr (stk4 k)) = false)
    (hrig : s.rig.inForce = none) (hbusy : s.isSet F.HBM_LOOP_busy (stk4 k) = false) (hmode : mode ≠ 0)
    (hgo : v.toNat % 2 = 1) :
    (s.hbmLoop k mode v).fld F.HBM_STAT_rate (stk4 k) = 3 ∧ (s.hbmLoop k mode v).isSet F.HBM_LOOP_busy (stk4 k) = true := by
  rw [State.hbmLoop_admitted hstray hrig hbusy, if_neg hmode, if_pos hgo]
  constructor
  · rw [State.fld_liveBit_reg _ (stat_ne_loop k), State.fld_setFld_same _ _ _ _ (by decide)]
    rfl
  · rw [State.isSet, State.fld_liveBit_same _ _ _ _ (by decide)]
    rfl

/-- A refused write reads result 0b11, and the running test, if any, goes on. -/
theorem State.hbmLoop_shown_refused {k mode : Nat} {v : Word} (hstray : s.strayAt (R.HBM_LOOP.addr (stk4 k)) = false)
    (h : s.rig.inForce ≠ none ∨ s.isSet F.HBM_LOOP_busy (stk4 k) = true) :
    (s.hbmLoop k mode v).fld F.HBM_LOOP_result (stk4 k) = 3
      ∧ (s.hbmLoop k mode v).fld F.HBM_LOOP_mode (stk4 k) = s.fld F.HBM_LOOP_mode (stk4 k)
      ∧ (s.hbmLoop k mode v).isSet F.HBM_LOOP_busy (stk4 k) = s.isSet F.HBM_LOOP_busy (stk4 k)
      ∧ (s.hbmLoop k mode v).fld F.HBM_STAT_rate (stk4 k) = s.fld F.HBM_STAT_rate (stk4 k) := by
  rw [State.hbmLoop_refused hstray h]
  refine ⟨?_, ?_, ?_, ?_⟩
  · rw [State.fld_setFld_same _ _ _ _ (by decide)]
    rfl
  · rw [State.fld_setFld_other (f := F.HBM_LOOP_result) (g := F.HBM_LOOP_mode) _ rfl (by decide) (by decide) (by decide),
      State.mode_putRwb]
    rfl
  · rw [State.isSet, State.fld_setFld_other (f := F.HBM_LOOP_result) (g := F.HBM_LOOP_busy) _ rfl (by decide) (by decide)
      (by decide), State.busy_putRwb]
    rfl
  · rw [State.fld_setFld_reg _ (stat_ne_loop k), State.rate_putRwb]
    rfl

/-! ### HBM_LOOP_DONE -/

/-- The state after a test that ended with a number of bit errors. -/
def State.loopDone (s : State) (k errors : Nat) : State :=
  ((s.liveBit F.HBM_LOOP_busy (stk4 k) false).setFld F.HBM_LOOP_result (stk4 k) (if errors = 0 then 1 else 2)).setFld
    F.HBM_LOOP_ERR_bit_errors (stk4 k) (satAdd 0 errors (2 ^ 32 - 1))

theorem State.execHbmLoopDone_busy {k : Nat} (hbusy : s.isSet F.HBM_LOOP_busy (stk4 k) = true) (errors : Nat) :
    execHbmLoopDone k errors s = .next (s.loopDone k errors) := by
  simp only [execHbmLoopDone, hbusy, if_true, State.loopDone]

theorem loop_ne_errors (k : Nat) : R.HBM_LOOP.addr (stk4 k) ≠ R.HBM_LOOP_ERR.addr (stk4 k) :=
  RegDef.addr_stk4_ne (r := R.HBM_LOOP_ERR) (r' := R.HBM_LOOP) rfl rfl (by decide) k

theorem State.shown_loopDone {k errors : Nat} (herrors : errors < 2 ^ 32) :
    (s.loopDone k errors).isSet F.HBM_LOOP_busy (stk4 k) = false
      ∧ (s.loopDone k errors).fld F.HBM_LOOP_result (stk4 k) = (if errors = 0 then 1 else 2)
      ∧ (s.loopDone k errors).fld F.HBM_LOOP_ERR_bit_errors (stk4 k) = errors := by
  have hsum : satAdd 0 errors (2 ^ 32 - 1) = errors := by
    rw [satAdd, if_pos (by omega), Nat.zero_add]
  refine ⟨?_, ?_, ?_⟩
  · rw [State.isSet, State.loopDone, State.fld_setFld_reg _ (loop_ne_errors k),
      State.fld_setFld_other (f := F.HBM_LOOP_result) (g := F.HBM_LOOP_busy) _ rfl (by decide) (by decide) (by decide),
      State.fld_liveBit_same _ _ _ _ (by decide)]
    rfl
  · rw [State.loopDone, State.fld_setFld_reg _ (loop_ne_errors k), State.fld_setFld_same _ _ _ _ (by decide)]
    split <;> rfl
  · rw [State.loopDone, State.fld_setFld_same _ _ _ _ (by decide), hsum]
    exact Nat.mod_eq_of_lt herrors

theorem State.sameWork_loopDone (k errors : Nat) :
    s.sameMemory (s.loopDone k errors) ∧ s.sameJobs (s.loopDone k errors) ∧ (s.loopDone k errors).flt = s.flt := by
  have hkeep : ∀ {β : Type} (p : State → β), (∀ s x, p (State.setRegs s x) = p s) → (∀ s x, p (State.setConv s x) = p s) →
      p (s.loopDone k errors) = p s := fun p hregs hconv =>
    (hregs _ _).trans ((hregs _ _).trans (State.liveBit_keeps s p hregs hconv _ _ _))
  obtain ⟨hmem, hjobs⟩ := State.sameMemory_sameJobs_of_eq (hkeep State.memoryAndJobs (fun _ _ => rfl) fun _ _ => rfl)
  exact ⟨hmem, hjobs, hkeep State.flt (fun _ _ => rfl) fun _ _ => rfl⟩

end Sys2Proof.Machine

namespace Sys2Proof.Proofs
open Sys2Proof.Machine

/-- Settles O27: each command of HBM_LOOP by whether it is admitted, and the end of a test by its number of errors. -/
theorem hbmLoopBackCommands : Obligations.HbmLoopBackCommands := by
  unfold Obligations.HbmLoopBackCommands
  intro s k v _ ix same
  have hwrite : ∀ (mode : Nat) (i : Instr), mode < 4 → exec i s = .next (s.hbmLoop k mode v) →
      s.strayAt (R.HBM_LOOP.addr ix) = false →
      (s.rig.inForce = none → s.isSet F.HBM_LOOP_busy ix = false →
        ∃ t, exec i s = .next t ∧ same t ∧ t.fld F.HBM_LOOP_mode ix = mode ∧ t.fld F.HBM_LOOP_pc ix = bits v.toNat 15 8
          ∧ (mode = 0 → t.fld F.HBM_STAT_rate ix = s.pinRate ∧ t.isSet F.HBM_LOOP_busy ix = false)
          ∧ (mode ≠ 0 → v.toNat % 2 = 1 → t.fld F.HBM_STAT_rate ix = 3 ∧ t.isSet F.HBM_LOOP_busy ix = true)) ∧
      (s.rig.inForce ≠ none ∨ s.isSet F.HBM_LOOP_busy ix = true →
        ∃ t, exec i s = .next t ∧ same t ∧ t.fld F.HBM_LOOP_result ix = 3
          ∧ t.fld F.HBM_LOOP_mode ix = s.fld F.HBM_LOOP_mode ix ∧ t.isSet F.HBM_LOOP_busy ix = s.isSet F.HBM_LOOP_busy ix
          ∧ t.fld F.HBM_STAT_rate ix = s.fld F.HBM_STAT_rate ix) := by
    intro mode i hmode hexec hstray
    refine ⟨fun hrig hbusy => ?_, fun h => ⟨_, hexec, s.sameWork_hbmLoop k mode v, s.hbmLoop_shown_refused hstray h⟩⟩
    obtain ⟨hm, hpc⟩ := s.fields_hbmLoop (v := v) hmode hstray hrig hbusy
    refine ⟨_, hexec, s.sameWork_hbmLoop k mode v, hm, hpc, fun hzero => ?_, s.hbmLoop_started hstray hrig hbusy⟩
    subst hzero
    exact s.hbmLoop_off hstray hrig hbusy
  refine ⟨fun x hx => ?_, fun errors herrors hbusy => ?_⟩
  · simp only [List.mem_cons, List.not_mem_nil, or_false] at hx
    obtain rfl | rfl | rfl | rfl := hx
    · exact hwrite 1 _ (by decide) rfl
    · exact hwrite 2 _ (by decide) rfl
    · exact hwrite 3 _ (by decide) rfl
    · exact hwrite 0 _ (by decide) rfl
  · exact ⟨s.loopDone k errors, s.execHbmLoopDone_busy hbusy errors, s.sameWork_loopDone k errors, s.shown_loopDone herrors⟩

end Sys2Proof.Proofs
end

section
/-!
PROOFS. What a read of a granule and its report change (07 R165), what a granule holds once it is stored (07 R164, R168),
and the controllers' own work: write-backs, scrub, refresh and temperature (07 R166, R167, R172, R173, R175).
-/
namespace Sys2Proof.Machine

variable (s : State)

/-! ### What a report changes (07 R165) -/

theorem State.ceRecord_keeps {β : Type} (p : State → β) (hcrews : ∀ s x, p (State.setCrews s x) = p s)
    (hflt : ∀ s x, p (State.setFlt s x) = p s) (hfree : ∀ s x, p (State.setFree s x) = p s) (count event : Nat)
    (f : Fault0 → Fault0) : p (s.ceRecord count event f) = p s := by
  unfold State.ceRecord
  split
  · exact State.raiseFault_keeps s p hcrews hflt hfree _
  · rfl

/-- A view that sees nothing of what the read of a granule, its report or a fault changes. Other than `State.ReportView` it may
see the cores, which no controller touches. -/
structure State.GranView {β : Type} (p : State → β) : Prop where
  regs : ∀ s x, p (State.setRegs s x) = p s
  conv : ∀ s x, p (State.setConv s x) = p s
  pmc : ∀ s x, p (State.setPmc s x) = p s
  flt : ∀ s x, p (State.setFlt s x) = p s
  free : ∀ s x, p (State.setFree s x) = p s
  crews : ∀ s x, p (State.setCrews s x) = p s
  wbq : ∀ s x, p (State.setWbq s x) = p s

section
variable {β : Type} {p : State → β} (hp : State.GranView p)
include hp

theorem State.GranView.raiseFault (f : Fault0) : p (s.raiseFault f) = p s :=
  State.raiseFault_keeps s p hp.crews hp.flt hp.free f

theorem State.GranView.burst (pa : Nat) (write : Bool) : p (s.burst pa write) = p s :=
  State.burst_keeps s p hp.regs hp.pmc pa write

theorem State.GranView.ceRecord (count event : Nat) (f : Fault0 → Fault0) : p (s.ceRecord count event f) = p s :=
  State.ceRecord_keeps s p hp.crews hp.flt hp.free count event f

theorem State.GranView.queueWb (pa : Nat) (poisoning : Bool) : p (s.queueWb pa poisoning) = p s :=
  State.queueWb_keeps s p hp.regs hp.conv hp.wbq pa poisoning

theorem State.GranView.raiseBit (f : Fld) (ix : List Nat) : p (s.raiseBit f ix) = p s :=
  State.raiseBit_keeps s p hp.regs hp.conv f ix

theorem State.GranView.bump (f : Fld) (ix : List Nat) (d : Nat) : p (s.bump f ix d) = p s := hp.regs _ _

theorem State.GranView.hbmErrAddr (pa kind : Nat) : p (s.hbmErrAddr pa kind) = p s := (hp.regs _ _).trans (hp.regs _ _)

theorem State.GranView.reportGran (pa name : Nat) (r : GranRead) : p (s.reportGran pa name r) = p s := by
  unfold State.reportGran
  dsimp only
  split
  · rw [hp.ceRecord, hp.queueWb, hp.hbmErrAddr, hp.raiseBit, hp.bump]
  · split
    · split
      · rw [hp.queueWb, hp.hbmErrAddr, hp.raiseBit, hp.bump]
      · rw [hp.raiseFault, hp.flt, hp.queueWb, hp.hbmErrAddr, hp.raiseBit, hp.bump]
    · split
      · rw [hp.raiseBit]
      · rfl

theorem State.GranView.readGran (pa name : Nat) : p (s.readGran pa name).2 = p s :=
  (hp.reportGran _ pa name _).trans (hp.burst s pa false)

end

/-! ### What reads leave of the memories -/

/-- The memories with their check state, the cores and the tallies. -/
def State.granFrame (s : State) := (s.mem, s.granSt, s.cores, s.tallies, s.hostMem)

theorem State.GranView.granFrame : State.GranView State.granFrame where
  regs _ _ := rfl
  conv _ _ := rfl
  pmc _ _ := rfl
  flt _ _ := rfl
  free _ _ := rfl
  crews _ _ := rfl
  wbq _ _ := rfl

/-- No byte of HBM or host memory, no core and no tally changes. -/
def State.sameData (s t : State) : Prop :=
  (∀ a, t.hbmAt a = s.hbmAt a) ∧ t.cores = s.cores ∧ t.tallies = s.tallies ∧ t.hostMem = s.hostMem

variable {s} in
theorem State.sameData_of_granFrame {t : State} (h : t.granFrame = s.granFrame) :
    s.sameData t ∧ ∀ a, t.granSt a = s.granSt a := by
  simp only [State.granFrame, Prod.mk.injEq] at h
  obtain ⟨hmem, hgran, hcores, htallies, hhost⟩ := h
  exact ⟨⟨fun a => by rw [State.hbmAt, hmem, State.hbmAt], hcores, htallies, hhost⟩, congrFun hgran⟩

/-- A strike without errors changes no granule. -/
theorem State.granSt_strikeGran_nil (pa : Nat) : (s.strikeGran pa []).granSt = s.granSt := by
  funext a
  change Map.getD {} (Map.setD {} s.gran (pa / 32) (s.granSt pa)) (a / 32) = s.granSt a
  by_cases h : a / 32 = pa / 32
  · rw [h, Map.getD_setD_same, State.granSt, State.granSt, h]
  · rw [Map.getD_setD_ne _ _ _ h, State.granSt]

theorem State.granFrame_strikeGran_nil (pa : Nat) : (s.strikeGran pa []).granFrame = s.granFrame := by
  rw [State.granFrame, State.granSt_strikeGran_nil]
  rfl

/-- A read of a clean granule is its 32 bytes, and reports nothing. -/
theorem State.readGran_clean {pa : Nat} (h : s.granSt pa = {}) (name : Nat) :
    s.readGran pa name = (⟨0, natLe 32 (s.granData pa), false⟩, s.burst pa false) := by
  rw [State.readGran, h]
  rfl

/-- A read of a granule with one symbol error is reported as a CE. -/
theorem State.readGran_oneError {pa : Nat} {e : Nat × Nat} (h : s.granSt pa = { poison := false, errs := [e] }) (name : Nat) :
    (s.readGran pa name).2 = (s.burst pa false).reportGran pa name ⟨1, natLe 32 (s.granData pa), false⟩ := by
  rw [State.readGran, h]
  rfl

/-! ### The registers of a stack under the counters' overflow bits -/

/-- The registers of a stack's controllers lie apart from the counters' overflow bits. -/
theorem stack_ne_overflow {r : RegDef} (hr : r.dims = [(2, 0x800000), (4, 0x1000)])
    (hbase : 0x02040000 ≤ r.base ∧ r.base < 0x02041000) (k die : Nat) :
    r.addr (stk4 k) ≠ R.PMC_OVF_IOD.addr [die] := by
  rw [RegDef.addr_stk4 hr]
  change _ ≠ 0x02310180 + 0x800000 * die
  omega

/-- A burst changes no register but overflow bits. -/
theorem State.reg_burst {r : RegDef} {jx : List Nat} {pa : Nat} (h : r.addr jx ≠ R.PMC_OVF_IOD.addr [stackOf pa / 4])
    (write : Bool) : (s.burst pa write).reg r jx = s.reg r jx :=
  (State.reg_pmcTick_ne _ h _ _ _).trans rfl

theorem State.fld_burst {f : Fld} {jx : List Nat} {pa : Nat} (h : f.reg.addr jx ≠ R.PMC_OVF_IOD.addr [stackOf pa / 4])
    (write : Bool) : (s.burst pa write).fld f jx = s.fld f jx := by
  rw [State.fld, State.reg_burst s h, State.fld]

/-! ### A CE (07 R165) -/

theorem satAdd_le_top (x d top : Nat) : satAdd x d top ≤ top := by
  unfold satAdd
  split <;> omega

/-- A counter reads one more, and stays at its top. -/
theorem State.fld_bump_same (f : Fld) (ix : List Nat) (d : Nat) (h : f.lo ≤ f.hi ∧ f.hi < 32) :
    (s.bump f ix d).fld f ix = satAdd (s.fld f ix) d f.top := by
  have hle := satAdd_le_top (s.fld f ix) d f.top
  have hpos : 0 < 2 ^ (f.hi + 1 - f.lo) := Nat.two_pow_pos _
  rw [State.bump, State.fld_setFld_same _ _ _ _ h]
  exact Nat.mod_eq_of_lt (by unfold Fld.top at hle ⊢; omega)

/-- A queued write-back changes a field only where it notes that another was dropped. -/
theorem State.fld_queueWb {f : Fld} {pa : Nat} (hreg : f.reg = R.HBM_ECC) (hle : f.lo ≤ f.hi)
    (hd : 28 < f.lo ∨ f.hi < 28) (poisoning : Bool) :
    (s.queueWb pa poisoning).fld f (stk4 (stackOf pa)) = s.fld f (stk4 (stackOf pa)) := by
  unfold State.queueWb
  dsimp only
  split
  · rfl
  · refine (State.fld_congr (State.setWbq_regs _ _) _ _).trans ?_
    split
    · rfl
    · rw [State.fld_raiseBit, State.fld_setFld_other (f := F.HBM_ECC_wb_dropped) _ hreg (by decide) hle hd]

/-- A write-back of the granule waits once one is asked for. -/
theorem State.mem_queueWb (pa : Nat) (poisoning : Bool) :
    ∃ w ∈ Map.getD [] (s.queueWb pa poisoning).wbq (stackOf pa), w.gran = pa / 32 ∧ w.stale = false := by
  unfold State.queueWb
  dsimp only
  split
  · next h =>
    obtain ⟨w, hw, hfresh⟩ := List.any_eq_true.mp h
    obtain ⟨hin, hgran⟩ := List.mem_filter.mp hw
    exact ⟨w, hin, of_decide_eq_true hgran, by simpa using hfresh⟩
  · refine ⟨⟨pa / 32, poisoning, false⟩, ?_, rfl, rfl⟩
    rw [State.setWbq_wbq, Map.getD_setD_same]
    exact List.mem_append_right _ (List.mem_singleton_self _)

theorem State.fld_hbmErrAddr {f : Fld} (hreg : f.reg = R.HBM_ECC) (pa kind : Nat) :
    (s.hbmErrAddr pa kind).fld f (stk4 (stackOf pa)) = s.fld f (stk4 (stackOf pa)) := by
  refine State.fld_setPair_ne _ ?_ ?_ _
  · rw [hreg]
    exact RegDef.addr_stk4_ne (r := R.HBM_ERRADDR_LO) (r' := R.HBM_ECC) rfl rfl (by decide) _
  · rw [hreg]
    exact RegDef.addr_stk4_ne (r := R.HBM_ERRADDR_HI) (r' := R.HBM_ECC) rfl rfl (by decide) _

/-- The state once a CE is counted and marked and its write-back queued, before its record. -/
def State.ceNoted (s : State) (pa : Nat) : State :=
  (((s.bump F.HBM_ECC_ce_count (stk4 (stackOf pa)) 1).raiseBit F.HBM_ECC_ce_hist (stk4 (stackOf pa))).hbmErrAddr pa 1).queueWb
    pa false

theorem State.reportGran_ce (pa name : Nat) {r : GranRead} (h : r.cls = 1) :
    ∃ count f, s.reportGran pa name r = (s.ceNoted pa).ceRecord count 0x0102 f := by
  simp only [State.reportGran, h, if_true]
  exact ⟨_, _, rfl⟩

/-- A CE is counted and marked, and a write-back of its granule waits. -/
theorem State.reportGran_ce_shown (pa name : Nat) {r : GranRead} (h : r.cls = 1) :
    let t := s.reportGran pa name r
    t.fld F.HBM_ECC_ce_hist (stk4 (stackOf pa)) = 1
      ∧ t.fld F.HBM_ECC_ce_count (stk4 (stackOf pa)) = satAdd (s.fld F.HBM_ECC_ce_count (stk4 (stackOf pa))) 1 65535
      ∧ ∃ w ∈ Map.getD [] t.wbq (stackOf pa), w.gran = pa / 32 ∧ w.stale = false := by
  obtain ⟨count, f, hreport⟩ := s.reportGran_ce pa name h
  have hregs := (s.ceNoted pa).ceRecord_keeps State.regs (fun _ _ => rfl) (fun _ _ => rfl) (fun _ _ => rfl) count 0x0102 f
  have hwbq := (s.ceNoted pa).ceRecord_keeps State.wbq (fun _ _ => rfl) (fun _ _ => rfl) (fun _ _ => rfl) count 0x0102 f
  rw [hreport]
  refine ⟨?_, ?_, ?_⟩
  · rw [State.fld_congr hregs, State.ceNoted, State.fld_queueWb _ rfl (by decide) (by decide), State.fld_hbmErrAddr _ rfl,
      State.fld_raiseBit_same _ _ _ (by decide)]
  · rw [State.fld_congr hregs, State.ceNoted, State.fld_queueWb _ rfl (by decide) (by decide), State.fld_hbmErrAddr _ rfl,
      State.fld_raiseBit,
      State.fld_setFld_other (f := F.HBM_ECC_ce_hist) (g := F.HBM_ECC_ce_count) _ rfl (by decide) (by decide) (by decide),
      State.fld_bump_same _ _ _ _ (by decide)]
    rfl
  · rw [hwbq]
    exact State.mem_queueWb _ pa false

/-! ### HBM_READ -/

/-- The granule read of an HBM_READ without errors of the silicon, after what the stack's own ECC reported. -/
def State.odNoted (s : State) (pa od : Nat) : State :=
  if od = 1 then (s.strikeGran pa []).bump F.HBM_ODECC_od_ce (stk4 (stackOf pa)) 1
  else if od = 2 then (s.strikeGran pa []).bump F.HBM_ODECC_od_ue (stk4 (stackOf pa)) 1
  else s.strikeGran pa []

theorem State.granFrame_odNoted (pa od : Nat) : (s.odNoted pa od).granFrame = s.granFrame := by
  unfold State.odNoted
  split_ifs
  · exact (State.GranView.granFrame.bump _ _ _ _).trans (s.granFrame_strikeGran_nil pa)
  · exact (State.GranView.granFrame.bump _ _ _ _).trans (s.granFrame_strikeGran_nil pa)
  · exact s.granFrame_strikeGran_nil pa

theorem State.odNoted_keeps {β : Type} (p : State → β) (hregs : ∀ s x, p (State.setRegs s x) = p s)
    (hgran : ∀ s x, p (State.setGran s x) = p s) (pa od : Nat) : p (s.odNoted pa od) = p s := by
  unfold State.odNoted
  split_ifs
  · exact (hregs _ _).trans (hgran _ _)
  · exact (hregs _ _).trans (hgran _ _)
  · exact hgran _ _

/-- What the stack's own ECC reports shows in HBM_ODECC alone (R166). -/
theorem State.reg_odNoted {r : RegDef} (hr : r.dims = [(2, 0x800000), (4, 0x1000)]) (hbase : r.base ≠ R.HBM_ODECC.base)
    (pa od : Nat) : (s.odNoted pa od).reg r (stk4 (stackOf pa)) = s.reg r (stk4 (stackOf pa)) := by
  have hne : r.addr (stk4 (stackOf pa)) ≠ R.HBM_ODECC.addr (stk4 (stackOf pa)) :=
    RegDef.addr_stk4_ne (r := R.HBM_ODECC) rfl hr hbase _
  unfold State.odNoted
  split_ifs
  · exact State.reg_setReg_ne _ hne _
  · exact State.reg_setReg_ne _ hne _
  · rfl

theorem State.execHbmRead_served {addr : Nat} (hpop : s.populated (s.readPa addr) 1 = true)
    (hup : s.extentUp (s.readPa addr) 1 = true) (od : Nat) :
    execHbmRead addr 0 od [] s = .next ((s.odNoted (s.readPa addr) od).readGran (s.readPa addr) addr).2 := by
  simp only [execHbmRead, hpop, hup, Bool.not_true, Bool.or_self, Bool.false_eq_true, if_false, Nat.not_lt_zero]
  rfl

theorem State.execHbmRead_failed {addr r : Nat} (hpop : s.populated (s.readPa addr) 1 = true)
    (hup : s.extentUp (s.readPa addr) 1 = true) (hr : 3 < r) :
    execHbmRead addr r 0 [] s = .next (s.pcFault (s.readPa addr)) := by
  simp only [execHbmRead, hpop, hup, hr, Bool.not_true, Bool.or_self, Bool.false_eq_true, if_false, if_true]

/-- A read of a clean granule counts what the stack's own ECC reported, and is no event of HBM_ECC. -/
theorem State.hbmRead_clean {addr od : Nat} (hclean : s.granSt (s.readPa addr) = {}) :
    let pa := s.readPa addr
    let t := ((s.odNoted pa od).readGran pa addr).2
    t.wbq = s.wbq ∧ t.flt = s.flt ∧ t.reg R.HBM_ECC (stk4 (stackOf pa)) = s.reg R.HBM_ECC (stk4 (stackOf pa))
      ∧ (od = 1 → t.fld F.HBM_ODECC_od_ce (stk4 (stackOf pa))
          = satAdd (s.fld F.HBM_ODECC_od_ce (stk4 (stackOf pa))) 1 F.HBM_ODECC_od_ce.top) := by
  intro pa t
  have hst : (s.odNoted pa od).granSt pa = {} := by
    rw [(State.sameData_of_granFrame (s.granFrame_odNoted pa od)).2, hclean]
  have ht : t = (s.odNoted pa od).burst pa false := congrArg Prod.snd (State.readGran_clean _ hst addr)
  have hecc : R.HBM_ECC.addr (stk4 (stackOf pa)) ≠ R.PMC_OVF_IOD.addr [stackOf pa / 4] :=
    stack_ne_overflow rfl (by decide) _ _
  have hod : R.HBM_ODECC.addr (stk4 (stackOf pa)) ≠ R.PMC_OVF_IOD.addr [stackOf pa / 4] :=
    stack_ne_overflow rfl (by decide) _ _
  rw [ht]
  refine ⟨?_, ?_, ?_, fun hone => ?_⟩
  · rw [State.burst_keeps _ State.wbq (fun _ _ => rfl) (fun _ _ => rfl)]
    exact s.odNoted_keeps State.wbq (fun _ _ => rfl) (fun _ _ => rfl) pa od
  · rw [State.burst_keeps _ State.flt (fun _ _ => rfl) (fun _ _ => rfl)]
    exact s.odNoted_keeps State.flt (fun _ _ => rfl) (fun _ _ => rfl) pa od
  · rw [State.reg_burst _ hecc]
    exact s.reg_odNoted rfl (by decide) pa od
  · rw [State.fld_burst (f := F.HBM_ODECC_od_ce) _ hod, State.odNoted, if_pos hone, State.fld_bump_same _ _ _ _ (by decide)]
    rfl

/-- A read of a granule with one symbol error counts and marks a CE, and has a write-back queued. -/
theorem State.hbmRead_ce {addr : Nat} {e : Nat × Nat} (he : s.granSt (s.readPa addr) = { poison := false, errs := [e] }) :
    let pa := s.readPa addr
    let t := ((s.odNoted pa 0).readGran pa addr).2
    t.fld F.HBM_ECC_ce_hist (stk4 (stackOf pa)) = 1
      ∧ t.fld F.HBM_ECC_ce_count (stk4 (stackOf pa)) = satAdd (s.fld F.HBM_ECC_ce_count (stk4 (stackOf pa))) 1 65535
      ∧ ∃ w ∈ Map.getD [] t.wbq (stackOf pa), w.gran = pa / 32 ∧ w.stale = false := by
  intro pa t
  have hst : (s.odNoted pa 0).granSt pa = { poison := false, errs := [e] } := by
    rw [(State.sameData_of_granFrame (s.granFrame_odNoted pa 0)).2, he]
  have hecc : F.HBM_ECC_ce_count.reg.addr (stk4 (stackOf pa)) ≠ R.PMC_OVF_IOD.addr [stackOf pa / 4] :=
    stack_ne_overflow (r := R.HBM_ECC) rfl (by decide) _ _
  have hbefore : ((s.odNoted pa 0).burst pa false).fld F.HBM_ECC_ce_count (stk4 (stackOf pa))
      = s.fld F.HBM_ECC_ce_count (stk4 (stackOf pa)) := by
    rw [State.fld_burst _ hecc]
    rfl
  have hshown := ((s.odNoted pa 0).burst pa false).reportGran_ce_shown pa addr
    (r := ⟨1, natLe 32 ((s.odNoted pa 0).granData pa), false⟩) rfl
  rw [hbefore, ← State.readGran_oneError _ hst] at hshown
  exact hshown

theorem State.granFrame_hbmRead (addr od : Nat) :
    ((s.odNoted (s.readPa addr) od).readGran (s.readPa addr) addr).2.granFrame = s.granFrame :=
  (State.GranView.granFrame.readGran _ _ _).trans (s.granFrame_odNoted _ od)

/-! ### What a stored granule reads as (07 R164, R168) -/

/-- A granule that is stored reads as its data. -/
theorem State.hbmAt_storeGran_in {pa j : Nat} {data : Bytes} (hlen : data.length = 32) (poison : Bool) (hj : j < data.length) :
    (s.storeGran pa data poison).hbmAt (pa / 32 * 32 + j) = data[j] := by
  have htake : data.take 32 = data := List.take_of_length_le (by omega)
  change Map.getD unlisted (Map.store unlisted s.mem (pa / 32 * 32) (data.take 32)) _ = _
  rw [htake, Map.getD_store_in _ _ _ _ hj]

/-- The bytes of the other granules stay. -/
theorem State.hbmAt_storeGran_out {pa x : Nat} (data : Bytes) (poison : Bool) (hx : x / 32 ≠ pa / 32) :
    (s.storeGran pa data poison).hbmAt x = s.hbmAt x := by
  have hlen : (data.take 32).length ≤ 32 := by rw [List.length_take]; exact Nat.min_le_left _ _
  change Map.getD unlisted (Map.store unlisted s.mem (pa / 32 * 32) (data.take 32)) x = _
  rw [Map.getD_store_out _ _ _ _ (by omega), State.hbmAt]

theorem State.granSt_storeGran (pa x : Nat) (data : Bytes) (poison : Bool) :
    (s.storeGran pa data poison).granSt x = if x / 32 = pa / 32 then { poison := poison } else s.granSt x := by
  change Map.getD {} (Map.setD {} s.gran (pa / 32) { poison := poison }) (x / 32) = _
  split
  · next h => rw [h, Map.getD_setD_same]
  · next h => rw [Map.getD_setD_ne _ _ _ h, State.granSt]

/-- The data of a granule are its bytes. -/
theorem State.granData_congr {s t : State} (h : ∀ x, t.hbmAt x = s.hbmAt x) (pa : Nat) : t.granData pa = s.granData pa :=
  congrArg leNat (Map.bytes_congr fun x _ _ => h x)

/-- The bytes of a granule, by their places. -/
theorem State.natLe_granData (pa : Nat) : natLe 32 (s.granData pa) = Map.bytes unlisted s.mem (pa / 32 * 32) 32 := by
  have hlen := Map.length_bytes unlisted s.mem (pa / 32 * 32) 32
  rw [State.granData]
  conv_lhs => rw [← hlen]
  exact natLe_leNat _

/-- A granule that is stored with its own bytes reads as before. -/
theorem State.hbmAt_storeGran_self (pa x : Nat) (poison : Bool) :
    (s.storeGran pa (natLe 32 (s.granData pa)) poison).hbmAt x = s.hbmAt x := by
  by_cases hx : x / 32 = pa / 32
  · have hlen : (natLe 32 (s.granData pa)).length = 32 := length_natLe _ _
    have hj : x % 32 < (natLe 32 (s.granData pa)).length := by omega
    have hplace : pa / 32 * 32 + x % 32 = x := by omega
    have hin := s.hbmAt_storeGran_in (pa := pa) hlen poison hj
    rw [hplace] at hin
    rw [hin]
    simp only [s.natLe_granData, Map.getElem_bytes, hplace, State.hbmAt]
  · exact s.hbmAt_storeGran_out _ _ hx

/-! ### HBM_WRITEBACK -/

/-- The state in which the oldest write-back of a stack has left its queue, on the scrub client's slot. -/
def State.wbTaken (s : State) (stack : Nat) (rest : List WriteBack) : State :=
  (s.charge stack .scrub).setWbq (Map.setD [] s.wbq stack rest)

section
variable {s} {stack : Nat} {w : WriteBack} {rest : List WriteBack} (hq : Map.getD [] s.wbq stack = w :: rest)
  (hturn : s.turn stack .scrub = true)
include hq hturn

theorem State.execHbmWriteback_stale (hstale : w.stale = true) :
    execHbmWriteback stack s = .next ((s.wbTaken stack rest).raiseBit F.HBM_ECC_wb_dropped (stk4 stack)) := by
  simp only [execHbmWriteback, hq, hturn, hstale, Bool.not_true, Bool.false_eq_true, if_false, if_true]
  rfl

theorem State.execHbmWriteback_ce {e : Nat × Nat} (hstale : w.stale = false) (hpoisoning : w.poisoning = false)
    (he : s.granSt (32 * w.gran) = { poison := false, errs := [e] }) :
    execHbmWriteback stack s
      = .next ((s.wbTaken stack rest).putGran (32 * w.gran) (natLe 32 (s.granData (32 * w.gran))) false) := by
  simp only [execHbmWriteback, hq, hturn, hstale, hpoisoning, he, Bool.not_true, Bool.false_eq_true, if_false]
  rfl

end

theorem State.sameData_wbTaken_raiseBit (stack : Nat) (rest : List WriteBack) (f : Fld) (ix : List Nat) :
    s.sameData ((s.wbTaken stack rest).raiseBit f ix) ∧ ∀ a, ((s.wbTaken stack rest).raiseBit f ix).granSt a = s.granSt a :=
  State.sameData_of_granFrame (State.GranView.granFrame.raiseBit (s.wbTaken stack rest) f ix)

theorem State.wbq_wbTaken (stack : Nat) (rest : List WriteBack) : Map.getD [] (s.wbTaken stack rest).wbq stack = rest :=
  Map.getD_setD_same _ _ _ _

/-- A write-back rewrites its granule with its data, clean, and touches nothing else. -/
theorem State.putGran_self_wbTaken (stack g : Nat) (rest : List WriteBack) :
    let t := (s.wbTaken stack rest).putGran (32 * g) (natLe 32 (s.granData (32 * g))) false
    s.sameData t ∧ Map.getD [] t.wbq stack = rest ∧ t.granSt (32 * g) = {} ∧ ∀ a, a / 32 ≠ g → t.granSt a = s.granSt a := by
  intro t
  have hburst := State.GranView.granFrame.burst (s.wbTaken stack rest) (32 * g) true
  have hwbq := State.burst_keeps (s.wbTaken stack rest) State.wbq (fun _ _ => rfl) (fun _ _ => rfl) (32 * g) true
  obtain ⟨⟨hbytes, hcores, htallies, hhost⟩, hgran⟩ :=
    State.sameData_of_granFrame (s := s) (t := (s.wbTaken stack rest).burst (32 * g) true) hburst
  have hdata := State.granData_congr hbytes (32 * g)
  refine ⟨⟨fun a => ?_, hcores, htallies, hhost⟩, ?_, ?_, fun a ha => ?_⟩
  · have hself := State.hbmAt_storeGran_self ((s.wbTaken stack rest).burst (32 * g) true) (32 * g) a false
    rw [hdata] at hself
    exact hself.trans (hbytes a)
  · exact (congrArg (Map.getD [] · stack) hwbq).trans (s.wbq_wbTaken stack rest)
  · exact (State.granSt_storeGran _ _ _ _ _).trans (if_pos rfl)
  · exact ((State.granSt_storeGran _ _ _ _ _).trans (if_neg (by omega))).trans (hgran a)

/-! ### SCRUB_LINE -/

/-- The state in which a stack's controller has read the line at an address, with no new error of the silicon. -/
def State.lineRead (s : State) (stack a : Nat) : State :=
  (s.pmcDie (stack / 4) 0x49 (some (stack % 4))).each (iota 0 8) fun s g =>
    ((s.strikeGran (a + 32 * g) []).readGran (a + 32 * g) (a + 32 * g)).2

theorem State.lineRead_keeps {β : Type} {p : State → β} (hp : State.GranView p)
    (hstrike : ∀ s pa, p (State.strikeGran s pa []) = p s) (stack a : Nat) : p (s.lineRead stack a) = p s :=
  (State.each_keeps _ p _ _ fun s _ => (hp.readGran _ _ _).trans (hstrike s _)).trans
    (State.pmcDie_keeps s p hp.regs hp.pmc _ _ _)

theorem State.scrubLine_nil (stack : Nat) :
    s.scrubLine stack [] = (s.lineRead stack (stackLine stack (s.fld F.HBM_SCRUB_next_line (stk4 stack)))).setFld
      F.HBM_SCRUB_next_line (stk4 stack)
      (if s.fld F.HBM_SCRUB_next_line (stk4 stack) + 1
          < (s.lineRead stack (stackLine stack (s.fld F.HBM_SCRUB_next_line (stk4 stack)))).stackLines
        then s.fld F.HBM_SCRUB_next_line (stk4 stack) + 1 else 0) := rfl

theorem State.stackLines_le : s.stackLines ≤ 2 ^ 28 := by
  unfold State.stackLines State.sids
  split <;> omega

/-- A line that is scrubbed moves the stack's pointer on, past the last line to 0, and changes no data (R172, R173). -/
theorem State.scrubLine_nil_moves (stack : Nat) :
    let i := s.fld F.HBM_SCRUB_next_line (stk4 stack)
    (s.sameData (s.scrubLine stack []) ∧ ∀ a, (s.scrubLine stack []).granSt a = s.granSt a)
      ∧ (s.scrubLine stack []).fld F.HBM_SCRUB_next_line (stk4 stack) = if i + 1 < s.stackLines then i + 1 else 0 := by
  intro i
  have hframe := s.lineRead_keeps State.GranView.granFrame (fun s => s.granFrame_strikeGran_nil) stack (stackLine stack i)
  have hfuse : State.GranView State.fuseMem := by constructor <;> exact fun _ _ => rfl
  have hlines : (s.lineRead stack (stackLine stack i)).stackLines = s.stackLines := by
    rw [State.stackLines, State.sids, s.lineRead_keeps hfuse (fun _ _ => rfl), State.stackLines, State.sids]
  have htop := s.stackLines_le
  have hnext : (if i + 1 < s.stackLines then i + 1 else 0) < 2 ^ 28 := by
    split <;> omega
  rw [State.scrubLine_nil, hlines]
  refine ⟨State.sameData_of_granFrame ((State.setFld_keeps _ State.granFrame (fun _ _ => rfl) _ _ _).trans hframe), ?_⟩
  rw [State.fld_setFld_same _ _ _ _ (by decide)]
  exact Nat.mod_eq_of_lt hnext

theorem State.execScrubLine_floor {stack : Nat} (h : s.floorDue stack = true) :
    execScrubLine stack [] s = .next (s.floorLine stack []) := by
  simp only [execScrubLine, h, if_true]

theorem State.execScrubLine_turn {stack : Nat} (hfloor : s.floorDue stack = false) (hturn : s.turn stack .scrub = true)
    (hq : Map.getD [] s.wbq stack = []) : execScrubLine stack [] s = .next ((s.charge stack .scrub).scrubLine stack []) := by
  simp only [execScrubLine, hfloor, hturn, hq, List.isEmpty_nil, Bool.and_self, Bool.false_eq_true, if_false, if_true]

/-! ### HBM_TEMP_CHANGE -/

/-- The state after a temperature is reported, with the mark that its halved refresh interval shows (R175). -/
def State.tempChanged (s : State) (stack temp : Nat) : State :=
  let t := s.setFld F.HBM_STAT_temp (stk4 stack) temp
  if 85 < temp then t.liveBit F.HBM_STAT_hot (stk4 stack) true
  else if temp ≤ 83 then t.liveBit F.HBM_STAT_hot (stk4 stack) false else t

theorem State.tempChanged_keeps {β : Type} (p : State → β) (hregs : ∀ s x, p (State.setRegs s x) = p s)
    (hconv : ∀ s x, p (State.setConv s x) = p s) (stack temp : Nat) : p (s.tempChanged stack temp) = p s := by
  have hlive : ∀ on, p ((s.setFld F.HBM_STAT_temp (stk4 stack) temp).liveBit F.HBM_STAT_hot (stk4 stack) on) = p s := fun on =>
    (State.liveBit_keeps _ p hregs hconv _ _ _).trans (hregs _ _)
  unfold State.tempChanged
  dsimp only
  split_ifs
  · exact hlive true
  · exact hlive false
  · exact hregs _ _

/-- A register other than the one written reads as before. -/
theorem State.getD_setReg_ne {r : RegDef} {ix : List Nat} {o : Nat} (h : o ≠ r.addr ix) (d v : Word) :
    Map.getD d (s.setReg r ix v).regs o = Map.getD d s.regs o := Map.getD_setD_ne _ _ _ h _

theorem State.getD_liveBit_ne {f : Fld} {ix : List Nat} {o : Nat} (h : o ≠ f.reg.addr ix) (d : Word) (on : Bool) :
    Map.getD d (s.liveBit f ix on).regs o = Map.getD d s.regs o := by
  unfold State.liveBit
  split
  · split
    · rfl
    · rw [State.raiseBit, State.noteNf6_regs]
      exact s.getD_setReg_ne h d _
  · exact s.getD_setReg_ne h d _

theorem State.regsBut_tempChanged (stack temp : Nat) : s.regsBut [R.HBM_STAT.addr (stk4 stack)] (s.tempChanged stack temp) := by
  intro o d ho
  have hne : o ≠ R.HBM_STAT.addr (stk4 stack) := by simpa using ho
  have hset : Map.getD d (s.setFld F.HBM_STAT_temp (stk4 stack) temp).regs o = Map.getD d s.regs o := s.getD_setReg_ne hne d _
  unfold State.tempChanged
  dsimp only
  split_ifs
  · exact (State.getD_liveBit_ne _ hne d true).trans hset
  · exact (State.getD_liveBit_ne _ hne d false).trans hset
  · exact hset

theorem State.temp_tempChanged (stack : Nat) {temp : Nat} (htemp : temp < 256) :
    (s.tempChanged stack temp).fld F.HBM_STAT_temp (stk4 stack) = temp := by
  have hlive : ∀ (t : State) on, (t.liveBit F.HBM_STAT_hot (stk4 stack) on).fld F.HBM_STAT_temp (stk4 stack)
      = t.fld F.HBM_STAT_temp (stk4 stack) := fun t on =>
    State.fld_liveBit_other (f := F.HBM_STAT_hot) (g := F.HBM_STAT_temp) t rfl (by decide) (by decide) (by decide) on
  have hset : (s.setFld F.HBM_STAT_temp (stk4 stack) temp).fld F.HBM_STAT_temp (stk4 stack) = temp := by
    rw [State.fld_setFld_same _ _ _ _ (by decide)]
    exact Nat.mod_eq_of_lt htemp
  unfold State.tempChanged
  dsimp only
  split_ifs
  · rw [hlive, hset]
  · rw [hlive, hset]
  · exact hset

theorem State.hot_tempChanged (stack temp : Nat) :
    (s.tempChanged stack temp).isSet F.HBM_STAT_hot (stk4 stack)
      = (decide (85 < temp) || (decide (83 < temp) && s.isSet F.HBM_STAT_hot (stk4 stack))) := by
  unfold State.tempChanged
  dsimp only
  split_ifs with hhigh hlow
  · rw [State.isSet, State.fld_liveBit_same _ _ _ _ (by decide), decide_eq_true hhigh]
    rfl
  · rw [State.isSet, State.fld_liveBit_same _ _ _ _ (by decide), decide_eq_false hhigh,
      decide_eq_false (p := 83 < temp) (by omega)]
    rfl
  · rw [State.isSet, State.fld_setFld_other (f := F.HBM_STAT_temp) (g := F.HBM_STAT_hot) _ rfl (by decide) (by decide)
      (by decide), decide_eq_false hhigh, decide_eq_true (p := 83 < temp) (by omega), Bool.false_or, Bool.true_and, State.isSet]

end Sys2Proof.Machine

namespace Sys2Proof.Proofs
open Sys2Proof.Machine

/-- Settles O24: each command of the controllers, by what the granules it reads hold. -/
theorem hbmReadsReportAndHeal : Obligations.HbmReadsReportAndHeal := by
  unfold Obligations.HbmReadsReportAndHeal
  intro s same up
  refine ⟨?clean, ?ce, ?command, ?writeback, ?scrub, fun pc => rfl, ?temp⟩
  case clean =>
    intro addr od _ hup hclean ix
    obtain ⟨hpop, hext⟩ := hup
    obtain ⟨hsame, hgran⟩ := State.sameData_of_granFrame (s.granFrame_hbmRead addr od)
    exact ⟨_, s.execHbmRead_served hpop hext od, hsame, hgran, s.hbmRead_clean hclean⟩
  case ce =>
    intro addr e hup he pa ix
    obtain ⟨hpop, hext⟩ := hup
    obtain ⟨hsame, hgran⟩ := State.sameData_of_granFrame (s.granFrame_hbmRead addr 0)
    exact ⟨_, s.execHbmRead_served hpop hext 0, hsame, hgran, s.hbmRead_ce he⟩
  case command =>
    intro addr r hup hr
    obtain ⟨hpop, hext⟩ := hup
    obtain ⟨hsame, -⟩ := State.sameData_of_granFrame (State.GranView.granFrame.raiseFault s _)
    have hevent : (s.fault0 3 3 0x0312).event % 256 ≠ 0xFF := by change 0x0312 % 256 ≠ 0xFF; decide
    exact ⟨_, s.execHbmRead_failed hpop hext hr, hsame, s.records_raiseFault rfl rfl rfl, s.allStop_raiseFault rfl hevent⟩
  case writeback =>
    intro stack w rest _ hq hturn
    refine ⟨fun hstale => ?_, fun e hstale hpoisoning he => ?_⟩
    · obtain ⟨hsame, hgran⟩ := s.sameData_wbTaken_raiseBit stack rest F.HBM_ECC_wb_dropped (stk4 stack)
      refine ⟨_, State.execHbmWriteback_stale hq hturn hstale, hsame, hgran, ?_, State.fld_raiseBit_same _ _ _ (by decide)⟩
      rw [State.raiseBit_keeps _ State.wbq (fun _ _ => rfl) (fun _ _ => rfl)]
      exact s.wbq_wbTaken stack rest
    · exact ⟨_, State.execHbmWriteback_ce hq hturn hstale hpoisoning he, s.putGran_self_wbTaken stack w.gran rest⟩
  case scrub =>
    intro stack _ hdue i
    by_cases hfloor : s.floorDue stack = true
    · obtain ⟨⟨hsame, hgran⟩, hnext⟩ :=
        State.scrubLine_nil_moves (s.setRecess { s.recess with floor := stack :: s.recess.floor }) stack
      exact ⟨_, s.execScrubLine_floor hfloor, hsame, hgran, hnext⟩
    · obtain ⟨hturn, hq⟩ := hdue.resolve_left hfloor
      obtain ⟨⟨hsame, hgran⟩, hnext⟩ := State.scrubLine_nil_moves (s.charge stack .scrub) stack
      exact ⟨_, s.execScrubLine_turn (Bool.eq_false_of_not_eq_true hfloor) hturn hq, hsame, hgran, hnext⟩
  case temp =>
    intro stack temp _ htemp
    obtain ⟨hsame, -⟩ := State.sameData_of_granFrame (s := s) (t := s.tempChanged stack temp)
      (s.tempChanged_keeps State.granFrame (fun _ _ => rfl) (fun _ _ => rfl) stack temp)
    exact ⟨s.tempChanged stack temp, rfl, hsame, s.regsBut_tempChanged stack temp, s.temp_tempChanged stack htemp,
      s.hot_tempChanged stack temp⟩

end Sys2Proof.Proofs
end

section
/-!
PROOFS. What a write to HBM does where its granules are clean and no STATE page stands in its way (07 R164, R168; 13 R313):
its bytes stand at their addresses, the granules it touches carry its poison, and all else stays but the counters, the
write-backs it overtakes and the granules that the atomic units hold.
-/
namespace Sys2Proof.Machine

variable {s t u : State}

/-! ### What a write leaves alone -/

/-- The state but for what a write to HBM can change. -/
def State.beside (s : State) : State := { s with regs := [], pmc := {}, wbq := [], mem := [], gran := [], atm := [] }

/-- All registers under the counters' overflow bits read as before. -/
def State.lowRegsKept (s t : State) : Prop :=
  ∀ (r : RegDef) (ix : List Nat), r.addr ix < R.PMC_OVF_IOD.base → t.reg r ix = s.reg r ix

theorem State.lowRegsKept.fld (h : s.lowRegsKept t) {f : Fld} {ix : List Nat} (hlow : f.reg.addr ix < R.PMC_OVF_IOD.base) :
    t.fld f ix = s.fld f ix := by
  rw [State.fld, h f.reg ix hlow, State.fld]

/-- The registers of a crew's range lie under the overflow bits. -/
theorem rigCrew_low {n : Nat} (hn : n < 16) : R.RIG_CREW.addr [n] < R.PMC_OVF_IOD.base := by
  change 0x840 + 0x4 * n < 0x02310180
  omega

theorem State.lowRegsKept.crewValid (h : s.lowRegsKept t) {n : Nat} (hn : n < 16) : t.crewValid n = s.crewValid n := by
  rw [State.crewValid, State.isSet, h.fld (f := F.RIG_CREW_valid) (rigCrew_low hn)]
  rfl

theorem State.lowRegsKept.inRange (h : s.lowRegsKept t) {n : Nat} (hn : n < 16) (a len : Nat) :
    t.inRange n a len = s.inRange n a len := by
  rw [State.inRange, State.rangeBase, State.rangeSize, h.fld (f := F.RIG_CREW_base_gib) (rigCrew_low hn),
    h.fld (f := F.RIG_CREW_size_gib) (rigCrew_low hn)]
  rfl

theorem State.lowRegsKept.crewList (h : s.lowRegsKept t) : t.crewList = s.crewList :=
  List.filter_congr fun _ hn => h.crewValid (by have := mem_iota.mp hn; omega)

theorem State.lowRegsKept.crewAt (h : s.lowRegsKept t) (a : Nat) : t.crewAt a = s.crewAt a := by
  have hin : (s.crewList.filter fun n => t.inRange n a 1) = s.crewList.filter fun n => s.inRange n a 1 :=
    List.filter_congr fun n hn => h.inRange (s.mem_crewList.mp hn).1 a 1
  rw [State.crewAt, h.crewList, hin, State.crewAt]

theorem State.lowRegsKept.pageAt (h : s.lowRegsKept t) (hcrews : t.crews = s.crews) (a : Nat) : t.pageAt a = s.pageAt a := by
  rw [State.pageAt, h.crewAt, State.pageAt]
  simp only [State.crew, hcrews]

/-! ### Written -/

/-- From s to t the bytes of `data` were written at `a`, poisoned or not, and nothing else. -/
structure State.Written (s t : State) (a : Nat) (data : Bytes) (p : Bool) : Prop where
  beside : t.beside = s.beside
  regs : s.lowRegsKept t
  inside : ∀ j (h : j < data.length), t.hbmAt (a + j) = data[j]
  outside : ∀ x, x < a ∨ a + data.length ≤ x → t.hbmAt x = s.hbmAt x
  marked : ∀ j, j < data.length → t.granSt (a + j) = { poison := p }
  unmarked : ∀ x, (∀ j, j < data.length → (a + j) / 32 ≠ x / 32) → t.granSt x = s.granSt x

namespace State.Written

variable {a b : Nat} {data rest : Bytes} {p q : Bool}

theorem nil (hbeside : t.beside = s.beside) (hregs : s.lowRegsKept t) (hmem : t.mem = s.mem) (hgran : t.gran = s.gran) :
    s.Written t a [] p where
  beside := hbeside
  regs := hregs
  inside _ h := absurd h (Nat.not_lt_zero _)
  outside x _ := by rw [State.hbmAt, hmem, State.hbmAt]
  marked _ h := absurd h (Nat.not_lt_zero _)
  unmarked x _ := by rw [State.granSt, hgran, State.granSt]

theorem refl (s : State) : s.Written s a [] p := nil rfl (fun _ _ _ => rfl) rfl rfl

/-! What stays -/

theorem crews (h : s.Written t a data p) : t.crews = s.crews := (congrArg State.crews h.beside :)
theorem cores (h : s.Written t a data p) : t.cores = s.cores := (congrArg State.cores h.beside :)
theorem tallies (h : s.Written t a data p) : t.tallies = s.tallies := (congrArg State.tallies h.beside :)
theorem hostMem (h : s.Written t a data p) : t.hostMem = s.hostMem := (congrArg State.hostMem h.beside :)
theorem aord (h : s.Written t a data p) : t.aord = s.aord := (congrArg State.aord h.beside :)

theorem pageAt (h : s.Written t a data p) (x : Nat) : t.pageAt x = s.pageAt x := h.regs.pageAt h.crews x

theorem isState (h : s.Written t a data p) (x : Nat) : t.isState x = s.isState x := by
  rw [State.isState, h.pageAt, State.isState]

/-- A granule that no written byte lies in stays clean. -/
theorem clean (h : s.Written t a data p) {x : Nat} (hbelow : a + data.length ≤ x / 32 * 32) (hx : s.granSt x = {}) :
    t.granSt x = {} := by
  rw [h.unmarked x fun j hj => by omega, hx]

theorem hbmAt_of_nil (h : s.Written t a [] p) (x : Nat) : t.hbmAt x = s.hbmAt x :=
  h.outside x (by simp only [List.length_nil]; omega)

theorem granSt_of_nil (h : s.Written t a [] p) (x : Nat) : t.granSt x = s.granSt x :=
  h.unmarked x fun _ hj => absurd hj (Nat.not_lt_zero _)

/-! Writes one after the other -/

theorem nil_trans (h : s.Written t b [] q) (h' : t.Written u a data p) : s.Written u a data p where
  beside := h'.beside.trans h.beside
  regs r ix hlow := (h'.regs r ix hlow).trans (h.regs r ix hlow)
  inside := h'.inside
  outside x hx := (h'.outside x hx).trans (h.hbmAt_of_nil x)
  marked := h'.marked
  unmarked x hx := (h'.unmarked x hx).trans (h.granSt_of_nil x)

theorem trans_nil (h : s.Written t a data p) (h' : t.Written u b [] q) : s.Written u a data p where
  beside := h'.beside.trans h.beside
  regs r ix hlow := (h'.regs r ix hlow).trans (h.regs r ix hlow)
  inside j hj := (h'.hbmAt_of_nil _).trans (h.inside j hj)
  outside x hx := (h'.hbmAt_of_nil x).trans (h.outside x hx)
  marked j hj := (h'.granSt_of_nil _).trans (h.marked j hj)
  unmarked x hx := (h'.granSt_of_nil x).trans (h.unmarked x hx)

theorem append (h : s.Written t a data p) (h' : t.Written u (a + data.length) rest p) : s.Written u a (data ++ rest) p where
  beside := h'.beside.trans h.beside
  regs r ix hlow := (h'.regs r ix hlow).trans (h.regs r ix hlow)
  inside j hj := by
    by_cases hlt : j < data.length
    · rw [h'.outside _ (by omega), h.inside j hlt, List.getElem_append_left hlt]
    · have hj' : j - data.length < rest.length := by rw [List.length_append] at hj; omega
      have hin := h'.inside (j - data.length) hj'
      rw [show a + data.length + (j - data.length) = a + j by omega] at hin
      rw [hin, List.getElem_append_right (by omega)]
  outside x hx := by
    rw [List.length_append] at hx
    rw [h'.outside x (by omega), h.outside x (by omega)]
  marked j hj := by
    rw [List.length_append] at hj
    by_cases hlater : ∃ i, i < rest.length ∧ (a + data.length + i) / 32 = (a + j) / 32
    · obtain ⟨i, hi, hsame⟩ := hlater
      rw [← h'.marked i hi, State.granSt, State.granSt, hsame]
    · have hfirst : j < data.length := by
        refine Nat.lt_of_not_le fun hle => hlater ⟨j - data.length, by omega, ?_⟩
        rw [show a + data.length + (j - data.length) = a + j by omega]
      rw [h'.unmarked _ fun i hi hsame => hlater ⟨i, hi, hsame⟩, h.marked j hfirst]
  unmarked x hx := by
    rw [h'.unmarked x fun i hi => ?_, h.unmarked x fun i hi => hx i (by rw [List.length_append]; omega)]
    have happ := hx (data.length + i) (by rw [List.length_append]; omega)
    rwa [← Nat.add_assoc] at happ

end State.Written

/-! ### One granule -/

theorem State.lowRegsKept_burst (s : State) (pa : Nat) (write : Bool) : s.lowRegsKept (s.burst pa write) := fun _ _ hlow =>
  (State.reg_pmcTick_of_lt _ hlow _ _ _ _).trans rfl

theorem State.written_burst (s : State) (pa : Nat) (write : Bool) {a : Nat} {p : Bool} : s.Written (s.burst pa write) a [] p :=
  .nil (s.burst_keeps State.beside (fun _ _ => rfl) (fun _ _ => rfl) pa write) (s.lowRegsKept_burst pa write)
    (s.burst_keeps State.mem (fun _ _ => rfl) (fun _ _ => rfl) pa write)
    (s.burst_keeps State.gran (fun _ _ => rfl) (fun _ _ => rfl) pa write)

theorem State.written_staleWb (s : State) (pa : Nat) {a : Nat} {p : Bool} : s.Written (s.staleWb pa) a [] p :=
  .nil rfl (fun _ _ _ => rfl) rfl rfl

/-- The 32 bytes of a granule in which `data` stands from `pos` on. -/
def State.granWith (s : State) (pa pos : Nat) (data : Bytes) : Bytes :=
  (natLe 32 (s.granData pa)).take pos ++ data ++ (natLe 32 (s.granData pa)).drop (pos + data.length)

section
variable {pa pos : Nat} {data : Bytes} (hfit : pos + data.length ≤ 32)
include hfit

theorem State.length_granWith : (s.granWith pa pos data).length = 32 := by
  simp only [State.granWith, List.length_append, List.length_take, List.length_drop, length_natLe]
  omega

theorem State.getElem_granWith_in {j : Nat} (hj : j < data.length) (h : pos + j < (s.granWith pa pos data).length) :
    (s.granWith pa pos data)[pos + j] = data[j] := by
  have hpos : ((natLe 32 (s.granData pa)).take pos).length = pos := by
    rw [List.length_take, length_natLe]
    omega
  simp only [State.granWith]
  rw [List.getElem_append_left (by rw [List.length_append]; omega), List.getElem_append_right (by omega)]
  simp only [hpos, Nat.add_sub_cancel_left]

theorem State.getElem_granWith_out {i : Nat} (hi : i < pos ∨ pos + data.length ≤ i) (h : i < (s.granWith pa pos data).length) :
    (s.granWith pa pos data)[i] = s.hbmAt (pa / 32 * 32 + i) := by
  have hlen : i < 32 := by rwa [State.length_granWith hfit] at h
  have hpos : ((natLe 32 (s.granData pa)).take pos).length = pos := by
    rw [List.length_take, length_natLe]
    omega
  have hbyte : ∀ (k : Nat) (hk : k < (natLe 32 (s.granData pa)).length),
      (natLe 32 (s.granData pa))[k] = s.hbmAt (pa / 32 * 32 + k) := by
    intro k hk
    simp only [s.natLe_granData, Map.getElem_bytes, State.hbmAt]
  simp only [State.granWith]
  obtain hlo | hhi := hi
  · rw [List.getElem_append_left (by rw [List.length_append]; omega), List.getElem_append_left (by omega),
      List.getElem_take, hbyte]
  · rw [List.getElem_append_right (by rw [List.length_append]; omega), List.getElem_drop, hbyte]
    congr 1
    rw [List.length_append, hpos]
    omega

/-- A granule that is stored with `data` in its place. -/
theorem State.written_storeGran (hpos : pos = pa % 32) (hsome : data ≠ []) (p : Bool) :
    s.Written (s.storeGran pa (s.granWith pa pos data) p) pa data p where
  beside := rfl
  regs _ _ _ := rfl
  inside j hj := by
    have hlen : (s.granWith pa pos data).length = 32 := State.length_granWith hfit
    have hin := s.hbmAt_storeGran_in (pa := pa) hlen p (show pos + j < _ by omega)
    rw [show pa / 32 * 32 + (pos + j) = pa + j by omega] at hin
    rw [hin, State.getElem_granWith_in hfit hj]
  outside x hx := by
    by_cases hsame : x / 32 = pa / 32
    · have hlen : (s.granWith pa pos data).length = 32 := State.length_granWith hfit
      have hin := s.hbmAt_storeGran_in (pa := pa) hlen p (show x % 32 < _ by omega)
      rw [show pa / 32 * 32 + x % 32 = x by omega] at hin
      rw [hin, State.getElem_granWith_out hfit (by omega), show pa / 32 * 32 + x % 32 = x by omega]
    · exact s.hbmAt_storeGran_out _ _ hsame
  marked j hj := (s.granSt_storeGran _ _ _ _).trans (if_pos (by omega))
  unmarked x hx := by
    have hlen := List.length_pos_of_ne_nil hsome
    exact (s.granSt_storeGran _ _ _ _).trans (if_neg (hx 0 hlen).symm)

end

/-- What the read of the granule leaves does not matter to what is merged with it. -/
theorem State.granWith_congr (h : ∀ x, t.hbmAt x = s.hbmAt x) (pa pos : Nat) (data : Bytes) :
    t.granWith pa pos data = s.granWith pa pos data := by
  rw [State.granWith, State.granData_congr h, State.granWith]

/-- A write of a whole granule is the granule with the data in it. -/
theorem State.granWith_whole {pa : Nat} {data : Bytes} (h : data.length = 32) : s.granWith pa 0 data = data := by
  rw [State.granWith, List.take_zero, List.nil_append, Nat.zero_add, h,
    List.drop_eq_nil_of_le (length_natLe _ _).le, List.append_nil]

/-- A write within one clean granule puts its bytes (R168). -/
theorem State.written_writeGran {pa : Nat} {data : Bytes} (hclean : s.granSt pa = {}) (hfit : pa % 32 + data.length ≤ 32)
    (hsome : data ≠ []) (name : Nat) (p : Bool) : s.Written (s.writeGran pa name (pa % 32) data p) pa data p := by
  have hput : ∀ t : State, s.Written t pa [] p →
      s.Written ((t.staleWb pa).putGran pa (s.granWith pa (pa % 32) data) p) pa data p := by
    intro t ht
    have hburst : s.Written ((t.staleWb pa).burst pa true) pa [] p :=
      ht.nil_trans ((t.written_staleWb pa (a := pa) (p := p)).nil_trans (State.written_burst _ pa true))
    rw [← State.granWith_congr hburst.hbmAt_of_nil]
    exact hburst.nil_trans (State.written_storeGran hfit rfl hsome p)
  unfold State.writeGran
  split
  · next hwhole =>
    have hpos : pa % 32 = 0 := by omega
    have hsame := hput s (.refl s)
    rwa [hpos, State.granWith_whole hwhole] at hsame
  · have hread : decodeGran (s.granData pa) (s.granSt pa) = ⟨0, natLe 32 (s.granData pa), false⟩ := by
      rw [hclean]
      rfl
    simp only [hread, Bool.or_false]
    exact hput _ (s.written_burst pa false)

end Sys2Proof.Machine
end

section
/-!
PROOFS. The commands that write and read HBM on clean granules (O25): HBM_WRITE, GRAIN_WRITE, GRAIN_READ, BAR4_READ and
BAR4_WRITE (07 R163, R168, R176; 16 R384; 01 R35).
-/
namespace Sys2Proof.Machine

variable {s t u : State}

/-! ### Bytes that all carry one poison mark -/

theorem plain_map_mark (d : Bytes) (p : Bool) : plain (d.map fun b => (b, p)) = d := by
  simp [plain, Function.comp_def]

theorem anyPoison_map_mark {d : Bytes} (hsome : d ≠ []) (p : Bool) : anyPoison (d.map fun b => (b, p)) = p := by
  cases d with
  | nil => exact absurd rfl hsome
  | cons b r => cases p <;> simp [anyPoison]

/-! ### Addresses outside STATE pages (13 R313, R314) -/

theorem State.pageAt_eq_none {a : Nat} (h : s.isState a = false) : s.pageAt a = none :=
  Option.isNone_iff_eq_none.mp (Option.isSome_eq_false_iff.mp h)

theorem State.readPa_plain {a : Nat} (h : s.isState a = false) : s.readPa a = a := by
  rw [State.readPa, State.pageAt_eq_none h]

theorem State.writePa_plain {a : Nat} (h : s.isState a = false) : s.writePa a = a := by
  rw [State.writePa, State.pageAt_eq_none h]

/-- Outside STATE pages a write needs no frame and no filled line. -/
theorem State.readyLine_firstWrite_plain {a : Nat} (h : s.isState a = false) (whole : Bool) :
    (s.firstWrite a).readyLine a whole = s := by
  have hfirst : s.firstWrite a = s := by rw [State.firstWrite, State.pageAt_eq_none h]
  rw [hfirst, State.readyLine, State.pageAt_eq_none h]

/-- Poison written outside STATE pages is charged to no crew. -/
theorem State.stateWords_plain (h : ∀ x, s.isState x = false) (a : Nat) (d : List (Byte × Bool)) : s.stateWords a d = 0 := by
  unfold State.stateWords wordsWhere
  split
  · rfl
  · have hnone : (((iota a d.length).zip d).filterMap fun p => if p.2.2 && s.isState p.1 then some (p.1 / 8) else none) = [] :=
      List.filterMap_eq_nil_iff.mpr fun p _ => by rw [h, Bool.and_false]; rfl
    rw [hnone]
    rfl

theorem State.stateWritePoison_plain (h : ∀ x, s.isState x = false) (n : Nat) (core : Option Nat) (unit a : Nat)
    (d : List (Byte × Bool)) : s.stateWritePoison n core unit a d = s := by
  unfold State.stateWritePoison
  dsimp only
  rw [if_pos (State.stateWords_plain h a d)]

/-! ### A run of bytes -/

/-- Bytes of one granule. -/
theorem State.written_hbmWriteGran {a : Nat} {d : Bytes} (hplain : s.isState a = false) (hclean : s.granSt a = {})
    (hfit : a % 32 + d.length ≤ 32) (hsome : d ≠ []) (p : Bool) :
    s.Written (s.hbmWriteGran a (d.map fun b => (b, p))) a d p := by
  rw [State.hbmWriteGran, State.writePa_plain hplain, plain_map_mark, anyPoison_map_mark hsome]
  exact State.written_writeGran hclean hfit hsome a p

/-- A run is written piece by piece. -/
theorem State.Written.pieces {a k : Nat} {d : Bytes} {p : Bool} (h : s.Written t a (d.take k) p)
    (h' : t.Written u (a + k) (d.drop k) p) : s.Written u a d p := by
  obtain hlast | hmore := Nat.le_total d.length k
  · rw [List.take_of_length_le hlast] at h
    rw [List.drop_eq_nil_of_le hlast] at h'
    exact h.trans_nil h'
  · have hk : (d.take k).length = k := by rw [List.length_take]; omega
    rw [← hk] at h'
    have happ := h.append h'
    rwa [hk, List.take_append_drop] at happ

/-- The granules after a piece are as clean as before it. -/
theorem State.Written.cleanFrom {a k : Nat} {d : Bytes} {p : Bool} (h : s.Written t a (d.take k) p) (hedge : (a + k) % 32 = 0)
    (hclean : ∀ x, a / 32 ≤ x / 32 → s.granSt x = {}) (x : Nat) (hx : (a + k) / 32 ≤ x / 32) : t.granSt x = {} := by
  have hlen : (d.take k).length ≤ k := by rw [List.length_take]; exact Nat.min_le_left _ _
  exact h.clean (by omega) (hclean x (by omega))

theorem State.Written.plainFrom {a : Nat} {d : Bytes} {p : Bool} (h : s.Written t a d p) (hplain : ∀ x, s.isState x = false)
    (x : Nat) : t.isState x = false := (h.isState x).trans (hplain x)

/-- Bytes of a line, granule by granule. -/
theorem State.written_hbmWriteIn (p : Bool) (fuel : Nat) {s : State} {a : Nat} {d : Bytes} (hplain : ∀ x, s.isState x = false)
    (hclean : ∀ x, a / 32 ≤ x / 32 → s.granSt x = {}) (hfuel : a % 32 + d.length ≤ 32 * fuel) :
    s.Written (s.hbmWriteIn a (d.map fun b => (b, p)) fuel) a d p := by
  induction fuel generalizing s a d with
  | zero =>
    obtain rfl : d = [] := List.eq_nil_of_length_eq_zero (by omega)
    exact .refl s
  | succ fuel ih =>
    cases d with
    | nil => exact .refl s
    | cons b r =>
      have hlen : ((b :: r).take (32 - a % 32)).length = min (32 - a % 32) (r.length + 1) := List.length_take
      have hgran := State.written_hbmWriteGran (hplain a) (hclean a le_rfl) (d := (b :: r).take (32 - a % 32)) (by omega)
        (List.ne_nil_of_length_pos (by omega)) p
      rw [List.map_cons, State.hbmWriteIn, ← List.map_cons (f := fun b => (b, p)), ← List.map_take, ← List.map_drop]
      exact hgran.pieces (ih (hgran.plainFrom hplain) (hgran.cleanFrom (by omega) hclean)
        (by rw [List.length_drop]; omega))

/-- A run of bytes, line by line. -/
theorem State.written_hbmWriteFrom (p : Bool) (fuel : Nat) {s : State} {a : Nat} {d : Bytes}
    (hplain : ∀ x, s.isState x = false) (hclean : ∀ x, a / 32 ≤ x / 32 → s.granSt x = {})
    (hfuel : a % 256 + d.length ≤ 256 * fuel) : s.Written (s.hbmWriteFrom a (d.map fun b => (b, p)) fuel) a d p := by
  induction fuel generalizing s a d with
  | zero =>
    obtain rfl : d = [] := List.eq_nil_of_length_eq_zero (by omega)
    exact .refl s
  | succ fuel ih =>
    cases d with
    | nil => exact .refl s
    | cons b r =>
      have hlen : ((b :: r).take (256 - a % 256)).length = min (256 - a % 256) (r.length + 1) := List.length_take
      have hline := State.written_hbmWriteIn p 9 hplain hclean (d := (b :: r).take (256 - a % 256)) (by omega)
      rw [List.map_cons, State.hbmWriteFrom, ← List.map_cons (f := fun b => (b, p)), ← List.map_take, ← List.map_drop]
      rw [State.readyLine_firstWrite_plain (hplain a)]
      exact hline.pieces (ih (hline.plainFrom hplain) (hline.cleanFrom (by omega) hclean)
        (by rw [List.length_drop]; omega))

/-- A write to clean granules outside STATE pages puts exactly its bytes. -/
theorem State.written_hbmPut {a : Nat} (d : Bytes) (hplain : ∀ x, s.isState x = false)
    (hclean : ∀ x, a / 32 ≤ x / 32 → s.granSt x = {}) (p : Bool) : s.Written (s.hbmPut a (d.map fun b => (b, p))) a d p := by
  rw [State.hbmPut, List.length_map]
  exact State.written_hbmWriteFrom p _ hplain hclean (by omega)

/-! ### What the statements say of a write -/

/-- The bytes of `data` stand at `a`; no other byte, core, tally or byte of host memory changed. -/
def State.puts (s t : State) (a : Nat) (data : Bytes) : Prop :=
  (∀ j, j < data.length → some (t.hbmAt (a + j)) = data[j]?) ∧ (∀ x, x < a ∨ a + data.length ≤ x → t.hbmAt x = s.hbmAt x)
    ∧ t.cores = s.cores ∧ t.tallies = s.tallies ∧ ∀ x, t.hostAt x = s.hostAt x

theorem State.Written.puts {a : Nat} {data : Bytes} {p : Bool} (h : s.Written t a data p) : s.puts t a data :=
  ⟨fun j hj => by rw [h.inside j hj, List.getElem?_eq_getElem hj], h.outside, h.cores, h.tallies,
    fun x => by rw [State.hostAt, h.hostMem, State.hostAt]⟩

/-! ### HBM_WRITE -/

theorem State.execHbmWrite_served {addr : Nat} {data : Bytes} (hpop : s.populated addr data.length = true)
    (hup : s.extentUp addr data.length = true) (hplain : ∀ x, s.isState x = false) (hclean : ∀ x, s.granSt x = {}) (p : Bool) :
    execHbmWrite addr 0 p data s = .next (s.hbmPut addr (data.map fun b => (b, p))) := by
  have hwritten := State.written_hbmPut (a := addr) data hplain (fun x _ => hclean x) p
  simp only [execHbmWrite, hpop, hup, Bool.not_true, Bool.or_self, Bool.false_eq_true, if_false, Nat.not_lt_zero]
  split
  · rw [State.stateWritePoison_plain (hwritten.plainFrom hplain)]
  · rfl

/-! ### GRAIN_WRITE and GRAIN_READ -/

/-- A write that meets no counter window and no collective port goes to memory whole. -/
theorem State.hbmStore_loud {a : Nat} {data : List (Byte × Bool)} (h : s.silentIn a data.length = false) :
    s.hbmStore a data = s.hbmPut a data := by
  rw [State.hbmStore, h]
  exact if_neg Bool.false_ne_true

/-- The state once the bytes of a grain write are counted. -/
def State.grainOut (s : State) (c addr n : Nat) : State :=
  (s.count R.GRN_BYTES_WR_LO [stackOf addr / 4] n).nocOut c (stackOf addr / 4) n

theorem State.grainOut_keeps {β : Type} (p : State → β) (hpmc : ∀ s x, p (State.setPmc s x) = p s) (s : State)
    (c addr n : Nat) : p (s.grainOut c addr n) = p s :=
  (State.nocOut_keeps _ p hpmc _ _ _).trans (State.count_keeps s p hpmc _ _ _)

theorem State.written_grainOut (s : State) (c addr n : Nat) {a : Nat} {p : Bool} : s.Written (s.grainOut c addr n) a [] p :=
  .nil (State.grainOut_keeps State.beside (fun _ _ => rfl) s c addr n)
    (fun r ix _ => State.grainOut_keeps (fun s => s.reg r ix) (fun _ _ => rfl) s c addr n)
    (State.grainOut_keeps State.mem (fun _ _ => rfl) s c addr n) (State.grainOut_keeps State.gran (fun _ _ => rfl) s c addr n)

theorem State.execGrainWrite_outside {c n addr : Nat} {p : Bool} {data : Bytes} (hworks : s.coreWorks c = true)
    (hcrew : s.crewOf c = some n) (hfit : addr % 32 + data.length ≤ 32) (hpop : s.populated addr data.length = true)
    (hloud : s.silentIn addr data.length = false) (hwindow : s.windowAt addr = none)
    (hwindows : s.windowsOf addr data.length = []) (hplain : ∀ x, s.isState x = false) (hclean : ∀ x, s.granSt x = {}) :
    execGrainWrite c addr p data s = .next ((s.grainOut c addr data.length).hbmPut addr (data.map fun b => (b, p))) := by
  have hout := s.written_grainOut c addr data.length (a := addr) (p := p)
  have hkeeps {β : Type} (p : State → β) (hpmc : ∀ s x, p (State.setPmc s x) = p s) :
      p (s.grainOut c addr data.length) = p s := State.grainOut_keeps p hpmc s c addr data.length
  have hcrew' := (hkeeps (fun s => s.crewOf c) fun _ _ => rfl).trans hcrew
  have hwindow' := (hkeeps (fun s => s.windowAt addr) fun _ _ => rfl).trans hwindow
  have hwindows' := (hkeeps (fun s => s.windowsOf addr data.length) fun _ _ => rfl).trans hwindows
  have hloud' : (s.grainOut c addr data.length).silentIn addr (data.map fun b => (b, p)).length = false := by
    rw [List.length_map]
    exact (hkeeps (fun s => s.silentIn addr data.length) fun _ _ => rfl).trans hloud
  have hput := State.written_hbmPut (a := addr) data (hout.plainFrom hplain)
    (fun x _ => (hout.granSt_of_nil x).trans (hclean x)) p
  have hfold : (s.count R.GRN_BYTES_WR_LO [stackOf addr / 4] data.length).nocOut c (stackOf addr / 4) data.length
      = s.grainOut c addr data.length := rfl
  simp only [execGrainWrite, hworks, hpop, decide_eq_true hfit, Bool.and_self, if_true, hfold, hcrew', hwindow', hwindows']
  rw [State.hbmStore_loud hloud', State.stateWritePoison_plain (hput.plainFrom (hout.plainFrom hplain))]

/-- The state in which the bytes of a grain read are counted. -/
def State.grainIn (s : State) (c addr : Nat) : State :=
  (s.count R.GRN_BYTES_RD_LO [stackOf addr / 4] 32).nocIn c (stackOf addr / 4) 32

theorem State.grainIn_keeps {β : Type} (p : State → β) (hpmc : ∀ s x, p (State.setPmc s x) = p s) (s : State) (c addr : Nat) :
    p (s.grainIn c addr) = p s := (State.nocIn_keeps _ p hpmc _ _ _).trans (State.count_keeps s p hpmc _ _ _)

theorem State.written_grainIn (s : State) (c addr : Nat) {a : Nat} {p : Bool} : s.Written (s.grainIn c addr) a [] p :=
  .nil (State.grainIn_keeps State.beside (fun _ _ => rfl) s c addr)
    (fun r ix _ => State.grainIn_keeps (fun s => s.reg r ix) (fun _ _ => rfl) s c addr)
    (State.grainIn_keeps State.mem (fun _ _ => rfl) s c addr) (State.grainIn_keeps State.gran (fun _ _ => rfl) s c addr)

/-- A grain read of clean memory is counted, and its granule's burst. -/
theorem State.execGrainRead_clean {c addr : Nat} (hworks : s.coreWorks c = true) (hpop : s.populated addr 1 = true)
    (hfree : s.remoteHolds (addr / 32 * 32) 32 = false) (hplain : ∀ x, s.isState x = false) (hclean : ∀ x, s.granSt x = {}) :
    execGrainRead c addr s = .next ((s.grainIn c addr).burst addr false) := by
  have hin := s.written_grainIn c addr (a := addr) (p := false)
  have hread := State.readGran_clean _ ((hin.granSt_of_nil addr).trans (hclean addr)) addr
  have hfold : (s.count R.GRN_BYTES_RD_LO [stackOf addr / 4] 32).nocIn c (stackOf addr / 4) 32 = s.grainIn c addr := rfl
  simp only [execGrainRead, hworks, hpop, hfree, Bool.not_false, Bool.and_self, if_true, hfold,
    State.readPa_plain (hplain addr), hread]

/-! ### Counters (15 R370) -/

/-- Bytes that pass a counting point leave the other counters. -/
theorem State.counts_count_ne {lo : RegDef} {ix : List Nat} {k : Nat} (h : k ≠ lo.addr ix) (n : Nat) :
    Map.getD 0 (s.count lo ix n).pmc.counts k = Map.getD 0 s.pmc.counts k := Map.getD_setD_ne _ _ _ h _

theorem State.counts_count_same (s : State) (lo : RegDef) (ix : List Nat) (n : Nat) :
    Map.getD 0 (s.count lo ix n).pmc.counts (lo.addr ix) = (Map.getD 0 s.pmc.counts (lo.addr ix) + n) % 2 ^ 64 :=
  Map.getD_setD_same _ _ _ _

/-- An event leaves the counters that do not count it. -/
theorem State.counts_pmcTick_ne {cnt sel ovf : RegDef} {ix : List Nat} {key : Nat} (h : ∀ k, key ≠ cnt.addr (ix ++ [k]))
    (n code : Nat) (sub : Option Nat) :
    Map.getD 0 (s.pmcTick cnt sel ovf ix n code sub).pmc.counts key = Map.getD 0 s.pmc.counts key := by
  refine State.each_keeps s (fun s => Map.getD 0 s.pmc.counts key) _ _ fun s k => ?_
  have hne := Map.getD_setD_ne 0 0 s.pmc.counts (h k) ((Map.getD 0 s.pmc.counts (cnt.addr (ix ++ [k])) + 1) % 2 ^ 48)
  split
  · dsimp only
    split
    · exact hne
    · exact hne
  · rfl

/-- The burst of a read leaves its die's count of grain bytes. -/
theorem State.grainBytes_burst (s : State) (pa : Nat) :
    Map.getD 0 (s.burst pa false).pmc.counts (R.GRN_BYTES_RD_LO.addr [stackOf pa / 4])
      = Map.getD 0 s.pmc.counts (R.GRN_BYTES_RD_LO.addr [stackOf pa / 4]) := by
  have hkey : R.GRN_BYTES_RD_LO.addr [stackOf pa / 4] = 0x02300040 + 0x800000 * (stackOf pa / 4) := rfl
  have hpc : pcOf pa < 512 := Nat.mod_lt _ (by decide)
  rw [hkey]
  refine (State.counts_pmcTick_ne (fun k => ?event) _ _ _).trans
    ((State.counts_count_ne ?package _).trans (State.counts_count_ne ?channel _))
  case event =>
    change _ ≠ 0x02310000 + 0x800000 * (stackOf pa / 4) + 0x8 * k
    omega
  case package =>
    change _ ≠ 0x0204F008
    omega
  case channel =>
    change _ ≠ 0x02040800 + 0x800000 * (stackOf pa / 4) + 0x1000 * (stackOf pa % 4) + 0x10 * (pcOf pa % 64 / 2)
    omega

/-- A grain read counts 32 bytes of its die. -/
theorem State.grainBytes_grainIn (s : State) (c addr : Nat) :
    Map.getD 0 (s.grainIn c addr).pmc.counts (R.GRN_BYTES_RD_LO.addr [stackOf addr / 4])
      = (Map.getD 0 s.pmc.counts (R.GRN_BYTES_RD_LO.addr [stackOf addr / 4]) + 32) % 2 ^ 64 := by
  have hkey : R.GRN_BYTES_RD_LO.addr [stackOf addr / 4] = 0x02300040 + 0x800000 * (stackOf addr / 4) := rfl
  refine (State.counts_count_ne ?_ _).trans ((State.counts_count_ne ?_ _).trans (State.counts_count_same _ _ _ _))
  · rw [hkey]
    change _ ≠ 0x02300000 + 0x800000 * (stackOf addr / 4)
    omega
  · rw [hkey]
    change _ ≠ 0x01003118 + 0x10000 * c
    omega

/-! ### Reads of clean memory (07 R165) -/

/-- A part of a granule's bytes. -/
theorem State.take_drop_granData (s : State) {pa k : Nat} (h : pa % 32 + k ≤ 32) :
    ((natLe 32 (s.granData pa)).drop (pa % 32)).take k = Map.bytes unlisted s.mem pa k := by
  refine List.ext_getElem ?_ fun i hi _ => ?_
  · simp only [List.length_take, List.length_drop, length_natLe, Map.length_bytes]
    omega
  · simp only [List.getElem_take, List.getElem_drop, s.natLe_granData, Map.getElem_bytes]
    congr 1
    omega

/-- Clean memory outside STATE pages reads as its bytes, without poison. -/
theorem State.hbmReadFrom_clean (fuel : Nat) {s : State} {a n : Nat} (hplain : ∀ x, s.isState x = false)
    (hclean : ∀ x, s.granSt x = {}) (hfuel : n = 0 ∨ a % 32 + n ≤ 32 * fuel) :
    (s.hbmReadFrom a n fuel).1 = clean (Map.bytes unlisted s.mem a n) := by
  induction fuel generalizing s a n with
  | zero =>
    obtain rfl : n = 0 := by omega
    rfl
  | succ fuel ih =>
    by_cases hn : n = 0
    · subst hn
      rfl
    · obtain ⟨k, hk⟩ : ∃ k, k = if 32 - a % 32 ≤ n then 32 - a % 32 else n := ⟨_, rfl⟩
      have hfit : a % 32 + k ≤ 32 ∧ k ≤ n ∧ (n - k = 0 ∨ (a + k) % 32 + (n - k) ≤ 32 * fuel) := by
        split at hk <;> omega
      obtain ⟨hgran, hle, hfuel'⟩ := hfit
      have hburst := s.written_burst a false (a := a) (p := false)
      have hrest := ih (s := s.burst a false) (a := a + k) (n := n - k) (hburst.plainFrom hplain)
        (fun x => (hburst.granSt_of_nil x).trans (hclean x)) hfuel'
      have hmem : (s.burst a false).mem = s.mem := s.burst_keeps State.mem (fun _ _ => rfl) (fun _ _ => rfl) a false
      rw [State.hbmReadFrom, if_neg hn]
      simp only [State.readPa_plain (hplain a), State.readGran_clean s (hclean a), ← hk]
      rw [hrest, s.take_drop_granData hgran, hmem, clean, clean, ← List.map_append, Map.bytes_append,
        Nat.add_sub_cancel' hle]

theorem State.hbmBytes_clean {a n : Nat} (hplain : ∀ x, s.isState x = false) (hclean : ∀ x, s.granSt x = {}) :
    (s.hbmBytes a n).1 = clean (Map.bytes unlisted s.mem a n) :=
  State.hbmReadFrom_clean _ hplain hclean (.inr (by omega))

/-! ### BAR4 (16 R384) -/

/-- What the host is given changes neither memory nor a register. -/
theorem State.sameMemory_giveHost (h : s.sameMemory t) (b : Bytes) (ep : Bool) : s.sameMemory (t.giveHost b ep) := h

theorem State.sameMemory_raiseBit (s : State) (f : Fld) (ix : List Nat) : s.sameMemory (s.raiseBit f ix) :=
  State.sameMemory_of_eq (State.raiseBit_keeps s State.memory (fun _ _ => rfl) (fun _ _ => rfl) f ix)

theorem State.sameMemory_voidAccess (s : State) : s.sameMemory s.voidAccess :=
  State.sameMemory_of_eq ((State.raiseBit_keeps _ State.memory (fun _ _ => rfl) (fun _ _ => rfl) _ _).trans rfl)

theorem State.hostData_giveHost (s : State) (b : Bytes) (ep : Bool) : (s.giveHost b ep).hostData = b := rfl

theorem State.hostEP_giveHost (s : State) (b : Bytes) (ep : Bool) : (s.giveHost b ep).hostEP = ep := rfl

theorem State.fld_giveHost (s : State) (b : Bytes) (ep : Bool) (f : Fld) (ix : List Nat) :
    (s.giveHost b ep).fld f ix = s.fld f ix := rfl

/-- An access to an unpopulated address counts in HBM_VOID. -/
theorem State.count_voidAccess (s : State) : s.voidAccess.fld F.HBM_VOID_count [] = satAdd (s.fld F.HBM_VOID_count []) 1 65535 := by
  rw [State.voidAccess, State.fld_raiseBit,
    State.fld_setFld_other (f := F.HBM_VOID_hist) (g := F.HBM_VOID_count) _ rfl (by decide) (by decide) (by decide),
    State.fld_bump_same _ _ _ _ (by decide)]
  rfl

theorem State.hist_voidAccess (s : State) : s.voidAccess.fld F.HBM_VOID_hist [] = 1 :=
  State.fld_raiseBit_same _ _ _ (by decide)

theorem State.hbmLoad_loud {a len : Nat} (h : s.silentIn a len = false) (w : Nat → Byte) : s.hbmLoad w a len = s.hbmBytes a len := by
  rw [State.hbmLoad, h]
  rfl

section
variable {off len : Nat} {data : Bytes}

theorem State.execBar4Read_stray (h : s.inEasy = true ∨ s.inReset = true) :
    execBar4Read off len s = .next (s.stray.giveHost (List.replicate len 0xFF) false) := by
  rw [execBar4Read, (Bool.or_eq_true _ _).mpr h, if_pos rfl]

theorem State.execBar4Write_stray (h : s.inEasy = true ∨ s.inReset = true) :
    execBar4Write off data s = .next (s.fromHost data.length).stray := by
  have hstopped : ((s.fromHost data.length).inEasy || (s.fromHost data.length).inReset) = true := (Bool.or_eq_true _ _).mpr h
  rw [execBar4Write]
  exact if_pos hstopped

variable (heasy : s.inEasy = false) (hreset : s.inReset = false)
include heasy hreset

theorem State.execBar4Read_void (h : s.populated (s.bar4Addr off) len = false) :
    execBar4Read off len s = .next (s.voidAccess.giveHost (List.replicate len 0xFF) false) := by
  simp only [execBar4Read, heasy, hreset, h, Bool.or_self, Bool.not_false, Bool.false_eq_true, if_false, if_true]

theorem State.execBar4Read_served (hpop : s.populated (s.bar4Addr off) len = true)
    (hup : s.extentUp (s.bar4Addr off) len = true) (hloud : s.silentIn (s.bar4Addr off) len = false) :
    execBar4Read off len s = .next ((s.hbmBytes (s.bar4Addr off) len).2.giveHost (plain (s.hbmBytes (s.bar4Addr off) len).1)
      (anyPoison (s.hbmBytes (s.bar4Addr off) len).1)) := by
  simp only [execBar4Read, heasy, hreset, hpop, hup, State.hbmLoad_loud hloud, Bool.or_self, Bool.not_true,
    Bool.false_eq_true, if_false]

/-- What the tests of a BAR4 write see once its bytes are counted. -/
theorem State.fromHost_running (n : Nat) : (s.fromHost n).inEasy = false ∧ (s.fromHost n).inReset = false :=
  ⟨(s.fromHost_keeps State.inEasy (fun _ _ => rfl) n).trans heasy, (s.fromHost_keeps State.inReset (fun _ _ => rfl) n).trans hreset⟩

theorem State.execBar4Write_void (h : s.populated (s.bar4Addr off) data.length = false) :
    execBar4Write off data s = .next (s.fromHost data.length).voidAccess := by
  obtain ⟨heasy', hreset'⟩ := State.fromHost_running heasy hreset data.length
  have hpop' := (s.fromHost_keeps (fun t => t.populated (t.bar4Addr off) data.length) (fun _ _ => rfl) data.length).trans h
  simp only [execBar4Write, heasy', hreset', hpop', Bool.or_self, Bool.not_false, Bool.false_eq_true, if_false, if_true]

theorem State.execBar4Write_served (hpop : s.populated (s.bar4Addr off) data.length = true)
    (hup : s.extentUp (s.bar4Addr off) data.length = true) (hloud : s.silentIn (s.bar4Addr off) data.length = false) :
    execBar4Write off data s = .next ((s.fromHost data.length).hbmPut (s.bar4Addr off) (data.map fun b => (b, false))) := by
  obtain ⟨heasy', hreset'⟩ := State.fromHost_running heasy hreset data.length
  have hkeeps {β : Type} (p : State → β) (hpmc : ∀ s x, p (State.setPmc s x) = p s) : p (s.fromHost data.length) = p s :=
    s.fromHost_keeps p hpmc data.length
  have haddr : (s.fromHost data.length).bar4Addr off = s.bar4Addr off := hkeeps (fun t => t.bar4Addr off) fun _ _ => rfl
  have hpop' := (hkeeps (fun t => t.populated (s.bar4Addr off) data.length) fun _ _ => rfl).trans hpop
  have hup' := (hkeeps (fun t => t.extentUp (s.bar4Addr off) data.length) fun _ _ => rfl).trans hup
  have hloud' : (s.fromHost data.length).silentIn (s.bar4Addr off) (clean data).length = false := by
    rw [clean, List.length_map]
    exact (hkeeps (fun t => t.silentIn (s.bar4Addr off) data.length) fun _ _ => rfl).trans hloud
  simp only [execBar4Write, heasy', hreset', haddr, hpop', hup', State.hbmStore_loud hloud', Bool.or_self, Bool.not_true,
    Bool.false_eq_true, if_false]
  rfl

end

theorem State.written_fromHost (s : State) (n : Nat) {a : Nat} {p : Bool} : s.Written (s.fromHost n) a [] p :=
  .nil rfl (fun _ _ _ => rfl) rfl rfl

end Sys2Proof.Machine

namespace Sys2Proof.Proofs
open Sys2Proof.Machine

/-- Settles O25: each command by the conditions of its clause; the writes by what `State.hbmPut` does on clean granules. -/
theorem hbmWritesPutTheirBytes : Obligations.HbmWritesPutTheirBytes := by
  unfold Obligations.HbmWritesPutTheirBytes
  intro s hplain hclean up put
  have hwrite : ∀ (a : Nat) (data : Bytes) (p : Bool) (t : State), s.Written t a [] p →
      s.Written (t.hbmPut a (data.map fun b => (b, p))) a data p := fun a data p t ht =>
    ht.nil_trans (State.written_hbmPut data (ht.plainFrom hplain) (fun x _ => (ht.granSt_of_nil x).trans (hclean x)) p)
  refine ⟨?hbmWrite, ?grainWrite, ?grainRead, ?bar4Read, ?bar4Write, ?stray⟩
  case hbmWrite =>
    intro addr p data hup
    obtain ⟨hpop, hext⟩ := hup
    have hwritten := hwrite addr data p s (.refl s)
    exact ⟨_, State.execHbmWrite_served hpop hext hplain hclean p, hwritten.puts, hwritten.marked⟩
  case grainWrite =>
    intro c n addr p data _ hworks hcrew hfit hpop hloud hwindow hwindows
    have hwritten := hwrite addr data p _ (s.written_grainOut c addr data.length)
    exact ⟨_, State.execGrainWrite_outside hworks hcrew hfit hpop hloud hwindow hwindows hplain hclean, hwritten.puts,
      hwritten.marked⟩
  case grainRead =>
    intro c addr _ hworks hpop hfree k
    have hwritten := (s.written_grainIn c addr (a := addr) (p := false)).nil_trans
      (State.written_burst _ addr false (a := addr) (p := false))
    exact ⟨_, State.execGrainRead_clean hworks hpop hfree hplain hclean, hwritten.puts,
      (State.grainBytes_burst _ addr).trans (s.grainBytes_grainIn c addr)⟩
  case bar4Read =>
    intro off len heasy hreset
    refine ⟨fun hup hloud => ?_, fun hvoid => ?_⟩
    · obtain ⟨hpop, hext⟩ := hup
      have hbytes : (s.hbmBytes (s.bar4Addr off) len).1 = _ := State.hbmBytes_clean hplain hclean
      have hmemory := State.ReportView.memoryAndTallies.hbmBytes s (s.bar4Addr off) len
      refine ⟨_, State.execBar4Read_served heasy hreset hpop hext hloud,
        State.sameMemory_giveHost (State.sameMemory_tallies_of_eq hmemory).1 _ _, ?_, ?_⟩
      · rw [State.hostEP_giveHost, hbytes, anyPoison_clean]
      · rw [State.hostData_giveHost, hbytes, plain_clean]
    · exact ⟨_, State.execBar4Read_void heasy hreset hvoid, State.sameMemory_giveHost s.sameMemory_voidAccess _ _,
        State.hostData_giveHost _ _ _, (State.fld_giveHost _ _ _ _ _).trans s.count_voidAccess⟩
  case bar4Write =>
    intro off data heasy hreset
    refine ⟨fun hup hloud => ?_, fun hvoid => ?_⟩
    · obtain ⟨hpop, hext⟩ := hup
      exact ⟨_, State.execBar4Write_served heasy hreset hpop hext hloud,
        (hwrite _ data false _ (s.written_fromHost data.length)).puts⟩
    · exact ⟨_, State.execBar4Write_void heasy hreset hvoid, (s.fromHost data.length).sameMemory_voidAccess,
        State.hist_voidAccess _⟩
  case stray =>
    intro off len data hstopped
    exact ⟨⟨_, State.execBar4Read_stray hstopped, State.sameMemory_giveHost (s.sameMemory_raiseBit _ _) _ _,
        State.hostData_giveHost _ _ _, (State.fld_giveHost _ _ _ _ _).trans (State.fld_raiseBit_same s _ _ (by decide))⟩,
      _, State.execBar4Write_stray hstopped, (s.fromHost data.length).sameMemory_raiseBit _ _,
      State.fld_raiseBit_same _ _ _ (by decide)⟩

end Sys2Proof.Proofs
end

section
/-!
PROOFS. A request of one element to an atomic window (O26): the element it leaves, the request held under FIXED, and the
held request that is applied (07 R177, R178, R180, R182, R183).
-/
namespace Sys2Proof.Machine

variable {s t : State}

/-! ### Numbers of a given width -/

theorem leNat_lt (b : Bytes) : leNat b < 256 ^ b.length := by
  induction b with
  | nil => decide
  | cons x r ih =>
    have hx : x.toNat < 256 := x.isLt
    rw [leNat, List.length_cons, Nat.pow_succ]
    omega

theorem leNat_natLe {n x : Nat} (h : x < 256 ^ n) : leNat (natLe n x) = x := by
  induction n generalizing x with
  | zero => rw [Nat.lt_one_iff.mp h]; rfl
  | succ n ih =>
    have hrest : x / 256 < 256 ^ n := Nat.div_lt_of_lt_mul (by rwa [Nat.pow_succ, Nat.mul_comm] at h)
    have hbyte : (BitVec.ofNat 8 x).toNat = x % 256 := BitVec.toNat_ofNat x 8
    rw [natLe, leNat, ih hrest, hbyte]
    omega

/-- An IEEE format rounds to an encoding of its width (R125). -/
theorem Fmt.rne_lt_of_ieee {f : Fmt} (hkind : f.kind = .ieee) (hqnan : f.qnan < 2 ^ f.width)
    (hinf : ∀ neg, f.infEnc neg < 2 ^ f.width) (hfin : ∀ neg, f.signBit neg + f.maxFin < 2 ^ f.width) (v : FVal) :
    f.rne v < 2 ^ f.width := by
  cases v with
  | nan => exact hqnan
  | inf neg => exact hinf neg
  | fin neg m e =>
    have hsign := hfin neg
    rw [Fmt.rne, hkind, if_neg (by decide)]
    split
    · split
      · exact hsign
      · exact hinf neg
    · omega

theorem rne_fp32_lt (v : FVal) : fFP32.rne v < 2 ^ 32 := Fmt.rne_lt_of_ieee rfl (by decide) (by decide) (by decide) v

theorem rne_bf16_lt (v : FVal) : fBF16.rne v < 2 ^ 16 := Fmt.rne_lt_of_ieee rfl (by decide) (by decide) (by decide) v

theorem atomWidth_cases (op : Nat) : atomWidth op = 2 ∨ atomWidth op = 4 ∨ atomWidth op = 8 := by
  unfold atomWidth
  split_ifs <;> simp

theorem width_of_four {op x : Nat} (hw : atomWidth op = 4) (hx : x < 2 ^ 32) : x < 256 ^ atomWidth op := by
  rw [hw]
  exact hx.trans_eq (by norm_num)

theorem width_of_eight {op x : Nat} (hw : atomWidth op = 8) (hx : x < 2 ^ 64) : x < 256 ^ atomWidth op := by
  rw [hw]
  exact hx.trans_eq (by norm_num)

theorem width_of_two {op x : Nat} (hw : atomWidth op = 2) (hx : x < 2 ^ 16) : x < 256 ^ atomWidth op := by
  rw [hw]
  exact hx.trans_eq (by norm_num)

/-- Both branches of a choice are below a bound. -/
theorem choice_lt {c : Prop} [Decidable c] {a b k : Nat} (ha : c → a < k) (hb : b < k) : (if c then a else b) < k := by
  split
  · next h => exact ha h
  · exact hb

/-- An operation leaves an element of its width (R177). -/
theorem atomElem_lt {op m x y : Nat} (hm : m < 256 ^ atomWidth op) (hx : x < 256 ^ atomWidth op)
    (hy : y < 256 ^ atomWidth op) : atomElem op m x y < 256 ^ atomWidth op := by
  unfold atomElem
  refine choice_lt (fun h => width_of_four (by rw [h]; rfl) (add32 _ _).isLt) ?_
  refine choice_lt (fun h => width_of_two (by rw [h]; rfl) (rne_bf16_lt _)) ?_
  refine choice_lt (fun h => width_of_four (by rw [h]; rfl) (Nat.mod_lt _ (Nat.two_pow_pos 32))) ?_
  refine choice_lt (fun h => width_of_eight (by rw [h]; rfl) (Nat.mod_lt _ (Nat.two_pow_pos 64))) ?_
  refine choice_lt (fun h => width_of_four (by rw [h]; rfl) (rne_fp32_lt _)) ?_
  refine choice_lt (fun h => width_of_four (by rw [h]; rfl) (rne_fp32_lt _)) ?_
  refine choice_lt (fun _ => choice_lt (fun _ => hx) hm) ?_
  refine choice_lt (fun _ => choice_lt (fun _ => hx) hm) ?_
  refine choice_lt (fun _ => choice_lt (fun _ => hx) hm) ?_
  refine choice_lt (fun _ => choice_lt (fun _ => hx) hm) ?_
  exact choice_lt (fun _ => hy) hm
/-! ### One element of a granule -/

/-- One element's request: aligned, and its data are the written element, or the expected and the new one (R177). -/
def oneElement (op addr : Nat) (data : Bytes) : Prop :=
  addr % atomWidth op = 0 ∧ data.length = if isCas op then 2 * atomWidth op else atomWidth op

/-- The element that a request leaves. -/
def State.newElement (s : State) (op addr : Nat) (data : Bytes) : Nat :=
  atomElem op (leNat (Map.bytes unlisted s.mem addr (atomWidth op))) (leNat (data.take (atomWidth op)))
    (leNat ((data.drop (atomWidth op)).take (atomWidth op)))

theorem State.newElement_lt (op addr : Nat) (data : Bytes) :
    s.newElement op addr data < 256 ^ atomWidth op := by
  have hle : ∀ b : Bytes, leNat (b.take (atomWidth op)) < 256 ^ atomWidth op := fun b =>
    (leNat_lt _).trans_le (Nat.pow_le_pow_right (by decide) (by rw [List.length_take]; exact Nat.min_le_left _ _))
  refine atomElem_lt ?_ (hle _) (hle _)
  have hold := leNat_lt (Map.bytes unlisted s.mem addr (atomWidth op))
  rwa [Map.length_bytes] at hold

/-- One element is one step of the operation. -/
theorem atomBytes_one (op : Nat) (data : Bytes) {old : Bytes} (hold : old.length = atomWidth op) :
    atomBytes op (atomWidth op / atomWidth op) old data = natLe (atomWidth op) (atomElem op (leNat old)
      (leNat (data.take (atomWidth op))) (leNat ((data.drop (atomWidth op)).take (atomWidth op)))) := by
  have hw := atomWidth_cases op
  rw [Nat.div_self (by omega), atomBytes, List.take_of_length_le hold.le]
  exact List.append_nil _

section
variable {op addr : Nat} {data : Bytes} (hone : oneElement op addr data)
include hone

theorem oneElement.elements : (if isCas op then data.length / 2 else data.length) = atomWidth op := by
  obtain ⟨-, hlen⟩ := hone
  split at hlen
  · next hcas => rw [if_pos hcas, hlen, Nat.mul_div_cancel_left _ (by decide)]
  · next hcas => rw [if_neg hcas, hlen]

theorem oneElement.fits : addr % 32 + atomWidth op ≤ 32 := by
  obtain ⟨halign, -⟩ := hone
  obtain hw | hw | hw := atomWidth_cases op <;> rw [hw] at halign ⊢ <;> omega

end

/-- The state in which the bytes of a request are counted. -/
def State.atomStart (s : State) (a n : Nat) : State :=
  (s.count R.ATM_BYTES_LO [stackOf a / 4] n).pmcDie (stackOf a / 4) 0x48 (some (pcOf a % 256))

theorem State.atomStart_keeps {β : Type} (p : State → β) (hregs : ∀ s x, p (State.setRegs s x) = p s)
    (hpmc : ∀ s x, p (State.setPmc s x) = p s) (s : State) (a n : Nat) : p (s.atomStart a n) = p s :=
  (State.pmcDie_keeps _ p hregs hpmc _ _ _).trans (State.count_keeps s p hpmc _ _ _)

theorem State.written_atomStart (s : State) (b n : Nat) {a : Nat} {p : Bool} : s.Written (s.atomStart b n) a [] p :=
  .nil (State.atomStart_keeps State.beside (fun _ _ => rfl) (fun _ _ => rfl) s b n)
    (fun _ _ hlow => (State.reg_pmcTick_of_lt _ hlow _ _ _ _).trans rfl)
    (State.atomStart_keeps State.mem (fun _ _ => rfl) (fun _ _ => rfl) s b n)
    (State.atomStart_keeps State.gran (fun _ _ => rfl) (fun _ _ => rfl) s b n)

theorem State.written_atomHold (s : State) (b : Nat) {a : Nat} {p : Bool} : s.Written (s.atomHold b) a [] p :=
  .nil rfl (fun _ _ _ => rfl) rfl rfl

/-- What the bursts of a request leave: none where the unit holds the granule (R180). -/
def State.atomBursts (s : State) (a : Nat) : State := if s.atomHeld a then s else (s.burst a false).burst a true

theorem State.written_atomBursts (s : State) (b : Nat) {a : Nat} {p : Bool} : s.Written (s.atomBursts b) a [] p := by
  unfold State.atomBursts
  split
  · exact .refl s
  · exact (State.written_burst s b false (a := a) (p := p)).nil_trans (State.written_burst _ b true)

/-- What one request leaves of a clean granule, and what it answers. -/
theorem State.atomGran_clean {u : State} {op a : Nat} {data : List (Byte × Bool)} (hu : s.atomStart a data.length = u)
    (hplain : ∀ x, u.isState x = false) (hclean : ∀ x, u.granSt x = {}) (hpoison : anyPoison data = false) {n : Nat}
    (hn : (if isCas op then data.length / 2 else data.length) = n) :
    (s.atomGran op a data).2 = (((u.atomBursts a).staleWb a).storeGran a ((natLe 32 (u.granData a)).take (a % 32)
      ++ atomBytes op (n / atomWidth op) (((natLe 32 (u.granData a)).drop (a % 32)).take n) (plain data)
      ++ (natLe 32 (u.granData a)).drop (a % 32 + n)) false).atomHold a := by
  have hfold : (s.count R.ATM_BYTES_LO [stackOf a / 4] data.length).pmcDie (stackOf a / 4) 0x48 (some (pcOf a % 256)) = u := hu
  have hread : decodeGran (u.granData a) (u.granSt a) = ⟨0, natLe 32 (u.granData a), false⟩ := by
    rw [hclean]
    rfl
  simp only [State.atomGran, hfold, State.readyLine_firstWrite_plain (hplain a), State.writePa_plain (hplain a),
    State.readPa_plain (hplain a), State.readGran_clean _ (hclean a), hread, hpoison, hn, Bool.or_false, State.atomBursts]
  split
  · rfl
  · rfl

/-- A request of one element to clean memory replaces the element. -/
theorem State.written_atomGran {op a : Nat} {data : Bytes} (hone : oneElement op a data) (hplain : ∀ x, s.isState x = false)
    (hclean : ∀ x, s.granSt x = {}) :
    s.Written (s.atomGran op a (clean data)).2 a (natLe (atomWidth op) (s.newElement op a data)) false := by
  obtain ⟨u, hu⟩ : ∃ u, s.atomStart a (clean data).length = u := ⟨_, rfl⟩
  obtain ⟨v, hv⟩ : ∃ v, natLe (atomWidth op) (s.newElement op a data) = v := ⟨_, rfl⟩
  have hstart : s.Written u a [] false := hu ▸ s.written_atomStart a (clean data).length
  have hmem : u.mem = s.mem := hu ▸ State.atomStart_keeps State.mem (fun _ _ => rfl) (fun _ _ => rfl) s a (clean data).length
  have hn : (if isCas op then (clean data).length / 2 else (clean data).length) = atomWidth op := by
    rw [clean, List.length_map]
    exact hone.elements
  have hnew : atomBytes op (atomWidth op / atomWidth op) (Map.bytes unlisted u.mem a (atomWidth op)) data = v := by
    rw [atomBytes_one op data (Map.length_bytes _ _ _ _), hmem, ← hv, State.newElement]
  have hvlen : v.length = atomWidth op := by rw [← hv, length_natLe]
  have hfit := hone.fits
  have hw := atomWidth_cases op
  have hbefore : s.Written ((u.atomBursts a).staleWb a) a [] false :=
    hstart.nil_trans ((u.written_atomBursts a (a := a) (p := false)).nil_trans (State.written_staleWb _ a))
  have hwith : u.granWith a (a % 32) v = ((u.atomBursts a).staleWb a).granWith a (a % 32) v := by
    rw [State.granWith_congr hstart.hbmAt_of_nil, State.granWith_congr hbefore.hbmAt_of_nil]
  have hstored : s.Written (((u.atomBursts a).staleWb a).storeGran a (u.granWith a (a % 32) v) false) a v false := by
    rw [hwith]
    exact hbefore.nil_trans (State.written_storeGran (by omega) rfl (List.ne_nil_of_length_pos (by omega)) false)
  have hgran := State.atomGran_clean hu (hstart.plainFrom hplain) (fun x => (hstart.granSt_of_nil x).trans (hclean x))
    (anyPoison_clean data) hn
  rw [State.take_drop_granData _ hfit, plain_clean, hnew, ← hvlen] at hgran
  rw [hv, hgran]
  exact hstored.trans_nil (State.written_atomHold _ a (a := a) (p := false))

/-! ### One request -/

/-- One element is one request of one granule. -/
theorem State.atomRow_one {op a fuel : Nat} {data : Bytes} (hone : oneElement op a data) :
    (s.atomRow op a (clean data) (fuel + 1)).2 = (s.atomGran op a (clean data)).2 := by
  have hlen := hone.2
  have hfit := hone.fits
  have hw := atomWidth_cases op
  have hwhole : (clean data).length ≤ if isCas op then 2 * (32 - a % 32) else 32 - a % 32 := by
    rw [clean, List.length_map, hlen]
    split <;> omega
  cases hdata : clean data with
  | nil =>
    have hnone : (clean data).length = 0 := congrArg List.length hdata
    rw [clean, List.length_map, hlen] at hnone
    split at hnone <;> omega
  | cons x r =>
    rw [hdata] at hwhole
    simp only [State.atomRow, List.take_of_length_le hwhole, List.drop_eq_nil_of_le hwhole]
    cases fuel <;> rfl

/-- A request of one element to clean memory replaces the element; what it answers is a message. -/
theorem State.applyReq_one {r : AReq} {w : Nat} (hwindow : s.windowAt r.addr = some w) (hpoison : r.poisoned = false)
    (hone : oneElement (s.winOp w) r.addr r.data) (hplain : ∀ x, s.isState x = false) (hclean : ∀ x, s.granSt x = {}) :
    ∃ t, s.Written t r.addr (natLe (atomWidth (s.winOp w)) (s.newElement (s.winOp w) r.addr r.data)) false
      ∧ ∀ {β : Type} (p : State → β), (∀ s x, p (State.setOut s x) = p s) → p (s.applyReq r) = p t := by
  have hwritten := State.written_atomGran hone hplain hclean
  rw [← State.atomRow_one (fuel := 3) hone] at hwritten
  obtain ⟨row, hrow⟩ : ∃ row, s.atomRow (s.winOp w) r.addr (clean r.data) 4 = row := ⟨_, rfl⟩
  rw [hrow] at hwritten
  refine ⟨row.2, hwritten, fun p hout => ?_⟩
  have hdata : (r.data.map fun b => (b, r.poisoned)) = clean r.data := by
    rw [hpoison]
    rfl
  obtain ⟨u, hu, hsent⟩ : ∃ u, (if isCas (s.winOp w) && r.pkg.isNone then row.2.send (.casOld r.core r.addr row.1) else row.2)
      = u ∧ p u = p row.2 ∧ ∀ x, u.isState x = row.2.isState x := by
    refine ⟨_, rfl, ?_⟩
    split
    · exact ⟨hout _ _, fun _ => rfl⟩
    · exact ⟨rfl, fun _ => rfl⟩
  obtain ⟨hp, hstate⟩ := hsent
  have hplain' : ∀ x, u.isState x = false := fun x => (hstate x).trans (hwritten.plainFrom hplain x)
  have happly : s.applyReq r = u := by
    simp only [State.applyReq, hwindow, hdata, hrow, hu, State.stateWritePoison_plain hplain', State.stateWords_plain hplain',
      if_true]
    split <;> rfl
  rw [happly, hp]

/-- What the statement says of an applied request. -/
def State.applied (s t : State) (op addr : Nat) (data : Bytes) : Prop :=
  leNat (Map.bytes unlisted t.mem addr (atomWidth op)) = s.newElement op addr data
    ∧ (∀ x, x < addr ∨ addr + atomWidth op ≤ x → t.hbmAt x = s.hbmAt x) ∧ t.tallies = s.tallies ∧ t.cores = s.cores

theorem State.applied_applyReq {r : AReq} {w : Nat} (hwindow : s.windowAt r.addr = some w) (hpoison : r.poisoned = false)
    (hone : oneElement (s.winOp w) r.addr r.data) (hplain : ∀ x, s.isState x = false) (hclean : ∀ x, s.granSt x = {}) :
    s.applied (s.applyReq r) (s.winOp w) r.addr r.data ∧ (s.applyReq r).aord = s.aord := by
  obtain ⟨t, ht, hkeeps⟩ := State.applyReq_one hwindow hpoison hone hplain hclean
  have hmem := hkeeps State.mem fun _ _ => rfl
  have hlen := length_natLe (atomWidth (s.winOp w)) (s.newElement (s.winOp w) r.addr r.data)
  have hbytes : Map.bytes unlisted t.mem r.addr (atomWidth (s.winOp w))
      = natLe (atomWidth (s.winOp w)) (s.newElement (s.winOp w) r.addr r.data) := by
    refine List.ext_getElem (by rw [Map.length_bytes, hlen]) fun i hi hi' => ?_
    rw [Map.getElem_bytes]
    exact ht.inside i hi'
  refine ⟨⟨?_, fun x hx => ?_, (hkeeps State.tallies fun _ _ => rfl).trans ht.tallies,
    (hkeeps State.cores fun _ _ => rfl).trans ht.cores⟩, (hkeeps State.aord fun _ _ => rfl).trans ht.aord⟩
  · rw [hmem, hbytes, leNat_natLe (s.newElement_lt _ _ _)]
  · rw [State.hbmAt, hmem]
    exact ht.outside x (by rw [hlen]; exact hx)

/-! ### ATOMIC_REQUEST -/

theorem State.windowAt_bounds {a w : Nat} (h : s.windowAt a = some w) : s.winBase w ≤ a ∧ a < s.winBase w + s.winSize w := by
  obtain ⟨-, hin⟩ := List.mem_filter.mp (List.mem_of_mem_head? h)
  simp only [Bool.and_eq_true, decide_eq_true_eq] at hin
  omega

/-- One element of a window that is not ordered, or whose poster writes it, breaks no rule of R179. -/
theorem State.reqBad_one {c w a : Nat} {data : Bytes} (hwindow : s.windowAt a = some w) (hone : oneElement (s.winOp w) a data)
    (hpost : s.winOrdered w = false ∨ s.ownPost c true w = true) : s.reqBad c w a data.length = false := by
  obtain ⟨hlo, hhi⟩ := State.windowAt_bounds hwindow
  have hn := hone.elements
  obtain ⟨halign, hlen⟩ := hone
  have hend : a + atomWidth (s.winOp w) ≤ s.winBase w + s.winSize w := by
    rw [State.winBase, State.winSize] at hhi ⊢
    obtain hw | hw | hw := atomWidth_cases (s.winOp w) <;> rw [hw] at halign ⊢ <;> omega
  have hcas : (isCas (s.winOp w) && decide (data.length % (2 * atomWidth (s.winOp w)) ≠ 0)) = false := by
    split at hlen
    · rw [hlen, Nat.mod_self]
      simp
    · next hplain => rw [Bool.eq_false_of_not_eq_true hplain, Bool.false_and]
  have hordered : (s.winOrdered w && !s.ownPost c true w) = false := by
    obtain h | h := hpost <;> simp [h]
  simp only [State.reqBad, hn, hcas, hordered, Nat.mod_self, halign, Bool.or_false, Bool.or_eq_false_iff, decide_eq_false_iff_not,
    ne_eq, not_true_eq_false, not_false_eq_true, and_true]
  omega

/-- The request of a core's write of one row. -/
def State.localReq (s : State) (c n addr : Nat) (data : Bytes) : AReq :=
  { crew := n, core := c, pkg := none, stroke := s.stk.num, addr := addr, poisoned := false, data := data }

section
variable {c n w addr : Nat} {data : Bytes} (hwindow : s.windowAt addr = some w) (hone : oneElement (s.winOp w) addr data)
  (hrange : s.inRange n addr 1 = true)
include hwindow hone hrange

/-- A request to a window that is not ordered is applied at once. -/
theorem State.requestRow_unordered (hunordered : s.winOrdered w = false) :
    s.requestRow c n w addr false data = s.applyReq (s.localReq c n addr data) := by
  have hbad := State.reqBad_one (c := c) hwindow hone (.inl hunordered)
  simp only [State.requestRow, hbad, hrange, hunordered, Bool.not_true, Bool.or_self, Bool.false_and, Bool.false_eq_true,
    if_false]
  rfl

/-- A posted request whose turn has not come is held (R183). -/
theorem State.requestRow_held (hordered : s.winOrdered w = true) (hpost : s.ownPost c true w = true)
    (hlower : s.lowerPosts c true w = true) (hroom : s.aord.length < 4096) :
    s.requestRow c n w addr false data = s.setAord (s.aord ++ [s.localReq c n addr data]) := by
  have hbad := State.reqBad_one (c := c) hwindow hone (.inr hpost)
  have hfits : (s.aord.filter fun q => decide (stackOf q.addr = stackOf addr)).length < 4096 :=
    (List.length_filter_le _ _).trans_lt hroom
  simp only [State.requestRow, hbad, hrange, hordered, hlower, Bool.not_true, Bool.or_self, Bool.true_or, Bool.true_and,
    Bool.false_eq_true, if_false, if_true, if_pos hfits]
  rfl

end

theorem State.execAtomicRequest_served {c n w addr : Nat} {data : Bytes} (hwindow : s.windowAt addr = some w)
    (hcrew : s.crewOf c = some n) (hworks : s.coreWorks c = true) :
    execAtomicRequest c addr false data s = .next (s.requestRow c n w addr false data) := by
  simp only [execAtomicRequest, hwindow, hcrew, hworks, if_true]

/-! ### ORDERED_ATOMIC_APPLY -/

/-- The only held request is applied once its turn has come, and leaves the buffer. -/
theorem State.execOrderedAtomicApply_one {r : AReq} {w : Nat} (hheld : s.aord = [r]) (hwindow : s.windowAt r.addr = some w)
    (hworks : s.works r.crew = true)
    (hturn : r.pkg = none ∧ s.lowerPosts r.core true w = false ∨ r.pkg ≠ none ∧ r.stroke < s.stk.num) :
    execOrderedAtomicApply w s = .next ((s.setAord []).applyReq r) := by
  have hhere : (s.aord.filter fun r => decide (s.windowAt r.addr = some w) && s.works r.crew) = [r] := by
    simp [hheld, hwindow, hworks]
  have hout : takeOut r s.aord = [] := by
    rw [hheld, takeOut, if_pos rfl]
  have hnext : firstReq (if ([r].filter fun r => r.pkg.isSome && decide (r.stroke < s.stk.num)) = [] then
      [r].filter fun r => r.pkg.isNone && !s.lowerPosts r.core true w
      else [r].filter fun r => r.pkg.isSome && decide (r.stroke < s.stk.num)) = some r := by
    obtain ⟨hlocal, hlower⟩ | ⟨hremote, hstroke⟩ := hturn
    · have hmine : ([r].filter fun r => r.pkg.isNone && !s.lowerPosts r.core true w) = [r] := by simp [hlocal, hlower]
      have hnone : ([r].filter fun r => r.pkg.isSome && decide (r.stroke < s.stk.num)) = [] := by simp [hlocal]
      rw [hnone, if_pos rfl, hmine]
      rfl
    · have hfirst : ([r].filter fun r => r.pkg.isSome && decide (r.stroke < s.stk.num)) = [r] := by
        simp [Option.isSome_iff_ne_none.mpr hremote, hstroke]
      rw [hfirst, if_neg (List.cons_ne_nil _ _)]
      rfl
  simp only [execOrderedAtomicApply, hhere, hnext, hout]

end Sys2Proof.Machine

namespace Sys2Proof.Proofs
open Sys2Proof.Machine

/-- Settles O26: one element is one request of one clean granule; a local one is applied or held by its window's order. -/
theorem atomicsUpdateTheirElement : Obligations.AtomicsUpdateTheirElement := by
  unfold Obligations.AtomicsUpdateTheirElement
  intro s w n hplain hclean _ op width applied one
  refine ⟨fun c addr data _ hwindow hcrew hworks hrange _ hone => ⟨fun hunordered => ?_, fun hordered hpost hlower hroom => ?_⟩,
    fun r hheld hwindow hworks hpoison hone hturn => ?_⟩
  · have hexec := State.execAtomicRequest_served (data := data) hwindow hcrew hworks
    rw [State.requestRow_unordered hwindow hone hrange hunordered] at hexec
    obtain ⟨happlied, haord⟩ := State.applied_applyReq (r := s.localReq c n addr data) hwindow rfl hone hplain hclean
    exact ⟨_, hexec, happlied, haord⟩
  · have hexec := State.execAtomicRequest_served (data := data) hwindow hcrew hworks
    rw [State.requestRow_held hwindow hone hrange hordered hpost hlower hroom] at hexec
    exact ⟨_, s.localReq c n addr data, hexec, State.sameMemory_of_eq rfl, rfl, rfl, rfl, rfl, rfl, rfl, rfl⟩
  · obtain ⟨happlied, haord⟩ := State.applied_applyReq (s := s.setAord []) (r := r) hwindow hpoison hone hplain hclean
    exact ⟨_, State.execOrderedAtomicApply_one hheld hwindow hworks hturn, happlied, haord⟩

end Sys2Proof.Proofs
end

section
/-!
PROOFS. The links (08 R186 to R211): what a change of one link leaves of the others, the registers of a link, and what the
messages and faults of the link layer leave of memory, tallies and cores.
-/
namespace Sys2Proof.Machine

variable {s t : State} {l : Nat} {β : Type}

/-! ### One link changed -/

@[simp] theorem State.link_modLink_same (s : State) (l : Nat) (f : Link → Link) : (s.modLink l f).link l = f (s.link l) :=
  Map.getD_setD_same _ _ _ _

theorem State.link_modLink_ne {m : Nat} (h : m ≠ l) (s : State) (f : Link → Link) : (s.modLink l f).link m = s.link m :=
  Map.getD_setD_ne _ _ _ h _

theorem State.link_congr (h : t.links = s.links) (l : Nat) : t.link l = s.link l := by
  rw [State.link, h, State.link]

/-- A part of a link that a change leaves alone stays in every link. -/
theorem State.link_modLink_part {γ : Type} (part : Link → γ) {s : State} {f : Link → Link} {m : Nat}
    (h : ∀ k, part (f k) = part k) : part ((s.modLink m f).link l) = part (s.link l) := by
  by_cases hl : l = m
  · subst hl
    rw [State.link_modLink_same, h]
  · rw [State.link_modLink_ne hl]

/-! ### The registers of a link -/

/-- Is a register one of those that every link has, 0x100 bytes a link? -/
def RegDef.ofLink (r : RegDef) : Bool :=
  decide (r.dims = [(2, 0x800000), (48, 0x100)] ∧ 0x02100000 ≤ r.base ∧ r.base < 0x02100100)

theorem RegDef.addr_lnk48 {r : RegDef} (hr : r.ofLink = true) (l : Nat) :
    r.addr (lnk48 l) = r.base + 0x800000 * (l / 48) + 0x100 * (l % 48) := by
  obtain ⟨hdims, -⟩ := of_decide_eq_true hr
  rw [RegDef.addr, hdims]
  rfl

/-- Two registers of a link stand apart. -/
theorem RegDef.addr_lnk48_ne {r r' : RegDef} (hr : r.ofLink = true) (hr' : r'.ofLink = true) (hbase : r'.base ≠ r.base) (l : Nat) :
    r'.addr (lnk48 l) ≠ r.addr (lnk48 l) := by
  rw [RegDef.addr_lnk48 hr, RegDef.addr_lnk48 hr']
  omega

/-- The registers of a link stand apart from the overflow bits of a die's event counters. -/
theorem RegDef.addr_lnk48_ne_overflow {r : RegDef} (hr : r.ofLink = true) (l die : Nat) :
    r.addr (lnk48 l) ≠ R.PMC_OVF_IOD.addr [die] := by
  have hover : R.PMC_OVF_IOD.addr [die] = 0x02310180 + 0x800000 * die := rfl
  obtain ⟨-, hlo, hhi⟩ := of_decide_eq_true hr
  rw [RegDef.addr_lnk48 hr, hover]
  omega

/-- An event of a die changes no field of a link. -/
theorem State.fld_pmcDie_link {g : Fld} (hg : g.reg.ofLink = true) (s : State) (die code : Nat) (sub : Option Nat) :
    (s.pmcDie die code sub).fld g (lnk48 l) = s.fld g (lnk48 l) :=
  congrArg (fun w : Word => bits w.toNat g.hi g.lo) (State.reg_pmcTick_ne s (RegDef.addr_lnk48_ne_overflow hg l die) _ _ _)

/-! ### A flit leaves on a link (R190) -/

/-- A transmitted flit counts and is one message. -/
theorem State.transmit_eq (s : State) (l : Nat) (f : Flit) : ∃ m, s.transmit l f =
    ((s.count R.LNK_BYTES_TX_LO (lnk48 l) 128).pmcDie (l / 48) 0x4A (some (l % 48))).send m := by
  unfold State.transmit
  dsimp only
  split <;> exact ⟨_, rfl⟩

theorem State.transmit_keeps (s : State) (p : State → β) (hregs : ∀ s x, p (State.setRegs s x) = p s)
    (hpmc : ∀ s x, p (State.setPmc s x) = p s) (hout : ∀ s x, p (State.setOut s x) = p s) (l : Nat) (f : Flit) :
    p (s.transmit l f) = p s := by
  obtain ⟨m, hm⟩ := s.transmit_eq l f
  rw [hm]
  exact (hout _ _).trans ((State.pmcDie_keeps _ p hregs hpmc _ _ _).trans (hpmc _ _))

/-! ### Messages between the two ends (R194, R195, R197) -/

/-- The state in which an end of a link has noted and sent a message of the link's own. -/
def State.tell (s : State) (l : Nat) (note : Link → Link) (m : Msg) : State :=
  ((s.modLink l note).count R.LNK_BYTES_TX_LO (lnk48 l) 128).send m

theorem State.tell_keeps (s : State) (p : State → β) (hlinks : ∀ s x, p (State.setLinks s x) = p s)
    (hpmc : ∀ s x, p (State.setPmc s x) = p s) (hout : ∀ s x, p (State.setOut s x) = p s) (l : Nat) (note : Link → Link)
    (m : Msg) : p (s.tell l note m) = p s :=
  (hout _ _).trans ((hpmc _ _).trans (hlinks _ _))

theorem State.out_tell (s : State) (l : Nat) (note : Link → Link) (m : Msg) : (s.tell l note m).out = s.out ++ [m] :=
  congrArg (· ++ [m]) ((State.count_keeps _ State.out (fun _ _ => rfl) _ _ _).trans (s.modLink_keeps State.out (fun _ _ => rfl) l note))

theorem State.link_tell (s : State) (l : Nat) (note : Link → Link) (m : Msg) : (s.tell l note m).link l = note (s.link l) :=
  s.link_modLink_same l note

theorem State.sendLink_eq (s : State) (l : Nat) : s.sendLink l =
    s.tell l (fun k => { k with freedSent := k.freed, sinceLink := 0, lastLinkTx := s.raw })
      (.linkFlit l (((s.link l).rxSeq + 4095) % 4096) (s.link l).freed) := rfl

/-- A CREDIT_SYNC names the last number received, whatever slots it reports. -/
theorem State.sendSync_eq (s : State) (l : Nat) : ∃ free, s.sendSync l =
    s.tell l (fun k => { k with
      freed := ⟨0, 0, 0, 0⟩, freedSent := ⟨0, 0, 0, 0⟩, withheld := [], sinceLink := 0, lastLinkTx := s.raw })
      (.creditSync l (((s.link l).rxSeq + 4095) % 4096) free) := ⟨_, rfl⟩

theorem State.sendRetry_eq (s : State) (l : Nat) : s.sendRetry l =
    s.tell l (fun k => { k with retryOut := true }) (.retry l (s.link l).rxSeq) := rfl

/-! ### Views of the link layer -/

/-- A view that sees nothing of what the link layer changes: links, registers, counters, messages sent, faults and crews, and
the logbook's triggers. -/
structure State.LinkView (p : State → β) : Prop where
  links : ∀ s x, p (State.setLinks s x) = p s
  regs : ∀ s x, p (State.setRegs s x) = p s
  conv : ∀ s x, p (State.setConv s x) = p s
  pmc : ∀ s x, p (State.setPmc s x) = p s
  out : ∀ s x, p (State.setOut s x) = p s
  crews : ∀ s x, p (State.setCrews s x) = p s
  flt : ∀ s x, p (State.setFlt s x) = p s
  free : ∀ s x, p (State.setFree s x) = p s
  cox : ∀ s x, p (State.setCox s x) = p s

/-- Memory, tallies and cores: what the statements on links say stays. -/
def State.jobData (s : State) := (s.memoryAndTallies, s.cores)

theorem State.LinkView.jobData : State.LinkView State.jobData where
  links _ _ := rfl
  regs _ _ := rfl
  conv _ _ := rfl
  pmc _ _ := rfl
  out _ _ := rfl
  crews _ _ := rfl
  flt _ _ := rfl
  free _ _ := rfl
  cox _ _ := rfl

theorem State.jobData_parts (h : t.jobData = s.jobData) : t.tallies = s.tallies ∧ s.sameMemory t ∧ t.cores = s.cores := by
  obtain ⟨hdata, hcores⟩ := Prod.mk.inj h
  obtain ⟨hmem, htallies⟩ := State.sameMemory_tallies_of_eq hdata
  exact ⟨htallies, hmem, hcores⟩

section
variable {p : State → β} (hp : State.LinkView p)
include hp

theorem State.LinkView.modLink (s : State) (l : Nat) (f : Link → Link) : p (s.modLink l f) = p s := hp.links _ _

theorem State.LinkView.setFld (s : State) (f : Fld) (ix : List Nat) (v : Nat) : p (s.setFld f ix v) = p s := hp.regs _ _

theorem State.LinkView.bump (s : State) (f : Fld) (ix : List Nat) (d : Nat) : p (s.bump f ix d) = p s := hp.regs _ _

theorem State.LinkView.pmcDie (s : State) (die code : Nat) (sub : Option Nat) : p (s.pmcDie die code sub) = p s :=
  State.pmcDie_keeps s p hp.regs hp.pmc die code sub

theorem State.LinkView.send (s : State) (m : Msg) : p (s.send m) = p s := hp.out _ _

theorem State.LinkView.trigger (s : State) (x : Trigger) : p (s.trigger x) = p s := hp.cox _ _

theorem State.LinkView.raiseFault (s : State) (f : Fault0) : p (s.raiseFault f) = p s :=
  State.raiseFault_keeps s p hp.crews hp.flt hp.free f

theorem State.LinkView.tell (s : State) (l : Nat) (note : Link → Link) (m : Msg) : p (s.tell l note m) = p s :=
  s.tell_keeps p hp.links hp.pmc hp.out l note m

theorem State.LinkView.transmit (s : State) (l : Nat) (f : Flit) : p (s.transmit l f) = p s :=
  s.transmit_keeps p hp.regs hp.pmc hp.out l f

theorem State.LinkView.resend (s : State) (l i : Nat) : p (s.resend l i) = p s := by
  unfold State.resend
  dsimp only
  split
  · rfl
  · refine (State.each_keeps _ p _ _ fun s f => hp.transmit s l f).trans ((hp.modLink _ _ _).trans ?_)
    exact (hp.pmcDie _ _ _ _).trans (hp.bump s _ _ _)

theorem State.LinkView.credit (s : State) (l : Nat) (c : Credits) : p (s.credit l c) = p s :=
  State.each_keeps s p _ _ fun s _ => hp.setFld s _ _ _

end

/-! ### Flits sent again (R195) -/

/-- The flits of a replay buffer from a position on, sent once more. -/
def replayed (i : Nat) (q : List Flit) : List Flit :=
  q.take i ++ (q.drop i).map fun f => { f with replays := f.replays + 1 }

theorem length_replayed (i : Nat) (q : List Flit) : (replayed i q).length = q.length := by
  rw [replayed, List.length_append, List.length_map, ← List.length_append, List.take_append_drop]

theorem State.length_out_transmit (s : State) (l : Nat) (f : Flit) : (s.transmit l f).out.length = s.out.length + 1 := by
  obtain ⟨m, hm⟩ := s.transmit_eq l f
  rw [hm, State.send, State.setOut_out, List.length_append, State.pmcDie_keeps _ State.out (fun _ _ => rfl) (fun _ _ => rfl)]
  rfl

theorem State.fld_transmit {g : Fld} (hg : g.reg.ofLink = true) (s : State) (l : Nat) (f : Flit) :
    (s.transmit l f).fld g (lnk48 l) = s.fld g (lnk48 l) := by
  obtain ⟨m, hm⟩ := s.transmit_eq l f
  rw [hm]
  exact State.fld_pmcDie_link hg _ _ _ _

theorem State.length_out_each_transmit (l : Nat) (fs : List Flit) (s : State) :
    (s.each fs fun s f => s.transmit l f).out.length = s.out.length + fs.length := by
  induction fs generalizing s with
  | nil => rfl
  | cons f r ih =>
    rw [List.length_cons, ← Nat.add_assoc, Nat.add_right_comm, ← s.length_out_transmit l f]
    exact ih _

theorem State.link_resend (s : State) (l i : Nat) :
    (s.resend l i).link l = { s.link l with replay := replayed i (s.link l).replay } := by
  unfold State.resend
  dsimp only
  split
  · next hnone =>
    rw [replayed, hnone, List.map_nil, List.append_nil, List.take_of_length_le (List.drop_eq_nil_iff.mp hnone)]
  · have hlink (u : State) (fs : List Flit) : (u.each fs fun s f => s.transmit l f).link l = u.link l :=
      State.each_keeps u (·.link l) _ _ fun s f => s.transmit_keeps (·.link l) (fun _ _ => rfl)
        (fun _ _ => rfl) (fun _ _ => rfl) l f
    rw [hlink, State.link_modLink_same, State.pmcDie_keeps _ (·.link l) (fun _ _ => rfl) (fun _ _ => rfl)]
    rfl

theorem State.length_out_resend (s : State) (l i : Nat) :
    (s.resend l i).out.length = s.out.length + ((s.link l).replay.drop i).length := by
  unfold State.resend
  dsimp only
  split
  · next hnone => rw [hnone, List.length_nil, Nat.add_zero]
  · rw [State.length_out_each_transmit]
    exact congrArg (fun o : List Msg => o.length + _) (State.pmcDie_keeps _ State.out (fun _ _ => rfl) (fun _ _ => rfl) _ _ _)

theorem State.fld_resend {g : Fld} (hg : g.reg.ofLink = true) (hstat : g.reg.base ≠ R.LNK_STAT.base) (s : State) (l i : Nat) :
    (s.resend l i).fld g (lnk48 l) = s.fld g (lnk48 l) := by
  unfold State.resend
  dsimp only
  split
  · rfl
  · refine (State.each_keeps _ (·.fld g (lnk48 l)) _ _ fun s f => State.fld_transmit hg s l f).trans ?_
    exact (State.fld_pmcDie_link hg _ _ _ _).trans (State.fld_setFld_reg s (RegDef.addr_lnk48_ne rfl hg hstat l) _)

theorem State.replays_resend {i : Nat} (hsome : (s.link l).replay.drop i ≠ []) :
    (s.resend l i).fld F.LNK_STAT_replays (lnk48 l) = satAdd (s.fld F.LNK_STAT_replays (lnk48 l)) 1 65535 := by
  unfold State.resend
  dsimp only
  rw [if_neg hsome]
  refine (State.each_keeps _ (·.fld F.LNK_STAT_replays (lnk48 l)) _ _ fun s f => State.fld_transmit rfl s l f).trans ?_
  exact (State.fld_pmcDie_link (g := F.LNK_STAT_replays) rfl _ _ _ _).trans (State.fld_bump_same s _ _ _ (by decide))

end Sys2Proof.Machine
end

section
/-!
PROOFS. LINK_FLIT, CREDIT_SYNC, RETRY, LINK_FLIT_SEND, LAND_ACK, TIMED_ACKNOWLEDGEMENT and ACK_TIMEOUT (O29): 08 R194 to R197,
R202, R204.
-/
namespace Sys2Proof.Machine

variable {s t : State} {l : Nat} {β : Type}

/-! ### Credits (R194, R196) -/

theorem State.fld_setCredit_same (s : State) (l : Nat) (v : Vc) {x : Nat} (h : x ≤ slotsOf v) :
    (s.setFld (creditFld v) (lnk48 l) x).fld (creditFld v) (lnk48 l) = x := by
  cases v <;> exact (State.fld_setFld_same s _ _ _ (by decide)).trans (Nat.mod_eq_of_lt (Nat.lt_of_le_of_lt h (by decide)))

theorem State.fld_setCredit_ne (s : State) (l : Nat) {u v : Vc} (h : v ≠ u) (x : Nat) :
    (s.setFld (creditFld u) (lnk48 l) x).fld (creditFld v) (lnk48 l) = s.fld (creditFld v) (lnk48 l) := by
  have happart : (creditFld u).hi < (creditFld v).lo ∨ (creditFld v).hi < (creditFld u).lo := by
    revert h
    cases u <;> cases v <;> decide
  have hwf : ∀ w, (creditFld w).lo ≤ (creditFld w).hi ∧ (creditFld w).hi < 32 := fun w => by cases w <;> decide
  have hreg : ∀ w, (creditFld w).reg = R.LNK_CREDIT := fun w => by cases w <;> rfl
  exact State.fld_setFld_other s ((hreg v).trans (hreg u).symm) (hwf u) (hwf v).1 happart x

/-- Each channel's credits take the value computed from what they were, whatever the other channels take. -/
theorem State.fld_each_setCredit (g : Vc → Nat → Nat) (hg : ∀ v x, g v x ≤ slotsOf v) (v : Vc) (chans : List Vc)
    (hchans : chans.Nodup) (s : State) :
    (s.each chans fun s u => s.setFld (creditFld u) (lnk48 l) (g u (s.fld (creditFld u) (lnk48 l)))).fld (creditFld v) (lnk48 l)
      = if v ∈ chans then g v (s.fld (creditFld v) (lnk48 l)) else s.fld (creditFld v) (lnk48 l) := by
  induction chans generalizing s with
  | nil => rfl
  | cons u r ih =>
    obtain ⟨hu, hr⟩ := List.nodup_cons.mp hchans
    refine (ih hr _).trans ?_
    by_cases hv : v = u
    · subst hv
      rw [if_neg hu, if_pos List.mem_cons_self, State.fld_setCredit_same _ _ _ (hg _ _)]
    · rw [State.fld_setCredit_ne _ _ hv]
      simp only [List.mem_cons, hv, false_or]

theorem mem_channels (v : Vc) : v ∈ channels := by cases v <;> decide

theorem State.fld_credit (s : State) (l : Nat) (c : Credits) (v : Vc) : (s.credit l c).fld (creditFld v) (lnk48 l)
    = satAdd (s.fld (creditFld v) (lnk48 l)) (creditOf c v) (slotsOf v) :=
  (State.fld_each_setCredit (fun v x => satAdd x (creditOf c v) (slotsOf v)) (fun _ _ => satAdd_le_top _ _ _) v channels
    (by decide) s).trans (if_pos (mem_channels v))

theorem State.link_credit (s : State) (l : Nat) (c : Credits) : (s.credit l c).link l = s.link l :=
  State.each_keeps s (·.link l) _ _ fun _ _ => rfl

/-! ### LINK_FLIT (R194) -/

/-- The state in which a LINK flit has been counted and its acknowledgement taken. -/
def State.linkHeard (s : State) (l : Nat) (seq : BitVec 12) : State :=
  (s.count R.LNK_BYTES_RX_LO (lnk48 l) 128).modLink l fun k =>
    { k with replay := dropThrough seq.toNat k.replay, lastLinkRx := s.raw }

theorem State.linkHeard_keeps (p : State → β) (hlinks : ∀ s x, p (State.setLinks s x) = p s)
    (hpmc : ∀ s x, p (State.setPmc s x) = p s) (s : State) (l : Nat) (seq : BitVec 12) : p (s.linkHeard l seq) = p s :=
  (hlinks _ _).trans (hpmc _ _)

theorem State.replay_linkHeard (s : State) (l : Nat) (seq : BitVec 12) :
    ((s.linkHeard l seq).link l).replay = dropThrough seq.toNat (s.link l).replay := by
  rw [State.linkHeard, State.link_modLink_same]
  rfl

/-- The state in which the slots that the partner freed since its last report are credited. -/
def State.slotsCredited (s : State) (l : Nat) (c : Credits) (more : Credits) : State :=
  (s.modLink l fun k => { k with freedSeen := c }).credit l more

theorem execLinkFlit_inService {seq : BitVec 12} {c : Credits} (hdown : s.linkState l ≠ 0) (hidle : s.linkState l ≠ 5) :
    execLinkFlit l seq c s = .next (if s.linkFrozen l then s.linkHeard l seq
      else (s.linkHeard l seq).slotsCredited l c (moreThan c (s.link l).freedSeen)) := by
  rw [execLinkFlit, if_neg (not_or.mpr ⟨hdown, hidle⟩)]
  exact (apply_ite Host.Outcome.next _ _ _).symm

theorem State.linkFlit_effect {seq : BitVec 12} {c : Credits} (hdown : s.linkState l ≠ 0) (hidle : s.linkState l ≠ 5) :
    ∃ t, exec (.linkFlit l seq c) s = .next t ∧ (t.link l).replay = dropThrough seq.toNat (s.link l).replay
      ∧ t.jobData = s.jobData ∧ ∀ v, t.fld (creditFld v) (lnk48 l) = if s.linkFrozen l = true then s.fld (creditFld v) (lnk48 l)
        else satAdd (s.fld (creditFld v) (lnk48 l)) (creditOf (moreThan c (s.link l).freedSeen) v) (slotsOf v) := by
  have hheard {β : Type} (p : State → β) (hlinks : ∀ s x, p (State.setLinks s x) = p s)
      (hpmc : ∀ s x, p (State.setPmc s x) = p s) : p (s.linkHeard l seq) = p s := State.linkHeard_keeps p hlinks hpmc s l seq
  have hdata := hheard State.jobData (fun _ _ => rfl) (fun _ _ => rfl)
  have hfld : ∀ v, (s.linkHeard l seq).fld (creditFld v) (lnk48 l) = s.fld (creditFld v) (lnk48 l) := fun v =>
    hheard (·.fld (creditFld v) (lnk48 l)) (fun _ _ => rfl) (fun _ _ => rfl)
  refine ⟨_, execLinkFlit_inService hdown hidle, ?_⟩
  split
  · exact ⟨s.replay_linkHeard l seq, hdata, hfld⟩
  · refine ⟨?_, ?_, fun v => ?_⟩
    · rw [State.slotsCredited, State.link_credit, State.link_modLink_same]
      exact s.replay_linkHeard l seq
    · rw [State.slotsCredited, State.LinkView.jobData.credit, State.LinkView.jobData.modLink, hdata]
    · rw [State.slotsCredited, State.fld_credit, State.modLink_keeps _ (·.fld (creditFld v) (lnk48 l)) (fun _ _ => rfl), hfld]

/-! ### CREDIT_SYNC (R197) -/

/-- The state in which a CREDIT_SYNC has set the credits. -/
def State.creditsSet (s : State) (l : Nat) (c : Credits) : State :=
  (s.count R.LNK_BYTES_RX_LO (lnk48 l) 128).each channels fun s v =>
    s.setFld (creditFld v) (lnk48 l) (if creditOf c v ≤ slotsOf v then creditOf c v else slotsOf v)

/-- The state in which a CREDIT_SYNC has set the credits and its acknowledgement is taken. -/
def State.reconcile (s : State) (l : Nat) (seq : BitVec 12) (c : Credits) : State :=
  (s.creditsSet l c).modLink l fun k => { k with
    replay := dropThrough seq.toNat k.replay, lastLinkRx := (s.creditsSet l c).raw, reconciled := true
    freedSeen := ⟨0, 0, 0, 0⟩ }

theorem execCreditSync_inService {seq : BitVec 12} {c : Credits} (hdown : s.linkState l ≠ 0) (hidle : s.linkState l ≠ 5) :
    execCreditSync l seq c s = .next (if (s.reconcile l seq c).linkUp l then (s.reconcile l seq c).resend l 0
      else s.reconcile l seq c) := by
  rw [execCreditSync, if_neg (not_or.mpr ⟨fun h => hdown h.1, hidle⟩)]
  rfl

theorem State.fld_reconcile (s : State) (l : Nat) (seq : BitVec 12) (c : Credits) (v : Vc) :
    (s.reconcile l seq c).fld (creditFld v) (lnk48 l) = if creditOf c v ≤ slotsOf v then creditOf c v else slotsOf v := by
  rw [State.reconcile, State.modLink_keeps _ (·.fld (creditFld v) (lnk48 l)) (fun _ _ => rfl), State.creditsSet,
    State.fld_each_setCredit (fun v _ => if creditOf c v ≤ slotsOf v then creditOf c v else slotsOf v)
      (fun v _ => by split <;> omega) v channels (by decide), if_pos (mem_channels v)]

theorem State.jobData_reconcile (s : State) (l : Nat) (seq : BitVec 12) (c : Credits) :
    (s.reconcile l seq c).jobData = s.jobData := by
  rw [State.reconcile, State.LinkView.jobData.modLink, State.creditsSet]
  exact State.each_keeps _ State.jobData _ _ fun _ _ => rfl

theorem State.link_reconcile (s : State) (l : Nat) (seq : BitVec 12) (c : Credits) :
    ((s.reconcile l seq c).link l).reconciled = true
      ∧ ((s.reconcile l seq c).link l).replay = dropThrough seq.toNat (s.link l).replay := by
  have hset : (s.creditsSet l c).link l = s.link l := State.each_keeps _ (·.link l) _ _ fun _ _ => rfl
  rw [State.reconcile, State.link_modLink_same, hset]
  exact ⟨rfl, rfl⟩

theorem creditFld_ofLink (v : Vc) : (creditFld v).reg.ofLink = true := by cases v <;> rfl

theorem creditFld_base_ne (v : Vc) : (creditFld v).reg.base ≠ R.LNK_STAT.base := by cases v <;> decide

theorem State.creditSync_effect {seq : BitVec 12} {c : Credits} (hdown : s.linkState l ≠ 0) (hidle : s.linkState l ≠ 5) :
    ∃ t, exec (.creditSync l seq c) s = .next t ∧ (t.link l).reconciled = true ∧ t.jobData = s.jobData
      ∧ (t.link l).replay.length = (dropThrough seq.toNat (s.link l).replay).length
      ∧ ∀ v, t.fld (creditFld v) (lnk48 l) = if creditOf c v ≤ slotsOf v then creditOf c v else slotsOf v := by
  refine ⟨_, execCreditSync_inService hdown hidle, ?_⟩
  obtain ⟨hreconciled, hreplay⟩ := s.link_reconcile l seq c
  have hdata := s.jobData_reconcile l seq c
  split
  · refine ⟨?_, (State.LinkView.jobData.resend _ _ _).trans hdata, ?_, fun v => ?_⟩
    · rw [State.link_resend]
      exact hreconciled
    · rw [State.link_resend]
      exact (length_replayed _ _).trans (congrArg List.length hreplay)
    · rw [State.fld_resend (creditFld_ofLink v) (creditFld_base_ne v), State.fld_reconcile]
  · exact ⟨hreconciled, hdata, congrArg List.length hreplay, s.fld_reconcile l seq c⟩

/-! ### RETRY (R195) -/

/-- The state in which a RETRY has been heard. -/
def State.retryHeard (s : State) (l : Nat) : State :=
  (s.count R.LNK_BYTES_RX_LO (lnk48 l) 128).modLink l fun k => { k with lastLinkRx := s.raw }

theorem State.retryHeard_keeps (p : State → β) (hlinks : ∀ s x, p (State.setLinks s x) = p s)
    (hpmc : ∀ s x, p (State.setPmc s x) = p s) (s : State) (l : Nat) : p (s.retryHeard l) = p s :=
  (hlinks _ _).trans (hpmc _ _)

theorem State.replay_retryHeard (s : State) (l : Nat) : ((s.retryHeard l).link l).replay = (s.link l).replay := by
  rw [State.retryHeard, State.link_modLink_same]
  rfl

section
variable {seq : BitVec 12} {a b : List Flit} {f : Flit} (hseq : f.seq = seq.toNat) (hfirst : ∀ g ∈ a, g.seq ≠ seq.toNat)
include hseq hfirst

theorem find?_seq : (a ++ f :: b).find? (fun g => decide (g.seq = seq.toNat)) = some f := by
  rw [List.find?_append, List.find?_eq_none.mpr fun g hg => by simpa using hfirst g hg, Option.none_or,
    List.find?_cons_of_pos (by simpa using hseq)]

theorem takeWhile_seq : (a ++ f :: b).takeWhile (fun g => decide (g.seq ≠ seq.toNat)) = a := by
  rw [List.takeWhile_append_of_pos fun g hg => by simpa using hfirst g hg, List.takeWhile_cons_of_neg (by simpa using hseq),
    List.append_nil]

/-- A RETRY that names a flit of the replay buffer resends from it on. -/
theorem execLinkRetry_held (hup : s.linkUp l = true) (hfrozen : s.linkFrozen l = false)
    (hreplay : (s.link l).replay = a ++ f :: b) (hlast : f.replays < 8) :
    execLinkRetry l seq s = .next ((s.retryHeard l).resend l a.length) := by
  have htalks : s.linkTalks l = true := by rw [State.linkTalks, hup, Bool.true_or]
  have hheard : ((s.retryHeard l).link l).replay = a ++ f :: b := (s.replay_retryHeard l).trans hreplay
  have hup' : (s.retryHeard l).linkUp l = true :=
    (State.retryHeard_keeps (·.linkUp l) (fun _ _ => rfl) (fun _ _ => rfl) s l).trans hup
  have hfrozen' : (s.retryHeard l).linkFrozen l = false :=
    (State.retryHeard_keeps (·.linkFrozen l) (fun _ _ => rfl) (fun _ _ => rfl) s l).trans hfrozen
  have hheld : ¬ 8 ≤ f.replays := Nat.not_le.mpr hlast
  unfold State.retryHeard at hheard hup' hfrozen' ⊢
  simp only [execLinkRetry, htalks, hheard, hup', hfrozen', find?_seq hseq hfirst, takeWhile_seq hseq hfirst, if_neg hheld,
    Bool.not_true, Bool.or_self, Bool.false_eq_true, if_false]

/-- A resend of several flits counts one replay (assumption log 31). -/
theorem State.linkRetry_effect (hup : s.linkUp l = true) (hfrozen : s.linkFrozen l = false)
    (hreplay : (s.link l).replay = a ++ f :: b) (hlast : f.replays < 8) :
    ∃ t, exec (.linkRetry l seq) s = .next t ∧ t.jobData = s.jobData
      ∧ (t.link l).replay = a ++ (f :: b).map (fun g => { g with replays := g.replays + 1 })
      ∧ t.out.length = s.out.length + b.length + 1
      ∧ t.fld F.LNK_STAT_replays (lnk48 l) = satAdd (s.fld F.LNK_STAT_replays (lnk48 l)) 1 65535 := by
  have hkept := (s.replay_retryHeard l).trans hreplay
  have hdrop : ((s.retryHeard l).link l).replay.drop a.length = f :: b := by rw [hkept, List.drop_left]
  refine ⟨_, execLinkRetry_held hseq hfirst hup hfrozen hreplay hlast, ?_, ?_, ?_, ?_⟩
  · rw [State.LinkView.jobData.resend, State.retryHeard_keeps State.jobData (fun _ _ => rfl) (fun _ _ => rfl)]
  · rw [State.link_resend]
    simp only [replayed, hkept, List.take_left, List.drop_left]
  · rw [State.length_out_resend, hdrop, State.retryHeard_keeps State.out (fun _ _ => rfl) (fun _ _ => rfl)]
    rfl
  · rw [State.replays_resend (by rw [hdrop]; exact List.cons_ne_nil _ _),
      State.retryHeard_keeps (·.fld F.LNK_STAT_replays (lnk48 l)) (fun _ _ => rfl) (fun _ _ => rfl)]

end

/-! ### LINK_FLIT_SEND (R194) -/

theorem execLinkFlitSend_due {x : Nat} (hup : s.linkUp l = true) (hawake : s.inEasy = false)
    (hdue : (s.link l).lastLinkTx + 1000 ≤ (s.advance x).raw) :
    execLinkFlitSend l x s = .next ((s.advance x).sendLink l) := by
  have htalks : (s.advance x).linkTalks l = true := by
    rw [State.linkTalks, show (s.advance x).linkUp l = true from hup, Bool.true_or]
  have hawake' : (s.advance x).inEasy = false := hawake
  have hnow : ∀ told : Bool, ((s.advance x).link l).lastLinkTx + (if told then 128 else 1000) ≤ (s.advance x).raw := fun told => by
    have hkept : ((s.advance x).link l).lastLinkTx = (s.link l).lastLinkTx := rfl
    rw [hkept]
    split <;> omega
  simp only [execLinkFlitSend, htalks, hawake', decide_eq_true (hnow _), Bool.not_false, Bool.and_self, if_true]

/-! ### Acknowledgements (R202) -/

section
variable (p : State → β) (hregs : ∀ s x, p (State.setRegs s x) = p s) (hconv : ∀ s x, p (State.setConv s x) = p s)
  (hcores : ∀ s x, p (State.setCores s x) = p s)
include hregs hconv hcores

/-- Acknowledged SENDs and ADDs leave their queues: cores and registers alone change. -/
theorem State.settleSends_keeps (s : State) (c : Nat) : p (s.settleSends c) = p s := by
  have hview : State.CoreView Core.unheld p := .of_blind hregs hcores
  have hends : ∀ (qs : List QCmd) (done : QCmd → Nat) (u : State), p (u.each qs fun t q => t.traceEnd c 0 (done q) q) = p u :=
    fun qs done u => State.each_keeps u p _ _ fun t q => hview.untraced.traceEnd t c 0 (done q) q
  unfold State.settleSends
  extract_lets k gone adds
  split
  · rfl
  · exact (hview.settleCore _ c).trans <| (State.showDma_keeps _ p hregs hconv c).trans <|
      (hends _ (fun _ => 0) _).trans <| (hends _ QCmd.done _).trans (hcores _ _)

theorem State.acknowledge_keeps (hlinks : ∀ s x, p (State.setLinks s x) = p s) (s : State) (l : Nat) (acked : Unacked → Bool) :
    p (s.acknowledge l acked) = p s :=
  (State.each_keeps _ p _ _ fun s c => State.settleSends_keeps p hregs hconv hcores s c).trans (hlinks _ _)

end

/-- An acknowledgement lets go of the flits it names, and of nothing else of any link. -/
theorem State.links_acknowledge (s : State) (l : Nat) (acked : Unacked → Bool) : (s.acknowledge l acked).links
    = (s.modLink l fun k => { k with unacked := k.unacked.filter fun u => !acked u }).links :=
  State.each_keeps _ State.links _ _ fun s c =>
    State.settleSends_keeps State.links (fun _ _ => rfl) (fun _ _ => rfl) (fun _ _ => rfl) s c

theorem State.unacked_acknowledge (s : State) (l : Nat) (acked : Unacked → Bool) :
    ((s.acknowledge l acked).link l).unacked = (s.link l).unacked.filter fun u => !acked u := by
  rw [State.link_congr (s.links_acknowledge l acked), State.link_modLink_same]

theorem State.hdrs_acknowledge (s : State) (l m : Nat) (acked : Unacked → Bool) :
    ((s.acknowledge m acked).link l).hdrs = (s.link l).hdrs := by
  rw [State.link_congr (s.links_acknowledge m acked)]
  exact State.link_modLink_part Link.hdrs fun _ => rfl

theorem State.frame_acknowledge (s : State) (l : Nat) (acked : Unacked → Bool) :
    (s.acknowledge l acked).memoryAndTallies = s.memoryAndTallies ∧ (s.acknowledge l acked).raw = s.raw :=
  Prod.mk.inj <| State.acknowledge_keeps (fun t => (t.memoryAndTallies, t.raw)) (fun _ _ => rfl) (fun _ _ => rfl)
    (fun _ _ => rfl) (fun _ _ => rfl) s l acked

/-- The pair of a LAND_ACK whose message is outstanding acknowledges that message (R202). -/
theorem State.landPair_of_found {n src msg : Nat} {m : Unacked}
    (hfound : (s.link src).unacked.find? (fun u => u.bulk && !u.lost && decide (u.crew = n ∧ u.msg = msg)) = some m) :
    s.landPair n src msg = s.acknowledge src fun u => u.bulk && !u.lost &&
      decide (u.crew = n ∧ u.msg = msg ∧ u.core = m.core ∧ u.unit = m.unit ∧ u.cmd = m.cmd) := by
  rw [State.landPair, hfound]

theorem execLandAck_of_header {pairs : List (Nat × Nat)} {h : Nat × Nat} {rest : List (Nat × Nat × Nat)}
    (hheader : takeHeader 3 none (s.link l).hdrs = some (h, rest)) : execLandAck l pairs s =
      .next ((s.modLink l fun k => { k with hdrs := rest }).each pairs fun s p => s.landPair h.1 p.1 p.2) := by
  rw [execLandAck, hheader]

theorem State.landAck_effect {src msg : Nat} {h : Nat × Nat} {rest : List (Nat × Nat × Nat)} {m : Unacked}
    (hheader : takeHeader 3 none (s.link l).hdrs = some (h, rest))
    (hfound : (s.link src).unacked.find? (fun u => u.bulk && !u.lost && decide (u.crew = h.1 ∧ u.msg = msg)) = some m) :
    ∃ t, exec (.landAck l [(src, msg)]) s = .next t ∧ t.memoryAndTallies = s.memoryAndTallies ∧ (t.link l).hdrs = rest
      ∧ (t.link src).unacked = (s.link src).unacked.filter (fun u => !(u.bulk && !u.lost &&
          decide (u.crew = h.1 ∧ u.msg = msg ∧ u.core = m.core ∧ u.unit = m.unit ∧ u.cmd = m.cmd))) := by
  have hsame : ((s.modLink l fun k => { k with hdrs := rest }).link src).unacked = (s.link src).unacked :=
    State.link_modLink_part Link.unacked fun _ => rfl
  have hland := State.landPair_of_found (s := s.modLink l fun k => { k with hdrs := rest }) (hsame ▸ hfound)
  refine ⟨_, (execLandAck_of_header hheader).trans (congrArg _ hland), (State.frame_acknowledge _ _ _).1, ?_, ?_⟩
  · rw [State.hdrs_acknowledge, State.link_modLink_same]
  · rw [State.unacked_acknowledge, hsame]

/-! ### ACK_TIMEOUT (R204) -/

theorem execAckTimeout_late {x n : Nat} {u : Unacked} (hone : (s.link l).unacked = [u]) (hbulk : u.bulk = true) (hcrew : u.crew = n)
    (hlate : u.launched + 1000 * s.fld F.LNK_CREW_ack_timeout_us [n] ≤ (s.advance x).ns) (hgoing : s.halted n = false)
    (hstop : (s.crew n).stop = none) : execAckTimeout l x s = .next ((s.advance x).crewFault n 6 0x0608 l) := by
  subst hcrew
  have hone' : ((s.advance x).link l).unacked = [u] := hone
  have hlate' : u.launched + 1000 * (s.advance x).fld F.LNK_CREW_ack_timeout_us [u.crew] ≤ (s.advance x).ns := hlate
  have hgoing' : (s.advance x).halted u.crew = false := hgoing
  have hstop' : ((s.advance x).crew u.crew).stop = none := hstop
  simp [execAckTimeout, hone', hbulk, hlate', hgoing', hstop', State.each, List.eraseDups_cons]

/-- A Domain fault charged to a crew is recorded, stops the crew, and changes neither links nor what a job computes with. -/
theorem State.crewFault_effect (s : State) (n cls event detail : Nat) :
    s.records (s.crewFault n cls event detail) cls 2 event ∧ ((s.crewFault n cls event detail).crew n).stop.isSome = true
      ∧ (s.crewFault n cls event detail).links = s.links ∧ (s.crewFault n cls event detail).jobData = s.jobData := by
  obtain ⟨hcls, hsev, hevent, hcrew⟩ := (s.fault0 cls 2 event).charge_severity n (s.crew n).runningLaunch
  obtain ⟨hlinks, hdata⟩ := Prod.mk.inj <| State.crewFault_keeps s (fun t => (t.links, t.jobData)) (fun _ _ => rfl)
    (fun _ _ => rfl) (fun _ _ => rfl) n cls event detail
  exact ⟨s.records_raiseFault hcls hsev hevent, s.raiseFault_stops_crew hsev hcrew, hlinks, hdata⟩

end Sys2Proof.Machine

namespace Sys2Proof.Proofs
open Sys2Proof.Machine

/-- Settles O29: the credits of a channel are a field of their own; a resend changes the flits it sends, their link's count of
replays and the messages; an acknowledgement takes what it names out of one link's list. That a resend counts one replay and
that slots are counted from the last CREDIT_SYNC is assumption log 31. -/
theorem linkFlitsAcknowledgeAndReturnCredits : Obligations.LinkFlitsAcknowledgeAndReturnCredits := by
  intro s l _ k same
  have hsame : ∀ {t : State}, t.memoryAndTallies = s.memoryAndTallies → same t := fun h =>
    (State.sameMemory_tallies_of_eq h).symm
  have hdata : ∀ {t : State}, t.jobData = s.jobData → t.cores = s.cores ∧ same t := fun h =>
    ⟨(Prod.mk.inj h).2, hsame (Prod.mk.inj h).1⟩
  refine ⟨fun seq c hdown hidle => ⟨?flit, ?sync⟩, fun seq a f b hup hfrozen hreplay hseq hfirst hlast => ?retry,
    fun x hup hawake hdue => ?send, fun src msg h rest m hheader hfound => ?land, fun pairs hnone => ?early, fun x => ?timed,
    fun x u n hone hbulk hcrew hlate hgoing hstop => ?timeout⟩
  case flit =>
    obtain ⟨t, hexec, hreplay, hjob, hcredits⟩ := State.linkFlit_effect (c := c) hdown hidle
    obtain ⟨hcores, hframe⟩ := hdata hjob
    exact ⟨t, hexec, hreplay, hcores, hframe, hcredits⟩
  case sync =>
    obtain ⟨t, hexec, hreconciled, hjob, hreplay, hcredits⟩ := State.creditSync_effect (c := c) hdown hidle
    obtain ⟨hcores, hframe⟩ := hdata hjob
    exact ⟨t, hexec, hreconciled, hcores, hframe, hreplay, hcredits⟩
  case retry =>
    obtain ⟨t, hexec, hjob, hshown⟩ := State.linkRetry_effect hseq hfirst hup hfrozen hreplay hlast
    obtain ⟨hcores, hframe⟩ := hdata hjob
    exact ⟨t, hexec, hcores, hframe, hshown⟩
  case send =>
    have hexec := execLinkFlitSend_due hup hawake hdue
    rw [State.sendLink_eq] at hexec
    obtain ⟨hcores, hframe⟩ := hdata (State.LinkView.jobData.tell (s.advance x) l _ _)
    refine ⟨_, hexec, State.out_tell _ _ _ _, ?_, ?_, ?_, hcores, hframe⟩
    · rw [State.link_tell]
      rfl
    · rw [State.link_tell]
      rfl
    · rw [State.link_tell, State.tell_keeps _ State.raw (fun _ _ => rfl) (fun _ _ => rfl) (fun _ _ => rfl)]
  case land =>
    obtain ⟨t, hexec, hjob, hhdrs, hunacked⟩ := State.landAck_effect hheader hfound
    exact ⟨t, hexec, hsame hjob, hhdrs, hunacked⟩
  case early =>
    show execLandAck l pairs s = .next s
    rw [execLandAck, hnone]
  case timed =>
    obtain ⟨hframe, hraw⟩ := (s.advance x).frame_acknowledge l fun u => !u.bulk && !u.lost &&
      decide (u.launched + (s.advance x).fld F.LNK_FLIGHT_flight_ns (lnk48 l) ≤ (s.advance x).ns)
    exact ⟨_, rfl, hsame hframe, hraw, State.unacked_acknowledge _ _ _⟩
  case timeout =>
    obtain ⟨hrecords, hstopped, hlinks, hjob⟩ := (s.advance x).crewFault_effect n 6 0x0608 l
    obtain ⟨hcores, hframe⟩ := hdata hjob
    exact ⟨_, execAckTimeout_late hone hbulk hcrew hlate hgoing hstop, hrecords, hstopped, hlinks, hcores, hframe⟩

end Sys2Proof.Proofs
end

section
/-!
PROOFS. Lane changes and LINK-DOWN (O30): 08 R197, R208 to R211.
-/
namespace Sys2Proof.Machine

variable {s t u : State} {l lane : Nat} {β : Type}

/-! ### A link frozen on one lane (R208, R209) -/

/-- LNK_STAT says that the link is frozen and changes to the lane that is left. -/
def State.frozenOn (s : State) (l lane : Nat) : Prop :=
  s.linkState l = 4 ∧ s.linkFrozen l = true ∧ s.fld F.LNK_STAT_good_lane (lnk48 l) = 1 - lane

/-- The state in which LNK_STAT says so. -/
def State.freeze (s : State) (l lane : Nat) : State :=
  ((s.setFld F.LNK_STAT_state (lnk48 l) 4).liveBit F.LNK_STAT_frozen (lnk48 l) true).setFld F.LNK_STAT_good_lane (lnk48 l)
    (1 - lane)

theorem State.freeze_keeps (p : State → β) (hregs : ∀ s x, p (State.setRegs s x) = p s)
    (hconv : ∀ s x, p (State.setConv s x) = p s) (s : State) (l lane : Nat) : p (s.freeze l lane) = p s := by
  rw [State.freeze, State.setFld_keeps _ p hregs, State.liveBit_keeps _ p hregs hconv, State.setFld_keeps _ p hregs]

theorem State.frozenOn_freeze (s : State) (l lane : Nat) : (s.freeze l lane).frozenOn l lane := by
  refine ⟨?_, ?_, ?_⟩
  · have hstate : (s.freeze l lane).fld F.LNK_STAT_state (lnk48 l) = 4 := by
      rw [State.freeze,
        State.fld_setFld_other (f := F.LNK_STAT_good_lane) (g := F.LNK_STAT_state) _ rfl (by decide) (by decide) (by decide),
        State.fld_liveBit_other _ (f := F.LNK_STAT_frozen) (g := F.LNK_STAT_state) rfl (by decide) (by decide) (by decide),
        State.fld_setFld_same _ _ _ _ (by decide)]
      rfl
    exact hstate
  · have hfrozen : (s.freeze l lane).fld F.LNK_STAT_frozen (lnk48 l) = 1 := by
      rw [State.freeze,
        State.fld_setFld_other (f := F.LNK_STAT_good_lane) (g := F.LNK_STAT_frozen) _ rfl (by decide) (by decide) (by decide),
        State.fld_liveBit_same _ F.LNK_STAT_frozen _ _ (by decide)]
      rfl
    exact decide_eq_true hfrozen
  · rw [State.freeze, State.fld_setFld_same _ _ _ _ (by decide)]
    exact Nat.mod_eq_of_lt (Nat.lt_of_le_of_lt (Nat.sub_le 1 lane) (by decide))

theorem State.frozenOn_congr (h : t.regs = s.regs) (hs : s.frozenOn l lane) : t.frozenOn l lane := by
  obtain ⟨hstate, hfrozen, hlane⟩ := hs
  refine ⟨(State.fld_congr h _ _).trans hstate, ?_, (State.fld_congr h _ _).trans hlane⟩
  rw [State.linkFrozen, State.isSet, State.fld_congr h]
  exact hfrozen

/-! ### The record of a lane change -/

theorem State.degradeRecord_keeps (p : State → β) (hcrews : ∀ s x, p (State.setCrews s x) = p s)
    (hflt : ∀ s x, p (State.setFlt s x) = p s) (hfree : ∀ s x, p (State.setFree s x) = p s)
    (hcox : ∀ s x, p (State.setCox s x) = p s) (s : State) (l lane : Nat) : p (s.degradeRecord l lane) = p s :=
  (State.raiseFault_keeps _ p hcrews hflt hfree _).trans (hcox _ _)

theorem State.records_degradeRecord (s : State) (l lane : Nat) : s.records (s.degradeRecord l lane) 7 0 0x0701 :=
  State.records_raiseFault (s.trigger { cls := 2, body := [], loc := l }) rfl rfl rfl

/-- A record is one of every state with the same faults behind it. -/
theorem State.records_congr {cls sev event : Nat} (hs : u.flt = s.flt) (h : u.records t cls sev event) :
    s.records t cls sev event := by
  unfold State.records at h ⊢
  rwa [hs] at h

theorem State.records_of_flt {cls sev event : Nat} (ht : t.flt = u.flt) (h : s.records u cls sev event) :
    s.records t cls sev event := by
  unfold State.records at h ⊢
  rwa [ht]

/-! ### LANE_UNUSABLE (R208) -/

/-- The state in which the window of a link's codewords starts anew. -/
def State.ucwAnew (s : State) (l w : Nat) : State :=
  ((s.setFld F.LNK_HEALTH_ucw_lane0 (lnk48 l) 0).setFld F.LNK_HEALTH_ucw_lane1 (lnk48 l) 0).modLink l fun k => { k with
    ucwStart := w }

theorem State.ucwWindow_eq (s : State) (l : Nat) : s.ucwWindow l = s ∨ ∃ w, s.ucwWindow l = s.ucwAnew l w := by
  rw [State.ucwWindow]
  split
  · exact .inr ⟨_, rfl⟩
  · exact .inl rfl

theorem State.ucwWindow_keeps (p : State → β) (hregs : ∀ s x, p (State.setRegs s x) = p s)
    (hlinks : ∀ s x, p (State.setLinks s x) = p s) (s : State) (l : Nat) : p (s.ucwWindow l) = p s := by
  obtain h | ⟨w, h⟩ := s.ucwWindow_eq l
  · rw [h]
  · rw [h]
    exact (hlinks _ _).trans ((hregs _ _).trans (hregs _ _))

/-- A part of a link that does not speak of the window stays. -/
theorem State.link_ucwWindow_part {γ : Type} (part : Link → γ) (hpart : ∀ k w, part { k with ucwStart := w } = part k)
    (s : State) (l : Nat) : part ((s.ucwWindow l).link l) = part (s.link l) := by
  obtain h | ⟨w, h⟩ := s.ucwWindow_eq l
  · rw [h]
  · rw [h, State.ucwAnew, State.link_modLink_same, hpart, State.setFld_keeps _ (·.link l) (fun _ _ => rfl),
      State.setFld_keeps _ (·.link l) (fun _ _ => rfl)]

theorem State.linkState_ucwWindow (s : State) (l : Nat) : (s.ucwWindow l).linkState l = s.linkState l := by
  have hput : ∀ (u : State) (f : Fld), f.reg = R.LNK_HEALTH → (u.setFld f (lnk48 l) 0).linkState l = u.linkState l := fun u f hf =>
    State.fld_setFld_reg u (g := F.LNK_STAT_state) (jx := lnk48 l)
      (hf ▸ RegDef.addr_lnk48_ne (r := R.LNK_HEALTH) (r' := R.LNK_STAT) rfl rfl (by decide) l) 0
  obtain h | ⟨w, h⟩ := s.ucwWindow_eq l
  · rw [h]
  · rw [h, State.ucwAnew, State.modLink_keeps _ (·.linkState l) (fun _ _ => rfl), hput _ _ rfl, hput _ _ rfl]

/-- The state in which a link has lost a lane. -/
def State.laneOut (s : State) (l lane : Nat) : State := s.modLink l fun k => { k with usable := k.usable.set lane false }

/-- Of two usable lanes one is left when the other is lost. -/
theorem State.usable_laneOut (hlane : lane < 2) (husable : (s.link l).usable = [true, true]) :
    (((s.laneOut l lane).link l).usable.any fun u => u) = true := by
  rw [State.laneOut, State.link_modLink_same]
  dsimp only
  rw [husable]
  obtain rfl | rfl : lane = 0 ∨ lane = 1 := by omega
  all_goals rfl

/-- What a link notes of a lane message that it has sent. -/
def Link.offered (k : Link) : Link :=
  { k with degSent := true, degRecv := false, restripeDue := false, restriped := false, reconciled := false, retrained := none }

/-- The state in which a link at x2 has frozen and offered the change to x1. -/
def State.laneOffered (s : State) (l lane : Nat) : State :=
  ((((s.laneOut l lane).freeze l lane).modLink l Link.offered).send (.lane l lane false)).degradeRecord l lane

theorem State.laneLost_of_two (hlane : lane < 2) (hstate : s.linkState l = 2) (husable : (s.link l).usable = [true, true]) :
    s.laneLost l lane = s.laneOffered l lane := by
  have hleft := State.usable_laneOut hlane husable
  unfold State.laneOut at hleft
  simp only [State.laneLost, hleft, hstate, Bool.not_true, Bool.false_eq_true, if_false, if_true, Nat.reduceEqDiff]
  rfl

theorem execLaneUnusable_fecLock (hlane : lane < 2) : execLaneUnusable l lane .fecLock s = .next ((s.ucwWindow l).laneLost l lane) := by
  simp [execLaneUnusable, hlane]

/-- A view that sees nothing of the link layer sees nothing of a link that freezes. -/
theorem State.LinkView.laneFrozen {p : State → β} (hp : State.LinkView p) (s : State) (l lane : Nat) :
    p ((s.laneOut l lane).freeze l lane) = p s :=
  ((s.laneOut l lane).freeze_keeps p hp.regs hp.conv l lane).trans (hp.modLink s l _)

theorem State.LinkView.degradeRecord {p : State → β} (hp : State.LinkView p) (s : State) (l lane : Nat) :
    p (s.degradeRecord l lane) = p s :=
  s.degradeRecord_keeps p hp.crews hp.flt hp.free hp.cox l lane

theorem State.out_laneFrozen (s : State) (l lane : Nat) : ((s.laneOut l lane).freeze l lane).out = s.out :=
  ((s.laneOut l lane).freeze_keeps State.out (fun _ _ => rfl) (fun _ _ => rfl) l lane).trans
    (s.modLink_keeps State.out (fun _ _ => rfl) l _)

theorem State.flt_laneFrozen (s : State) (l lane : Nat) : ((s.laneOut l lane).freeze l lane).flt = s.flt :=
  ((s.laneOut l lane).freeze_keeps State.flt (fun _ _ => rfl) (fun _ _ => rfl) l lane).trans
    (s.modLink_keeps State.flt (fun _ _ => rfl) l _)

/-- Losing a lane and freezing change no other part of a link. -/
theorem State.link_laneFrozen_part {γ : Type} (part : Link → γ) (hpart : ∀ k v, part { k with usable := v } = part k)
    (s : State) (l lane : Nat) : part (((s.laneOut l lane).freeze l lane).link l) = part (s.link l) := by
  rw [(s.laneOut l lane).freeze_keeps (·.link l) (fun _ _ => rfl) (fun _ _ => rfl), State.laneOut, State.link_modLink_same, hpart]

section
variable (s : State) (l lane : Nat)

theorem State.frozenOn_laneOffered : (s.laneOffered l lane).frozenOn l lane := by
  refine State.frozenOn_congr ?_ ((s.laneOut l lane).frozenOn_freeze l lane)
  rw [State.laneOffered, State.degradeRecord_keeps State.regs (fun _ _ => rfl) (fun _ _ => rfl) (fun _ _ => rfl) (fun _ _ => rfl)]
  rw [State.send_keeps _ State.regs (fun _ _ => rfl), State.modLink_keeps _ State.regs (fun _ _ => rfl)]

theorem State.jobData_laneOffered : (s.laneOffered l lane).jobData = s.jobData := by
  have hview := State.LinkView.jobData
  rw [State.laneOffered, hview.degradeRecord, hview.send, hview.modLink, hview.laneFrozen]

theorem State.link_laneOffered : ((s.laneOffered l lane).link l).degSent = true
    ∧ ((s.laneOffered l lane).link l).degRecv = false ∧ ((s.laneOffered l lane).link l).replay = (s.link l).replay := by
  rw [State.laneOffered,
    State.degradeRecord_keeps (·.link l) (fun _ _ => rfl) (fun _ _ => rfl) (fun _ _ => rfl) (fun _ _ => rfl),
    State.send_keeps _ (·.link l) (fun _ _ => rfl), State.link_modLink_same]
  exact ⟨rfl, rfl, State.link_laneFrozen_part (fun k => k.offered.replay) (fun _ _ => rfl) s l lane⟩

theorem State.out_laneOffered : (s.laneOffered l lane).out = s.out ++ [.lane l lane false] := by
  rw [State.laneOffered, State.degradeRecord_keeps State.out (fun _ _ => rfl) (fun _ _ => rfl) (fun _ _ => rfl) (fun _ _ => rfl),
    State.send, State.setOut_out, State.modLink_keeps _ State.out (fun _ _ => rfl), State.out_laneFrozen]

theorem State.records_laneOffered : s.records (s.laneOffered l lane) 7 0 0x0701 := by
  refine State.records_congr ?_ (State.records_degradeRecord _ l lane)
  rw [State.send_keeps _ State.flt (fun _ _ => rfl), State.modLink_keeps _ State.flt (fun _ _ => rfl), State.flt_laneFrozen]

end

/-! ### LANE_DEGRADE, LANE_ACK and RESTRIPE (R209) -/

/-- What a link notes of a lane message that it has received. -/
def Link.answered (k : Link) : Link :=
  { k with restripeDue := false, restriped := false, reconciled := false, retrained := none }

/-- The state in which a link at x2 has answered the partner's offer. -/
def State.laneAnswered (s : State) (l lane : Nat) : State :=
  (((((s.laneOut l lane).freeze l lane).send (.lane l lane true)).modLink l Link.answered).degradeRecord l lane).modLink l
    fun k => { k with degSent := true, degRecv := true }

theorem execLaneDegrade_of_two (hlane : lane < 2) (hstate : s.linkState l = 2) (husable : (s.link l).usable = [true, true]) :
    execLaneDegrade l lane s = .next (s.laneAnswered l lane) := by
  have hleft := State.usable_laneOut hlane husable
  unfold State.laneOut at hleft
  simp only [execLaneDegrade, hleft, hstate, hlane, true_or, and_self, Bool.not_true, Bool.false_eq_true, if_false, if_true]
  rfl

section
variable (s : State) (l lane : Nat)

theorem State.frozenOn_laneAnswered : (s.laneAnswered l lane).frozenOn l lane := by
  refine State.frozenOn_congr ?_ ((s.laneOut l lane).frozenOn_freeze l lane)
  rw [State.laneAnswered, State.modLink_keeps _ State.regs (fun _ _ => rfl),
    State.degradeRecord_keeps State.regs (fun _ _ => rfl) (fun _ _ => rfl) (fun _ _ => rfl) (fun _ _ => rfl)]
  rw [State.modLink_keeps _ State.regs (fun _ _ => rfl), State.send_keeps _ State.regs (fun _ _ => rfl)]

theorem State.jobData_laneAnswered : (s.laneAnswered l lane).jobData = s.jobData := by
  have hview := State.LinkView.jobData
  rw [State.laneAnswered, hview.modLink, hview.degradeRecord, hview.modLink, hview.send, hview.laneFrozen]

theorem State.link_laneAnswered : ((s.laneAnswered l lane).link l).degSent = true
    ∧ ((s.laneAnswered l lane).link l).degRecv = true ∧ ((s.laneAnswered l lane).link l).replay = (s.link l).replay := by
  rw [State.laneAnswered, State.link_modLink_same,
    State.degradeRecord_keeps (·.link l) (fun _ _ => rfl) (fun _ _ => rfl) (fun _ _ => rfl) (fun _ _ => rfl),
    State.link_modLink_same, State.send_keeps _ (·.link l) (fun _ _ => rfl)]
  refine ⟨rfl, rfl, ?_⟩
  exact State.link_laneFrozen_part (fun k => ({ k.answered with degSent := true, degRecv := true } : Link).replay)
    (fun _ _ => rfl) s l lane

theorem State.out_laneAnswered : (s.laneAnswered l lane).out = s.out ++ [.lane l lane true] := by
  rw [State.laneAnswered, State.modLink_keeps _ State.out (fun _ _ => rfl),
    State.degradeRecord_keeps State.out (fun _ _ => rfl) (fun _ _ => rfl) (fun _ _ => rfl) (fun _ _ => rfl),
    State.modLink_keeps _ State.out (fun _ _ => rfl), State.send, State.setOut_out, State.out_laneFrozen]

theorem State.records_laneAnswered : s.records (s.laneAnswered l lane) 7 0 0x0701 := by
  refine State.records_of_flt (State.modLink_keeps _ State.flt (fun _ _ => rfl) _ _) ?_
  refine State.records_congr ?_ (State.records_degradeRecord _ l lane)
  rw [State.modLink_keeps _ State.flt (fun _ _ => rfl), State.send_keeps _ State.flt (fun _ _ => rfl), State.flt_laneFrozen]

end

theorem execLaneAck_offered (hstate : s.linkState l = 4) (hsent : (s.link l).degSent = true) :
    execLaneAck l s = .next (s.modLink l fun k => { k with degRecv := true }) := by
  rw [execLaneAck, if_pos ⟨hstate, hsent⟩]

/-- The state in which an end of a link has re-striped. -/
def State.restripedLink (s : State) (l : Nat) : State := s.modLink l fun k => { k with restriped := true }

theorem execRestripe_due (hstate : s.linkState l = 4) (hdrive : s.stk.drive = false) (hdue : (s.link l).restripeDue = true)
    (hfirst : (s.link l).restriped = false) :
    execRestripe l s = .next ((s.restripedLink l).sendSync l) := by
  simp only [State.restripedLink, execRestripe, hdrive, hstate, hdue, hfirst, decide_true, Bool.not_false, Bool.and_self, if_true]

/-- A CREDIT_SYNC changes of its link only what it reports, and of the rest only the counters and the messages. -/
theorem State.sendSync_effect (s : State) (l : Nat) :
    (s.sendSync l).jobData = s.jobData ∧ (s.sendSync l).regs = s.regs
      ∧ (∃ c, (s.sendSync l).out = s.out ++ [.creditSync l (((s.link l).rxSeq + 4095) % 4096) c])
      ∧ ((s.sendSync l).link l).restriped = (s.link l).restriped ∧ ((s.sendSync l).link l).retrained = (s.link l).retrained
      ∧ ((s.sendSync l).link l).usable = (s.link l).usable ∧ ((s.sendSync l).link l).txSeq = (s.link l).txSeq
      ∧ ((s.sendSync l).link l).rxSeq = (s.link l).rxSeq := by
  obtain ⟨free, h⟩ := s.sendSync_eq l
  rw [h, State.link_tell]
  exact ⟨State.LinkView.jobData.tell _ _ _ _, s.tell_keeps State.regs (fun _ _ => rfl) (fun _ _ => rfl) (fun _ _ => rfl) _ _ _,
    ⟨free, State.out_tell _ _ _ _⟩, rfl, rfl, rfl, rfl, rfl⟩

theorem State.restripe_effect (hstate : s.linkState l = 4) (hdrive : s.stk.drive = false)
    (hdue : (s.link l).restripeDue = true) (hfirst : (s.link l).restriped = false) :
    ∃ t c, exec (.restripe l) s = .next t ∧ (t.tallies = s.tallies ∧ s.sameMemory t ∧ t.cores = s.cores)
      ∧ (t.link l).restriped = true ∧ s.regsBut [] t
      ∧ t.out = s.out ++ [.creditSync l (((s.link l).rxSeq + 4095) % 4096) c] := by
  have hrx : ((s.restripedLink l).link l).rxSeq = (s.link l).rxSeq := State.link_modLink_part Link.rxSeq fun _ => rfl
  obtain ⟨hjob, hregs, ⟨c, hout⟩, hshown, -⟩ := (s.restripedLink l).sendSync_effect l
  rw [hrx, State.restripedLink, State.modLink_keeps _ State.out (fun _ _ => rfl)] at hout
  rw [State.restripedLink, State.link_modLink_same] at hshown
  exact ⟨_, c, execRestripe_due hstate hdrive hdue hfirst,
    State.jobData_parts (hjob.trans (State.LinkView.jobData.modLink _ _ _)), hshown,
    State.regsBut_of_regs_eq (hregs.trans (s.modLink_keeps State.regs (fun _ _ => rfl) _ _)) [], hout⟩

/-! ### Crews allocated a link (16 R394) -/

section
variable {α : Type} {k a n : Nat} (hout : (decide (a ≤ k) && decide (k < a + n)) = false) (m : List (Nat × α))
include hout

theorem Map.range_erase : Map.range (Map.erase k m) a n = Map.range m a n := by
  induction m with
  | nil => rfl
  | cons x m ih =>
    obtain ⟨j, x⟩ := x
    rw [Map.erase]
    split
    · next hj =>
      subst hj
      rw [ih, Map.range, Map.range, List.filter_cons_of_neg (by simpa using hout)]
    · simp only [Map.range, List.filter_cons] at ih ⊢
      rw [ih]

theorem Map.range_insert (v : α) : Map.range (Map.insert k v m) a n = Map.range m a n := by
  induction m with
  | nil => rw [Map.insert, Map.range, List.filter_cons_of_neg (by simpa using hout), Map.range]
  | cons x m ih =>
    obtain ⟨j, x⟩ := x
    rw [Map.insert]
    split
    · rw [Map.range, List.filter_cons_of_neg (by simpa using hout), Map.range]
    · split
      · next hj =>
        subst hj
        rw [Map.range, Map.range, List.filter_cons_of_neg (by simpa using hout), List.filter_cons_of_neg (by simpa using hout)]
      · simp only [Map.range, List.filter_cons] at ih ⊢
        rw [ih]

/-- An entry outside a range of keys is none of it. -/
theorem Map.range_setD [DecidableEq α] (d v : α) : Map.range (Map.setD d m k v) a n = Map.range m a n := by
  rw [Map.setD]
  split
  · exact Map.range_erase hout m
  · exact Map.range_insert hout m v

end

section
variable {n : Nat} {f : Fld} (hf : f.reg.ofLink = true)
include hf

/-- The registers of a link hold no gate entry. -/
theorem State.onLink_setFld (s : State) (l n v : Nat) : (s.setFld f (lnk48 l) v).onLink l n = s.onLink l n := by
  have hgate : R.GATE_TABLE.addr (lnk48 l ++ [0, 0]) = 0x02200000 + 0x800000 * (l / 48) + 0x2000 * (l % 48) := rfl
  obtain ⟨-, -, hhi⟩ := of_decide_eq_true hf
  have hbelow : f.reg.addr (lnk48 l) < R.GATE_TABLE.addr (lnk48 l ++ [0, 0]) := by
    rw [RegDef.addr_lnk48 hf, hgate]
    omega
  unfold State.onLink State.setFld State.setReg
  rw [State.setRegs_regs, Map.range_setD (by rw [decide_eq_false (Nat.not_le.mpr hbelow), Bool.false_and])]
  rfl

theorem State.crewValid_setFld (hn : n < 16) (s : State) (l v : Nat) :
    (s.setFld f (lnk48 l) v).crewValid n = s.crewValid n := by
  have hcrew : R.RIG_CREW.addr [n] = 0x840 + 4 * n := rfl
  obtain ⟨-, hlo, -⟩ := of_decide_eq_true hf
  have happart : R.RIG_CREW.addr [n] ≠ f.reg.addr (lnk48 l) := by
    rw [RegDef.addr_lnk48 hf, hcrew]
    omega
  rw [State.crewValid, State.isSet, State.fld_setFld_reg _ (g := F.RIG_CREW_valid) happart]
  rfl

end

/-- A crew of the rig in force is allocated a link. -/
def State.allotted (s : State) (l n : Nat) : Bool := s.crewValid n && s.onLink l n

theorem State.allotted_congr {n : Nat} (hregs : t.regs = s.regs) (hshares : (t.link l).shares = (s.link l).shares) :
    t.allotted l n = s.allotted l n := by
  rw [State.allotted, State.allotted, State.crewValid, State.isSet, State.fld_congr hregs, State.onLink, hregs, hshares]
  rfl

theorem State.allotted_setFld {n : Nat} {f : Fld} (hf : f.reg.ofLink = true) (hn : n < 16) (s : State) (v : Nat) :
    (s.setFld f (lnk48 l) v).allotted l n = s.allotted l n := by
  rw [State.allotted, State.onLink_setFld hf, State.crewValid_setFld hf hn, State.allotted]

/-! ### A fault that stops a crew (11 R258) -/

/-- A crew is to stop for a Domain fault of a class and event that names it. -/
def State.stoppedFor (s : State) (cls event n : Nat) : Prop :=
  (s.crew n).stop.isSome = true ∧ ∃ f ∈ s.flt.queue, f.event = event ∧ f.cls = cls ∧ f.sev = 2 ∧ f.crew = some n

theorem State.stoppedFor_raiseFault {cls event n : Nat} {f : Fault0} (hcls : f.cls = cls) (hsev : f.sev = 2)
    (hevent : f.event = event) (hcrew : f.crew = some n) (s : State) : (s.raiseFault f).stoppedFor cls event n := by
  have hstamp : ∀ u : State, (u.stampFault f).crew = some n := fun u => by
    rw [State.stampFault]
    split
    · exact hcrew
    · exact hcrew
  unfold State.raiseFault
  generalize (if f.hasDetail = true then s.fresh else (f.syndrome, s)) = x
  obtain ⟨v, u⟩ := x
  simp only [State.stampFault_sev, hsev, hstamp]
  refine ⟨State.stopCrew_stop_isSome _ _ (.inl rfl), _, List.mem_append_right _ (List.mem_singleton.mpr rfl), ?_⟩
  exact ⟨(u.stampFault_event f).trans hevent, (u.stampFault_cls f).trans hcls, rfl, rfl⟩

/-- A further fault leaves a stopped crew stopped and the fault that stopped it in the queue. -/
theorem State.stoppedFor_raiseFault_of {cls event n : Nat} (h : s.stoppedFor cls event n) (f : Fault0) :
    (s.raiseFault f).stoppedFor cls event n := by
  obtain ⟨hstop, g, hg, hshown⟩ := h
  refine ⟨?_, g, ?_, hshown⟩
  · obtain ⟨free, x, -, hcases, -⟩ := s.raiseFault_cases f
    have hstop' : ((s.withFault free x).crew n).stop.isSome = true := hstop
    obtain h | h | ⟨m, st, h⟩ := hcases
    · rwa [h]
    · rw [h]
      exact State.each_stopCrew_stop_isSome _ _ _ (.inr hstop')
    · rw [h]
      exact State.stopCrew_stop_isSome _ _ (.inr hstop')
  · obtain ⟨x, -, hflt⟩ := s.raiseFault_flt f
    rw [hflt]
    exact List.mem_append_left _ hg

/-- The same fault raised for each crew of a list stops them all. -/
theorem State.stoppedFor_each {cls event n : Nat} {f : Fault0} (hcls : f.cls = cls) (hsev : f.sev = 2) (hevent : f.event = event)
    (crews : List Nat) (s : State) (hn : n ∈ crews ∨ s.stoppedFor cls event n) :
    (s.each crews fun s m => s.raiseFault { f with crew := some m }).stoppedFor cls event n := by
  induction crews generalizing s with
  | nil => exact hn.resolve_left List.not_mem_nil
  | cons m r ih =>
    refine ih _ ?_
    obtain hmem | hstopped := hn
    · obtain rfl | hr := List.mem_cons.mp hmem
      · exact .inr (State.stoppedFor_raiseFault (f := { f with crew := some n }) hcls hsev hevent rfl s)
      · exact .inl hr
    · exact .inr (State.stoppedFor_raiseFault_of hstopped _)

/-! ### LINK-DOWN (R210) -/

/-- A flit of the TIMED queue that is discarded: it is never acknowledged. -/
def Flit.lostFlit (f : Flit) : Unacked :=
  { bulk := false, crew := f.crew.getD 0, core := f.core, unit := f.unit, dst := f.dst, msg := f.msg, cmd := f.cmd
    accept := f.accept, launched := 0, isAdd := decide (f.cls = 1), lost := true }

/-- What LINK-DOWN makes of a link: its replay buffer and TIMED queue are discarded, and no exchange is in progress. -/
def Link.discarded (k : Link) : Link :=
  { k with
    unacked := k.unacked ++ (k.timedQ.filter fun f => decide (f.cls ≤ 1)).map Flit.lostFlit
    replay := [], timedQ := [], degSent := false, degRecv := false, restripeDue := false, restriped := false
    reconciled := false, retrained := none, idleFrom := none }

/-- The state in which LNK_STAT says that a link is down. -/
def State.downShown (s : State) (l : Nat) : State :=
  ((s.setFld F.LNK_STAT_state (lnk48 l) 0).raiseBit F.LNK_STAT_down_hist (lnk48 l)).dropBit F.LNK_STAT_frozen (lnk48 l)

/-- The state in which a link has stopped, before the crews allocated it stop. -/
def State.linkStopped (s : State) (l : Nat) : State :=
  ((s.downShown l).modLink l Link.discarded).trigger { cls := 2, body := [], loc := l }

/-- The fault of a link that is down, which names no crew yet. -/
def State.downFault (s : State) (l : Nat) : Fault0 :=
  { s.fault0 8 2 0x0801 with space := 5, die := dieOfLink l, loc := l, detail := l }

theorem State.linkDown_eq (hdown : s.linkState l ≠ 0) (hidle : s.linkState l ≠ 5) : s.linkDown l =
    (s.linkStopped l).each ((s.linkStopped l).crewList.filter ((s.linkStopped l).onLink l)) fun u n =>
      u.raiseFault { (s.linkStopped l).downFault l with crew := some n } := by
  rw [State.linkDown, if_neg (not_or.mpr ⟨hdown, hidle⟩)]
  refine ite_eq_right_iff.mpr fun hnone => ?_
  rw [hnone]
  rfl

theorem State.downShown_keeps (p : State → β) (hregs : ∀ s x, p (State.setRegs s x) = p s)
    (hconv : ∀ s x, p (State.setConv s x) = p s) (s : State) (l : Nat) : p (s.downShown l) = p s := by
  rw [State.downShown, State.dropBit_keeps _ p hregs, State.raiseBit_keeps _ p hregs hconv, State.setFld_keeps _ p hregs]

theorem State.fld_downShown (s : State) (l : Nat) : (s.downShown l).linkState l = 0
    ∧ (s.downShown l).fld F.LNK_STAT_down_hist (lnk48 l) = 1 ∧ (s.downShown l).linkFrozen l = false := by
  have hfrozen : (s.downShown l).fld F.LNK_STAT_frozen (lnk48 l) = 0 := by
    rw [State.downShown, State.fld_dropBit, State.fld_setFld_same _ _ _ _ (by decide)]
    rfl
  refine ⟨?_, ?_, by rw [State.linkFrozen, State.isSet, hfrozen]; rfl⟩
  · show (s.downShown l).fld F.LNK_STAT_state (lnk48 l) = 0
    rw [State.downShown, State.fld_dropBit,
      State.fld_setFld_other (f := F.LNK_STAT_frozen) (g := F.LNK_STAT_state) _ rfl (by decide) (by decide) (by decide),
      State.fld_raiseBit,
      State.fld_setFld_other (f := F.LNK_STAT_down_hist) (g := F.LNK_STAT_state) _ rfl (by decide) (by decide) (by decide),
      State.fld_setFld_same _ _ _ _ (by decide)]
    rfl
  · rw [State.downShown, State.fld_dropBit,
      State.fld_setFld_other (f := F.LNK_STAT_frozen) (g := F.LNK_STAT_down_hist) _ rfl (by decide) (by decide) (by decide),
      State.fld_raiseBit_same _ _ _ (by decide)]

theorem State.allotted_downShown {n : Nat} (hn : n < 16) (s : State) : (s.downShown l).allotted l n = s.allotted l n := by
  rw [State.downShown, State.dropBit, State.allotted_setFld (f := F.LNK_STAT_frozen) rfl hn, State.raiseBit,
    State.allotted_congr (State.noteNf6_regs _ _ _) ?_, State.allotted_setFld (f := F.LNK_STAT_down_hist) rfl hn,
    State.allotted_setFld (f := F.LNK_STAT_state) rfl hn]
  rw [State.noteNf6_keeps _ (fun u => (u.link l).shares) (fun _ _ => rfl)]

theorem State.link_downShown (s : State) (l m : Nat) : (s.downShown l).link m = s.link m :=
  s.downShown_keeps (·.link m) (fun _ _ => rfl) (fun _ _ => rfl) l

theorem State.link_linkStopped (s : State) (l : Nat) : (s.linkStopped l).link l = (s.link l).discarded := by
  rw [State.linkStopped, State.trigger_keeps _ (·.link l) (fun _ _ => rfl), State.link_modLink_same, State.link_downShown]

theorem State.regs_linkStopped (s : State) (l : Nat) : (s.linkStopped l).regs = (s.downShown l).regs := by
  rw [State.linkStopped, State.trigger_keeps _ State.regs (fun _ _ => rfl), State.modLink_keeps _ State.regs (fun _ _ => rfl)]

/-- A crew allocated the link is among those that LINK-DOWN stops. -/
theorem State.mem_onLink_linkStopped {n : Nat} (hn : n < 16) (hvalid : s.crewValid n = true) (hon : s.onLink l n = true) :
    n ∈ (s.linkStopped l).crewList.filter ((s.linkStopped l).onLink l) := by
  have hshares : ((s.linkStopped l).link l).shares = ((s.downShown l).link l).shares := by
    rw [State.link_linkStopped, State.link_downShown]
    rfl
  have hallotted : (s.linkStopped l).allotted l n = true := by
    rw [State.allotted_congr (s.regs_linkStopped l) hshares, State.allotted_downShown hn, State.allotted, hvalid, hon]
    rfl
  obtain ⟨hvalid', hon'⟩ := Bool.and_eq_true_iff.mp hallotted
  exact List.mem_filter.mpr ⟨(State.mem_crewList _).mpr ⟨hn, hvalid'⟩, hon'⟩

/-- What the statement says of a link that is down, and of the crews allocated it. -/
def State.isDown (s : State) (l : Nat) (t : State) : Prop :=
  t.linkState l = 0 ∧ t.fld F.LNK_STAT_down_hist (lnk48 l) = 1 ∧ t.linkFrozen l = false ∧ (t.link l).replay = []
    ∧ (t.link l).timedQ = [] ∧ (t.link l).bulkQ = (s.link l).bulkQ
    ∧ ∀ n, n < 16 → s.crewValid n = true → s.onLink l n = true → t.stoppedFor 8 0x0801 n

theorem State.linkDown_effect (hidle : s.linkState l ≠ 5) :
    (s.linkDown l).jobData = s.jobData ∧ (s.linkState l ≠ 0 → s.isDown l (s.linkDown l)) := by
  by_cases hdown : s.linkState l = 0
  · rw [State.linkDown, if_pos (.inl hdown)]
    exact ⟨rfl, absurd hdown⟩
  have hstays {β : Type} (p : State → β) (hp : ∀ (u : State) (f : Fault0), p (u.raiseFault f) = p u) :
      p (s.linkDown l) = p (s.linkStopped l) := by
    rw [State.linkDown_eq hdown hidle]
    exact State.each_keeps _ p _ _ fun u n => hp u _
  have hregs : (s.linkDown l).regs = (s.downShown l).regs :=
    (hstays State.regs fun u f => u.raiseFault_regs f).trans (s.regs_linkStopped l)
  have hlink : (s.linkDown l).link l = (s.link l).discarded :=
    (hstays (·.link l) fun u f => u.raiseFault_keeps (·.link l) (fun _ _ => rfl) (fun _ _ => rfl) (fun _ _ => rfl) f).trans
      (s.link_linkStopped l)
  obtain ⟨hstate, hhist, hfrozen⟩ := s.fld_downShown l
  have hview := State.LinkView.jobData
  refine ⟨?_, fun _ => ⟨?_, ?_, ?_, ?_, ?_, ?_, fun n hn hvalid hon => ?_⟩⟩
  · rw [hstays State.jobData hview.raiseFault, State.linkStopped, hview.trigger, hview.modLink]
    exact s.downShown_keeps State.jobData (fun _ _ => rfl) (fun _ _ => rfl) l
  · rw [State.linkState, State.fld_congr hregs]
    exact hstate
  · rw [State.fld_congr hregs, hhist]
  · rw [State.linkFrozen, State.isSet, State.fld_congr hregs]
    exact hfrozen
  · rw [hlink]
    rfl
  · rw [hlink]
    rfl
  · rw [hlink]
    rfl
  · rw [State.linkDown_eq hdown hidle]
    exact State.stoppedFor_each rfl rfl rfl _ _ (.inl (State.mem_onLink_linkStopped hn hvalid hon))

theorem execLinkSilenceTimeout_silent {x : Nat} (hup : s.linkUp l = true) (hawake : s.inEasy = false)
    (hsilent : (s.link l).lastLinkRx + 10000 ≤ (s.advance x).raw) :
    execLinkSilenceTimeout l x s = .next ((s.advance x).linkDown l) := by
  have hup' : (s.advance x).linkUp l = true := hup
  have hawake' : (s.advance x).inEasy = false := hawake
  have hsilent' : ((s.advance x).link l).lastLinkRx + 10000 ≤ (s.advance x).raw := hsilent
  simp only [execLinkSilenceTimeout, hup', hawake', hsilent', decide_true, Bool.not_false, Bool.and_self, if_true]

theorem State.linkState_of_up (hup : s.linkUp l = true) : s.linkState l ≠ 5 := by
  intro h
  rw [State.linkUp, h] at hup
  exact absurd hup (by decide)

/-! ### LINK_RETRAIN (R211) -/

/-- The state in which LNK_STAT will show the result of training. -/
def State.trained (s : State) (l : Nat) (ok : Bool) : State := s.modLink l fun k => { k with retrained := some ok }

/-- A link that a rig set to train starts with both lanes and from sequence number 0. -/
def Link.rejoined (k : Link) : Link :=
  { k with usable := [true, true], reconciled := false, txSeq := 0, rxSeq := 0, replay := [] }

theorem execLinkRetrain_out (ok : Bool) (hdrive : s.stk.drive = false) (hstate : s.linkState l = 0 ∨ s.linkState l = 3) :
    execLinkRetrain l ok s = .next (if ok then (s.trained l ok).sendSync l else s.trained l ok) := by
  have hone : s.linkState l ≠ 1 := by omega
  have htwo : s.linkState l ≠ 2 := by omega
  have hfour : s.linkState l ≠ 4 := by omega
  have hfive : s.linkState l ≠ 5 := by omega
  cases ok <;>
    simp only [execLinkRetrain, hdrive, hone, htwo, hfour, hfive, decide_false, Bool.or_self, Bool.false_eq_true, if_false, if_true,
      false_and, Bool.not_false, Bool.not_true, State.trained]

theorem execLinkRetrain_rejoin (hdrive : s.stk.drive = false) (hstate : s.linkState l = 1) (hrejoin : (s.link l).rejoin = true) :
    execLinkRetrain l true s = .next (((s.trained l true).modLink l Link.rejoined).sendSync l) := by
  have hrejoin' : ((s.trained l true).link l).rejoin = true := by
    rw [State.trained, State.link_modLink_same]
    exact hrejoin
  unfold State.trained at hrejoin' ⊢
  simp only [execLinkRetrain, hdrive, hstate, hrejoin', Nat.reduceEqDiff, decide_false, Bool.or_self, Bool.false_eq_true, if_false,
    if_true, and_self, Bool.not_true]
  rfl

end Sys2Proof.Machine

namespace Sys2Proof.Proofs
open Sys2Proof.Machine

/-- Settles O30: LNK_STAT's fields are set apart from each other; LINK-DOWN raises one fault for each crew allocated the link,
and no later fault lets a stopped crew go; no lane or training command touches memory, tallies or cores. The event code of the
LINK-DEGRADE record is assumption log 16. -/
theorem laneChangesAndLinkDown : Obligations.LaneChangesAndLinkDown := by
  intro s l _ k same down
  have hsame : ∀ {t : State}, t.jobData = s.jobData → same t := State.jobData_parts
  have hdown : ∀ {t : State}, (s.linkState l ≠ 0 → s.isDown l t) → down t := fun h hup => h hup
  refine ⟨fun lane hlane hstate husable => ⟨?unusable, ?degrade⟩,
    fun hstate hsent => ⟨?ack, fun hdrive hdue hfirst => ?restripe⟩, fun hidle => ?down, fun x hup hawake hsilent => ?silence,
    fun ok hdrive => ⟨fun hstate => ?out, fun hstate hrejoin hok => ?rejoin⟩⟩
  case unusable =>
    have hjob : (s.ucwWindow l).jobData = s.jobData := s.ucwWindow_keeps State.jobData (fun _ _ => rfl) (fun _ _ => rfl) l
    have husable' : ((s.ucwWindow l).link l).usable = [true, true] :=
      (State.link_ucwWindow_part Link.usable (fun _ _ => rfl) s l).trans husable
    have hlost := State.laneLost_of_two hlane ((s.linkState_ucwWindow l).trans hstate) husable'
    obtain ⟨hfour, hfrozen, hgood⟩ := (s.ucwWindow l).frozenOn_laneOffered l lane
    obtain ⟨hsent, hreceived, hreplay⟩ := (s.ucwWindow l).link_laneOffered l lane
    refine ⟨_, (execLaneUnusable_fecLock hlane).trans (congrArg _ hlost),
      hsame ((State.jobData_laneOffered _ _ _).trans hjob), hfour, hfrozen, hgood, ?_, ?_, ?_, ?_, ?_⟩
    · exact hsent
    · exact hreceived
    · rw [State.out_laneOffered, State.ucwWindow_keeps State.out (fun _ _ => rfl) (fun _ _ => rfl)]
    · exact State.records_congr (s.ucwWindow_keeps State.flt (fun _ _ => rfl) (fun _ _ => rfl) l) (State.records_laneOffered _ _ _)
    · exact hreplay.trans (State.link_ucwWindow_part Link.replay (fun _ _ => rfl) s l)
  case degrade =>
    obtain ⟨hfour, hfrozen, hgood⟩ := s.frozenOn_laneAnswered l lane
    obtain ⟨hsent, hreceived, hreplay⟩ := s.link_laneAnswered l lane
    exact ⟨_, execLaneDegrade_of_two hlane hstate husable, hsame (s.jobData_laneAnswered l lane), hfour, hfrozen, hgood, hsent,
      hreceived, s.out_laneAnswered l lane, s.records_laneAnswered l lane, hreplay⟩
  case ack =>
    refine ⟨_, execLaneAck_offered hstate hsent, hsame (State.LinkView.jobData.modLink _ _ _), ?_,
      State.regsBut_of_regs_eq (s.modLink_keeps State.regs (fun _ _ => rfl) _ _) []⟩
    rw [State.link_modLink_same]
  case restripe => exact State.restripe_effect hstate hdrive hdue hfirst
  case down =>
    obtain ⟨hjob, hshown⟩ := State.linkDown_effect hidle
    exact ⟨_, rfl, hsame hjob, hdown hshown⟩
  case silence =>
    obtain ⟨hjob, hshown⟩ := State.linkDown_effect (s := s.advance x) (State.linkState_of_up hup)
    exact ⟨_, execLinkSilenceTimeout_silent hup hawake hsilent, hsame hjob, hdown hshown⟩
  case out =>
    refine ⟨_, execLinkRetrain_out ok hdrive hstate, ?_⟩
    have hjob : (s.trained l ok).jobData = s.jobData := State.LinkView.jobData.modLink _ _ _
    have hlink : (s.trained l ok).link l = { s.link l with retrained := some ok } := s.link_modLink_same l _
    have hregs : (s.trained l ok).regs = s.regs := s.modLink_keeps State.regs (fun _ _ => rfl) _ _
    obtain ⟨hjob', hregs', ⟨c, hout⟩, -, hshown, -⟩ := (s.trained l ok).sendSync_effect l
    rw [hlink] at hshown hout
    split
    · refine ⟨hsame (hjob'.trans hjob), State.fld_congr (hregs'.trans hregs) _ _, hshown, fun _ => ⟨c, ?_⟩⟩
      exact hout.trans (congrArg (· ++ _) (s.modLink_keeps State.out (fun _ _ => rfl) _ _))
    · next hfailed => exact ⟨hsame hjob, State.fld_congr hregs _ _, by rw [hlink], fun h => absurd h hfailed⟩
  case rejoin =>
    obtain ⟨hjob, -, ⟨c, hout⟩, -, -, husable, htx, hrx⟩ := ((s.trained l true).modLink l Link.rejoined).sendSync_effect l
    rw [State.link_modLink_same] at husable htx hrx hout
    rw [show (Link.rejoined ((s.trained l true).link l)).rxSeq = 0 from rfl, Nat.zero_add] at hout
    refine ⟨_, c, execLinkRetrain_rejoin hdrive hstate hrejoin, hsame (hjob.trans ?_), husable, htx, hrx, hout.trans ?_⟩
    · exact (State.LinkView.jobData.modLink _ _ _).trans (State.LinkView.jobData.modLink _ _ _)
    · refine congrArg (· ++ _) ?_
      exact (State.modLink_keeps _ State.out (fun _ _ => rfl) _ _).trans (s.modLink_keeps State.out (fun _ _ => rfl) _ _)

end Sys2Proof.Proofs
end

section
/-!
PROOFS. Flits checked and delivered (O31): 08 R190, R195, R205, R207; 03 R87.
-/
namespace Sys2Proof.Machine

variable {s t : State} {l n : Nat} {β : Type}

/-! ### What the receive checks read (R205) -/

/-- What the receive checks read of a state for a flit of a crew and job tag. -/
def State.checkData (s : State) (n tag : Nat) :=
  (s.fld F.LNK_SELF_valid [], s.fld F.LNK_SELF_package [], s.crewOfTag tag, s.deaf n, s.timed n, s.crews, s.stk)

/-- A register that stands once for each crew lies below the event counters. -/
theorem addr_crew_low {r : RegDef} {k : Nat} (hdims : r.dims = [(16, k)]) (hlow : r.base + 16 * k ≤ R.PMC_OVF_IOD.base) (hk : 0 < k)
    (hn : n < 16) : r.addr [n] < R.PMC_OVF_IOD.base := by
  have haddr : r.addr [n] = r.base + k * n := by rw [RegDef.addr, hdims]; rfl
  have hmul : k * n < k * 16 := Nat.mul_lt_mul_of_pos_left hn hk
  rw [haddr]
  omega

theorem State.crewOfTag_congr (h : s.lowRegsKept t) (tag : Nat) : t.crewOfTag tag = s.crewOfTag tag := by
  have htag : ∀ m ∈ s.crewList, decide (t.fld F.LNK_CREW_job_tag [m] = tag) = decide (s.fld F.LNK_CREW_job_tag [m] = tag) :=
    fun m hm => by
      rw [h.fld (f := F.LNK_CREW_job_tag) (addr_crew_low (k := 8) rfl (by decide) (by decide) (s.mem_crewList.mp hm).1)]
  rw [State.crewOfTag, h.crewList, List.filter_congr htag, State.crewOfTag]

theorem State.checkData_congr (h : s.lowRegsKept t) (hcrews : t.crews = s.crews) (hstk : t.stk = s.stk) (hpow : t.pow = s.pow)
    (hn : n < 16) (tag : Nat) : t.checkData n tag = s.checkData n tag := by
  have hcrew : t.crew n = s.crew n := by rw [State.crew, hcrews, State.crew]
  have hrcv : t.rcvState n = s.rcvState n :=
    h.fld (f := F.GLB_RCV_state) (addr_crew_low (k := 4) rfl (by decide) (by decide) hn)
  have hhealth : t.isSet F.GLB_HEALTH_drained [] = s.isSet F.GLB_HEALTH_drained [] :=
    congrArg (fun x => decide (x = 1)) (h.fld (f := F.GLB_HEALTH_drained) (ix := []) (by decide))
  have hhalted : t.halted n = s.halted n := by
    rw [State.halted, State.stopDue, hrcv, hcrew, hstk]
    rfl
  have hdeaf : t.deaf n = s.deaf n := by
    rw [State.deaf, State.stalled, State.emptyStroke, State.frozen, hhealth, hhalted, hpow, hstk, hcrew]
    rfl
  have htimed : t.timed n = s.timed n :=
    congrArg (fun x => decide (x = 1))
      (h.fld (f := F.STK_CREW_timed) (addr_crew_low (k := 4) rfl (by decide) (by decide) hn))
  rw [State.checkData, h.fld (f := F.LNK_SELF_valid) (ix := []) (by decide), h.fld (f := F.LNK_SELF_package) (ix := []) (by decide),
    State.crewOfTag_congr h, hdeaf, htimed, hcrews, hstk, State.checkData]

theorem State.crewOfTag_lt {tag : Nat} (h : s.crewOfTag tag = some n) : n < 16 := by
  rw [State.crewOfTag] at h
  split at h
  · exact absurd h (Option.some_ne_none n).symm
  · exact (s.mem_crewList.mp (List.mem_of_mem_filter (List.mem_of_mem_head? h))).1

/-! ### A flit lands (R195, R205) -/

/-- The state in which a numbered flit has been counted and taken in its order. -/
def State.flitCounted (s : State) (l : Nat) : State :=
  ((s.count R.LNK_BYTES_RX_LO (lnk48 l) 128).pmcDie (l / 48) 0x4B (some (l % 48))).modLink l fun k => { k with
    rxSeq := (k.rxSeq + 1) % 4096, retryOut := false, sinceLink := k.sinceLink + 1 }

theorem State.flitCounted_keeps (p : State → β) (hregs : ∀ s x, p (State.setRegs s x) = p s)
    (hpmc : ∀ s x, p (State.setPmc s x) = p s) (hlinks : ∀ s x, p (State.setLinks s x) = p s) (s : State) (l : Nat) :
    p (s.flitCounted l) = p s :=
  (hlinks _ _).trans ((State.pmcDie_keeps _ p hregs hpmc _ _ _).trans (hpmc _ _))

theorem State.link_flitCounted (s : State) (l : Nat) : (s.flitCounted l).link l =
    { s.link l with rxSeq := ((s.link l).rxSeq + 1) % 4096, retryOut := false, sinceLink := (s.link l).sinceLink + 1 } := by
  rw [State.flitCounted, State.link_modLink_same, State.pmcDie_keeps _ (·.link l) (fun _ _ => rfl) (fun _ _ => rfl),
    State.count_keeps _ (·.link l) (fun _ _ => rfl)]

/-- The overflow bits of an event counter are the only registers that counting a flit may change. -/
theorem State.lowRegsKept_flitCounted (s : State) (l : Nat) : s.lowRegsKept (s.flitCounted l) := fun r ix hlow => by
  have hover : r.addr ix ≠ R.PMC_OVF_IOD.addr [l / 48] := by
    have haddr : R.PMC_OVF_IOD.addr [l / 48] = R.PMC_OVF_IOD.base + 0x800000 * (l / 48) := rfl
    omega
  rw [State.flitCounted, State.modLink_keeps _ (·.reg r ix) (fun _ _ => rfl)]
  exact (State.reg_pmcTick_ne _ hover _ _ _).trans (State.count_keeps s (·.reg r ix) (fun _ _ => rfl) _ _ _)

/-- The state in which a flit in order has also been offered to the capture channels. -/
def State.flitTaken (s : State) (l cls : Nat) : State := (s.flitCounted l).noteCapture 8 l cls (dieOfLink l)

theorem State.flitTaken_keeps (p : State → β) (hregs : ∀ s x, p (State.setRegs s x) = p s)
    (hpmc : ∀ s x, p (State.setPmc s x) = p s) (hlinks : ∀ s x, p (State.setLinks s x) = p s)
    (htim : ∀ s x, p (State.setTim s x) = p s) (s : State) (l cls : Nat) : p (s.flitTaken l cls) = p s :=
  (State.noteCapture_keeps _ p htim _ _ _ _).trans (s.flitCounted_keeps p hregs hpmc hlinks l)

theorem State.link_flitTaken (s : State) (l cls : Nat) : (s.flitTaken l cls).link l = (s.flitCounted l).link l :=
  State.noteCapture_keeps _ (·.link l) (fun _ _ => rfl) _ _ _ _

theorem State.lowRegsKept_flitTaken (s : State) (l cls : Nat) : s.lowRegsKept (s.flitTaken l cls) := fun r ix hlow =>
  (State.noteCapture_keeps _ (·.reg r ix) (fun _ _ => rfl) _ _ _ _).trans (s.lowRegsKept_flitCounted l r ix hlow)

theorem State.checkData_flitTaken (hn : n < 16) (s : State) (l cls tag : Nat) :
    (s.flitTaken l cls).checkData n tag = s.checkData n tag := by
  obtain ⟨hcrews, hrest⟩ := Prod.mk.inj <| s.flitTaken_keeps (fun u => (u.crews, u.stk, u.pow)) (fun _ _ => rfl) (fun _ _ => rfl)
    (fun _ _ => rfl) (fun _ _ => rfl) l cls
  obtain ⟨hstk, hpow⟩ := Prod.mk.inj hrest
  exact State.checkData_congr (s.lowRegsKept_flitTaken l cls) hcrews hstk hpow hn tag

/-- The state in which a flit is held for its crew. -/
def State.holdFlit (s : State) (l : Nat) (g : Flit) : State := s.modLink l fun k => { k with rxHeld := k.rxHeld ++ [g] }

/-- The header of a flit, as a number. -/
def headerOf (flit : Bytes) : Nat := field flit 0 8

/-- The 112 bytes between header and codes. -/
def bodyOf (flit : Bytes) : Bytes := (flit.drop 8).take 112

/-- The checks 2 to 8 of R205 that a flit for a crew of this package passes. -/
structure State.Passes (s : State) (n : Nat) (flit : Bytes) : Prop where
  cls : bits (headerOf flit) 14 12 ≤ 1
  vc : bits (headerOf flit) 63 62 ≤ 1
  mask : bits (headerOf flit) 15 15 = 1 ↔ field (bodyOf flit) 6 2 ≠ 0
  self : s.fld F.LNK_SELF_valid [] = 1
  dst : bits (headerOf flit) 45 28 = s.fld F.LNK_SELF_package []
  crew : s.crewOfTag (bits (headerOf flit) 61 46) = some n
  code : cmac4 (s.crew n).key (natLe 8 (headerOf flit - bits (headerOf flit) 27 16 * 2 ^ 16) ++ bodyOf flit) = (flit.drop 124).take 4
  hears : s.deaf n = false
  inTime : s.timed n = false ∨ s.drivePast (s.strokeOf (bits (headerOf flit) 11 4)) = false

theorem State.Passes.congr {flit : Bytes} (h : s.Passes n flit)
    (hsame : t.checkData n (bits (headerOf flit) 61 46) = s.checkData n (bits (headerOf flit) 61 46)) : t.Passes n flit := by
  simp only [State.checkData, Prod.mk.injEq] at hsame
  obtain ⟨hvalid, hpackage, htag, hdeaf, htimed, hcrews, hstk⟩ := hsame
  have hcrew : t.crew n = s.crew n := by rw [State.crew, hcrews, State.crew]
  have hpast : t.drivePast (t.strokeOf (bits (headerOf flit) 11 4)) = s.drivePast (s.strokeOf (bits (headerOf flit) 11 4)) := by
    rw [State.drivePast, State.strokeOf, hstk, State.drivePast, State.strokeOf]
  exact ⟨h.cls, h.vc, h.mask, hvalid.trans h.self, h.dst.trans hpackage.symm, htag.trans h.crew, hcrew ▸ h.code,
    hdeaf.trans h.hears, by rw [htimed, hpast]; exact h.inTime⟩

/-- A flit of a crew as it is held: its body, and what its header says. -/
def State.heldFlit (s : State) (n : Nat) (flit : Bytes) : Flit :=
  { body := .data (bodyOf flit)
    vc := vcOf (bits (headerOf flit) 63 62)
    cls := bits (headerOf flit) 14 12
    crew := some n
    job := bits (headerOf flit) 61 46
    dst := bits (headerOf flit) 45 28
    poison := decide (bits (headerOf flit) 15 15 = 1)
    last := decide (bits (headerOf flit) 3 3 = 1)
    stroke := (s.strokeOf (bits (headerOf flit) 11 4)).toNat }

theorem State.Passes.receiveChecked {flit : Bytes} (h : s.Passes n flit) (l : Nat) :
    s.receiveChecked l flit = s.holdFlit l (s.heldFlit n flit) := by
  obtain ⟨hcls, hvc, hmask, hself, hdst, hcrew, hcode, hears, htime⟩ := h
  unfold headerOf at hcls hvc hmask hdst hcrew hcode htime
  unfold bodyOf at hmask hcode
  have hfits : classFits (bits (field flit 0 8) 14 12) (bits (field flit 0 8) 63 62) = true := by
    rw [classFits, if_pos (by omega), decide_eq_true hvc]
  have hposted : ¬ (bits (field flit 0 8) 14 12 = 4 ∨ bits (field flit 0 8) 14 12 = 5) := by omega
  have hmgmt : bits (field flit 0 8) 14 12 ≠ 6 := by omega
  have hheader : ¬ (bits (field flit 0 8) 14 12 = 2 ∨ bits (field flit 0 8) 14 12 = 3) := by omega
  have hmask' : (decide (bits (field flit 0 8) 15 15 = 1) != decide (field ((flit.drop 8).take 112) 6 2 ≠ 0)) = false := by
    rw [decide_eq_decide.mpr hmask, bne_self_eq_false]
  have hlate : (s.timed n && s.drivePast (s.strokeOf (bits (field flit 0 8) 11 4))) = false := by
    obtain h | h := htime <;> rw [h]
    · rw [Bool.false_and]
    · rw [Bool.and_false]
  unfold State.receiveChecked State.holdFlit State.heldFlit bodyOf headerOf
  simp only [if_neg hposted, hfits, hmask', Bool.not_true, Bool.or_self, Bool.and_false, Bool.false_eq_true, if_false, hself,
    hdst, ne_eq, not_true_eq_false, or_self, one_ne_zero, hcrew, reduceCtorEq, and_false, if_neg hmgmt, hcode, false_and, hears,
    hlate, if_neg hheader]

/-! ### FLIT_RECEIVE (R195, R205) -/

section
variable {flit : Bytes} (hup : 2 ≤ s.linkState l) (hidle : s.linkState l ≠ 5) (hlen : flit.length = 128)
  (hcls : bits (headerOf flit) 14 12 ≤ 1)
include hup hidle hlen hcls

/-- A numbered flit whose CRC fails is answered by a RETRY. -/
theorem execFlitReceive_badCrc (hcrc : leNat ((flit.drop 120).take 4) ≠ (crc32 (flit.take 120)).toNat) :
    execFlitReceive l none flit s = .next (s.sendRetry l) := by
  unfold headerOf at hcls
  have hout : ¬ (s.linkState l < 2 ∨ s.linkState l = 5) := by omega
  have hfour : bits (field flit 0 8) 14 12 ≠ 4 := by omega
  have hfive : bits (field flit 0 8) 14 12 ≠ 5 := by omega
  simp only [execFlitReceive, if_neg hout, hlen, hcrc, hfour, hfive, Option.isSome_none, ne_eq, not_true_eq_false, not_false_eq_true,
    decide_false, decide_true, Bool.or_true, Bool.and_self, if_true]

/-- The state in which a flit is held and, after 64 of them, the acknowledgement has gone. -/
def State.flitHeld (s : State) (l cls : Nat) (g : Flit) : State :=
  if 64 ≤ (((s.flitTaken l cls).holdFlit l g).link l).sinceLink then ((s.flitTaken l cls).holdFlit l g).sendLink l
  else (s.flitTaken l cls).holdFlit l g

/-- A flit in order that passes every check is held. -/
theorem execFlitReceive_passes (hcrc : leNat ((flit.drop 120).take 4) = (crc32 (flit.take 120)).toNat)
    (hseq : bits (headerOf flit) 27 16 = (s.link l).rxSeq)
    (hpasses : (s.flitTaken l (bits (headerOf flit) 14 12)).Passes n flit) : execFlitReceive l none flit s =
      .next (s.flitHeld l (bits (headerOf flit) 14 12) ((s.flitTaken l (bits (headerOf flit) 14 12)).heldFlit n flit)) := by
  have hchecked := hpasses.receiveChecked l
  unfold State.flitHeld
  rw [← hchecked]
  unfold State.flitTaken State.flitCounted headerOf at *
  have hout : ¬ (s.linkState l < 2 ∨ s.linkState l = 5) := by omega
  have hfour : bits (field flit 0 8) 14 12 ≠ 4 := by omega
  have hfive : bits (field flit 0 8) 14 12 ≠ 5 := by omega
  simp only [execFlitReceive, if_neg hout, hlen, hcrc, hfour, hfive, hseq, Option.isSome_none, ne_eq, not_true_eq_false,
    not_false_eq_true, decide_false, decide_true, Bool.or_self, Bool.and_self, Bool.and_false, Bool.false_eq_true, if_false, if_true,
    false_and]

end

theorem State.flitHeld_keeps (p : State → β) (hregs : ∀ s x, p (State.setRegs s x) = p s)
    (hpmc : ∀ s x, p (State.setPmc s x) = p s) (hlinks : ∀ s x, p (State.setLinks s x) = p s)
    (htim : ∀ s x, p (State.setTim s x) = p s) (hout : ∀ s x, p (State.setOut s x) = p s) (s : State) (l cls : Nat) (g : Flit) :
    p (s.flitHeld l cls g) = p s := by
  have hheld : p ((s.flitTaken l cls).holdFlit l g) = p s :=
    (State.modLink_keeps _ p hlinks _ _).trans (s.flitTaken_keeps p hregs hpmc hlinks htim l cls)
  unfold State.flitHeld
  split
  · rw [State.sendLink_eq]
    exact (State.tell_keeps _ p hlinks hpmc hout _ _ _).trans hheld
  · exact hheld

/-- The flit stands last among those held, and the number expected has moved on. -/
theorem State.link_flitHeld (s : State) (l cls : Nat) (g : Flit) :
    ((s.flitHeld l cls g).link l).rxHeld = (s.link l).rxHeld ++ [g]
      ∧ ((s.flitHeld l cls g).link l).rxSeq = ((s.link l).rxSeq + 1) % 4096 := by
  have hlink : ((s.flitTaken l cls).holdFlit l g).link l =
      { (s.flitCounted l).link l with rxHeld := ((s.flitCounted l).link l).rxHeld ++ [g] } := by
    rw [State.holdFlit, State.link_modLink_same, State.link_flitTaken]
  have hshown : (((s.flitTaken l cls).holdFlit l g).link l).rxHeld = (s.link l).rxHeld ++ [g]
      ∧ (((s.flitTaken l cls).holdFlit l g).link l).rxSeq = ((s.link l).rxSeq + 1) % 4096 := by
    rw [hlink, State.link_flitCounted]
    exact ⟨rfl, rfl⟩
  unfold State.flitHeld
  split
  · rw [State.sendLink_eq, State.link_tell]
    exact hshown
  · exact hshown

/-! ### FLIT_DELIVER (R207) -/

theorem firstFlit_single {ok : Flit → Bool} {f : Flit} (h : ok f = true) : firstFlit ok [] [f] = some (f, []) := by
  rw [firstFlit, h]
  rfl

/-- Only a window write to HBM waits for an ordering buffer. -/
theorem State.bufferFull_of_core {f : Flit} {b : Bytes} (hbody : f.body = .data b) (h : f.cls = 1 ∨ field b 0 5 / 2 ^ 39 = 0) :
    s.bufferFull f = false := by
  rw [State.bufferFull, hbody]
  dsimp only
  obtain h | h := h
  · rw [h]
    rfl
  · rw [h]
    simp

/-- The state in which a flit has left the queue and its slot. -/
def State.flitLeft (s : State) (l n : Nat) (f : Flit) : State :=
  (s.modLink l fun k => { k with rxHeld := [] }).leaveSlot l n f.vc f.slot

theorem State.flitLeft_keeps (p : State → β) (hlinks : ∀ s x, p (State.setLinks s x) = p s) (s : State) (l n : Nat) (f : Flit) :
    p (s.flitLeft l n f) = p s :=
  (State.leaveSlot_keeps _ p hlinks l n f.vc f.slot).trans (hlinks _ _)

/-- What becomes of a message after the delivery of one of its flits: it is forgotten, lost or acknowledged. -/
def State.messageSettled (s : State) (l n : Nat) (f : Flit) (b : Bytes) (ok : Bool) : State :=
  let u := if !ok || f.last then s.loseFlit l n f.cls f.vc f.last b else s
  if (ok && !(s.link l).badMsgs.elem (n, msgKey b)) && f.last && decide (f.vc = .bulk) then
    u.queueAck l n (field b 8 3 % 2 ^ 18) (field b 14 1) (field b 12 2)
  else u

theorem State.queueAck_keeps (p : State → β) (hlinks : ∀ s x, p (State.setLinks s x) = p s) (s : State)
    (l n dst srcLink msg : Nat) : p (s.queueAck l n dst srcLink msg) = p s := hlinks _ _

theorem State.messageSettled_keeps (p : State → β) (hlinks : ∀ s x, p (State.setLinks s x) = p s) (s : State) (l n : Nat)
    (f : Flit) (b : Bytes) (ok : Bool) : p (s.messageSettled l n f b ok) = p s := by
  have hlost : p (if !ok || f.last then s.loseFlit l n f.cls f.vc f.last b else s) = p s := by
    split
    · exact State.loseFlit_keeps _ p hlinks _ _ _ _ _ _
    · rfl
  unfold State.messageSettled
  dsimp only
  split
  · exact (State.queueAck_keeps p hlinks _ _ _ _ _ _).trans hlost
  · exact hlost

/-- Slots and acknowledgements leave the flits held alone. -/
theorem State.rxHeld_leaveSlot (s : State) (l n : Nat) (vc : Vc) (slot : Bool) :
    ((s.leaveSlot l n vc slot).link l).rxHeld = (s.link l).rxHeld := by
  unfold State.leaveSlot State.freeSlot
  dsimp only
  split_ifs
  · rfl
  all_goals exact State.link_modLink_part Link.rxHeld fun _ => rfl

theorem State.rxHeld_messageSettled (s : State) (l n : Nat) (f : Flit) (b : Bytes) (ok : Bool) :
    ((s.messageSettled l n f b ok).link l).rxHeld = (s.link l).rxHeld := by
  have hlose : ∀ u : State, ((u.loseFlit l n f.cls f.vc f.last b).link l).rxHeld = (u.link l).rxHeld := fun u => by
    unfold State.loseFlit
    split
    · exact State.link_modLink_part Link.rxHeld fun _ => rfl
    · rfl
  have hack : ∀ (u : State) (dst src msg : Nat), ((u.queueAck l n dst src msg).link l).rxHeld = (u.link l).rxHeld :=
    fun u dst src msg => State.link_modLink_part Link.rxHeld fun k => by
      split
      · split
        · split <;> rfl
        · rfl
      · rfl
  have hlost : ((if !ok || f.last then s.loseFlit l n f.cls f.vc f.last b else s).link l).rxHeld = (s.link l).rxHeld := by
    split
    · exact hlose s
    · rfl
  unfold State.messageSettled
  dsimp only
  split
  · exact (hack _ _ _ _).trans hlost
  · exact hlost

theorem execFlitDeliver_one {f : Flit} {b : Bytes} (hheld : (s.link l).rxHeld = [f]) (hcrew : f.crew = some n)
    (hbody : f.body = .data b) (hworks : s.works n = true) (hfull : s.bufferFull f = false) :
    execFlitDeliver l s =
      .next (((s.flitLeft l n f).deliver l n f b).2.messageSettled l n f b ((s.flitLeft l n f).deliver l n f b).1) := by
  unfold execFlitDeliver
  rw [hheld, firstFlit_single (by simp only [hfull, hcrew, hworks, Bool.not_false, Bool.and_self])]
  simp only [hbody, hcrew]
  exact (apply_ite Host.Outcome.next _ _ _).symm

/-! ### What a flit delivers (R207; 03 R87) -/

/-- Without poison the bytes of a body are clean. -/
theorem unmasked_data {mask : Nat} (hmask : mask = 0) (b : Bytes) :
    (b.zipIdx.map fun p => (p.1, decide (bits mask (p.2 / 8) (p.2 / 8) = 1))) = clean b := by
  have hbit : ∀ i, decide (bits mask i i = 1) = false := fun i => by simp [hmask, bits]
  simp only [hbit]
  rw [clean]
  conv_rhs => rw [← List.zipIdx_map_fst 0 b]
  rw [List.map_map]
  rfl

section
variable {f : Flit} {b : Bytes} (hcount : 1 ≤ field b 5 1) (hfit : field b 5 1 ≤ 96) (hmask : field b 6 2 = 0)
include hcount hfit hmask

/-- A TALLY_ADD for a remote tally of the crew adds the value in its body. -/
theorem State.deliver_add (hcls : f.cls = 1) (hplain : s.fixed = false) (htally : s.tallyOf n (field b 0 5 % 2 ^ 14) = true)
    (hremote : (s.tally (field b 0 5 % 2 ^ 14)).remote = true) : s.deliver l n f b =
      (true, s.putTally (field b 0 5 % 2 ^ 14) ((s.tally (field b 0 5 % 2 ^ 14)).value
        + BitVec.ofNat 32 (leNat (((b.drop 16).take (field b 5 1)).take 4)))) := by
  have hsize : ¬ (field b 5 1 = 0 ∨ 96 < field b 5 1) := by omega
  have htake : plain ((clean ((b.drop 16).take (field b 5 1))).take 4) = ((b.drop 16).take (field b 5 1)).take 4 := by
    rw [clean, ← List.map_take]
    exact plain_clean _
  have hadds : (s.tallyOf n (field b 0 5 % 2 ^ 14) && (s.tally (field b 0 5 % 2 ^ 14)).remote) = true := by
    rw [htally, hremote]
    rfl
  unfold State.deliver
  extract_lets target count mask src core data drop tally base v
  have hdata : data = clean ((b.drop 16).take (field b 5 1)) := unmasked_data hmask _
  have hv : v = BitVec.ofNat 32 (leNat (((b.drop 16).take (field b 5 1)).take 4)) := by
    show BitVec.ofNat 32 (leNat (plain (data.take 4))) = _
    rw [hdata, htake]
  rw [if_neg hsize, if_pos hcls, if_neg (not_not_intro hmask), if_pos hadds, hplain, hv]
  rfl

/-- A WRITE to core store of the crew puts the bytes of its body there. -/
theorem State.deliver_write (hcls : f.cls = 0) (hcore : field b 0 5 / 2 ^ 39 = 0)
    (hcrew : s.crewOf (bits (field b 0 5) 29 22) = some n) (hend : bits (field b 0 5) 21 0 + field b 5 1 ≤ storeEnd) :
    s.deliver l n f b = (true, (s.nocIn (bits (field b 0 5) 29 22) (l / 48) (field b 5 1)).storeWrite (bits (field b 0 5) 29 22)
      (bits (field b 0 5) 21 0) (clean ((b.drop 16).take (field b 5 1)))) := by
  have hsize : ¬ (field b 5 1 = 0 ∨ 96 < field b 5 1) := by omega
  have hadd : ¬ f.cls = 1 := by omega
  unfold State.deliver
  extract_lets target count mask src core data drop tally base v c a
  have hdata : data = clean ((b.drop 16).take (field b 5 1)) := unmasked_data hmask _
  rw [if_neg hsize, if_neg hadd, if_pos hcore, if_pos ⟨hcrew, hend⟩, hdata]

end

theorem State.rxHeld_flitLeft (s : State) (l n : Nat) (f : Flit) : ((s.flitLeft l n f).link l).rxHeld = [] := by
  rw [State.flitLeft, State.rxHeld_leaveSlot, State.link_modLink_same]

theorem execFlitDeliver_add {f : Flit} {b : Bytes} (hheld : (s.link l).rxHeld = [f]) (hcrew : f.crew = some n)
    (hbody : f.body = .data b) (hworks : s.works n = true) (hcount : 1 ≤ field b 5 1) (hfit : field b 5 1 ≤ 96)
    (hmask : field b 6 2 = 0) (hcls : f.cls = 1) (hplain : s.fixed = false) {i : Nat} (hi : field b 0 5 % 2 ^ 14 = i)
    (htally : s.tallyOf n i = true) (hremote : (s.tally i).remote = true) :
    ∃ t, execFlitDeliver l s = .next t ∧ (t.link l).rxHeld = []
      ∧ (t.tally i).value = (s.tally i).value + BitVec.ofNat 32 (leNat (((b.drop 16).take (field b 5 1)).take 4))
      ∧ (∀ j, j ≠ i → t.tally j = s.tally j) ∧ s.sameMemory t := by
  subst hi
  have hu {β : Type} (p : State → β) (hp : ∀ s x, p (State.setLinks s x) = p s) : p (s.flitLeft l n f) = p s :=
    s.flitLeft_keeps p hp l n f
  have hdelivered := State.deliver_add (s := s.flitLeft l n f) (l := l) (n := n) hcount hfit hmask hcls
    ((hu State.fixed fun _ _ => rfl).trans hplain)
    ((hu (·.tallyOf n (field b 0 5 % 2 ^ 14)) fun _ _ => rfl).trans htally)
    ((hu (fun t => (t.tally (field b 0 5 % 2 ^ 14)).remote) fun _ _ => rfl).trans hremote)
  have hput {γ : Type} (p : State → γ) (hregs : ∀ s x, p (State.setRegs s x) = p s) (hcores : ∀ s x, p (State.setCores s x) = p s)
      (htallies : ∀ s x, p (State.setTallies s x) = p s) (v : Word) :
      p ((s.flitLeft l n f).putTally (field b 0 5 % 2 ^ 14) v) = p (s.flitLeft l n f) :=
    (State.CoreView.of_blind hregs hcores).putTally _ htallies _ v
  refine ⟨_, execFlitDeliver_one hheld hcrew hbody hworks (State.bufferFull_of_core hbody (.inl hcls)), ?_, ?_, fun j hj => ?_, ?_⟩
  all_goals rw [hdelivered]
  · rw [State.rxHeld_messageSettled, hput (fun t => (t.link l).rxHeld) (fun _ _ => rfl) (fun _ _ => rfl) (fun _ _ => rfl),
      State.rxHeld_flitLeft]
  · rw [State.messageSettled_keeps (fun t => (t.tally (field b 0 5 % 2 ^ 14)).value) (fun _ _ => rfl), State.value_putTally,
      hu (fun t => (t.tally (field b 0 5 % 2 ^ 14)).value) fun _ _ => rfl]
  · rw [State.messageSettled_keeps (·.tally j) (fun _ _ => rfl), State.tally_putTally_ne _ hj, hu (·.tally j) fun _ _ => rfl]
  · refine State.sameMemory_of_eq ?_
    rw [State.messageSettled_keeps State.memory (fun _ _ => rfl), hput State.memory (fun _ _ => rfl) (fun _ _ => rfl)
      (fun _ _ => rfl), hu State.memory fun _ _ => rfl]

/-- Clean bytes written to a clean core store stand there; nothing else of it, no other core, no memory, tally or link changes. -/
theorem State.storeWrite_effect {c a : Nat} (x : Bytes) (s : State) (hclean : ∀ i, s.wordSt c i = {}) :
    (s.storeWrite c a (clean x)).links = s.links ∧ (s.storeWrite c a (clean x)).memory = s.memory
      ∧ (s.storeWrite c a (clean x)).tallies = s.tallies
      ∧ (∀ j (hj : j < x.length), (s.storeWrite c a (clean x)).storeAt c (a + j) = x[j])
      ∧ (∀ i, i < a ∨ a + x.length ≤ i → (s.storeWrite c a (clean x)).storeAt c i = s.storeAt c i)
      ∧ ∀ d, d ≠ c → (s.storeWrite c a (clean x)).core d = s.core d := by
  have hlen : (clean x).length = x.length := List.length_map _
  have hwrites := State.storeWrite_overwrites (a := a) hclean (anyPoison_clean x)
  have hbeside := s.besideCore_storeWrite c a (clean x)
  obtain ⟨-, htallies, hcores⟩ := State.besideCore_frame hbeside
  refine ⟨hwrites.view (p := State.links) ⟨rfl, fun _ => rfl⟩, congrArg (fun y => y.1.1) hbeside, htallies, fun j hj => ?_,
    fun i hi => hwrites.out i (hlen.symm ▸ hi), hcores⟩
  rw [State.storeAt_storeWrite s (hlen.symm ▸ hj)]
  simp only [clean, List.getElem_map]

/-- The same of a flit that has left its queue, its bytes counted on their way from the I/O die. -/
theorem State.flitLeft_write_effect {c a : Nat} (x : Bytes) (f : Flit) (s : State) (hclean : ∀ i, s.wordSt c i = {}) {v : State}
    (hv : ((s.flitLeft l n f).nocIn c (l / 48) x.length).storeWrite c a (clean x) = v) :
    (v.link l).rxHeld = [] ∧ v.memory = s.memory ∧ v.tallies = s.tallies
      ∧ (∀ j (hj : j < x.length), v.storeAt c (a + j) = x[j])
      ∧ (∀ i, i < a ∨ a + x.length ≤ i → v.storeAt c i = s.storeAt c i) ∧ ∀ d, d ≠ c → v.core d = s.core d := by
  have hkept {β : Type} (p : State → β) (hlinks : ∀ s x, p (State.setLinks s x) = p s) (hpmc : ∀ s x, p (State.setPmc s x) = p s) :
      p ((s.flitLeft l n f).nocIn c (l / 48) x.length) = p s :=
    ((hpmc _ _).trans (hpmc _ _)).trans (s.flitLeft_keeps p hlinks l n f)
  have hheld : (((s.flitLeft l n f).nocIn c (l / 48) x.length).link l).rxHeld = [] := s.rxHeld_flitLeft l n f
  have hcores := hkept State.cores (fun _ _ => rfl) fun _ _ => rfl
  have hmem := hkept State.memory (fun _ _ => rfl) fun _ _ => rfl
  have htallies := hkept State.tallies (fun _ _ => rfl) fun _ _ => rfl
  generalize (s.flitLeft l n f).nocIn c (l / 48) x.length = u at hv hheld hcores hmem htallies
  have hcore : ∀ d, u.core d = s.core d := fun d => by rw [State.core, hcores, State.core]
  have hstore : ∀ i, u.storeAt c i = s.storeAt c i := fun i => by rw [State.storeAt, hcore, State.storeAt]
  have hwords : ∀ i, u.wordSt c i = {} := fun i => by rw [State.wordSt, hcore, ← State.wordSt, hclean]
  obtain ⟨hlinks, hmem', htallies', hin, hout, hrest⟩ := State.storeWrite_effect (a := a) x u hwords
  subst hv
  exact ⟨by rw [State.link_congr hlinks, hheld], hmem'.trans hmem, htallies'.trans htallies, hin,
    fun i hi => (hout i hi).trans (hstore i), fun d hd => (hrest d hd).trans (hcore d)⟩

theorem execFlitDeliver_write {f : Flit} {b : Bytes} (hheld : (s.link l).rxHeld = [f]) (hcrew : f.crew = some n)
    (hbody : f.body = .data b) (hworks : s.works n = true) (hcount : 1 ≤ field b 5 1) (hfit : field b 5 1 ≤ 96)
    (hmask : field b 6 2 = 0) (hcls : f.cls = 0) (hlen : b.length = 112) (hcore : field b 0 5 / 2 ^ 39 = 0) {c a : Nat}
    (hc : bits (field b 0 5) 29 22 = c) (ha : bits (field b 0 5) 21 0 = a) (howner : s.crewOf c = some n)
    (hend : a + field b 5 1 ≤ storeEnd) (hclean : ∀ i, s.wordSt c i = {}) :
    ∃ t, execFlitDeliver l s = .next t ∧ (t.link l).rxHeld = [] ∧ t.tallies = s.tallies ∧ s.sameMemory t
      ∧ (∀ j, j < field b 5 1 → some (t.storeAt c (a + j)) = b[16 + j]?)
      ∧ (∀ x, x < a ∨ a + field b 5 1 ≤ x → t.storeAt c x = s.storeAt c x) ∧ ∀ d, d ≠ c → t.core d = s.core d := by
  have hbytes : ((b.drop 16).take (field b 5 1)).length = field b 5 1 := by
    rw [List.length_take, List.length_drop]
    omega
  have howner' : (s.flitLeft l n f).crewOf c = some n := (s.flitLeft_keeps (·.crewOf c) (fun _ _ => rfl) l n f).trans howner
  obtain ⟨v, hdelivered, hv⟩ : ∃ v, (s.flitLeft l n f).deliver l n f b = (true, v)
      ∧ ((s.flitLeft l n f).nocIn c (l / 48) ((b.drop 16).take (field b 5 1)).length).storeWrite c a
          (clean ((b.drop 16).take (field b 5 1))) = v := by
    refine ⟨_, State.deliver_write hcount hfit hmask hcls hcore (hc.symm ▸ howner') (ha.symm ▸ hend), ?_⟩
    rw [hbytes, hc, ha]
  obtain ⟨hleft, hmem, htallies, hin, hout, hrest⟩ := State.flitLeft_write_effect _ f s hclean hv
  have hexec := execFlitDeliver_one hheld hcrew hbody hworks (State.bufferFull_of_core hbody (.inr hcore))
  rw [hdelivered] at hexec
  rw [hbytes] at hout
  have hsettled {β : Type} (p : State → β) (hp : ∀ s x, p (State.setLinks s x) = p s) :
      p (v.messageSettled l n f b true) = p v := v.messageSettled_keeps p hp l n f b true
  refine ⟨_, hexec, (v.rxHeld_messageSettled l n f b true).trans hleft, (hsettled State.tallies fun _ _ => rfl).trans htallies,
    State.sameMemory_of_eq ((hsettled State.memory fun _ _ => rfl).trans hmem), fun j hj => ?_,
    fun i hi => (hsettled (·.storeAt c i) fun _ _ => rfl).trans (hout i hi),
    fun d hd => (hsettled (·.core d) fun _ _ => rfl).trans (hrest d hd)⟩
  rw [hsettled (·.storeAt c (a + j)) fun _ _ => rfl, hin j (hbytes.symm ▸ hj), List.getElem?_eq_getElem (by omega)]
  simp only [List.getElem_take, List.getElem_drop]

end Sys2Proof.Machine

namespace Sys2Proof.Proofs
open Sys2Proof.Machine

/-- Settles O31: a flit with a bad CRC changes nothing but the RETRY; what the receive checks read is the same after the flit has
been counted, so one that passes them is held; of the one flit held, the slots and acknowledgements concern its link alone. -/
theorem flitsAreCheckedAndDelivered : Obligations.FlitsAreCheckedAndDelivered := by
  intro s l _ k
  refine ⟨?receive, ?deliver⟩
  case deliver =>
    intro f b n hheld hcrew hbody hworks hcount hfit hmask
    refine ⟨?add, ?write⟩
    case add =>
      intro hcls hplain i htally hremote
      exact execFlitDeliver_add hheld hcrew hbody hworks hcount hfit hmask hcls hplain rfl htally hremote
    case write =>
      intro hcls hlen hcore c a howner _ hend hclean
      exact execFlitDeliver_write hheld hcrew hbody hworks hcount hfit hmask hcls hlen hcore rfl rfl howner hend hclean
  intro flit hup hidle hlen h body hcls
  refine ⟨fun hcrc => ?bad, fun n hcrc hseq hvc hmask hself hdst hcrew hcode hears htime => ?good⟩
  case bad =>
    have hexec := execFlitReceive_badCrc hup hidle hlen hcls hcrc
    rw [State.sendRetry_eq] at hexec
    obtain ⟨htallies, hmem, hcores⟩ := State.jobData_parts (State.LinkView.jobData.tell s l (fun k => { k with retryOut := true })
      (.retry l (s.link l).rxSeq))
    refine ⟨_, hexec, State.out_tell _ _ _ _, ?_, ?_, hcores, htallies, hmem,
      State.regsBut_of_regs_eq (s.tell_keeps State.regs (fun _ _ => rfl) (fun _ _ => rfl) (fun _ _ => rfl) _ _ _) []⟩
    · rw [State.link_tell]
    · rw [State.link_tell]
  case good =>
    have hpasses : s.Passes n flit := ⟨hcls, hvc, hmask, hself, hdst, hcrew, hcode, hears, htime⟩
    have hsame := State.checkData_flitTaken (State.crewOfTag_lt hcrew) s l (bits h 14 12) (bits h 61 46)
    have hexec := execFlitReceive_passes hup hidle hlen hcls hcrc hseq (hpasses.congr hsame)
    obtain ⟨hheld, hrx⟩ := s.link_flitHeld l (bits h 14 12) ((s.flitTaken l (bits h 14 12)).heldFlit n flit)
    obtain ⟨hjob, hflt⟩ := Prod.mk.inj <| s.flitHeld_keeps (fun t => (t.jobData, t.flt)) (fun _ _ => rfl) (fun _ _ => rfl)
      (fun _ _ => rfl) (fun _ _ => rfl) (fun _ _ => rfl) l (bits h 14 12) ((s.flitTaken l (bits h 14 12)).heldFlit n flit)
    obtain ⟨htallies, hmem, hcores⟩ := State.jobData_parts hjob
    exact ⟨_, _, hexec, hheld, rfl, rfl, rfl, rfl, hrx, hcores, htallies, hmem, hflt⟩

end Sys2Proof.Proofs
end

section
/-!
PROOFS. Registers that HBM traffic leaves alone: all but a stack's error registers, a crew's checkpoint registers and the overflow
bits of an I/O die's event counters (07 R165, R168; 13 R314, R316).
-/
namespace Sys2Proof.Machine

/-- A register that no read of HBM and no write to it changes. -/
structure RegDef.OffHbm (r : RegDef) (ix : List Nat) : Prop where
  overflow : ∀ die, r.addr ix ≠ R.PMC_OVF_IOD.addr [die]
  ecc : ∀ k, r.addr ix ≠ R.HBM_ECC.addr (stk4 k)
  errLo : ∀ k, r.addr ix ≠ R.HBM_ERRADDR_LO.addr (stk4 k)
  errHi : ∀ k, r.addr ix ≠ R.HBM_ERRADDR_HI.addr (stk4 k)
  free : ∀ n, n < 16 → r.addr ix ≠ R.CHK_FREE.addr [n]
  ckpt : ∀ n, n < 16 → r.addr ix ≠ R.CHK_STAT.addr [n]
  points : ∀ n, n < 16 → r.addr ix ≠ R.GLB_RCV.addr [n]

/-- The crew of a STATE page is one of the rig's. -/
theorem State.lt_of_pageAt {s : State} {a n : Nat} {p : PageSt} (h : s.pageAt a = some (n, p)) : n < 16 := by
  rw [State.pageAt] at h
  split at h
  · next m hm =>
    obtain ⟨q, -, hq⟩ := Option.map_eq_some_iff.mp h
    obtain ⟨rfl, -⟩ := Prod.mk.inj hq
    exact (s.mem_crewList.mp (List.mem_of_mem_filter (List.mem_of_mem_head? hm))).1
  · cases h

section
variable {r : RegDef} {ix : List Nat} (h : r.OffHbm ix)
include h

/-! ### Reads (07 R165) -/

theorem State.reg_pmcDie_off (s : State) (die code : Nat) (sub : Option Nat) : (s.pmcDie die code sub).reg r ix = s.reg r ix :=
  State.reg_pmcTick_ne s (h.overflow die) _ _ _

theorem State.reg_burst_off (s : State) (pa : Nat) (write : Bool) : (s.burst pa write).reg r ix = s.reg r ix :=
  s.reg_burst (h.overflow _) write

theorem State.reg_eccRaise (s : State) (f : Fld) (hf : f.reg = R.HBM_ECC) (k : Nat) :
    (s.raiseBit f (stk4 k)).reg r ix = s.reg r ix :=
  s.reg_raiseBit_ne (hf ▸ h.ecc k)

theorem State.reg_eccBump (s : State) (f : Fld) (hf : f.reg = R.HBM_ECC) (k d : Nat) :
    (s.bump f (stk4 k) d).reg r ix = s.reg r ix :=
  State.reg_setReg_ne s (hf ▸ h.ecc k) _

theorem State.reg_queueWb (s : State) (pa : Nat) (poisoning : Bool) : (s.queueWb pa poisoning).reg r ix = s.reg r ix := by
  unfold State.queueWb
  dsimp only
  split
  · rfl
  · rw [State.reg_congr (State.setWbq_regs _ _)]
    split
    · rfl
    · exact State.reg_eccRaise h s _ rfl _

theorem State.reg_hbmErrAddr (s : State) (pa kind : Nat) : (s.hbmErrAddr pa kind).reg r ix = s.reg r ix :=
  (State.reg_setReg_ne _ (h.errHi _) _).trans (State.reg_setReg_ne s (h.errLo _) _)

omit h in
theorem State.reg_raiseFault (s : State) (f : Fault0) : (s.raiseFault f).reg r ix = s.reg r ix :=
  State.reg_congr (s.raiseFault_regs f) r ix

omit h in
theorem State.reg_ceRecord (s : State) (count event : Nat) (f : Fault0 → Fault0) :
    (s.ceRecord count event f).reg r ix = s.reg r ix := by
  unfold State.ceRecord
  split
  · exact s.reg_raiseFault _
  · rfl

omit h in
theorem State.reg_setFlt (s : State) (x : Flt) : (s.setFlt x).reg r ix = s.reg r ix := rfl

theorem State.reg_reportGran (s : State) (pa name : Nat) (x : GranRead) : (s.reportGran pa name x).reg r ix = s.reg r ix := by
  unfold State.reportGran
  dsimp only
  split
  · rw [State.reg_ceRecord, State.reg_queueWb h, State.reg_hbmErrAddr h, State.reg_eccRaise h _ _ rfl, State.reg_eccBump h _ _ rfl]
  · split
    · split
      · rw [State.reg_queueWb h, State.reg_hbmErrAddr h, State.reg_eccRaise h _ _ rfl, State.reg_eccBump h _ _ rfl]
      · rw [State.reg_raiseFault, State.reg_setFlt, State.reg_queueWb h, State.reg_hbmErrAddr h, State.reg_eccRaise h _ _ rfl,
          State.reg_eccBump h _ _ rfl]
    · split
      · exact State.reg_eccRaise h s _ rfl _
      · rfl

theorem State.reg_readGran (s : State) (pa name : Nat) : (s.readGran pa name).2.reg r ix = s.reg r ix :=
  (State.reg_reportGran h _ pa name _).trans (State.reg_burst_off h s pa false)

theorem State.reg_hbmReadFrom (s : State) (a n fuel : Nat) : (s.hbmReadFrom a n fuel).2.reg r ix = s.reg r ix := by
  induction fuel generalizing s a n with
  | zero => rfl
  | succ fuel ih =>
    unfold State.hbmReadFrom
    split
    · rfl
    · exact (ih _ _ _).trans (State.reg_readGran h s _ a)

theorem State.reg_hbmBytes (s : State) (a n : Nat) : (s.hbmBytes a n).2.reg r ix = s.reg r ix := State.reg_hbmReadFrom h s a n _

/-! ### Writes (07 R168) -/

theorem State.reg_putGran (s : State) (pa : Nat) (data : Bytes) (poison : Bool) : (s.putGran pa data poison).reg r ix = s.reg r ix :=
  (State.reg_congr (s := s.burst pa true) rfl r ix).trans (State.reg_burst_off h s pa true)

omit h in
theorem State.reg_staleWb (s : State) (pa : Nat) : (s.staleWb pa).reg r ix = s.reg r ix := rfl

theorem State.reg_writeGran (s : State) (pa name pos : Nat) (data : Bytes) (poisoned : Bool) :
    (s.writeGran pa name pos data poisoned).reg r ix = s.reg r ix := by
  unfold State.writeGran
  dsimp only
  split
  · rw [State.reg_putGran h, State.reg_staleWb]
  · split
    · rw [State.reg_putGran h, State.reg_staleWb, State.reg_burst_off h]
    · rw [State.reg_putGran h, State.reg_staleWb, State.reg_reportGran h, State.reg_burst_off h]

/-! ### Frames of STATE pages (13 R314, R316) -/

omit h in
theorem State.reg_modCrew (s : State) (n : Nat) (f : Crew → Crew) : (s.modCrew n f).reg r ix = s.reg r ix := rfl

omit h in
theorem State.reg_setFld_ne {f : Fld} {jx : List Nat} (happart : r.addr ix ≠ f.reg.addr jx) (s : State) (v : Nat) :
    (s.setFld f jx v).reg r ix = s.reg r ix :=
  State.reg_setReg_ne s happart _

section
variable {n : Nat} (hn : n < 16)
include hn

theorem State.reg_releaseCopies (s : State) : (s.releaseCopies n).reg r ix = s.reg r ix :=
  State.reg_setFld_ne (f := F.CHK_FREE_free) (h.free n hn) _ _

theorem State.reg_endCkpt (s : State) (status : Nat) : (s.endCkpt n status).reg r ix = s.reg r ix := by
  have hstat : ∀ (u : State) (f : Fld) (v : Nat), f.reg = R.CHK_STAT → (u.setFld f [n] v).reg r ix = u.reg r ix :=
    fun u f v hf => State.reg_setFld_ne (hf ▸ h.ckpt n hn) u v
  simp only [State.endCkpt]
  rw [State.reg_releaseCopies h hn, hstat _ _ _ rfl, hstat _ _ _ rfl, hstat _ _ _ rfl, State.reg_modCrew]

theorem State.reg_unprotect (s : State) : (s.unprotect n).reg r ix = s.reg r ix := by
  have hraise : ∀ (u : State) (f : Fld), f.reg = R.CHK_FREE → (u.raiseBit f [n]).reg r ix = u.reg r ix :=
    fun u f hf => u.reg_raiseBit_ne (hf ▸ h.free n hn)
  have htrigger : ∀ u : State, (u.chkTrigger n).reg r ix = u.reg r ix := fun _ => rfl
  simp only [State.unprotect]
  rw [htrigger, State.reg_releaseCopies h hn, State.reg_setFld_ne (f := F.GLB_RCV_points) (h.points n hn), hraise _ _ rfl,
    hraise _ _ rfl, State.reg_modCrew]

theorem State.reg_takeFrame (s : State) (page f : Nat) : (s.takeFrame n page f).reg r ix = s.reg r ix :=
  State.reg_setFld_ne (f := F.CHK_FREE_free) (h.free n hn) _ _

theorem State.reg_markFilled (s : State) (page line : Nat) : (s.markFilled n page line).reg r ix = s.reg r ix := by
  unfold State.markFilled
  split
  · split
    · extract_lets l p q
      split
      · exact State.reg_releaseCopies h hn _
      · rfl
    · rfl
  · rfl

end

theorem State.reg_firstWrite (s : State) (a : Nat) : (s.firstWrite a).reg r ix = s.reg r ix := by
  unfold State.firstWrite
  split
  · rfl
  · next n q hpage =>
    have hn := State.lt_of_pageAt hpage
    have hframe : ∀ (u : State) (f : Nat), ((u.takeFrame n (a / 2 ^ 21) f).pmcDie (stackOf a / 4) 0x50 none).reg r ix = u.reg r ix :=
      fun u f => (State.reg_pmcDie_off h _ _ _ _).trans (State.reg_takeFrame h hn u _ f)
    split
    · split
      · exact hframe s _
      · extract_lets copying u
        have hu : u.reg r ix = s.reg r ix := by
          unfold u
          split
          · exact State.reg_endCkpt h hn s 4
          · rfl
        clear_value u
        rw [← hu]
        split
        · split
          · split
            · exact hframe u _
            · exact State.reg_unprotect h hn u
          · rfl
        · rfl
    · rfl

theorem State.reg_copyLine (s : State) (src dst name : Nat) : (s.copyLine src dst name).reg r ix = s.reg r ix := by
  refine (State.each_keeps _ (·.reg r ix) _ _ fun s g => ?_).trans (State.reg_pmcDie_off h s _ _ _)
  exact (State.reg_putGran h _ _ _ _).trans (State.reg_readGran h s _ _)

theorem State.reg_readyLine (s : State) (a : Nat) (whole : Bool) : (s.readyLine a whole).reg r ix = s.reg r ix := by
  unfold State.readyLine
  split
  · rfl
  · next hpage =>
    have hn := State.lt_of_pageAt hpage
    dsimp only
    split
    · rfl
    · split
      · rfl
      · split
        · exact State.reg_markFilled h hn s _ _
        · exact (State.reg_markFilled h hn _ _ _).trans (State.reg_copyLine h s _ _ _)

/-! ### Runs of bytes -/

theorem State.reg_hbmWriteIn (s : State) (a : Nat) (data : List (Byte × Bool)) (fuel : Nat) :
    (s.hbmWriteIn a data fuel).reg r ix = s.reg r ix := by
  induction fuel generalizing s a data with
  | zero => rfl
  | succ fuel ih =>
    cases data with
    | nil => rfl
    | cons x rest => exact (ih _ _ _).trans (State.reg_writeGran h s _ _ _ _ _)

theorem State.reg_hbmWriteFrom (s : State) (a : Nat) (data : List (Byte × Bool)) (fuel : Nat) :
    (s.hbmWriteFrom a data fuel).reg r ix = s.reg r ix := by
  induction fuel generalizing s a data with
  | zero => rfl
  | succ fuel ih =>
    cases data with
    | nil => rfl
    | cons x rest =>
      refine (ih _ _ _).trans ((State.reg_hbmWriteIn h _ _ _ _).trans ?_)
      exact (State.reg_readyLine h _ _ _).trans (State.reg_firstWrite h s a)

theorem State.reg_hbmStore (s : State) (a : Nat) (data : List (Byte × Bool)) : (s.hbmStore a data).reg r ix = s.reg r ix := by
  unfold State.hbmStore
  split
  · exact State.each_keeps s (·.reg r ix) _ _ fun s x => State.reg_hbmWriteFrom h s _ _ _
  · exact State.reg_hbmWriteFrom h s a data _

end

/-- What sees nothing of a write to HBM does not see one that leaves silent bytes out. -/
theorem State.WriteView.hbmStore {β : Type} {p : State → β} (hp : State.WriteView p) (s : State) (a : Nat)
    (data : List (Byte × Bool)) : p (s.hbmStore a data) = p s := by
  unfold State.hbmStore
  split
  · exact State.each_keeps s p _ _ fun s x => hp.hbmPut s _ _
  · exact hp.hbmPut s a data

end Sys2Proof.Machine
end

section
/-!
PROOFS. What the progress of a collective leaves alone (08 R215, R216): it reads and writes HBM, changes links, raises faults and
counts events, and of a crew's open collectives changes only how far they are.
-/
namespace Sys2Proof.Machine

variable {β : Type}

/-- What a collective is, whatever its progress. -/
def Coll.shape (k : Coll) := (k.id, k.op, k.count, k.rank, k.accept)

/-- A view that sees nothing of what the progress of collectives changes. -/
structure State.CollView (p : State → β) : Prop where
  read : ∀ s a n, p (State.hbmBytes s a n).2 = p s
  store : ∀ s a d, p (State.hbmStore s a d) = p s
  fault : ∀ s n f, p (State.poisonFault s n f) = p s
  tick : ∀ s die code, p (State.pmcDie s die code none) = p s
  links : ∀ s x, p (State.setLinks s x) = p s
  coll : ∀ s n id f, (∀ c, Coll.shape (f c) = c.shape) → p (State.modColl s n id f) = p s

/-- What sees no write to HBM, no link and no open collective is such a view. -/
theorem State.WriteView.collView {p : State → β} (hp : State.WriteView p) (hlinks : ∀ s x, p (State.setLinks s x) = p s)
    (hcoll : ∀ s n id f, (∀ c, Coll.shape (f c) = c.shape) → p (State.modColl s n id f) = p s) : State.CollView p where
  read s a n := hp.hbmBytes s a n
  store s a d := hp.hbmStore s a d
  fault s n f := hp.poisonFault s n f
  tick s die code := hp.pmcDie s die code none
  links := hlinks
  coll := hcoll

/-- A register that HBM traffic leaves alone is such a view. -/
theorem RegDef.OffHbm.collView {r : RegDef} {ix : List Nat} (h : r.OffHbm ix) : State.CollView fun s => s.reg r ix where
  read s a n := State.reg_hbmBytes h s a n
  store s a d := State.reg_hbmStore h s a d
  fault s n f := State.reg_congr (State.poisonFault_keeps s State.regs (fun _ _ => rfl) (fun _ _ => rfl) (fun _ _ => rfl) n f) r ix
  tick s die code := State.reg_pmcDie_off h s die code none
  links _ _ := rfl
  coll _ _ _ _ _ := rfl

/-- The collectives of a crew, each as what it is. -/
def State.collShapes (s : State) (n : Nat) := (s.crew n).colls.map Coll.shape

theorem State.collView_collShapes (n : Nat) : State.CollView fun s => s.collShapes n := by
  have hwrite : State.WriteView fun s : State => s.collShapes n :=
    { regs := rfl, core := fun _ => rfl, conv := rfl, pmc := rfl, flt := rfl, free := rfl, wbq := rfl, mem := rfl, gran := rfl
      cox := rfl
      crew := fun h => State.crew_modCrew_part (fun k => k.colls.map Coll.shape) fun k =>
        (congrArg (fun u : Crew => u.colls.map Coll.shape) (h k) :)
      pages := fun h => State.crew_modCrew_part (fun k => k.colls.map Coll.shape) fun k =>
        (congrArg (fun u : Crew => u.colls.map Coll.shape) (h k) :) }
  refine hwrite.collView (fun _ _ => rfl) fun s m id f hf => State.crew_modCrew_part (fun k => k.colls.map Coll.shape) fun k => ?_
  rw [List.map_map]
  refine List.map_congr_left fun c _ => ?_
  show Coll.shape (if c.id = id then f c else c) = c.shape
  split
  · exact hf c
  · rfl

section
variable {p : State → β} (hp : State.CollView p)
include hp

theorem State.CollView.modLink (s : State) (l : Nat) (f : Link → Link) : p (s.modLink l f) = p s := hp.links _ _

theorem State.CollView.collSend (s : State) (n : Nat) (k : Coll) (rank : Nat) (isResult : Bool) (L i : Nat) (x : Part3) :
    p (s.collSend n k rank isResult L i x) = p s := by
  unfold State.collSend
  dsimp only
  split
  · exact hp.read s _ _
  · exact (hp.modLink _ _ _).trans (hp.read s _ _)

theorem State.CollView.collWrite (s : State) (n : Nat) (k : Coll) (i v : Nat) (poison : Bool) :
    p (s.collWrite n k i v poison) = p s := by
  unfold State.collWrite
  extract_lets w a d words stored written
  have hwritten : p written = p s := by
    refine (hp.coll stored n k.id _ ?_).trans (hp.store s a d)
    exact fun _ => rfl
  split
  · exact hwritten
  · exact (hp.fault _ _ _).trans hwritten

theorem State.CollView.collResult (s : State) (n : Nat) (k : Coll) (i v : Nat) (poison : Bool) :
    p (s.collResult n k i v poison) = p s := by
  unfold State.collResult
  split
  · split
    · exact hp.collWrite s n k i v poison
    · exact hp.collSend s _ _ _ _ _ _ _
  · split
    · exact hp.collWrite s n k i v poison
    · refine (State.each_keeps _ p _ _ fun s L => ?_).trans (hp.collWrite s n k i v poison)
      split
      · exact hp.collSend s _ _ _ _ _ _ _
      · rfl

theorem State.CollView.collAdvance (n : Nat) (id : BitVec 32) (i fuel : Nat) (s : State) (L : Nat) (acc : Part3) :
    p (s.collAdvance n id i fuel L acc) = p s := by
  induction fuel generalizing s L acc with
  | zero => rfl
  | succ fuel ih =>
    unfold State.collAdvance
    split
    · rfl
    · split_ifs
      · exact hp.collSend s _ _ _ _ _ _ _
      · exact hp.collResult s _ _ _ _ _
      · exact ih s _ _
      · split
        · exact (ih _ _ _).trans (hp.coll s n id _ fun _ => rfl)
        · exact hp.coll s n id _ fun _ => rfl

theorem State.CollView.collPoison (s : State) (n : Nat) (k : Coll) (words : Nat) : p (s.collPoison n k words) = p s := by
  unfold State.collPoison
  split
  · rfl
  · exact hp.fault s n _

theorem State.CollView.collContribute (s : State) (n : Nat) (k : Coll) (vals : List (Nat × Option Part3)) :
    p (s.collContribute n k vals) = p s := by
  unfold State.collContribute
  dsimp only
  rw [hp.collPoison]
  refine State.eachWith_keeps s p [] vals _ fun _ s v => ?_
  exact (hp.collAdvance n k.id _ 5 _ 0 _).trans (hp.read s _ _)

theorem State.CollView.collTake (s : State) (n l : Nat) (k : Coll) (f : CollFlit) : p (s.collTake n l k f) = p s := by
  unfold State.collTake
  extract_lets vals mine counted
  have hcounted : p counted = p s := State.each_keeps s p _ _ fun s _ => hp.tick s _ _
  split_ifs
  · exact State.each_keeps s p _ _ fun s x => hp.collResult s _ _ _ _ _
  · exact (hp.collContribute _ _ _ _).trans hcounted
  · refine (State.each_keeps _ p _ _ fun s x => ?_).trans hcounted
    split
    · rfl
    · next c _ =>
      split
      · exact (hp.collAdvance n c.id _ 5 _ _ _).trans (hp.coll s n c.id _ fun _ => rfl)
      · exact hp.coll s n c.id _ fun _ => rfl

theorem State.CollView.drainColl (s : State) (l : Nat) : p (s.drainColl l) = p s := by
  unfold State.drainColl
  extract_lets ready now taken
  split
  · rfl
  · refine (State.each_keeps _ p _ _ fun s x => ?_).trans (hp.modLink s l _)
    dsimp only
    split
    · refine (hp.collTake _ _ _ _ _).trans ((State.leaveSlot_keeps _ p hp.links _ _ _ _).trans ?_)
      exact hp.coll s _ _ _ fun _ => rfl
    · exact hp.coll s _ _ _ fun _ => rfl

theorem State.CollView.gatherOwn (s : State) (n : Nat) (k : Coll) : p (s.gatherOwn n k) = p s :=
  (hp.collPoison _ _ _ _).trans <| State.eachWith_keeps s p [] _ _ fun _ s _ =>
    (State.each_keeps _ p _ _ fun s _ => hp.collSend s _ _ _ _ _ _ _).trans ((hp.collWrite _ _ _ _ _ _).trans (hp.read s _ _))

end

/-- The state in which a collective stands among those of its crew. -/
def State.collOpened (s : State) (n : Nat) (k : Coll) : State :=
  (s.modCrew n fun c => { c with colls := c.colls ++ [k] }).showColl n

/-- From there on an opening is progress of collectives only. -/
theorem State.CollView.openColl {p : State → β} (hp : State.CollView p) (s : State) (n : Nat) (k : Coll) :
    p (s.openColl n k) = p (s.collOpened n k) := by
  unfold State.openColl
  refine (State.each_keeps _ p _ _ fun s l => hp.drainColl s l).trans ?_
  split_ifs
  · exact hp.gatherOwn _ n k
  · exact hp.collContribute _ n k _
  · rfl

end Sys2Proof.Machine
end

section
/-!
PROOFS. Collectives (O32): descriptors open them, their flits are taken in, held or dropped, and they end by completion or by a notice
(08 R215, R216; 12 R306, R308).
-/
namespace Sys2Proof.Machine

variable {s t : State} {β : Type} {c n l slot : Nat} {q : QCmd} {d : DCmd} {k : Coll}

/-! ### Opening (R215) -/

theorem lnkColl_offHbm (hn : n < 16) : R.LNK_COLL.OffHbm [n] := by
  have haddr : R.LNK_COLL.addr [n] = 0x02110800 + 4 * n := rfl
  constructor
  · intro die
    have hover : R.PMC_OVF_IOD.addr [die] = 0x02310180 + 0x800000 * die := rfl
    omega
  · intro k
    rw [RegDef.addr_stk4 rfl, haddr]
    change _ ≠ 0x02040008 + _ + _
    omega
  · intro k
    rw [RegDef.addr_stk4 rfl, haddr]
    change _ ≠ 0x02040010 + _ + _
    omega
  · intro k
    rw [RegDef.addr_stk4 rfl, haddr]
    change _ ≠ 0x02040014 + _ + _
    omega
  all_goals
    intro m hm
    rw [haddr]
  · change _ ≠ 0x1010 + 0x40 * m
    omega
  · change _ ≠ 0x1014 + 0x40 * m
    omega
  · change _ ≠ 0x240 + 4 * m
    omega

theorem lnkColl_offDma (hn : n < 16) : R.LNK_COLL.OffDma [n] c := by
  constructor
  · intro m hm
    change 0x02110800 + 4 * n ≠ 0xF0C + 0x10 * m
    omega
  · change 0x02110800 + 4 * n ≠ 0x01002100 + 0x10000 * c
    omega

/-- The state in which a descriptor has been read and taken. -/
def State.descTaken (s : State) (c : Nat) (q : QCmd) (x : Pmc) : State := ((s.setPmc x).traceBegin c q).nocOut c 0 64

theorem State.descTaken_keeps (p : State → β) (hregs : ∀ s x, p (State.setRegs s x) = p s)
    (hcores : ∀ s x, p (State.setCores s x) = p s) (hpmc : ∀ s x, p (State.setPmc s x) = p s) (s : State) (c : Nat) (q : QCmd)
    (x : Pmc) : p (s.descTaken c q x) = p s :=
  (State.nocOut_keeps _ p hpmc _ _ _).trans ((State.traceBegin_keeps _ p hregs hcores _ _).trans (hpmc _ _))

/-- A descriptor in order opens its collective, and its command leaves the queue. -/
theorem State.startColl_eq (hready : s.dmaReady c slot = some (n, q, d)) (hstarted : q.started = false) (hport : s.toPort n d = true)
    (hop : d.op = 0) (hgood : s.dmaBad c n d = false) (hrows : 0 < d.rows) (hsrc : d.src = 0) (hclean : ∀ i, s.wordSt c i = {})
    (hpre : ∀ p ∈ (s.core c).pre, p.entry ≠ q.entry)
    (hk : collOf (Map.bytes unlisted (s.core c).store d.srcA 64) q.accept s.raw = k)
    (hfits : s.collBad n (Map.bytes unlisted (s.core c).store d.srcA 64) k = false) {op : Nat} (hkop : k.op = op) :
    ∃ x, s.startColl c slot op = ((s.descTaken c q x).openColl n k).dmaDone c q 0 64 := by
  obtain ⟨x, hread⟩ := State.dmaSrc_of_store hclean hpre hsrc n d.srcA 64
  have hfits' : (s.setPmc x).collBad n (Map.bytes unlisted (s.core c).store d.srcA 64) k = false := hfits
  have hgo : (decide (d.op ≠ 0) || q.started || !s.toPort n d || decide (d.rows = 0) || s.dmaBad c n d) = false := by
    rw [hstarted, hport, hop, hgood, decide_eq_false (Nat.pos_iff_ne_zero.mp hrows)]
    rfl
  refine ⟨x, ?_⟩
  unfold State.startColl
  rw [hready]
  simp only [hgo, hread, plain_clean, hk, hfits', hkop, ne_eq, not_true_eq_false, Bool.false_eq_true, if_false]
  rfl

theorem State.collOpened_keeps (p : State → β) (hregs : ∀ s x, p (State.setRegs s x) = p s)
    (hcrews : ∀ s x, p (State.setCrews s x) = p s) (s : State) (n : Nat) (k : Coll) : p (s.collOpened n k) = p s :=
  (hregs _ _).trans (hcrews _ _)

theorem Core.dmaq_of_unread {k l : Core} (h : k.unread = l.unread) : k.dmaq = l.dmaq := (congrArg Core.dmaq h :)

theorem State.collShapes_collOpened (s : State) (n : Nat) (k : Coll) :
    (s.collOpened n k).collShapes n = s.collShapes n ++ [k.shape] := by
  have hcrew : (s.collOpened n k).crew n = { s.crew n with colls := (s.crew n).colls ++ [k] } := by
    rw [State.collOpened, State.showColl, State.setFld_keeps _ (·.crew n) (fun _ _ => rfl), State.crew_modCrew_same]
  rw [State.collShapes, hcrew]
  exact List.map_append

/-- LNK_COLL shows as many open collectives as it can hold. -/
theorem State.open_showColl (s : State) (n : Nat) (hroom : (s.crew n).colls.length < 16) :
    (s.showColl n).fld F.LNK_COLL_open [n] = (s.crew n).colls.length := by
  rw [State.showColl, State.fld_setFld_same _ _ _ _ (by decide), show F.LNK_COLL_open.hi + 1 - F.LNK_COLL_open.lo = 4 from rfl]
  exact Nat.mod_eq_of_lt hroom

theorem State.open_collOpened (s : State) (n : Nat) (k : Coll) (hroom : (s.crew n).colls.length < 8) :
    (s.collOpened n k).fld F.LNK_COLL_open [n] = (s.crew n).colls.length + 1 := by
  have hcolls : ((s.modCrew n fun c => { c with colls := c.colls ++ [k] }).crew n).colls.length = (s.crew n).colls.length + 1 := by
    rw [State.crew_modCrew_same]
    exact List.length_append
  rw [State.collOpened, State.open_showColl _ _ (by omega), hcolls]

theorem State.fld_of_reg {g : Fld} {ix : List Nat} (h : t.reg g.reg ix = s.reg g.reg ix) : t.fld g ix = s.fld g ix :=
  congrArg (fun w : Word => bits w.toNat g.hi g.lo) h

/-- Opening adds the collective to those of its crew, shows it, and changes neither tallies nor the queue of commands. -/
theorem State.openColl_effect (hn : n < 16) (s : State) (c : Nat) (k : Coll) (hroom : (s.crew n).colls.length < 8) :
    (s.openColl n k).collShapes n = s.collShapes n ++ [k.shape]
      ∧ (s.openColl n k).fld F.LNK_COLL_open [n] = (s.crew n).colls.length + 1
      ∧ (s.openColl n k).tallies = s.tallies ∧ ((s.openColl n k).core c).dmaq = (s.core c).dmaq := by
  have hview : State.WriteView fun u : State => (u.tallies, (u.core c).unread) :=
    { regs := rfl
      core := fun h => congrArg (Prod.mk _) (State.core_modCore_part Core.unread h)
      conv := rfl, pmc := rfl, flt := rfl, free := rfl, wbq := rfl, mem := rfl, gran := rfl, cox := rfl
      crew := fun _ => rfl, pages := fun _ => rfl }
  have hcoll := hview.collView (fun _ _ => rfl) fun _ _ _ _ _ => rfl
  obtain ⟨htallies, hcore⟩ := Prod.mk.inj <| (hcoll.openColl s n k).trans <|
    s.collOpened_keeps (fun u => (u.tallies, (u.core c).unread)) (fun _ _ => rfl) (fun _ _ => rfl) n k
  have hreg : (s.openColl n k).reg R.LNK_COLL [n] = (s.collOpened n k).reg R.LNK_COLL [n] :=
    (lnkColl_offHbm hn).collView.openColl s n k
  exact ⟨((State.collView_collShapes n).openColl s n k).trans (s.collShapes_collOpened n k),
    (State.fld_of_reg (g := F.LNK_COLL_open) hreg).trans (s.open_collOpened n k hroom), htallies, Core.dmaq_of_unread hcore⟩

/-- Only so many collectives of a crew stand open that one more can be shown (R215). -/
theorem State.room_of_fits {b : Bytes} (h : s.collBad n b k = false) : (s.crew n).colls.length < 8 := by
  unfold State.collBad at h
  extract_lets w at h
  have hlen := (Bool.or_eq_false_iff.mp h).2
  exact Nat.not_le.mp (of_decide_eq_false hlen)

theorem State.startColl_effect (hn : n < 16) (s : State) (q : QCmd) (x : Pmc) (k : Coll)
    (hroom : (s.crew n).colls.length < 8) {t : State} (ht : ((s.descTaken c q x).openColl n k).dmaDone c q 0 64 = t) :
    (t.core c).dmaq = (s.core c).dmaq.filter (fun y => decide (y.tag ≠ q.tag))
      ∧ (∃ o ∈ (t.crew n).colls, o.shape = k.shape)
      ∧ t.fld F.LNK_COLL_open [n] = (s.crew n).colls.length + 1 ∧ t.tallies = s.tallies := by
  have hkept {β : Type} (p : State → β) (hregs : ∀ s x, p (State.setRegs s x) = p s)
      (hcores : ∀ s x, p (State.setCores s x) = p s) (hpmc : ∀ s x, p (State.setPmc s x) = p s) :
      p (s.descTaken c q x) = p s := s.descTaken_keeps p hregs hcores hpmc c q x
  have hcrew : (s.descTaken c q x).crew n = s.crew n := hkept (·.crew n) (fun _ _ => rfl) (fun _ _ => rfl) fun _ _ => rfl
  have hqueue : ((s.descTaken c q x).core c).dmaq = (s.core c).dmaq := by
    have hbegun : ((((s.setPmc x).traceBegin c q).core c).unheld).dmaq = ((s.core c).unheld).dmaq :=
      congrArg Core.dmaq (State.unheld_traceBegin (s.setPmc x) c q)
    rw [State.descTaken, State.nocOut_keeps _ (fun u => (u.core c).dmaq) fun _ _ => rfl]
    exact hbegun
  obtain ⟨hshapes, hopen, htallies, hdmaq⟩ := State.openColl_effect hn (s.descTaken c q x) c k (hcrew ▸ hroom)
  obtain ⟨hleft, hbeside⟩ := ((s.descTaken c q x).openColl n k).dmaDone_spec c q 0 64
  obtain ⟨-, hdone, -⟩ := State.besideCore_frame hbeside
  obtain ⟨-, -, hqueue', -⟩ := Core.unposted_parts hleft
  rw [ht] at hdone hqueue'
  subst ht
  refine ⟨?_, ?_, ?_, ?_⟩
  · rw [hqueue', Core.dmaLeft, hdmaq, hqueue]
  · have hshapes' : (((s.descTaken c q x).openColl n k).dmaDone c q 0 64).collShapes n = _ :=
      (State.dmaDone_keeps (·.collShapes n) (fun _ _ => rfl) (fun _ _ => rfl) (fun _ _ => rfl) _ c q 0 64).trans hshapes
    refine List.mem_map.mp ?_
    rw [← State.collShapes, hshapes']
    exact List.mem_append_right _ (List.mem_singleton.mpr rfl)
  · rw [← hcrew, ← hopen]
    exact State.fld_of_reg (g := F.LNK_COLL_open) (State.reg_dmaDone (lnkColl_offDma hn) _ q 0 64)
  · exact hdone.trans (htallies.trans (hkept State.tallies (fun _ _ => rfl) (fun _ _ => rfl) fun _ _ => rfl))

/-- The three commands run the descriptor of their own operation. -/
theorem exec_collCmds {x : Nat × Instr}
    (hx : x ∈ [(1, Instr.allReduce c slot), (2, .reduceScatter c slot), (3, .allGather c slot)]) :
    exec x.2 s = .next (s.startColl c slot x.1) := by
  fin_cases hx <;> rfl

/-! ### A COLL flit whose collective was aborted (12 R308) -/

/-- BULK slots of a crew given back, or kept back until the crew holds fewer than its share (R196). -/
def Link.credits (k : Link) (n : Nat) : Nat := k.freed.bulk + Map.getD 0 k.withheld n

/-- A BULK slot that a flit leaves is given back or withheld (assumption log 31). -/
theorem State.credits_leaveSlot (s : State) (l n : Nat) :
    ((s.leaveSlot l n .bulk true).link l).credits n = ((s.link l).credits n) + 1 := by
  unfold State.leaveSlot Link.credits
  simp only [Bool.not_true, Bool.false_eq_true, if_false, true_and, if_true]
  split
  · rw [State.link_modLink_same]
    dsimp only
    rw [Map.getD_setD_same]
    omega
  · rw [State.link_modLink_same]
    dsimp only
    rw [show Map.getD 0 (Map.erase n (s.link l).withheld) n = 0 by rw [Map.getD, Map.find_erase_same]; rfl]
    omega

/-- A flit that leaves its slot leaves alone what its link knows beside slots. -/
theorem State.link_leaveSlot_part {γ : Type} (part : Link → γ)
    (hpart : ∀ (k : Link) (c : Credits) w, part { k with freed := c, withheld := w } = part k) (s : State) (l m n : Nat) (vc : Vc)
    (slot : Bool) : part ((s.leaveSlot m n vc slot).link l) = part (s.link l) := by
  unfold State.leaveSlot State.freeSlot
  dsimp only
  split_ifs
  · rfl
  · exact State.link_modLink_part part fun k => hpart k k.freed _
  · exact State.link_modLink_part part fun k => hpart k _ _
  · exact State.link_modLink_part part fun k => hpart k _ k.withheld

/-- The state in which the header of a flit has been taken. -/
def State.headerTaken (s : State) (l : Nat) (rest : List (Nat × Nat × Nat)) : State := s.modLink l fun x => { x with hdrs := rest }

section
variable {f : CollFlit} {h : Nat × Nat} {rest : List (Nat × Nat × Nat)}
  (hheader : takeHeader 2 (some n) (s.link l).hdrs = some (h, rest))
include hheader

theorem execCollPartial_aborted (haborted : (s.crew n).aborted.elem f.collId = true) : execCollPartial l n f s =
    .next (((s.headerTaken l rest).bump F.LNK_DROP_misrouted (lnk48 l) 1).leaveSlot l n .bulk true) := by
  have haborted' : ((s.headerTaken l rest).crew n).aborted.elem f.collId = true := haborted
  unfold execCollPartial
  rw [hheader]
  exact if_pos haborted'

/-- The state in which the content of a flit is held. -/
def State.collHeld (s : State) (l : Nat) (rest : List (Nat × Nat × Nat)) (x : CollHeld) : State :=
  (s.headerTaken l rest).modLink l fun k => { k with rxColl := k.rxColl ++ [x] }

theorem execCollPartial_held (haborted : (s.crew n).aborted.elem f.collId = false) :
    execCollPartial l n f s = .next ((s.collHeld l rest { crew := n, stroke := h.2, flit := f }).drainColl l) := by
  have haborted' : ¬ ((s.headerTaken l rest).crew n).aborted.elem f.collId = true := by
    rw [Bool.not_eq_true]
    exact haborted
  unfold execCollPartial
  rw [hheader]
  exact if_neg haborted'

end

/-- The content of a flit of an aborted collective is dropped and counted. -/
theorem State.dropped_effect (s : State) (l n : Nat) (rest : List (Nat × Nat × Nat)) {t : State}
    (ht : ((s.headerTaken l rest).bump F.LNK_DROP_misrouted (lnk48 l) 1).leaveSlot l n .bulk true = t) :
    (t.link l).rxColl = (s.link l).rxColl ∧ (t.link l).hdrs = rest ∧ (t.link l).credits n = (s.link l).credits n + 1
      ∧ t.fld F.LNK_DROP_misrouted (lnk48 l) = satAdd (s.fld F.LNK_DROP_misrouted (lnk48 l)) 1 255
      ∧ t.memoryAndTallies = s.memoryAndTallies := by
  have hlink : ((s.headerTaken l rest).bump F.LNK_DROP_misrouted (lnk48 l) 1).link l = { s.link l with hdrs := rest } := by
    rw [State.bump, State.setFld_keeps _ (·.link l) (fun _ _ => rfl), State.headerTaken, State.link_modLink_same]
  subst ht
  refine ⟨?_, ?_, ?_, ?_, ?_⟩
  · rw [State.link_leaveSlot_part Link.rxColl (fun _ _ _ => rfl), hlink]
  · rw [State.link_leaveSlot_part Link.hdrs (fun _ _ _ => rfl), hlink]
  · rw [State.credits_leaveSlot, hlink]
    rfl
  · rw [State.leaveSlot_keeps _ (·.fld F.LNK_DROP_misrouted (lnk48 l)) (fun _ _ => rfl), State.fld_bump_same _ _ _ _ (by decide),
      State.headerTaken, State.modLink_keeps _ (·.fld F.LNK_DROP_misrouted (lnk48 l)) (fun _ _ => rfl)]
    rfl
  · rw [State.leaveSlot_keeps _ State.memoryAndTallies (fun _ _ => rfl), State.bump,
      State.setFld_keeps _ State.memoryAndTallies (fun _ _ => rfl), State.headerTaken,
      State.modLink_keeps _ State.memoryAndTallies (fun _ _ => rfl)]

/-! ### A COLL flit whose collective is not open (R216) -/

theorem State.collHeld_keeps (p : State → β) (hlinks : ∀ s x, p (State.setLinks s x) = p s) (s : State) (l : Nat)
    (rest : List (Nat × Nat × Nat)) (x : CollHeld) : p (s.collHeld l rest x) = p s :=
  (State.modLink_keeps _ p hlinks _ _).trans (State.modLink_keeps _ p hlinks _ _)

theorem State.rxColl_collHeld (s : State) (l : Nat) (rest : List (Nat × Nat × Nat)) (x : CollHeld)
    (hnone : (s.link l).rxColl = []) : ((s.collHeld l rest x).link l).rxColl = [x] := by
  rw [State.collHeld, State.link_modLink_same, State.headerTaken, State.link_modLink_same]
  dsimp only
  rw [hnone]
  rfl

/-- Nothing is taken in where the one flit held is of no open collective. -/
theorem State.drainColl_closed {x : CollHeld} (hheld : (s.link l).rxColl = [x])
    (hclosed : (s.crew x.crew).coll x.flit.collId = none) : s.drainColl l = s := by
  unfold State.drainColl
  extract_lets ready now taken
  refine if_pos ?_
  show (s.link l).rxColl.filter ready = []
  have hwaits : ¬ ready x = true := by
    show ¬ (s.works x.crew && ((s.crew x.crew).coll x.flit.collId).isSome) = true
    rw [hclosed, Option.isSome_none, Bool.and_false]
    exact Bool.false_ne_true
  rw [hheld, List.filter_cons_of_neg hwaits, List.filter_nil]

/-! ### A result element of an open ALL_GATHER (R215) -/

theorem Crew.coll_map {id : BitVec 32} {f : Coll → Coll} (hf : ∀ c, (f c).id = c.id) (cs : List Coll) :
    (cs.map fun c => if c.id = id then f c else c).find? (fun c => decide (c.id = id))
      = (cs.find? fun c => decide (c.id = id)).map f := by
  induction cs with
  | nil => rfl
  | cons c cs ih =>
    rw [List.map_cons]
    by_cases hc : c.id = id
    · rw [if_pos hc, List.find?_cons_of_pos (by simpa [hf] using hc), List.find?_cons_of_pos (by simpa using hc)]
      rfl
    · rw [if_neg hc, List.find?_cons_of_neg (by simpa using hc), List.find?_cons_of_neg (by simpa using hc), ih]

/-- A change of an open collective changes that one. -/
theorem State.coll_modColl {id : BitVec 32} {f : Coll → Coll} (hf : ∀ c, (f c).id = c.id) (s : State) (n : Nat) :
    ((s.modColl n id f).crew n).coll id = ((s.crew n).coll id).map f := by
  rw [State.modColl, State.crew_modCrew_same]
  exact Crew.coll_map hf _

theorem State.modColl_keeps (p : State → β) (hcrews : ∀ s x, p (State.setCrews s x) = p s) (s : State) (n : Nat) (id : BitVec 32)
    (f : Coll → Coll) : p (s.modColl n id f) = p s := hcrews _ _

theorem State.pages_modColl (s : State) (n m : Nat) (id : BitVec 32) (f : Coll → Coll) :
    ((s.modColl n id f).crew m).pages = (s.crew m).pages := State.crew_modCrew_part Crew.pages fun _ => rfl

theorem Crew.id_of_coll {k : Crew} {id : BitVec 32} {o : Coll} (h : k.coll id = some o) : o.id = id :=
  of_decide_eq_true (List.find?_some (p := fun c : Coll => decide (c.id = id)) h)

/-- A held COLL flit is taken in when its crew works and its collective is open. -/
def State.collReady (s : State) (p : CollHeld) : Bool := s.works p.crew && ((s.crew p.crew).coll p.flit.collId).isSome

/-- The state in which such flits of a link are held no more. -/
def State.collTaken (s : State) (l : Nat) : State :=
  s.modLink l fun x => { x with rxColl := x.rxColl.filter fun p => !s.collReady p }

/-- A collective that notes whether it comes by a frozen link. -/
def Coll.withVia (k : Coll) (frozen : Bool) : Coll := { k with via := frozen }

/-- The state in which it does. -/
def State.viaNoted (s : State) (l n : Nat) (id : BitVec 32) : State := s.modColl n id fun c => c.withVia (s.linkFrozen l)

/-- A collective one more element of whose result is written. -/
def Coll.withResult (k : Coll) (i : Nat) : Coll := { k with results := if k.results.elem i then k.results else i :: k.results }

theorem State.collReady_open {x : CollHeld} (hworks : s.works x.crew = true) (hopen : (s.crew x.crew).coll x.flit.collId = some k) :
    s.collReady x = true := by
  rw [State.collReady, hworks, hopen]
  rfl

theorem State.coll_viaNoted {x : CollHeld} (hopen : (s.crew x.crew).coll x.flit.collId = some k) :
    (((s.collTaken l).viaNoted l x.crew x.flit.collId).crew x.crew).coll x.flit.collId
      = some (k.withVia ((s.collTaken l).linkFrozen l)) := by
  rw [State.viaNoted, State.coll_modColl (f := fun c => c.withVia ((s.collTaken l).linkFrozen l)) (fun _ => rfl), State.collTaken,
    State.modLink_keeps _ (·.crew x.crew) (fun _ _ => rfl), hopen]
  rfl

theorem State.drainColl_open {x : CollHeld} (hheld : (s.link l).rxColl = [x]) (hworks : s.works x.crew = true)
    (hopen : (s.crew x.crew).coll x.flit.collId = some k) :
    s.drainColl l = (((s.collTaken l).viaNoted l x.crew x.flit.collId).leaveSlot l x.crew .bulk x.slot).collTake x.crew l
      (k.withVia ((s.collTaken l).linkFrozen l)) x.flit := by
  have hready := State.collReady_open hworks hopen
  have hnow : (s.link l).rxColl.filter s.collReady = [x] := by rw [hheld, List.filter_cons_of_pos hready, List.filter_nil]
  have hopen' := State.coll_viaNoted hopen (l := l)
  unfold State.drainColl
  extract_lets ready now taken
  rw [if_neg (show ¬ now = [] from fun h => List.cons_ne_nil x [] (hnow.symm.trans h)), show now = [x] from hnow]
  show (match (((s.collTaken l).viaNoted l x.crew x.flit.collId).crew x.crew).coll x.flit.collId with
    | some k => (((s.collTaken l).viaNoted l x.crew x.flit.collId).leaveSlot l x.crew .bulk x.slot).collTake x.crew l k x.flit
    | none => (s.collTaken l).viaNoted l x.crew x.flit.collId) = _
  rw [hopen']

/-- An element of an ALL_GATHER is written at its place. -/
theorem State.collTake_gathered {f : CollFlit} {v e : Nat} (hop : k.op = 3) (hresult : f.isResult = true)
    (hvals : f.vals = [(v, e, false)]) (hfirst : f.first < k.count) (s : State) (n l : Nat) :
    s.collTake n l k f = s.collWrite n k f.first v false := by
  have hmine : ([(f.first + 0, (v, e, false))] : List (Nat × Part3)).filter (fun p => decide (p.1 < k.count))
      = [(f.first, (v, e, false))] := by
    rw [Nat.add_zero, List.filter_cons_of_pos (by simpa using hfirst), List.filter_nil]
  unfold State.collTake
  simp only [hresult, if_true, hvals, List.zipIdx_cons, List.zipIdx_nil, List.map_cons, List.map_nil, hmine]
  show s.collResult n k f.first v false = _
  unfold State.collResult
  rw [if_neg (by omega), if_pos hop]

theorem State.collWrite_plain (hop : k.op = 3) {i : Nat} (hplain : ∀ a, s.isState a = false)
    (hloud : s.silentIn (k.dst + i * k.outBytes) k.outBytes = false) (n v : Nat) :
    s.collWrite n k i v false = (s.hbmPut (k.dst + i * k.outBytes) ((natLe k.outBytes v).map fun b => (b, false))).modColl n k.id
      (·.withResult i) := by
  have hloud' : s.silentIn (k.dst + i * k.outBytes) ((natLe k.outBytes v).map fun b => (b, false)).length = false := by
    rw [List.length_map, length_natLe]
    exact hloud
  unfold State.collWrite
  simp only [hop, Nat.reduceEqDiff, if_false, State.stateWords_plain hplain, if_true, State.hbmStore_loud hloud']
  rfl

theorem Coll.mem_withResult (k : Coll) (i : Nat) : i ∈ (k.withResult i).results := by
  unfold Coll.withResult
  dsimp only
  split
  · next h => exact List.elem_iff.mp h
  · exact List.mem_cons_self

/-- The state from which the content of a held flit is taken in. -/
def State.slotLeft (s : State) (l : Nat) (x : CollHeld) : State :=
  ((s.collTaken l).viaNoted l x.crew x.flit.collId).leaveSlot l x.crew .bulk x.slot

theorem State.slotLeft_keeps (p : State → β) (hlinks : ∀ s x, p (State.setLinks s x) = p s)
    (hcrews : ∀ s x, p (State.setCrews s x) = p s) (s : State) (l : Nat) (x : CollHeld) : p (s.slotLeft l x) = p s :=
  (State.leaveSlot_keeps _ p hlinks _ _ _ _).trans ((hcrews _ _).trans (hlinks _ _))

/-- Progress of a collective moves no page. -/
theorem State.isState_slotLeft (s : State) (l : Nat) (x : CollHeld) (a : Nat) : (s.slotLeft l x).isState a = s.isState a := by
  have hpages : ∀ m, ((s.slotLeft l x).crew m).pages = (s.crew m).pages := fun m => by
    rw [State.slotLeft, State.leaveSlot_keeps _ (fun u => (u.crew m).pages) (fun _ _ => rfl), State.viaNoted,
      State.pages_modColl, State.collTaken, State.modLink_keeps _ (fun u => (u.crew m).pages) (fun _ _ => rfl)]
  have hat : (s.slotLeft l x).crewAt a = s.crewAt a := s.slotLeft_keeps (·.crewAt a) (fun _ _ => rfl) (fun _ _ => rfl) l x
  rw [State.isState, State.pageAt, hat, State.isState, State.pageAt]
  simp only [hpages]

theorem State.rxColl_slotLeft (s : State) (l : Nat) {x : CollHeld} (hheld : (s.link l).rxColl = [x]) (hready : s.collReady x = true) :
    ((s.slotLeft l x).link l).rxColl = [] := by
  rw [State.slotLeft, State.link_leaveSlot_part Link.rxColl (fun _ _ _ => rfl), State.viaNoted,
    State.modColl_keeps (·.link l) (fun _ _ => rfl), State.collTaken, State.link_modLink_same]
  dsimp only
  rw [hheld, List.filter_cons_of_neg (by rw [hready]; exact Bool.false_ne_true), List.filter_nil]

/-- What the statement says of a result element of an ALL_GATHER: it is written at its place, and no other byte changes. -/
theorem State.gathered_effect {x : CollHeld} {v e : Nat} (hheld : (s.link l).rxColl = [x]) (hworks : s.works x.crew = true)
    (hopen : (s.crew x.crew).coll x.flit.collId = some k) (hop : k.op = 3) (hresult : x.flit.isResult = true)
    (hvals : x.flit.vals = [(v, e, false)]) (hfirst : x.flit.first < k.count) (hplain : ∀ a, s.isState a = false)
    (hclean : ∀ a, s.granSt a = {}) (hloud : s.silentIn (k.dst + x.flit.first * k.outBytes) k.outBytes = false) :
    ((s.drainColl l).link l).rxColl = []
      ∧ (∃ k2, ((s.drainColl l).crew x.crew).coll x.flit.collId = some k2 ∧ x.flit.first ∈ k2.results)
      ∧ s.puts (s.drainColl l) (k.dst + x.flit.first * k.outBytes) (natLe k.outBytes v) := by
  have hkept {β : Type} (p : State → β) (hlinks : ∀ s x, p (State.setLinks s x) = p s)
      (hcrews : ∀ s x, p (State.setCrews s x) = p s) : p (s.slotLeft l x) = p s := s.slotLeft_keeps p hlinks hcrews l x
  have hready := State.collReady_open hworks hopen
  have hplain' : ∀ a, (s.slotLeft l x).isState a = false := fun a => (s.isState_slotLeft l x a).trans (hplain a)
  have hclean' : ∀ a, (s.slotLeft l x).granSt a = {} := fun a => (hkept (·.granSt a) (fun _ _ => rfl) fun _ _ => rfl).trans (hclean a)
  have hloud' : (s.slotLeft l x).silentIn (k.dst + x.flit.first * k.outBytes) k.outBytes = false :=
    (hkept (·.silentIn (k.dst + x.flit.first * k.outBytes) k.outBytes) (fun _ _ => rfl) fun _ _ => rfl).trans hloud
  have hid : k.id = x.flit.collId := Crew.id_of_coll hopen
  have hdrain : s.drainColl l = ((s.slotLeft l x).hbmPut (k.dst + x.flit.first * k.outBytes)
      ((natLe k.outBytes v).map fun b => (b, false))).modColl x.crew x.flit.collId (·.withResult x.flit.first) := by
    rw [State.drainColl_open hheld hworks hopen, ← State.slotLeft,
      State.collTake_gathered (k := k.withVia ((s.collTaken l).linkFrozen l)) hop hresult hvals hfirst,
      State.collWrite_plain (k := k.withVia ((s.collTaken l).linkFrozen l)) hop hplain' hloud', ← hid]
    rfl
  have hwritten := State.written_hbmPut (a := k.dst + x.flit.first * k.outBytes) (natLe k.outBytes v) hplain'
    (fun a _ => hclean' a) false
  have hstands : ((s.slotLeft l x).crew x.crew).coll x.flit.collId = some (k.withVia ((s.collTaken l).linkFrozen l)) := by
    rw [State.slotLeft, State.leaveSlot_keeps _ (·.crew x.crew) (fun _ _ => rfl), State.coll_viaNoted hopen]
  have hempty := s.rxColl_slotLeft l hheld hready
  generalize (s.slotLeft l x).hbmPut (k.dst + x.flit.first * k.outBytes) ((natLe k.outBytes v).map fun b => (b, false)) = u
    at hdrain hwritten
  have hlinks : u.links = (s.slotLeft l x).links := (congrArg State.links hwritten.beside :)
  have hcrew : u.crew x.crew = (s.slotLeft l x).crew x.crew := by rw [State.crew, hwritten.crews, State.crew]
  obtain ⟨hin, hout, hcores, htallies, hhost⟩ := hwritten.puts
  rw [hdrain]
  refine ⟨?_, ⟨_, ?_, Coll.mem_withResult (k.withVia ((s.collTaken l).linkFrozen l)) _⟩, hin, fun a ha => (hout a ha).trans ?_,
    hcores.trans ?_, htallies.trans ?_, fun a => (hhost a).trans ?_⟩
  · rw [State.modColl_keeps (·.link l) (fun _ _ => rfl), State.link_congr hlinks, hempty]
  · rw [State.coll_modColl (f := (·.withResult x.flit.first)) (fun _ => rfl), hcrew, hstands]
    rfl
  · exact hkept (·.hbmAt a) (fun _ _ => rfl) fun _ _ => rfl
  · exact hkept State.cores (fun _ _ => rfl) fun _ _ => rfl
  · exact hkept State.tallies (fun _ _ => rfl) fun _ _ => rfl
  · exact hkept (·.hostAt a) (fun _ _ => rfl) fun _ _ => rfl

/-- The content of a flit of an ALL_GATHER is taken in as it comes. -/
theorem execCollPartial_gathered {f : CollFlit} {h : Nat × Nat} {rest : List (Nat × Nat × Nat)} {v e : Nat}
    (hheader : takeHeader 2 (some n) (s.link l).hdrs = some (h, rest)) (hnone : (s.link l).rxColl = [])
    (haborted : (s.crew n).aborted.elem f.collId = false) (hopen : (s.crew n).coll f.collId = some k) (hworks : s.works n = true)
    (hop : k.op = 3) (hresult : f.isResult = true) (hvals : f.vals = [(v, e, false)]) (hfirst : f.first < k.count)
    (hplain : ∀ a, s.isState a = false) (hclean : ∀ a, s.granSt a = {})
    (hloud : s.silentIn (k.dst + f.first * k.outBytes) k.outBytes = false) :
    ∃ t, execCollPartial l n f s = .next t ∧ (t.link l).rxColl = []
      ∧ (∃ k2, (t.crew n).coll f.collId = some k2 ∧ f.first ∈ k2.results)
      ∧ s.puts t (k.dst + f.first * k.outBytes) (natLe k.outBytes v) := by
  have hexec := execCollPartial_held hheader haborted
  have hheld := s.rxColl_collHeld l rest { crew := n, stroke := h.2, flit := f } hnone
  have hkept {β : Type} (p : State → β) (hlinks : ∀ s x, p (State.setLinks s x) = p s) :
      p (s.collHeld l rest { crew := n, stroke := h.2, flit := f }) = p s := s.collHeld_keeps p hlinks l rest _
  generalize s.collHeld l rest { crew := n, stroke := h.2, flit := f } = u at hexec hheld hkept
  obtain ⟨hempty, htaken, hin, hout, hcores, htallies, hhost⟩ := State.gathered_effect hheld
    ((hkept (·.works n) fun _ _ => rfl).trans hworks) ((hkept (fun w => (w.crew n).coll f.collId) fun _ _ => rfl).trans hopen) hop
    hresult hvals hfirst (fun a => (hkept (·.isState a) fun _ _ => rfl).trans (hplain a))
    (fun a => (hkept (·.granSt a) fun _ _ => rfl).trans (hclean a))
    ((hkept (·.silentIn (k.dst + f.first * k.outBytes) k.outBytes) fun _ _ => rfl).trans hloud)
  exact ⟨_, hexec, hempty, htaken, hin, fun a ha => (hout a ha).trans (hkept (·.hbmAt a) fun _ _ => rfl),
    hcores.trans (hkept State.cores fun _ _ => rfl), htallies.trans (hkept State.tallies fun _ _ => rfl),
    fun a => (hhost a).trans (hkept (·.hostAt a) fun _ _ => rfl)⟩

/-! ### Completion (R215, R216) -/

/-- The state in which a collective of a crew is open no more. -/
def State.collClosed (s : State) (n : Nat) (id : BitVec 32) : State :=
  (s.modCrew n fun c => { c with colls := c.colls.filter fun x => decide (x.id ≠ id) }).showColl n

theorem State.collClosed_keeps (p : State → β) (hregs : ∀ s x, p (State.setRegs s x) = p s)
    (hcrews : ∀ s x, p (State.setCrews s x) = p s) (s : State) (n : Nat) (id : BitVec 32) : p (s.collClosed n id) = p s :=
  (hregs _ _).trans (hcrews _ _)

theorem State.coll_collClosed (s : State) (n : Nat) (id : BitVec 32) : ((s.collClosed n id).crew n).coll id = none := by
  rw [State.collClosed, State.showColl, State.setFld_keeps _ (·.crew n) (fun _ _ => rfl), State.crew_modCrew_same]
  refine List.find?_eq_none.mpr fun o ho => ?_
  have hne := of_decide_eq_true (List.mem_filter.mp ho).2
  simpa using hne

theorem execCollectiveComplete_due {id : BitVec 32} (hopen : (s.crew n).coll id = some k) (hworks : s.works n = true)
    (hdone : k.results.length = k.needed) (htally : s.tallyOf n k.tally = true) : execCollectiveComplete n id s =
      .next ((s.collClosed n id).putTally k.tally (((s.collClosed n id).tally k.tally).value + 1)) := by
  have htally' : (s.collClosed n id).tallyOf n k.tally = true :=
    (s.collClosed_keeps (·.tallyOf n k.tally) (fun _ _ => rfl) (fun _ _ => rfl) n id).trans htally
  have hgo : (s.works n && decide (k.results.length = k.needed)) = true := by rw [hworks, decide_eq_true hdone]; rfl
  unfold State.collClosed at htally' ⊢
  unfold execCollectiveComplete
  simp only [hopen, hgo, htally', if_true]

theorem State.completed_effect (s : State) (n i : Nat) (id : BitVec 32) (v : Word) {t : State}
    (ht : (s.collClosed n id).putTally i v = t) :
    (t.tally i).value = v ∧ (∀ j, j ≠ i → t.tally j = s.tally j) ∧ (t.crew n).coll id = none ∧ s.sameMemory t := by
  subst ht
  have hput {γ : Type} (p : State → γ) (hregs : ∀ s x, p (State.setRegs s x) = p s) (hcores : ∀ s x, p (State.setCores s x) = p s)
      (htallies : ∀ s x, p (State.setTallies s x) = p s) : p ((s.collClosed n id).putTally i v) = p (s.collClosed n id) :=
    (State.CoreView.of_blind hregs hcores).putTally _ htallies i v
  refine ⟨State.value_putTally _ _ _, fun j hj => ?_, ?_, State.sameMemory_of_eq ?_⟩
  · rw [State.tally_putTally_ne _ hj, State.collClosed_keeps (·.tally j) (fun _ _ => rfl) fun _ _ => rfl]
  · rw [hput (·.crew n) (fun _ _ => rfl) (fun _ _ => rfl) fun _ _ => rfl, State.coll_collClosed]
  · rw [hput State.memory (fun _ _ => rfl) (fun _ _ => rfl) fun _ _ => rfl,
      State.collClosed_keeps State.memory (fun _ _ => rfl) fun _ _ => rfl]

/-! ### Abort (12 R306) -/

/-- To name collectives by their identifiers is to name them. -/
theorem filter_not_named (named : BitVec 32 → Bool) (cs : List Coll) :
    (cs.filter fun c => !((cs.filter fun c => named c.id).map fun c => c.id).elem c.id) = cs.filter fun c => !named c.id := by
  refine List.filter_congr fun c hc => congrArg _ ?_
  rw [Bool.eq_iff_iff, List.elem_iff, List.mem_map]
  refine ⟨fun ⟨o, ho, hid⟩ => hid ▸ (List.mem_filter.mp ho).2, fun hnamed => ⟨c, List.mem_filter.mpr ⟨hc, hnamed⟩, rfl⟩⟩

/-- An abort changes crews, links and what LNK_COLL shows. -/
theorem State.abortColls_keeps (p : State → β) (hregs : ∀ s x, p (State.setRegs s x) = p s)
    (hcrews : ∀ s x, p (State.setCrews s x) = p s) (hlinks : ∀ s x, p (State.setLinks s x) = p s) (s : State) (n : Nat)
    (named : BitVec 32 → Bool) : p (s.abortColls n named) = p s := by
  unfold State.abortColls
  extract_lets ids marked mine gone dropped
  have hdropped : p dropped = p s := by
    refine (State.each_keeps _ p _ _ fun s l => ?_).trans (hcrews s _)
    exact (State.each_keeps _ p _ _ fun s x => State.leaveSlot_keeps s p hlinks _ _ _ _).trans (hlinks s _)
  split
  · rfl
  · exact (hregs _ _).trans hdropped

/-- Of the crew's collectives the named ones go. -/
theorem State.colls_abortColls (s : State) (n : Nat) (named : BitVec 32 → Bool) :
    ((s.abortColls n named).crew n).colls = (s.crew n).colls.filter fun c => !named c.id := by
  unfold State.abortColls
  extract_lets ids marked mine gone dropped
  have hnamed : ((s.crew n).colls.filter fun c => !ids.elem c.id) = (s.crew n).colls.filter fun c => !named c.id :=
    filter_not_named named _
  have hdropped : (dropped.crew n).colls = (s.crew n).colls.filter fun c => !ids.elem c.id := by
    refine (State.each_keeps marked (fun u => (u.crew n).colls) _ _ fun s l => ?_).trans ?_
    · exact (State.each_keeps _ (fun u => (u.crew n).colls) _ _ fun s x =>
        State.leaveSlot_keeps s (fun u => (u.crew n).colls) (fun _ _ => rfl) _ _ _ _).trans rfl
    · exact congrArg Crew.colls (s.crew_modCrew_same n _)
  rw [← hnamed]
  split
  · next hnone =>
    rw [hnone]
    exact (List.filter_eq_self.mpr fun _ _ => rfl).symm
  · exact (State.setFld_keeps dropped (fun u => (u.crew n).colls) (fun _ _ => rfl) _ _ _).trans hdropped

/-- The state in which a crew has been told to stop by a notice. -/
def State.stopFor (s : State) (c : Nat) (a : AbortNotice) : State :=
  s.stopCrew c { bStop := s.nextStroke, target := a.x, hold := true, releaseAt := a.y }

/-- The state in which an authentic notice has been obeyed: the crew stops by it and is held. -/
def State.abortObeyed (s : State) (c : Nat) (a : AbortNotice) : State :=
  ((s.abortColls c fun id => a.allOpen || decide (id = a.collId)).crewFault c 6 0x0605 0).stopFor c a

theorem State.hold_stopCrew (s : State) (c : Nat) {st : Stop} (hhold : st.hold = true) :
    ∃ st', ((s.stopCrew c st).crew c).stop = some st' ∧ st'.hold = true := by
  rw [State.stopCrew, State.crew_modCrew_same]
  refine ⟨_, rfl, ?_⟩
  dsimp only
  split
  · rw [Stop.meet]
    dsimp only
    rw [hhold, Bool.or_true]
  · exact hhold

theorem State.abortObeyed_effect (s : State) (c : Nat) (a : AbortNotice) :
    ((s.abortObeyed c a).crew c).colls = (s.crew c).colls.filter (fun k => !(a.allOpen || decide (k.id = a.collId)))
      ∧ s.records (s.abortObeyed c a) 6 2 0x0605 ∧ (∃ st, ((s.abortObeyed c a).crew c).stop = some st ∧ st.hold = true)
      ∧ (s.abortObeyed c a).memoryAndTallies = s.memoryAndTallies := by
  have hcolls := s.colls_abortColls c fun id => a.allOpen || decide (id = a.collId)
  have hflt := s.abortColls_keeps State.flt (fun _ _ => rfl) (fun _ _ => rfl) (fun _ _ => rfl) c
    fun id => a.allOpen || decide (id = a.collId)
  have hmem := s.abortColls_keeps State.memoryAndTallies (fun _ _ => rfl) (fun _ _ => rfl) (fun _ _ => rfl) c
    fun id => a.allOpen || decide (id = a.collId)
  unfold State.abortObeyed
  generalize s.abortColls c (fun id => a.allOpen || decide (id = a.collId)) = u at hcolls hflt hmem
  obtain ⟨hrecords, -, -, hjob⟩ := u.crewFault_effect c 6 0x0605 0
  have hview := State.ReportView.of_crew c
  have hsame : (((u.crewFault c 6 0x0605 0).stopFor c a).crew c).uncharged = (u.crew c).uncharged :=
    (hview.stopCrew _ _ _).trans (hview.raiseFault u _)
  refine ⟨?_, State.records_congr hflt (State.records_of_flt rfl hrecords), State.hold_stopCrew _ _ rfl, ?_⟩
  · rw [← hcolls]
    exact (congrArg Crew.colls hsame :)
  · rw [State.stopFor, State.stopCrew_keeps _ State.memoryAndTallies (fun _ _ => rfl), (Prod.mk.inj hjob).1, hmem]

theorem execAbortNotice_authentic {a : AbortNotice} (hcrew : s.crewOfTag a.jobTag.toNat = some c) (hauth : a.authentic = true) :
    execAbortNotice a s = .next (s.abortObeyed c a) := by
  unfold execAbortNotice
  simp only [hcrew, hauth, Bool.not_true, Bool.false_eq_true, if_false]
  rfl

end Sys2Proof.Machine

namespace Sys2Proof.Proofs
open Sys2Proof.Machine

/-- Settles O32: from its opening on, a collective's progress changes neither what it is nor LNK_COLL nor the tallies; a flit's slot
gives its credit back or withholds it, and the flit's content comes apart from its header (both assumption log 31); to name
collectives by their identifiers is to name them. -/
theorem collectivesOpenProgressAndEnd : Obligations.CollectivesOpenProgressAndEnd := by
  intro s
  refine ⟨?opens, ?flits, ?completes, ?aborts⟩
  case opens =>
    intro c n slot q d _ hn hready hstarted hport hop hgood hrows hsrc hclean hpre desc k hfits x hx hkop
    obtain ⟨y, hstart⟩ := State.startColl_eq hready hstarted hport hop hgood hrows hsrc hclean hpre (k := k) rfl hfits hkop
    obtain ⟨hqueue, ⟨o, ho, hshape⟩, hopen, htallies⟩ := State.startColl_effect hn s q y k (State.room_of_fits hfits) hstart.symm
    simp only [Coll.shape, Prod.mk.injEq] at hshape
    exact ⟨_, exec_collCmds hx, hqueue, ⟨o, ho, hshape⟩, hopen, htallies⟩
  case flits =>
    intro l n f h rest _ _ hheader hnone
    refine ⟨?aborted, fun haborted hclosed => ?held,
      fun k v e haborted hopen hworks hop hresult hvals hfirst hplain hclean hloud => ?taken⟩
    case aborted =>
      intro haborted credits
      obtain ⟨hempty, hhdrs, hcredits, hcount, hjob⟩ := s.dropped_effect l n rest rfl
      obtain ⟨hmem, htallies⟩ := State.sameMemory_tallies_of_eq hjob
      exact ⟨_, execCollPartial_aborted hheader haborted, hempty.trans hnone, hhdrs, hcredits, hcount, hmem, htallies⟩
    case held =>
      have hexec := execCollPartial_held hheader haborted
      have hheld := s.rxColl_collHeld l rest { crew := n, stroke := h.2, flit := f } hnone
      rw [State.drainColl_closed hheld hclosed] at hexec
      obtain ⟨hjob, hregs⟩ := Prod.mk.inj <| s.collHeld_keeps (fun t => (t.memoryAndTallies, t.regs)) (fun _ _ => rfl) l rest
        { crew := n, stroke := h.2, flit := f }
      obtain ⟨hmem, htallies⟩ := State.sameMemory_tallies_of_eq hjob
      exact ⟨_, hexec, hheld, hmem, State.regsBut_of_regs_eq hregs [], htallies⟩
    case taken =>
      obtain ⟨t, hexec, hempty, ⟨k2, hk2, hwritten⟩, hin, hout, -, htallies, -⟩ :=
        execCollPartial_gathered hheader hnone haborted hopen hworks hop hresult hvals hfirst hplain hclean hloud
      rw [length_natLe] at hin hout
      refine ⟨t, k2, hexec, hempty, hk2, hwritten, htallies, fun j hj => ?_, fun a ha => hout a ?_⟩
      · rw [List.getD_eq_getElem?_getD, ← hin j hj]
        rfl
      · rwa [Nat.add_assoc, ← Nat.succ_mul]
  case completes =>
    intro n id k _ hopen hworks hdone htally
    obtain ⟨hvalue, hothers, hclosed, hmem⟩ := s.completed_effect n k.tally id _ rfl
    have hold : ((s.collClosed n id).tally k.tally).value = (s.tally k.tally).value :=
      s.collClosed_keeps (fun t => (t.tally k.tally).value) (fun _ _ => rfl) (fun _ _ => rfl) n id
    exact ⟨_, execCollectiveComplete_due hopen hworks hdone htally, hvalue.trans (congrArg (· + 1) hold), hothers, hclosed, hmem⟩
  case aborts =>
    intro a c hcrew
    refine ⟨fun hauth => ?_, fun hforged => ?_⟩
    · obtain ⟨hcolls, hrecords, hstop, hjob⟩ := s.abortObeyed_effect c a
      obtain ⟨hmem, htallies⟩ := State.sameMemory_tallies_of_eq hjob
      exact ⟨_, execAbortNotice_authentic hcrew hauth, hcolls, hrecords, hstop, htallies, hmem⟩
    · show execAbortNotice a s = .next s
      simp only [execAbortNotice, hcrew, hforged, Bool.not_false, if_true]

end Sys2Proof.Proofs
end
